-- ==== Sys2Proof/Word.lean ====
section
/-!
DEFINITION. The word types of the Slago model (R4: bit 0 is the least significant bit, multi-byte fields are
little-endian) and a sparse map in one canonical form.
-/
namespace Sys2Proof

/-- One byte. -/
abbrev Byte := BitVec 8
/-- A 16-bit status or attention code (R8). -/
abbrev Code := BitVec 16
/-- A 32-bit word; also the bit pattern of an FP32 value. -/
abbrev W32 := BitVec 32
/-- A 64-bit word: one register (R5), one memory word (R32), one pool address (R31). -/
abbrev W64 := BitVec 64

/-- A sparse map from natural numbers: keys strictly rising, no entry equal to the default of its key. -/
abbrev SMap (α : Type) := List (Nat × α)

namespace SMap

/-- The value at `k`; `d` where the map lists none. -/
def get {α : Type} (d : α) : SMap α → Nat → α
  | [], _ => d
  | (k, v) :: r, q => if k = q then v else get d r q

/-- Remove the entry at `q`, if there is one. -/
def erase {α : Type} : SMap α → Nat → SMap α
  | [], _ => []
  | (k, v) :: r, q => if k = q then r else (k, v) :: erase r q

/-- Put an entry at `q` into a list with rising keys. -/
def insert {α : Type} : SMap α → Nat → α → SMap α
  | [], q, x => [(q, x)]
  | (k, v) :: r, q, x =>
    if q < k then (q, x) :: (k, v) :: r
    else if q = k then (q, x) :: r
    else (k, v) :: insert r q x

/-- Set the value at `q`: writing the default removes the entry, so that equal maps are equal data. -/
def set {α : Type} [DecidableEq α] (d : α) (m : SMap α) (q : Nat) (x : α) : SMap α :=
  if x = d then erase m q else insert m q x

/-- Keys strictly rising, all above `b`. -/
def risingFrom {α : Type} : Nat → SMap α → Bool
  | _, [] => true
  | b, (k, _) :: r => decide (b ≤ k) && risingFrom (k + 1) r

/-- The canonical form: rising keys, no entry equal to the default `d`. -/
def wf {α : Type} [DecidableEq α] (d : α) (m : SMap α) : Bool :=
  risingFrom 0 m && m.all (fun e => decide (e.2 ≠ d))

end SMap

end Sys2Proof
end

