-- ==== Sys2Proof/Syntax.lean ====
section
/-!
DEFINITION. The commands of the Slago: one constructor of `Instr` per row of spec/opcode_table.json, with the
operands that come from outside the block (a message, a packet, a measurement, a unit's number).
-/
namespace Sys2Proof

/-- The role of a session (R2, R354). -/
inductive Role where
  | operator
  | keeper
deriving DecidableEq, Repr

/-- What a protected Odren command carries beside its body (R348): the message passed its tag check.
`wellShaped` is false when its length or a reserved byte breaks the table of R351. -/
structure Hdr where
  session : W32
  seq : Nat
  mac : BitVec 48
  relayed : Bool
  wellShaped : Bool
deriving DecidableEq, Repr

/-- The HELLO command body of R354. -/
structure HelloMsg where
  role : Role
  attention : Bool
  nonce : List Byte
  x25519 : List Byte
  mlkem : List Byte
  mac : BitVec 48
  relayed : Bool
  wellShaped : Bool
deriving DecidableEq, Repr

/-- The PROVE command body of R354. -/
structure ProveMsg where
  key : Fin 4
  edPublic : List Byte
  mlPublic : List Byte
  edSignature : List Byte
  mlSignature : List Byte
deriving DecidableEq, Repr

/-- Why the port discards a frame (R347, R353). -/
inductive FrameFault where
  | badFcs
  | otherEtherType
  | otherAddress
  | badTag
deriving DecidableEq, Repr

/-- One argument entry of RUN, 32 bytes (R61). -/
structure ArgEntry where
  slot : Nat
  kind : Nat
  region : Nat
  a : W64
  b : W64
  c : W64
deriving DecidableEq, Repr

/-- The RUN argument block (R61). -/
structure RunBlock where
  run : W32
  pipeline : Nat
  priority : Nat
  completion : W64
  entries : List ArgEntry
deriving DecidableEq, Repr

/-- The frame header of R139, 32 bytes. -/
structure FrameHdr where
  stream : Nat
  format : Nat
  frameSeq : W32
  capture : Nat
  width : Nat
  height : Nat
  bytes : Nat
  crc : W32
  reservedZero : Bool
deriving DecidableEq, Repr

/-- A live frame that has arrived whole; `poison` says that a word of its payload carries the poison bit. -/
structure Frame where
  hdr : FrameHdr
  payload : List Byte
  poison : Bool
deriving DecidableEq, Repr

/-- What the Warden's balance of one shard map looks at (R244): the map, and the requests for its rows that each device has
served in the last 100 ms. -/
structure MapServed where
  map : BitVec 4
  counts : List (BitVec 20 × Nat)
deriving DecidableEq, Repr

/-- The bundle header of R232 without TYPE and COUNT: the command names the type, the list of entries the count. -/
structure BundleHdr where
  source : BitVec 20
  table : Nat
  lastPart : Bool
  forwarded : Bool
  op : Nat
  create : Bool
  update : Bool
  requester : BitVec 20
  round : Nat
  mapVersion : W32
  part : Nat
  run : W32
deriving DecidableEq, Repr

/-- One entry of a bundle (R232): each TYPE uses the fields its body has. `position` and `device` are the change
of the map that a REDIRECT names (R234). -/
structure Entry where
  id : W64
  status : Nat
  index : Nat
  version : W32
  scale : W32
  hot : Bool
  row : List Byte
  values : List W32
  position : Nat
  device : BitVec 20
deriving DecidableEq, Repr

/-- The packet header of R329 and the body length; `kind` and `class` are the codes of its tables. -/
structure PacketHdr where
  dest : BitVec 20
  source : BitVec 20
  cls : BitVec 2
  vc : Bool
  sourceRouted : Bool
  more : Bool
  hopsLeft : Nat
  kind : Nat
  length : Nat
  tag : Nat
  inject : W32
  route : List Nat
  pos : Nat
  routeLen : Nat
deriving DecidableEq, Repr

/-- A packet: header and body bytes (R329). -/
structure Packet where
  hdr : PacketHdr
  body : List Byte
deriving DecidableEq, Repr

/-- A flit, 256 bytes (R320), with its CRC field as it stands; `fecBad` counts the codewords that the FEC could not
correct in it. -/
structure Flit where
  seq : BitVec 12
  kind : BitVec 2
  ack : BitVec 12
  creditA : Option (BitVec 2 × Bool × Nat)
  creditB : Option (BitVec 2 × Bool × Nat)
  cls : BitVec 2
  vc : Bool
  first : Bool
  data : List Byte
  crc : W32
  fecBad : Nat
deriving DecidableEq, Repr

/-- LINK_INIT (R326). -/
structure LinkInitBody where
  device : BitVec 20
  link : Fin 64
  epoch : Byte
  epochMin : Byte
  epochMax : Byte
  credits : List Nat
  standby : Bool
deriving DecidableEq, Repr

/-- What training found on one link (R325): the transmit lanes shorted, the receive lanes open, the receive lanes
inverted, and whether the lanes were swapped. -/
structure LaneSense where
  short0 : Bool
  short1 : Bool
  open0 : Bool
  open1 : Bool
  invert0 : Bool
  invert1 : Bool
  swapped : Bool
deriving DecidableEq, Repr

/-- The RELAY packet body and RELAYED message body (R360). -/
structure RelayBody where
  device : BitVec 20
  hops : Nat
  toDevice : Bool
  mac : BitVec 48
  inner : List Byte
deriving DecidableEq, Repr

/-- A shard map as JOIN carries it (R225, R398). -/
structure MapRecord where
  map : Nat
  version : W32
  devices : List (BitVec 20)
deriving DecidableEq, Repr

/-- A memory unit with a port of its own: a vault or an LPDDR6 channel. -/
inductive MemUnit where
  | vault (v : Fin 192)
  | channel (ch : Fin 32)
deriving DecidableEq, Repr

/-- A unit that can leave service (R422, the unit kinds of R434), by logical number. -/
inductive HwUnit where
  | core (n : Fin 192)
  | engine (n : Fin 192) (e : Fin 4)
  | column (n : Fin 192) (e : Fin 4)
  | cluster (c : Fin 12)
  | vault (v : Fin 192)
  | patternEngine (c : Fin 12)
  | compressionEngine (c : Fin 12) (e : Fin 2)
  | jpegDecoder (c : Fin 12) (d : Fin 4)
  | pyramidUnit (c : Fin 12)
  | channel (ch : Fin 32)
  | supervisor
  | sensor (i : Fin 64)
deriving DecidableEq, Repr

/-- What the exchange unit saw when a round closed (R230). -/
inductive CloseCause where
  | gathered
  | idsReached
  | noFurtherTask
deriving DecidableEq, Repr

/-- Why a link leaves service (R321). -/
inductive DownReason where
  | eightNaks
  | noProgress
  | lossOfSignal
deriving DecidableEq, Repr

/-- The causes of a POWER_ON reset (R372). -/
inductive PowerOnCause where
  | input48V
  | pwrgoodRise
  | resetHeld
deriving DecidableEq, Repr

/-- JTAG instructions (R458). -/
inductive JtagInstr where
  | idcode
  | bypass
  | extest
  | extestPulse
  | extestTrain
  | grenogPrivate (n : Nat)
deriving DecidableEq, Repr

/-- A counter of a bank (R403): the global bank or a cluster's. -/
inductive CounterRef where
  | global (i : Fin 64)
  | cluster (c : Fin 12) (i : Fin 16)
deriving DecidableEq, Repr

/-- Why a message is invalid before its body is looked at (R348, R351). -/
inductive BadMessage where
  | unknownType
  | badVersion
deriving DecidableEq, Repr

/-- What moved at a port since the last sample: bytes by port number (R411). -/
abbrev PortBytes := List (Nat × Nat)

/-- The commands. Each constructor is one row of the table; its docstring gives the rule the row cites. -/
inductive Instr where
  -- Odren sessions and messages
  | hello (m : HelloMsg)
  | prove (h : Hdr) (m : ProveMsg)
  | close (h : Hdr)
  | sessionOpenTimeout (slot : Fin 8)
  | sessionIdleTimeout (slot : Fin 8)
  | odrenFrameDiscard (why : FrameFault)
  | readReg (h : Hdr) (addr : W64) (count : Nat)
  | writeReg (h : Hdr) (addr : W64) (words : List W64)
  | run (h : Hdr) (b : RunBlock)
  | cancel (h : Hdr) (run : W32)
  | query (h : Hdr) (run : W32)
  | rowWrite (h : Hdr) (table : Nat) (id : W64) (scale : W32) (row : List Byte)
  | poolRead (h : Hdr) (addr : W64) (len : Nat)
  | poolWrite (h : Hdr) (addr : W64) (data : List Byte)
  | watchSet (h : Hdr) (addr : W64)
  | watchClear (h : Hdr) (addr : W64)
  | erase (h : Hdr) (slot : Fin 2) (offset : Nat) (len : Nat)
  | program (h : Hdr) (slot : Fin 2) (offset : Nat) (data : List Byte)
  | finalResponse (slot : Fin 8) (seq : Nat)
  | timeQuery (h : Hdr) (t1 : Nat)
  | timeSet (h : Hdr) (step : Bool) (value : Nat)
  | timeAdjust (h : Hdr) (step : Bool) (value : Int)
  | soft (h : Hdr)
  | quickRepitch (h : Hdr)
  | coldRepitch (h : Hdr)
  | attnAck (h : Hdr)
  | attnFirstSend (slot : Fin 8)
  | attnResend (slot : Fin 8) (seq : Nat)
  | portDown
  | portUp
  | crossedFibre
  | relay (link : Fin 64) (b : RelayBody)
  | relayed (mac : BitVec 48) (b : RelayBody)
  -- dispatcher and operators
  | taskDispatch
  | scan (task : Nat)
  | filter (task : Nat)
  | project (task : Nat)
  | hash (task : Nat)
  | bucket (task : Nat)
  | normalise (task : Nat)
  | stats (task : Nat)
  | statsMerge (runSlot : Fin 64) (stage : Fin 64)
  | partition (task : Nat)
  | joinBuild (task : Nat)
  | joinProbe (task : Nat)
  | dictJoin (task : Nat)
  | gather (task : Nat)
  | scatter (task : Nat)
  | lookup (task : Nat)
  | update (task : Nat)
  | decode (task : Nat)
  | parse (task : Nat)
  | pyramid (task : Nat)
  | compress (task : Nat)
  | decompress (task : Nat)
  | model (task : Nat)
  | batch (task : Nat)
  | emit (task : Nat)
  | batchTimeout (runSlot : Fin 64) (stage : Fin 64)
  | stragglerDefer (task : Nat)
  | stragglerAbandon (task : Nat)
  | readIndexUpdate (runSlot : Fin 64) (arg : Fin 64) (value : W64) (poison : Bool)
  | cancelApply (runSlot : Fin 64)
  | taskStop (task : Nat)
  | admission (f : Frame)
  | frameNoRun (f : Frame)
  | weightLoad (graph : Fin 256)
  -- match store
  | mstWrite (h : Hdr) (table : BitVec 4) (addr : BitVec 19)
  | mstInsert (h : Hdr) (table : BitVec 4) (addr : BitVec 19)
  | mstRemove (h : Hdr) (table : BitVec 4) (addr : BitVec 19)
  | mstRead (h : Hdr) (table : BitVec 4) (addr : BitVec 19)
  | mstSearch (h : Hdr) (table : BitVec 4)
  | mstOpHead (table : Fin 16)
  | shiftMove (table : Fin 16)
  | shiftEnd (table : Fin 16)
  | searchGrant
  | mstTempSample (temp : Nat)
  | mstScrubVisit (block : Fin 64) (index : Fin 8192)
  | blockRetire (block : Fin 64)
  | spareSwap (block : Fin 64)
  | shadowRebuilt (block : Fin 64)
  -- pattern streams
  | streamSuspend (cluster : Fin 12) (stream : Fin 16)
  | streamResume (cluster : Fin 12) (task : Nat)
  -- exchange
  | roundClose (round : Fin 16) (cause : CloseCause)
  | roundTimeout (round : Fin 16)
  | lookupReq (b : BundleHdr) (ids : List Entry)
  | lookupResp (b : BundleHdr) (es : List Entry)
  | updateReq (b : BundleHdr) (es : List Entry)
  | updateAck (b : BundleHdr) (es : List Entry)
  | forwardReq (b : BundleHdr) (es : List Entry)
  | forwardResp (b : BundleHdr) (es : List Entry)
  | hotPush (b : BundleHdr) (es : List Entry)
  | hotInvalidate (b : BundleHdr) (es : List Entry)
  | hotAck (b : BundleHdr)
  | hotDecay
  | migrate (h : Hdr) (position : BitVec 16) (map : BitVec 4) (newOwner : BitVec 20)
  | migrateForce (h : Hdr) (position : BitVec 16) (map : BitVec 4) (newOwner : BitVec 20)
  | autoMigrateCheck (served : MapServed)
  | migrateRows (b : BundleHdr) (es : List Entry)
  | migrateAck (b : BundleHdr) (lastId : W64)
  | mapUpdate (b : BundleHdr) (position : Nat) (device : BitVec 20) (version : W32)
  | forwardingEnd (slot : Fin 8)
  | migrateFree (slot : Fin 8)
  | migrationTimeout (slot : Fin 8)
  | endOfBuild (b : BundleHdr)
  | partitionRows (b : BundleHdr) (stage : Nat) (rows : List (List (List Byte × Bool × Bool)))
  -- tether
  | flitReceive (link : Fin 64) (f : Flit)
  | ackTimer (link : Fin 64)
  | linkDown (link : Fin 64) (why : DownReason)
  | linkTrain (link : Fin 64) (lanes : LaneSense)
  | trainingFailed (link : Fin 64) (step : Fin 7)
  | trainingRetry (link : Fin 64)
  | linkInit (link : Fin 64) (b : LinkInitBody)
  | retrain (h : Hdr) (link : Fin 64)
  | sendResetRetrain (h : Hdr) (link : Fin 64)
  | sendResetWarm (h : Hdr) (link : Fin 64)
  | linkResetRetrain (link : Fin 64)
  | linkResetWarm (link : Fin 64)
  | packetReceive (arrival : Option (Fin 64)) (p : Packet)
  | packetDequeue (link : Fin 64) (cls : BitVec 2) (vc : Bool)
  | tthRouteWrite (h : Hdr) (entry : Fin 4096) (word0 : W64) (word1 : W64)
  | fence (link : Fin 64) (old : Fin 64)
  | fenceAck (link : Fin 64) (old : Fin 64) (seq : BitVec 12)
  | fenceTimeout (old : Fin 64)
  | poolReadReq (source : BitVec 20) (tag : Nat) (addr : W64) (len : Nat)
  | poolReadResp (source : BitVec 20) (tag : Nat) (status : Code) (data : List Byte)
  | poolWritePacket (source : BitVec 20) (tag : Nat) (addr : W64) (data : List Byte) (poison : List Nat)
  | poolWriteAck (source : BitVec 20) (tag : Nat) (status : Code)
  | poolTimeout (tag : Nat)
  | watchNotify (source : BitVec 20) (addr : W64) (value : W64) (poison : Bool)
  | timeSyncTimer
  | timeSync (link : Fin 64) (answer : Bool) (t1 t2 t3 : Nat) (stratum : Nat)
  | departed (link : Fin 64) (device : BitVec 20) (number : Nat)
  | joinRequest (link : Fin 64) (device : BitVec 20) (departure : Nat) (versions : List W32)
  | joinReply (link : Fin 64) (device : BitVec 20) (departure : Nat) (maps : List MapRecord)
  | joinWaitExpiry
  -- memory maintenance
  | scrubRead (u : MemUnit)
  | scrubForcedTurn (u : MemUnit)
  | mirrorRebuilt (u : MemUnit)
  | vaultRefresh (v : Fin 192) (temp : Nat)
  | lpddr6Refresh (ch : Fin 32) (rate : BitVec 4)
  -- power
  | clusterShade (c : Fin 12)
  | clusterWake (c : Fin 12)
  | censusWindow
  | logEnable (h : Hdr) (value : W64)
  | engineRelease (h : Hdr) (c : Fin 12) (e : Fin 2)
  | bankRequest (h : Hdr) (force : Bool) (alarmMs : W32)
  | douseRequest (h : Hdr) (force : Bool) (alarmMs : W32)
  | alarm
  | pwsClusterReset (h : Hdr) (c : Fin 12)
  | clusterLit (c : Fin 12)
  | watchdogExpiry
  | warmPin
  | powerOn (why : PowerOnCause)
  | pwrgoodFall
  | lossOf48V
  | inputSwitchRetry (shorted : Bool)
  -- pitching and trust
  | slotCheck (h : Hdr) (slot : Fin 2)
  | nextSlot (h : Hdr) (value : BitVec 2)
  | rollbackCommit (h : Hdr)
  | enroll (h : Hdr) (position : Fin 4)
  | revoke (h : Hdr) (position : Fin 4)
  | quoteGo (h : Hdr)
  | certificateLoad (h : Hdr)
  | quoteReady
  -- faults and redundancy
  | probe (missed : List HwUnit)
  | unitFailed (u : HwUnit)
  | coreReplace (n : Fin 192)
  | vaultReplace (v : Fin 192)
  | clusterReplace (c : Fin 12)
  | unitClear (h : Hdr)
  | logClear (h : Hdr)
  | governorFastCheck (watts : Nat)
  | governorCheck (watts : Nat) (temps : List Nat)
  | clusterHold (c : Fin 12) (sensor : Fin 64) (temp : Nat)
  | clusterHoldRelease (c : Fin 12) (temp : Nat)
  | thermalTrip (sensor : Fin 64) (temp : Nat)
  -- counters
  | pmcWindow
  | counterOverflow (r : CounterRef)
  | counterWrite (h : Hdr) (r : CounterRef) (value : BitVec 48)
  | energySample (microjoules : Nat)
  | tdTest (h : Hdr) (clusters : BitVec 12)
  | tdOff (h : Hdr)
  -- management bus and module
  | mgmtReadReg (addr : W64)
  | wake
  | douse
  | enrollFirst (position : Nat) (digest : List Byte)
  | mgmtStatus
  | mgmtStuck
  | mgmtReconnect
  | moduleSample (inlet outlet : Nat) (millivolts milliamps watts : Nat)
  | jtagInstruction (code : JtagInstr)
  | pitchCopyRewrite
  | modThermN (temps : List Nat)
  | linkDisable (h : Hdr) (link : Fin 64) (enable : Bool)
  | messageInvalid (h : Hdr) (why : BadMessage)
  | rowWriteForwarded (source : BitVec 20) (tag : Nat) (table : Nat) (id : W64) (scale : W32) (row : List Byte)
  | watchRegisteredAtOwner (source : BitVec 20) (addr : W64) (remove : Bool)
  | dynamicAddress
deriving DecidableEq, Repr

end Sys2Proof
end

