-- ==== Sys2Proof/Config.lean ====
section
/-!
DEFINITION. What an implementation fixes and what the manual leaves open: constants with no body. Draws take the
state's `free` counter; the functions of external standards (log entry 6) take their inputs. No proof can see a
value of any of them.
-/
namespace Sys2Proof.Config

/-- An order or a choice the Slago is free to make (R18, R46, R103, R121, R172, R236, R295). -/
opaque choice : Nat → Nat
/-- A 64-bit value the manual leaves open. -/
opaque word : Nat → W64
/-- A 32-bit value the manual leaves open. -/
opaque word32 : Nat → W32
/-- A byte string the manual leaves open, such as a nonce (R354). -/
opaque bytes : Nat → Nat → List Byte
/-- A yes or no the manual leaves open. -/
opaque coin : Nat → Bool
/-- Whether the rate correction of R352 moves the time by one nanosecond in this period (at most 500 ppm). -/
opaque slewNow : Nat → Bool

/-! External standards (R9): named by the manual, defined elsewhere. -/

/-- SHA-512 (FIPS 180-4). -/
opaque sha512 : List Byte → List Byte
/-- Ed25519 verification (RFC 8032): public key, message, signature. -/
opaque ed25519Verify : List Byte → List Byte → List Byte → Bool
/-- ML-DSA-65 verification in pure form with an empty context (FIPS 204). -/
opaque mldsaVerify : List Byte → List Byte → List Byte → Bool
/-- Ed25519 signature by the device identity key (R400). -/
opaque ed25519Sign : List Byte → List Byte
/-- ML-DSA-65 signature by the device identity key (R400); randomised, hence the draw. -/
opaque mldsaSign : Nat → List Byte → List Byte
/-- The public identity keys, Ed25519 then ML-DSA-65 (R388, R400). -/
opaque identityKeys : List Byte
/-- The digests of the four Grenog key pairs in the boot ROM (R388). -/
opaque grenogDigest : Nat → List Byte
/-- The device's X25519 public key of one exchange, and the shared secret with the node's key (RFC 7748). -/
opaque x25519Public : Nat → List Byte
opaque x25519Shared : Nat → List Byte → List Byte
/-- ML-KEM-768 ciphertext and shared secret of one exchange for the node's key (FIPS 203). -/
opaque mlkemCipher : Nat → List Byte → List Byte
opaque mlkemShared : Nat → List Byte → List Byte

/-- Whether the entropy-coded scans of a JPEG decode (ISO/IEC 10918-1), and the samples they give, by index. -/
opaque jpegGood : List Byte → Bool
opaque jpegSample : List Byte → Nat → Byte
/-- The codec of a Parquet page, numbered as Parquet numbers them; R129 and R130 give no place that names it. -/
opaque pageCodec : List Byte → Nat
/-- The compressor's hash of three bytes (R255). -/
opaque matchHash : List Byte → Nat
/-- How the encoder codes a block (R253, R259), given a draw, the block's number and its tokens, a literal as (0, byte)
and a copy as (length, distance): a dynamic DEFLATE block's bits, a compressed Zstandard block's bytes. -/
opaque dynamicBlock : Nat → Nat → List (Nat × Nat) → List Bool
opaque zstdBlock : Nat → Nat → List (Nat × Nat) → List Byte
/-- A fault of an engine in a job (R260): whether it strikes, and what is then emitted. -/
opaque engineErrs : Nat → Bool
opaque engineEmits : Nat → List Byte → List Byte

/-- Which of the two codes that R77 and R126 give comes for a column of a wrong type. -/
opaque typeConflict : Bool
/-- Entries of a hash-table bucket beyond eight: their layout is internal (R115). -/
opaque bucketExtra : Nat
/-- Which entries of the exact distribution a quantile sketch keeps (R102, R104): indices below the count. -/
opaque sketchPick : Nat → Nat → List Nat

/-- Whether a stage graph holds a copy record at an offset (R163 gives the record and no place for it). -/
opaque copyAt : List Byte → Nat → Bool
/-- The integer that a NaN is stored as in an integer format (R237 states none): format. -/
opaque nanInt : Nat → Nat
/-- Which of a chunk's columns fills a DATA tensor of a batch layout (R141, R387): layout, tensor. -/
opaque batchColumn : Nat → Nat → Nat

/-! Measurements and fixed facts of a module. -/

/-- Failures that shakedown finds (R397): unit kind of R434, physical cluster, physical unit. -/
opaque shakedown : Nat → List (Nat × Nat × Nat)
/-- LPDDR6 channels that fail training (R25, R51). -/
opaque badChannels : Nat → List Nat
/-- Durations: of a pitch in ms (R395, R396), of a wake in µs (R370). -/
opaque pitchMs : Nat → BitVec 16
opaque wakeUs : Nat → W32
/-- The cluster over which each thermal sensor lies, 12 for none, and its adjacent sensors (R365, R423). -/
opaque sensorCluster : Nat → Nat
opaque adjacent : Nat → List Nat
/-- The counter of a count-min sketch row that a row's requests add to (R242): sketch row, table, id. -/
opaque sketchSlot : Nat → Nat → W64 → Nat
/-- The gathering time the Warden sets (R230). -/
opaque gatherNs : Nat → Nat
/-- JTAG IDCODE (R458). -/
opaque idcode : W32

end Sys2Proof.Config
end

