-- ==== Sys2Proof/Machine/Bits.lean ====
section
/-!
DEFINITION. Bytes, bit fields and the small arithmetic that every family uses (R4: little-endian, bit 0 least).
-/
namespace Sys2Proof.Machine

/-- The number that bytes spell, least significant byte first (R4). -/
def leNat : List Byte → Nat
  | [] => 0
  | b :: r => b.toNat + 256 * leNat r

/-- `n` bytes of a number, least significant first (R4). -/
def natLe : Nat → Nat → List Byte
  | 0, _ => []
  | n + 1, v => BitVec.ofNat 8 v :: natLe n (v / 256)

/-- `n` elements from position `off`. -/
def slice {α : Type} (off n : Nat) (l : List α) : List α := (l.drop off).take n

/-- `n` zero bytes. -/
def zeros (n : Nat) : List Byte := List.replicate n 0

/-- Bytes made exactly `n` long: cut, or filled with zeros. -/
def fitTo (n : Nat) (l : List Byte) : List Byte := l.take n ++ zeros (n - l.length)

def u8 (l : List Byte) (off : Nat) : Nat := leNat (slice off 1 l)
def u16 (l : List Byte) (off : Nat) : Nat := leNat (slice off 2 l)
def u32 (l : List Byte) (off : Nat) : Nat := leNat (slice off 4 l)
def u64 (l : List Byte) (off : Nat) : Nat := leNat (slice off 8 l)

/-- Bits [msb:lsb] of a number. -/
def bitsOf (v msb lsb : Nat) : Nat := (v >>> lsb) % 2 ^ (msb + 1 - lsb)

/-- Bit `i` of a number. -/
def bitAt (v i : Nat) : Bool := (v >>> i) % 2 == 1

/-- Bits [msb:lsb] of a 64-bit word replaced by `x`. -/
def putBits (w : W64) (msb lsb x : Nat) : W64 :=
  let mask := (2 ^ (msb + 1 - lsb) - 1) <<< lsb
  (w &&& ~~~ (BitVec.ofNat 64 mask)) ||| BitVec.ofNat 64 ((x % 2 ^ (msb + 1 - lsb)) <<< lsb)

/-- A two's complement number of `w` bits. -/
def toSigned (w v : Nat) : Int :=
  if v % 2 ^ w < 2 ^ (w - 1) then (v % 2 ^ w : Int) else (v % 2 ^ w : Int) - 2 ^ w

/-- The `w` low bits of an integer. -/
def ofSigned (w : Nat) (i : Int) : Nat := (i % (2 ^ w : Int)).toNat

/-- Addition that stops at `cap`. -/
def satAdd (cap a b : Nat) : Nat := min cap (a + b)

/-- Division rounded up. -/
def ceilDiv (a b : Nat) : Nat := (a + b - 1) / b

/-- The next multiple of `b`. -/
def roundUp (a b : Nat) : Nat := ceilDiv a b * b

/-- Whether a value is a power of two. -/
def isPow2 (n : Nat) : Bool := n != 0 && 2 ^ Nat.log2 n == n

def b2n (b : Bool) : Nat := if b then 1 else 0

/-- Number of set bits among the low `n` bits. -/
def popcount : Nat → Nat → Nat
  | 0, _ => 0
  | n + 1, v => v % 2 + popcount n (v / 2)

/-- The set bits of `v` below `n`, lowest first. -/
def bitList (n v : Nat) : List Nat := (List.range n).filter (bitAt v)

/-- First index of `l` at which `p` holds. -/
def findIdxFrom {α : Type} (p : α → Bool) : Nat → List α → Option Nat
  | _, [] => none
  | i, x :: r => if p x then some i else findIdxFrom p (i + 1) r

/-- Replace the elements for which `p` holds. -/
def updWhere {α : Type} (p : α → Bool) (f : α → α) (l : List α) : List α :=
  l.map (fun x => if p x then f x else x)

/-- Insert into a list kept sorted under `le`, after the equals. -/
def insertBy {α : Type} (le : α → α → Bool) (x : α) : List α → List α
  | [] => [x]
  | y :: r => if le y x then y :: insertBy le x r else x :: y :: r

/-- Stable insertion sort. -/
def sortBy {α : Type} (le : α → α → Bool) (l : List α) : List α :=
  l.foldl (fun acc x => insertBy le x acc) []

/-- Elements cut into groups of `n`; `fuel` bounds the groups. -/
def chunksOf {α : Type} (n : Nat) : Nat → List α → List (List α)
  | 0, _ => []
  | fuel + 1, l => if l.isEmpty then [] else l.take n :: chunksOf n fuel (l.drop n)

/-- Value of a key in an association list. -/
def lookupD {α : Type} (d : α) : List (Nat × α) → Nat → α
  | [], _ => d
  | (k, v) :: r, q => if k = q then v else lookupD d r q

/-- Set a key of an association list. -/
def assocSet {α : Type} (l : List (Nat × α)) (k : Nat) (v : α) : List (Nat × α) :=
  (k, v) :: l.filter (fun e => e.1 != k)

/-- CRC over bytes, least significant bit first, with the reflected polynomial `poly` (R91, R320): one byte. -/
def crcByte (poly : Nat) : Nat → Nat → Nat
  | 0, c => c
  | n + 1, c => crcByte poly n (if c % 2 = 1 then (c / 2) ^^^ poly else c / 2)

/-- CRC-32C: the Castagnoli polynomial reflected, seed complemented at the start, complemented at the end (R91). -/
def crc32c (seed : W32) (bs : List Byte) : W32 :=
  let c := bs.foldl (fun c b => crcByte 0x82F63B78 8 (c ^^^ b.toNat)) (seed.toNat ^^^ 0xFFFFFFFF)
  BitVec.ofNat 32 (c ^^^ 0xFFFFFFFF)

/-- The words of a key: eight bytes at a time, the last padded with zeros (R92). -/
def keyWords (bs : List Byte) : List W64 :=
  (chunksOf 8 (bs.length + 1) bs).map (fun g => BitVec.ofNat 64 (leNat g))

/-- Cairn-64 (R92). -/
def cairn64 (seed : W64) (bs : List Byte) : W64 :=
  let k1 := 0xA3B195354A39B70D#64
  let k2 := 0x8EBC6AF09C88C6E3#64
  let k3 := 0xF1D73C6B2E954A87#64
  let h := seed ^^^ (BitVec.ofNat 64 bs.length * k1)
  let h := (keyWords bs).foldl (fun h w => (h ^^^ (w * k2)).rotateLeft 29 * k1) h
  let h := (h ^^^ (h >>> 32)) * k3
  h ^^^ (h >>> 29)

/-- The share of `n` buckets that a 64-bit hash selects (R93, R94, R332). -/
def hashBucket (h : W64) (n : Nat) : Nat := ((h.toNat >>> 32) * n) >>> 32

/-- Bits of an element type of R154; 0 for a code that names none. -/
def elemBits (t : Nat) : Nat :=
  if t = 1 ∨ t = 2 ∨ t = 3 then 4
  else if t = 4 ∨ t = 5 ∨ t = 6 ∨ t = 7 ∨ t = 18 then 8
  else if t = 8 ∨ t = 9 ∨ t = 10 then 16
  else if t = 11 ∨ t = 12 ∨ t = 13 then 32
  else if t = 14 ∨ t = 15 ∨ t = 16 then 64
  else if t = 17 then 1
  else 0

end Sys2Proof.Machine
end

