-- ==== Sys2Proof/Machine/Codes.lean ====
section
/-!
DEFINITION. The status, attention, pitching, creation and task codes of the blocks (R8; each block's code table).
-/
namespace Sys2Proof.Machine.C

/-- 0x0000: success (R8). -/
def OK : Code := 0x0000#16
def ADDRESS_UNMAPPED : Code := 0x01C0#16
def POISON_CREATED : Code := 0x01C1#16
def SCRUB_PERSISTENT : Code := 0x01C2#16
def MIRROR_REPAIRED : Code := 0x01C3#16
def MIRROR_LOST : Code := 0x01C4#16
def MIRROR_REBUILT : Code := 0x01C5#16
def POISON_LIST_FULL : Code := 0x01C6#16
def WATCH_TABLE_FULL : Code := 0x01C7#16
def ALIGNMENT : Code := 0x01C8#16
def WATCH_FIRED : Code := 0x01C9#16
def CHANNEL_UNAVAILABLE : Code := 0x0201#16
def CHANNEL_FAILED : Code := 0x0202#16
def CHANNEL_TRAINING_FAILED : Code := 0x0203#16
def RUN_NUMBER_INVALID : Code := 0x0301#16
def RUN_ACTIVE : Code := 0x0302#16
def PIPELINE_UNKNOWN : Code := 0x0303#16
def PRIORITY_CEILING : Code := 0x0304#16
def ARG_MISSING : Code := 0x0305#16
def ARG_KIND : Code := 0x0306#16
def ARG_RANGE : Code := 0x0307#16
def REGION_ACCESS : Code := 0x0308#16
def RING_INVALID : Code := 0x0309#16
def RING_BUSY : Code := 0x030A#16
def RUN_SLOTS_FULL : Code := 0x030B#16
def RUNS_HELD : Code := 0x030C#16
def RUN_NOT_ACTIVE : Code := 0x030D#16
def RUN_COMPLETE : Code := 0x030E#16
def CANCELLED : Code := 0x030F#16
def RUN_DONE : Code := 0x0310#16
def READ_INDEX_AHEAD : Code := 0x0311#16
def PIPELINE_INVALID : Code := 0x0312#16
def PARAM_INVALID : Code := 0x0101#16
def COLUMN_TYPE : Code := 0x0102#16
def COLUMN_CONFLICT : Code := 0x0103#16
def BOUNDARY_ORDER : Code := 0x0104#16
def KEY_TOO_WIDE : Code := 0x0105#16
def STATS_DEPENDENCY : Code := 0x0106#16
def STATS_MISSING : Code := 0x0107#16
def JOIN_SPACE : Code := 0x0108#16
def ORDER_SPAN : Code := 0x0109#16
def MAP_INVALID : Code := 0x010A#16
def OPERAND_POISON : Code := 0x010B#16
def SCHEMA_MISMATCH : Code := 0x0401#16
def CODEC_UNSUPPORTED : Code := 0x0402#16
def PAGE_CORRUPT : Code := 0x0403#16
def SCHEMA_TYPE : Code := 0x0404#16
def ING_PARAM : Code := 0x0405#16
def TIMEOUT_ORDERED : Code := 0x0406#16
def STREAM_UNKNOWN : Code := 0x0407#16
def STREAM_BOUND : Code := 0x0408#16
def TYPE_INVALID : Code := 0x0501#16
def RANK_INVALID : Code := 0x0502#16
def EXTENT_INVALID : Code := 0x0503#16
def INNER_ALIGN : Code := 0x0504#16
def OUTER_STRIDE : Code := 0x0505#16
def ZERO_STRIDE : Code := 0x0506#16
def SELF_OVERLAP : Code := 0x0507#16
def REGION_UNKNOWN : Code := 0x0508#16
def OUT_OF_REGION : Code := 0x0509#16
def SWIZZLE_INVALID : Code := 0x050A#16
def SCALE_INVALID : Code := 0x050B#16
def POLICY_INVALID : Code := 0x050C#16
def DESC_ARG : Code := 0x050D#16
def DESC_LIMIT : Code := 0x050E#16
def TYPE_PATH : Code := 0x050F#16
def COPY_SHAPE : Code := 0x0510#16
def BROADCAST_COPY : Code := 0x0511#16
def AXIS_INVALID : Code := 0x0512#16
def INDEX_TYPE : Code := 0x0513#16
def OVERLAP : Code := 0x0514#16
def INDEX_FAULT : Code := 0x0515#16
def INDEX_POISON : Code := 0x0516#16
def SCATTER_INTERRUPTED : Code := 0x0517#16
def TABLE_UNKNOWN : Code := 0x0601#16
def ENTRY_RANGE : Code := 0x0602#16
def TABLE_FULL : Code := 0x0603#16
def QUEUE_FULL : Code := 0x0604#16
def STAGE_INVALID : Code := 0x0605#16
def TABLE_LAYOUT : Code := 0x0606#16
def TABLE_WIDTH : Code := 0x0607#16
def SHADOW_OVERLAP : Code := 0x0608#16
def SHADOW_PROTECTED : Code := 0x0609#16
def OP_INVALID : Code := 0x060A#16
def OP_FAILED : Code := 0x0610#16
def ENTRY_LOST : Code := 0x0611#16
def BLOCK_RETIRED : Code := 0x0612#16
def SPARES_EXHAUSTED : Code := 0x0613#16
def THROTTLE_CHANGED : Code := 0x0614#16
def SHADOW_REBUILT : Code := 0x0615#16
def AUTOMATON_INVALID : Code := 0x0701#16
def AUTOMATON_SIZE : Code := 0x0702#16
def AUTOMATON_KIND : Code := 0x0703#16
def PREFILTER_TABLE : Code := 0x0704#16
def TEXT_SCHEMA : Code := 0x0705#16
def STREAM_SUSPENDED : Code := 0x0706#16
def EMB_PARAM : Code := 0x0801#16
def EMB_TABLE_INVALID : Code := 0x0802#16
def SHARD_MAP_INVALID : Code := 0x0803#16
def ROUND_TIMEOUT : Code := 0x0804#16
def PEER_LOST : Code := 0x0805#16
def ROW_MISSING : Code := 0x0806#16
def TABLE_SPACE : Code := 0x0807#16
def TABLE_REGION_PROTECTED : Code := 0x0808#16
def EMB_TABLE_UNKNOWN : Code := 0x0809#16
def ROW_SIZE : Code := 0x080A#16
def MIGRATE_BUSY : Code := 0x080B#16
def MIGRATE_REFUSED : Code := 0x080C#16
def ROW_POISON : Code := 0x080D#16
def MIGRATION_STARTED : Code := 0x0810#16
def MIGRATION_CUTOVER : Code := 0x0811#16
def MIGRATION_DONE : Code := 0x0812#16
def MIGRATION_ABORTED : Code := 0x0813#16
def SHARD_DEGRADED : Code := 0x0814#16
def CMP_PARAM : Code := 0x0901#16
def DICT_INVALID : Code := 0x0902#16
def OUTPUT_FULL : Code := 0x0903#16
def EXPANSION : Code := 0x0904#16
def WINDOW : Code := 0x0905#16
def VERIFY : Code := 0x0906#16
def CORRUPT : Code := 0x0907#16
def CHECKSUM_MISMATCH : Code := 0x0908#16
def UNSUPPORTED : Code := 0x0909#16
def DICT_MISSING : Code := 0x090A#16
def INPUT_POISON : Code := 0x090B#16
def DICT_PROTECTED : Code := 0x090C#16
def NO_ENGINE : Code := 0x090D#16
def ENGINE_QUARANTINED : Code := 0x0910#16
def GRAPH_INVALID : Code := 0x0A01#16
def GRAPH_SHAPE : Code := 0x0A02#16
def GRAPH_UNKNOWN : Code := 0x0A03#16
def CORE_SET_INVALID : Code := 0x0A04#16
def CORE_STORE_BUDGET : Code := 0x0A05#16
def SCRATCH_SPACE : Code := 0x0A06#16
def MODEL_POISON : Code := 0x0A07#16
def BAG_OFFSETS : Code := 0x0A08#16
def ENGINE_DISABLED : Code := 0x0A10#16
def CANCELLED_BEFORE_DISPATCH : Code := 0x0B01#16
def CANCELLED_AFTER_DISPATCH : Code := 0x0B02#16
def TASK_INTERRUPTED : Code := 0x0B03#16
def LOG_INVALID : Code := 0x0B04#16
def LOG_FULL : Code := 0x0B05#16
def LINK_UP : Code := 0x0C01#16
def LINK_DOWN : Code := 0x0C02#16
def LANE_FAULT : Code := 0x0C03#16
def TRAINING_FAILED : Code := 0x0C04#16
def LINK_MAINTENANCE : Code := 0x0C05#16
def DUPLICATE_DEVICE : Code := 0x0C06#16
def STANDBY_ENGAGED : Code := 0x0C07#16
def ROUTE_CHANGED : Code := 0x0C08#16
def ROUTE_MISS : Code := 0x0C09#16
def PEER_DEPARTED : Code := 0x0C0A#16
def TIME_FAULT : Code := 0x0C0B#16
def PEER_UNREACHABLE : Code := 0x0C0C#16
def POOL_TIMEOUT : Code := 0x0C0D#16
def ROUTE_INVALID : Code := 0x0C0E#16
def ACCESS_DENIED : Code := 0x0D01#16
def REG_UNMAPPED : Code := 0x0D02#16
def VALUE_REFUSED : Code := 0x0D03#16
def SEQ_STALE : Code := 0x0D04#16
def SEQ_GAP : Code := 0x0D05#16
def BUSY : Code := 0x0D06#16
def PENDING : Code := 0x0D07#16
def SESSION_UNKNOWN : Code := 0x0D08#16
def SESSION_LIMIT : Code := 0x0D09#16
def AUTH_FAILED : Code := 0x0D0A#16
def KEY_NOT_ENROLLED : Code := 0x0D0B#16
def ROLE_DENIED : Code := 0x0D0C#16
def VERSION_UNSUPPORTED : Code := 0x0D0D#16
def MESSAGE_INVALID : Code := 0x0D0E#16
def TIME_BACKWARD : Code := 0x0D0F#16
def PORT_DOWN : Code := 0x0D20#16
def PORT_UP : Code := 0x0D21#16
def CROSSED_FIBRE : Code := 0x0D22#16
def ATTN_OVERFLOW : Code := 0x0D23#16
def RUNS_ACTIVE : Code := 0x0E01#16
def RESET_IN_PROGRESS : Code := 0x0E02#16
def PITCH_COPY_PROTECTED : Code := 0x0E03#16
def PITCH_COPY_SIZE : Code := 0x0E04#16
def PITCH_COPY_OVERLAP : Code := 0x0E05#16
def POWER_STATE_CHANGED : Code := 0x0E10#16
def CLUSTER_RESET : Code := 0x0E11#16
def WATCHDOG_TAKEOVER : Code := 0x0E12#16
def PITCH_COPY_FAILED : Code := 0x0E13#16
def IMAGE_HEADER : Code := 0x0F01#16
def MANIFEST_INVALID : Code := 0x0F02#16
def KEY_UNKNOWN : Code := 0x0F03#16
def SIGNATURE_FAILED : Code := 0x0F04#16
def ROLLBACK : Code := 0x0F05#16
def SECTION_DIGEST : Code := 0x0F06#16
def SECTION_INVALID : Code := 0x0F07#16
def PITCH_FORMAT : Code := 0x0F08#16
def OWNER_REQUIRED : Code := 0x0F09#16
def REGION_INVALID : Code := 0x0F0A#16
def SETTING_INVALID : Code := 0x0F0B#16
def LAYOUT_INVALID : Code := 0x0F0C#16
def SLOT_IN_FORCE : Code := 0x0F10#16
def OFFSET_ORDER : Code := 0x0F11#16
def SLOT_RANGE : Code := 0x0F12#16
def BIVOUAC : Code := 0x0F13#16
def FUSE_REFUSED : Code := 0x0F14#16
def VERSION_UNTESTED : Code := 0x0F20#16
def RECOVERY : Code := 0x0F21#16
def PITCHED : Code := 0x0F30#16
def BIVOUAC_ENTERED : Code := 0x0F31#16
def SLOT_REFUSED : Code := 0x0F32#16
def SHAKEDOWN_FAILED : Code := 0x0F33#16
def JOIN_TIMEOUT : Code := 0x0F34#16
def TEST_REFUSED : Code := 0x1001#16
def COUNTER_OVERFLOW : Code := 0x1010#16
def VAULT_LOST : Code := 0x1101#16
def VAULT_UNAVAILABLE : Code := 0x1102#16
def UNIT_FAILED : Code := 0x1110#16
def GOVERNOR_STEP : Code := 0x1111#16
def CLUSTER_HELD : Code := 0x1112#16
def THERMAL_TRIP : Code := 0x1113#16
def WARDEN_SHADE : Code := 0x1114#16
def WARDEN_HOT_ROWS : Code := 0x1115#16
def WARDEN_GATHER : Code := 0x1116#16
def MGMT_BUSY : Code := 0x1201#16
def MGMT_REFUSED : Code := 0x1202#16
def MGMT_STUCK : Code := 0x1210#16
def INPUT_WARN : Code := 0x1211#16
def COOLANT_WARN : Code := 0x1212#16

end Sys2Proof.Machine.C
end

