-- ==== Sys2Proof/Machine/RegMap.lean ====
section
/-!
DEFINITION. The register map: every register of the index R448 with its address, and every field of the field maps
with its bits, its access in each view (R5), its class (R7), its reset value and the values its map refuses.
A field whose reset value is a fuse or ROM value stands at 0 here and is read from `Fuses` (R401).
-/
namespace Sys2Proof.Machine

/-- Access codes (R5); `na` is the dash. -/
inductive Access where
  | rw | ro | wo | w1c | na
deriving DecidableEq, Repr

/-- Setting classes (R7). -/
inductive Cls where
  | pitch | runtime | sticky | lantern
deriving DecidableEq, Repr

/-- One field of a register map; values outside `lo..hi` of `range` are refused where a range is given. -/
structure FieldDef where
  name : String
  msb : Nat
  lsb : Nat
  keeper : Access
  operator : Access
  cls : Cls
  reset : Nat
  range : Option (Nat × Nat)
deriving DecidableEq, Repr

/-- One register of the index (R448): its base and up to two instance dimensions (count, stride). -/
structure RegDef where
  base : Nat
  n1 : Nat
  s1 : Nat
  n2 : Nat
  s2 : Nat
  fields : List FieldDef
deriving DecidableEq, Repr

/-- The registers of the index, in address order of their blocks. -/
inductive RegId where
  | VLT_STATUS
  | VLT_ERR
  | VLT_ERR_ADDR
  | VLT_POISON
  | VLT_SCRUB
  | VLT_OPS_STATUS
  | VLT_OPS_ROWS
  | VLT_OPS_JOIN
  | VLT_OPS_EXC
  | VLT_SCRUB_CTL
  | VLT_WATCH
  | VLT_OPS_CTL
  | VLT_OPS_FAIL
  | LPT_CH_STATUS
  | LPT_CH_ERR
  | LPT_CH_ERR_ADDR
  | LPT_CH_POISON
  | LPT_CH_SCRUB
  | LPT_AVAIL
  | PIP_CTL
  | PIP_STATUS
  | PIP_COUNT
  | PIP_RUN_STATE
  | PIP_RUN_ROWS_IN
  | PIP_RUN_ROWS_OUT
  | PIP_RUN_LOSS_A
  | PIP_RUN_LOSS_B
  | PIP_RUN_STATUS
  | PIP_RUN_START
  | ING_CTL
  | ING_LOSS_A
  | ING_LOSS_B
  | ING_LOSS_C
  | ING_LOSS_D
  | ING_BATCH
  | ING_DEC_STATUS
  | ING_STREAM_STATE
  | ING_STREAM_COUNT
  | ING_MEAN
  | LAY_DESC_SEL
  | LAY_DESC_STATUS
  | LAY_REFUSE
  | LAY_DESC_DATA
  | LAY_STATUS
  | LAY_BYTES
  | LAY_IDX
  | LAY_COMBINE
  | MST_CTL
  | MST_STATUS
  | MST_SEARCHES
  | MST_SCRUB
  | MST_THROTTLE
  | MST_STAGE_META
  | MST_CMD
  | MST_RESULT
  | MST_STAGE_KEY
  | MST_STAGE_MASK
  | MST_STAGE_RES
  | MST_RESULT_DATA
  | MST_TABLE_CFG
  | MST_TABLE_STATE
  | MST_TABLE_OPS
  | MST_TABLE_ERR
  | MST_BLOCK_STATUS
  | PAT_CTL
  | PAT_STATUS
  | PAT_ENG_STATUS
  | PAT_ENG_BYTES
  | PAT_ENG_COUNT
  | PAT_STREAM
  | EMB_CTL
  | EMB_HOT_CTL
  | EMB_GATHER
  | EMB_ROUND_COUNT
  | EMB_ROUND_TIME
  | EMB_MIGRATE
  | EMB_TABLE_STATUS
  | EMB_TABLE_COUNT
  | EMB_MIGRATE_STATE
  | EMB_MIGRATE_ROWS
  | CMP_CTL
  | CMP_STATUS
  | CMP_FAIL
  | CMP_ENG_STATUS
  | CMP_ENG_BYTES_IN
  | CMP_ENG_BYTES_OUT
  | CMP_ENG_COUNT
  | MTX_CTL
  | MTX_STATUS
  | MTX_FAIL
  | MTX_CORE_STATUS
  | MTX_CORE_CYCLES
  | MTX_CORE_EXC
  | MTX_CORE_REPAIR
  | DSP_CTL
  | DSP_STATUS
  | DSP_COUNT
  | DSP_CANCEL
  | DSP_LOG_CTL
  | DSP_LOG_BASE
  | DSP_LOG_SIZE
  | DSP_LOG_STATUS
  | DSP_LOG_DROP
  | DSP_LEVEL
  | DSP_CENSUS_DEPTH
  | DSP_CENSUS_WAIT
  | DSP_CENSUS_LOAD
  | DSP_RUN_TASKS
  | DSP_RUN_STALL
  | TTH_ID
  | TTH_CTL
  | TTH_TIME
  | TTH_DISCARD
  | TTH_LINK_STATUS
  | TTH_LINK_CTL
  | TTH_LINK_ERR
  | TTH_LINK_BYTES_TX
  | TTH_LINK_BYTES_RX
  | TTH_LINK_CREDIT
  | TTH_ROUTE0
  | TTH_ROUTE1
  | ODN_CTL
  | ODN_MAC
  | ODN_NODE_MAC
  | ODN_STATUS
  | ODN_COUNT
  | ODN_AUTH
  | ODN_SESSION
  | ODN_SESSION_SEQ
  | ODN_SESSION_ATTN
  | PWS_STATE
  | PWS_CTL
  | PWS_REQUEST
  | PWS_RESET_COUNT
  | PWS_WAKE
  | PWS_WATCHDOG
  | PWS_CLUSTER
  | PCH_STATUS
  | PCH_VERSION
  | PCH_IMAGE
  | PCH_FUSE
  | PCH_BOOT
  | PCH_REFUSE
  | PCH_SECURITY
  | PCH_ROLLBACK
  | PCH_ROM
  | PCH_SHAKEDOWN
  | PCH_ENROLL_CMD
  | PCH_QUOTE_CTL
  | PCH_SLOT
  | PCH_ENROLL_DIGEST
  | PCH_QUOTE_NONCE
  | PCH_QUOTE_DATA
  | PMC_WINDOW
  | PMC_GLOBAL_LOST
  | PMC_ENERGY
  | PMC_ENERGY_WINDOW
  | PMC_TD_CTL
  | PMC_CNT_CTL
  | PMC_CNT
  | PMC_CL_LOST
  | PMC_TD_SEL
  | PMC_CL_CNT_CTL
  | PMC_CL_CNT
  | PMC_BW
  | FLT_CTL
  | FLT_GOV
  | FLT_UNITS
  | FLT_UNIT_CLEAR
  | FLT_LOG_SEL
  | FLT_LOG_DATA
  | MOD_ID
  | MOD_PINS
  | MOD_INPUT
  | MOD_COOLANT
  | MOD_MGMT
  | CMP_ENG_JOB_E0
  | CMP_ENG_JOB_E1
deriving DecidableEq, Repr

/-- A field of a register: the register and the field's bits. -/
structure FRef where
  reg : RegId
  msb : Nat
  lsb : Nat
deriving DecidableEq, Repr

/-- VLT_STATUS (R48). -/
def RegDef.VLT_STATUS : RegDef :=
  ⟨0xF0001000000, 192, 0x1000, 1, 0x0, [
    ⟨"SELF_REFRESH", 0, 0, .ro, .ro, .runtime, 0, none⟩,
    ⟨"SPARE_SLOT", 1, 1, .ro, .ro, .sticky, 0, none⟩,
    ⟨"REFRESH_MULT", 3, 2, .ro, .ro, .runtime, 0, none⟩,
    ⟨"TEMP", 15, 8, .ro, .ro, .runtime, 0, none⟩]⟩

/-- VLT_ERR (R48). -/
def RegDef.VLT_ERR : RegDef :=
  ⟨0xF0001000008, 192, 0x1000, 1, 0x0, [
    ⟨"REPLAY_OK", 15, 0, .rw, .ro, .sticky, 0, none⟩,
    ⟨"POISONED", 31, 16, .rw, .ro, .sticky, 0, none⟩,
    ⟨"SCRUB_PERSIST", 47, 32, .rw, .ro, .sticky, 0, none⟩,
    ⟨"MIRROR_REPAIR", 63, 48, .rw, .ro, .sticky, 0, none⟩]⟩

/-- VLT_ERR_ADDR (R48). -/
def RegDef.VLT_ERR_ADDR : RegDef :=
  ⟨0xF0001000010, 192, 0x1000, 1, 0x0, [
    ⟨"OFFSET", 28, 0, .ro, .ro, .sticky, 0, none⟩,
    ⟨"SCRUB", 29, 29, .ro, .ro, .sticky, 0, none⟩,
    ⟨"MIRRORED", 30, 30, .ro, .ro, .sticky, 0, none⟩,
    ⟨"VALID", 31, 31, .w1c, .ro, .sticky, 0, none⟩]⟩

/-- VLT_POISON (R48). -/
def RegDef.VLT_POISON : RegDef :=
  ⟨0xF0001000018, 192, 0x1000, 1, 0x0, [
    ⟨"USED", 8, 0, .ro, .ro, .sticky, 0, none⟩,
    ⟨"FULL", 16, 16, .w1c, .ro, .sticky, 0, none⟩]⟩

/-- VLT_SCRUB (R48). -/
def RegDef.VLT_SCRUB : RegDef :=
  ⟨0xF0001000020, 192, 0x1000, 1, 0x0, [
    ⟨"POSITION", 28, 0, .ro, .ro, .runtime, 0, none⟩,
    ⟨"PASSES", 47, 32, .ro, .ro, .runtime, 0, none⟩]⟩

/-- VLT_OPS_STATUS (R125). -/
def RegDef.VLT_OPS_STATUS : RegDef :=
  ⟨0xF0001000800, 192, 0x1000, 1, 0x0, [
    ⟨"BUSY", 0, 0, .ro, .ro, .runtime, 0, none⟩,
    ⟨"OP", 15, 8, .ro, .ro, .runtime, 0, none⟩,
    ⟨"JOIN_HELD", 16, 16, .ro, .ro, .runtime, 0, none⟩]⟩

/-- VLT_OPS_ROWS (R125). -/
def RegDef.VLT_OPS_ROWS : RegDef :=
  ⟨0xF0001000808, 192, 0x1000, 1, 0x0, [
    ⟨"ROWS", 47, 0, .rw, .ro, .runtime, 0, none⟩]⟩

/-- VLT_OPS_JOIN (R125). -/
def RegDef.VLT_OPS_JOIN : RegDef :=
  ⟨0xF0001000810, 192, 0x1000, 1, 0x0, [
    ⟨"BUILD_ROWS", 31, 0, .ro, .ro, .runtime, 0, none⟩,
    ⟨"OVERFLOW", 47, 32, .ro, .ro, .runtime, 0, none⟩]⟩

/-- VLT_OPS_EXC (R125). -/
def RegDef.VLT_OPS_EXC : RegDef :=
  ⟨0xF0001000818, 192, 0x1000, 1, 0x0, [
    ⟨"DOMAIN", 15, 0, .rw, .ro, .runtime, 0, none⟩,
    ⟨"NONFINITE", 31, 16, .rw, .ro, .runtime, 0, none⟩,
    ⟨"DICT_MULTI", 47, 32, .rw, .ro, .runtime, 0, none⟩,
    ⟨"RANGE_NOMATCH", 63, 48, .rw, .ro, .runtime, 0, none⟩]⟩

/-- VLT_SCRUB_CTL (R48). -/
def RegDef.VLT_SCRUB_CTL : RegDef :=
  ⟨0xF0001F00000, 1, 0x0, 1, 0x0, [
    ⟨"ENABLE", 0, 0, .rw, .ro, .pitch, 1, none⟩,
    ⟨"PERIOD", 12, 8, .rw, .ro, .pitch, 24, some (1, 24)⟩]⟩

/-- VLT_WATCH (R48). -/
def RegDef.VLT_WATCH : RegDef :=
  ⟨0xF0001F00008, 1, 0x0, 1, 0x0, [
    ⟨"USED", 12, 0, .ro, .ro, .runtime, 0, none⟩,
    ⟨"PITCHED", 28, 16, .ro, .ro, .pitch, 0, none⟩,
    ⟨"REFUSED", 32, 32, .w1c, .w1c, .sticky, 0, none⟩]⟩

/-- VLT_OPS_CTL (R125). -/
def RegDef.VLT_OPS_CTL : RegDef :=
  ⟨0xF0001F00010, 1, 0x0, 1, 0x0, [
    ⟨"CORE_CHUNK", 9, 0, .rw, .ro, .pitch, 512, some (64, 768)⟩,
    ⟨"TAG_FILTER", 16, 16, .rw, .ro, .pitch, 1, none⟩]⟩

/-- VLT_OPS_FAIL (R125). -/
def RegDef.VLT_OPS_FAIL : RegDef :=
  ⟨0xF0001F00018, 1, 0x0, 1, 0x0, [
    ⟨"CODE", 15, 0, .ro, .ro, .runtime, 0, none⟩,
    ⟨"OP", 23, 16, .ro, .ro, .runtime, 0, none⟩,
    ⟨"VAULT", 39, 32, .ro, .ro, .runtime, 0, none⟩]⟩

/-- LPT_CH_STATUS (R49). -/
def RegDef.LPT_CH_STATUS : RegDef :=
  ⟨0xF0002000000, 32, 0x1000, 1, 0x0, [
    ⟨"STATE", 1, 0, .ro, .ro, .sticky, 3, none⟩,
    ⟨"REFRESH_RATE", 7, 4, .ro, .ro, .runtime, 0, none⟩]⟩

/-- LPT_CH_ERR (R48). -/
def RegDef.LPT_CH_ERR : RegDef :=
  ⟨0xF0002000008, 32, 0x1000, 1, 0x0, [
    ⟨"REPLAY_OK", 15, 0, .rw, .ro, .sticky, 0, none⟩,
    ⟨"POISONED", 31, 16, .rw, .ro, .sticky, 0, none⟩,
    ⟨"SCRUB_PERSIST", 47, 32, .rw, .ro, .sticky, 0, none⟩,
    ⟨"MIRROR_REPAIR", 63, 48, .rw, .ro, .sticky, 0, none⟩]⟩

/-- LPT_CH_ERR_ADDR (R447). -/
def RegDef.LPT_CH_ERR_ADDR : RegDef :=
  ⟨0xF0002000010, 32, 0x1000, 1, 0x0, [
    ⟨"OFFSET", 33, 0, .ro, .ro, .sticky, 0, none⟩,
    ⟨"SCRUB", 34, 34, .ro, .ro, .sticky, 0, none⟩,
    ⟨"MIRRORED", 35, 35, .ro, .ro, .sticky, 0, none⟩,
    ⟨"VALID", 36, 36, .w1c, .ro, .sticky, 0, none⟩]⟩

/-- LPT_CH_POISON (R48). -/
def RegDef.LPT_CH_POISON : RegDef :=
  ⟨0xF0002000018, 32, 0x1000, 1, 0x0, [
    ⟨"USED", 8, 0, .ro, .ro, .sticky, 0, none⟩,
    ⟨"FULL", 16, 16, .w1c, .ro, .sticky, 0, none⟩]⟩

/-- LPT_CH_SCRUB (R447). -/
def RegDef.LPT_CH_SCRUB : RegDef :=
  ⟨0xF0002000020, 32, 0x1000, 1, 0x0, [
    ⟨"POSITION", 33, 0, .ro, .ro, .runtime, 0, none⟩,
    ⟨"PASSES", 63, 48, .ro, .ro, .runtime, 0, none⟩]⟩

/-- LPT_AVAIL (R49). -/
def RegDef.LPT_AVAIL : RegDef :=
  ⟨0xF0002F00000, 1, 0x0, 1, 0x0, [
    ⟨"CHANNELS", 31, 0, .ro, .ro, .sticky, 0, none⟩]⟩

/-- PIP_CTL (R75). -/
def RegDef.PIP_CTL : RegDef :=
  ⟨0xF0003000000, 1, 0x0, 1, 0x0, [
    ⟨"MAX_RUNS", 6, 0, .rw, .ro, .pitch, 64, some (1, 64)⟩,
    ⟨"ACCEPT", 8, 8, .rw, .ro, .runtime, 1, none⟩]⟩

/-- PIP_STATUS (R75). -/
def RegDef.PIP_STATUS : RegDef :=
  ⟨0xF0003000008, 1, 0x0, 1, 0x0, [
    ⟨"ACTIVE", 6, 0, .ro, .ro, .runtime, 0, none⟩,
    ⟨"PIPELINES", 16, 8, .ro, .ro, .pitch, 0, none⟩,
    ⟨"REGIONS", 44, 32, .ro, .ro, .pitch, 0, none⟩]⟩

/-- PIP_COUNT (R75). -/
def RegDef.PIP_COUNT : RegDef :=
  ⟨0xF0003000010, 1, 0x0, 1, 0x0, [
    ⟨"STARTED", 31, 0, .rw, .ro, .runtime, 0, none⟩,
    ⟨"FAILED", 47, 32, .rw, .ro, .runtime, 0, none⟩,
    ⟨"CANCELLED", 63, 48, .rw, .ro, .runtime, 0, none⟩]⟩

/-- PIP_RUN_STATE (R75). -/
def RegDef.PIP_RUN_STATE : RegDef :=
  ⟨0xF0003100000, 64, 0x100, 1, 0x0, [
    ⟨"RUN", 31, 0, .ro, .ro, .runtime, 0, none⟩,
    ⟨"STATE", 34, 32, .ro, .ro, .runtime, 0, none⟩,
    ⟨"KEEPER", 35, 35, .ro, .ro, .runtime, 0, none⟩,
    ⟨"PIPELINE", 47, 40, .ro, .ro, .runtime, 0, none⟩,
    ⟨"PRIORITY", 50, 48, .ro, .ro, .runtime, 0, none⟩]⟩

/-- PIP_RUN_ROWS_IN (R75). -/
def RegDef.PIP_RUN_ROWS_IN : RegDef :=
  ⟨0xF0003100008, 64, 0x100, 1, 0x0, [
    ⟨"COUNT", 47, 0, .ro, .ro, .runtime, 0, none⟩]⟩

/-- PIP_RUN_ROWS_OUT (R75). -/
def RegDef.PIP_RUN_ROWS_OUT : RegDef :=
  ⟨0xF0003100010, 64, 0x100, 1, 0x0, [
    ⟨"COUNT", 47, 0, .ro, .ro, .runtime, 0, none⟩]⟩

/-- PIP_RUN_LOSS_A (R75). -/
def RegDef.PIP_RUN_LOSS_A : RegDef :=
  ⟨0xF0003100018, 64, 0x100, 1, 0x0, [
    ⟨"FIRST", 31, 0, .ro, .ro, .runtime, 0, none⟩,
    ⟨"SECOND", 63, 32, .ro, .ro, .runtime, 0, none⟩]⟩

/-- PIP_RUN_LOSS_B (R75). -/
def RegDef.PIP_RUN_LOSS_B : RegDef :=
  ⟨0xF0003100020, 64, 0x100, 1, 0x0, [
    ⟨"FIRST", 31, 0, .ro, .ro, .runtime, 0, none⟩,
    ⟨"SECOND", 63, 32, .ro, .ro, .runtime, 0, none⟩]⟩

/-- PIP_RUN_STATUS (R75). -/
def RegDef.PIP_RUN_STATUS : RegDef :=
  ⟨0xF0003100028, 64, 0x100, 1, 0x0, [
    ⟨"STATUS", 15, 0, .ro, .ro, .runtime, 0, none⟩,
    ⟨"FAILURES", 31, 16, .ro, .ro, .runtime, 0, none⟩,
    ⟨"BATCHES", 63, 32, .ro, .ro, .runtime, 0, none⟩]⟩

/-- PIP_RUN_START (R75). -/
def RegDef.PIP_RUN_START : RegDef :=
  ⟨0xF0003100030, 64, 0x100, 1, 0x0, [
    ⟨"TIME", 63, 0, .ro, .ro, .runtime, 0, none⟩]⟩

/-- ING_CTL (R147). -/
def RegDef.ING_CTL : RegDef :=
  ⟨0xF0004000000, 1, 0x0, 1, 0x0, [
    ⟨"STALE_DEFAULT", 23, 0, .rw, .ro, .pitch, 50000, some (1, 10000000)⟩]⟩

/-- ING_LOSS_A (R147). -/
def RegDef.ING_LOSS_A : RegDef :=
  ⟨0xF0004000008, 1, 0x0, 1, 0x0, [
    ⟨"FIRST", 31, 0, .rw, .ro, .runtime, 0, none⟩,
    ⟨"SECOND", 63, 32, .rw, .ro, .runtime, 0, none⟩]⟩

/-- ING_LOSS_B (R147). -/
def RegDef.ING_LOSS_B : RegDef :=
  ⟨0xF0004000010, 1, 0x0, 1, 0x0, [
    ⟨"FIRST", 31, 0, .rw, .ro, .runtime, 0, none⟩,
    ⟨"SECOND", 63, 32, .rw, .ro, .runtime, 0, none⟩]⟩

/-- ING_LOSS_C (R147). -/
def RegDef.ING_LOSS_C : RegDef :=
  ⟨0xF0004000018, 1, 0x0, 1, 0x0, [
    ⟨"FIRST", 31, 0, .rw, .ro, .runtime, 0, none⟩,
    ⟨"SECOND", 63, 32, .rw, .ro, .runtime, 0, none⟩]⟩

/-- ING_LOSS_D (R147). -/
def RegDef.ING_LOSS_D : RegDef :=
  ⟨0xF0004000020, 1, 0x0, 1, 0x0, [
    ⟨"FIRST", 31, 0, .rw, .ro, .runtime, 0, none⟩,
    ⟨"SECOND", 63, 32, .rw, .ro, .runtime, 0, none⟩]⟩

/-- ING_BATCH (R147). -/
def RegDef.ING_BATCH : RegDef :=
  ⟨0xF0004000028, 1, 0x0, 1, 0x0, [
    ⟨"LATE", 31, 0, .rw, .ro, .runtime, 0, none⟩,
    ⟨"TIMEOUTS", 63, 32, .rw, .ro, .runtime, 0, none⟩]⟩

/-- ING_DEC_STATUS (R147). -/
def RegDef.ING_DEC_STATUS : RegDef :=
  ⟨0xF0004100000, 12, 0x10000, 1, 0x0, [
    ⟨"JPEG_BUSY", 3, 0, .ro, .ro, .runtime, 0, none⟩,
    ⟨"PYRAMID_BUSY", 8, 8, .ro, .ro, .runtime, 0, none⟩,
    ⟨"PIXELS", 63, 16, .rw, .ro, .runtime, 0, none⟩]⟩

/-- ING_STREAM_STATE (R147). -/
def RegDef.ING_STREAM_STATE : RegDef :=
  ⟨0xF0004200000, 256, 0x100, 1, 0x0, [
    ⟨"RUN", 31, 0, .ro, .ro, .runtime, 0, none⟩,
    ⟨"BOUND", 32, 32, .ro, .ro, .runtime, 0, none⟩,
    ⟨"DECLARED", 33, 33, .ro, .ro, .pitch, 0, none⟩,
    ⟨"GATEWAY", 55, 36, .ro, .ro, .pitch, 0, none⟩]⟩

/-- ING_STREAM_COUNT (R147). -/
def RegDef.ING_STREAM_COUNT : RegDef :=
  ⟨0xF0004200008, 256, 0x100, 1, 0x0, [
    ⟨"ADMITTED", 31, 0, .rw, .ro, .runtime, 0, none⟩,
    ⟨"NO_RUN", 47, 32, .rw, .ro, .runtime, 0, none⟩,
    ⟨"GAPS", 63, 48, .rw, .ro, .runtime, 0, none⟩]⟩

/-- ING_MEAN (R147). -/
def RegDef.ING_MEAN : RegDef :=
  ⟨0xF0004300000, 64, 0x100, 8, 0x8, [
    ⟨"MEAN_NS", 31, 0, .ro, .ro, .runtime, 0, none⟩,
    ⟨"STAGE", 39, 32, .ro, .ro, .runtime, 255, none⟩]⟩

/-- LAY_DESC_SEL (R176). -/
def RegDef.LAY_DESC_SEL : RegDef :=
  ⟨0xF0005000000, 1, 0x0, 1, 0x0, [
    ⟨"NUMBER", 15, 0, .rw, .rw, .runtime, 0, none⟩,
    ⟨"EMPTY", 16, 16, .ro, .ro, .runtime, 1, none⟩]⟩

/-- LAY_DESC_STATUS (R176). -/
def RegDef.LAY_DESC_STATUS : RegDef :=
  ⟨0xF0005000008, 1, 0x0, 1, 0x0, [
    ⟨"PITCHED", 15, 0, .ro, .ro, .pitch, 0, none⟩,
    ⟨"BOUND", 31, 16, .ro, .ro, .runtime, 0, none⟩]⟩

/-- LAY_REFUSE (R176). -/
def RegDef.LAY_REFUSE : RegDef :=
  ⟨0xF0005000010, 1, 0x0, 1, 0x0, [
    ⟨"CODE", 15, 0, .ro, .ro, .sticky, 0, none⟩,
    ⟨"DESC", 31, 16, .ro, .ro, .sticky, 0, none⟩,
    ⟨"RUN_SLOT", 37, 32, .ro, .ro, .sticky, 0, none⟩,
    ⟨"VALID", 40, 40, .w1c, .ro, .sticky, 0, none⟩]⟩

/-- LAY_DESC_DATA (R176). -/
def RegDef.LAY_DESC_DATA : RegDef :=
  ⟨0xF0005000100, 16, 0x8, 1, 0x0, [
    ⟨"WORD", 63, 0, .ro, .ro, .runtime, 0, none⟩]⟩

/-- LAY_STATUS (R176). -/
def RegDef.LAY_STATUS : RegDef :=
  ⟨0xF0005100000, 192, 0x1000, 1, 0x0, [
    ⟨"COPY_BUSY", 0, 0, .ro, .ro, .runtime, 0, none⟩,
    ⟨"INDEX_BUSY", 1, 1, .ro, .ro, .runtime, 0, none⟩,
    ⟨"FUSED", 2, 2, .ro, .ro, .runtime, 0, none⟩]⟩

/-- LAY_BYTES (R176). -/
def RegDef.LAY_BYTES : RegDef :=
  ⟨0xF0005100008, 192, 0x1000, 1, 0x0, [
    ⟨"BYTES", 47, 0, .rw, .ro, .runtime, 0, none⟩]⟩

/-- LAY_IDX (R176). -/
def RegDef.LAY_IDX : RegDef :=
  ⟨0xF0005100010, 192, 0x1000, 1, 0x0, [
    ⟨"ZEROED", 15, 0, .rw, .ro, .runtime, 0, none⟩,
    ⟨"CLAMPED", 31, 16, .rw, .ro, .runtime, 0, none⟩,
    ⟨"WRAPPED", 47, 32, .rw, .ro, .runtime, 0, none⟩]⟩

/-- LAY_COMBINE (R176). -/
def RegDef.LAY_COMBINE : RegDef :=
  ⟨0xF0005100018, 192, 0x1000, 1, 0x0, [
    ⟨"SAVED", 47, 0, .rw, .ro, .runtime, 0, none⟩]⟩

/-- MST_CTL (R201). -/
def RegDef.MST_CTL : RegDef :=
  ⟨0xF0006000000, 1, 0x0, 1, 0x0, [
    ⟨"ACT_CAP", 5, 0, .rw, .ro, .pitch, 32, some (4, 32)⟩,
    ⟨"RETIRE_LIMIT", 15, 8, .rw, .ro, .pitch, 8, some (1, 255)⟩,
    ⟨"SCRUB_ENABLE", 16, 16, .rw, .ro, .pitch, 1, none⟩]⟩

/-- MST_STATUS (R201). -/
def RegDef.MST_STATUS : RegDef :=
  ⟨0xF0006000008, 1, 0x0, 1, 0x0, [
    ⟨"ACT_LIMIT", 5, 0, .ro, .ro, .runtime, 32, none⟩,
    ⟨"TEMP", 15, 8, .ro, .ro, .runtime, 0, none⟩,
    ⟨"SPARES", 18, 16, .ro, .ro, .sticky, 4, none⟩]⟩

/-- MST_SEARCHES (R201). -/
def RegDef.MST_SEARCHES : RegDef :=
  ⟨0xF0006000010, 1, 0x0, 1, 0x0, [
    ⟨"COUNT", 47, 0, .rw, .ro, .runtime, 0, none⟩]⟩

/-- MST_SCRUB (R201). -/
def RegDef.MST_SCRUB : RegDef :=
  ⟨0xF0006000018, 1, 0x0, 1, 0x0, [
    ⟨"REPAIRED", 15, 0, .rw, .ro, .sticky, 0, none⟩,
    ⟨"SHADOW_REPAIRED", 31, 16, .rw, .ro, .sticky, 0, none⟩,
    ⟨"LOST", 47, 32, .rw, .ro, .sticky, 0, none⟩,
    ⟨"PASSES", 63, 48, .ro, .ro, .runtime, 0, none⟩]⟩

/-- MST_THROTTLE (R201). -/
def RegDef.MST_THROTTLE : RegDef :=
  ⟨0xF0006000020, 1, 0x0, 1, 0x0, [
    ⟨"WAIT_CYCLES", 47, 0, .rw, .ro, .runtime, 0, none⟩]⟩

/-- MST_STAGE_META (R201). -/
def RegDef.MST_STAGE_META : RegDef :=
  ⟨0xF0006000180, 1, 0x0, 1, 0x0, [
    ⟨"PRIORITY", 7, 0, .rw, .na, .runtime, 0, none⟩,
    ⟨"VALID", 8, 8, .rw, .na, .runtime, 0, none⟩]⟩

/-- MST_CMD (R201). -/
def RegDef.MST_CMD : RegDef :=
  ⟨0xF00060001C0, 1, 0x0, 1, 0x0, [
    ⟨"OP", 3, 0, .wo, .na, .runtime, 0, none⟩,
    ⟨"TABLE", 11, 8, .wo, .na, .runtime, 0, none⟩,
    ⟨"ADDR", 34, 16, .wo, .na, .runtime, 0, none⟩]⟩

/-- MST_RESULT (R201). -/
def RegDef.MST_RESULT : RegDef :=
  ⟨0xF00060001C8, 1, 0x0, 1, 0x0, [
    ⟨"HIT", 0, 0, .ro, .na, .runtime, 0, none⟩,
    ⟨"MULTI", 1, 1, .ro, .na, .runtime, 0, none⟩,
    ⟨"TIE", 2, 2, .ro, .na, .runtime, 0, none⟩,
    ⟨"PRIORITY", 15, 8, .ro, .na, .runtime, 0, none⟩,
    ⟨"ADDR", 50, 32, .ro, .na, .runtime, 0, none⟩,
    ⟨"DONE", 63, 63, .ro, .na, .runtime, 0, none⟩]⟩

/-- MST_STAGE_KEY (R201). -/
def RegDef.MST_STAGE_KEY : RegDef :=
  ⟨0xF0006000100, 5, 0x8, 1, 0x0, [
    ⟨"KEY", 63, 0, .rw, .na, .runtime, 0, none⟩]⟩

/-- MST_STAGE_MASK (R201). -/
def RegDef.MST_STAGE_MASK : RegDef :=
  ⟨0xF0006000140, 5, 0x8, 1, 0x0, [
    ⟨"MASK", 63, 0, .rw, .na, .runtime, 0, none⟩]⟩

/-- MST_STAGE_RES (R201). -/
def RegDef.MST_STAGE_RES : RegDef :=
  ⟨0xF0006000188, 2, 0x8, 1, 0x0, [
    ⟨"RES", 63, 0, .rw, .na, .runtime, 0, none⟩]⟩

/-- MST_RESULT_DATA (R201). -/
def RegDef.MST_RESULT_DATA : RegDef :=
  ⟨0xF00060001D0, 2, 0x8, 1, 0x0, [
    ⟨"WORD", 63, 0, .ro, .na, .runtime, 0, none⟩]⟩

/-- MST_TABLE_CFG (R201). -/
def RegDef.MST_TABLE_CFG : RegDef :=
  ⟨0xF0006100000, 16, 0x100, 1, 0x0, [
    ⟨"FIRST", 5, 0, .ro, .ro, .pitch, 0, none⟩,
    ⟨"BLOCKS", 14, 8, .ro, .ro, .pitch, 0, none⟩,
    ⟨"WIDTH", 16, 16, .ro, .ro, .pitch, 0, none⟩,
    ⟨"KIND", 17, 17, .ro, .ro, .pitch, 0, none⟩,
    ⟨"DEFINED", 24, 24, .ro, .ro, .pitch, 0, none⟩]⟩

/-- MST_TABLE_STATE (R201). -/
def RegDef.MST_TABLE_STATE : RegDef :=
  ⟨0xF0006100008, 16, 0x100, 1, 0x0, [
    ⟨"USED_END", 19, 0, .ro, .ro, .runtime, 0, none⟩,
    ⟨"SHIFTING", 24, 24, .ro, .ro, .runtime, 0, none⟩,
    ⟨"QUEUED", 36, 32, .ro, .ro, .runtime, 0, none⟩,
    ⟨"BOUNDARY", 58, 40, .ro, .ro, .runtime, 0, none⟩]⟩

/-- MST_TABLE_OPS (R201). -/
def RegDef.MST_TABLE_OPS : RegDef :=
  ⟨0xF0006100010, 16, 0x100, 1, 0x0, [
    ⟨"ISSUED", 31, 0, .ro, .ro, .runtime, 0, none⟩,
    ⟨"DONE", 63, 32, .ro, .ro, .runtime, 0, none⟩]⟩

/-- MST_TABLE_ERR (R201). -/
def RegDef.MST_TABLE_ERR : RegDef :=
  ⟨0xF0006100018, 16, 0x100, 1, 0x0, [
    ⟨"CODE", 15, 0, .ro, .ro, .runtime, 0, none⟩,
    ⟨"ORDINAL", 47, 16, .ro, .ro, .runtime, 0, none⟩,
    ⟨"VALID", 48, 48, .w1c, .ro, .runtime, 0, none⟩]⟩

/-- MST_BLOCK_STATUS (R201). -/
def RegDef.MST_BLOCK_STATUS : RegDef :=
  ⟨0xF0006200000, 68, 0x100, 1, 0x0, [
    ⟨"STATE", 1, 0, .ro, .ro, .sticky, 1, none⟩,
    ⟨"LOGICAL", 13, 8, .ro, .ro, .sticky, 0, none⟩,
    ⟨"REPAIRS", 31, 16, .ro, .ro, .sticky, 0, none⟩]⟩

/-- PAT_CTL (R219). -/
def RegDef.PAT_CTL : RegDef :=
  ⟨0xF0007000000, 1, 0x0, 1, 0x0, [
    ⟨"SUSPEND_DEFAULT", 19, 0, .rw, .ro, .pitch, 500, some (1, 1000000)⟩]⟩

/-- PAT_STATUS (R219). -/
def RegDef.PAT_STATUS : RegDef :=
  ⟨0xF0007000008, 1, 0x0, 1, 0x0, [
    ⟨"IMAGES", 6, 0, .ro, .ro, .pitch, 0, none⟩,
    ⟨"MEMORY_KIB", 29, 16, .ro, .ro, .pitch, 0, none⟩]⟩

/-- PAT_ENG_STATUS (R219). -/
def RegDef.PAT_ENG_STATUS : RegDef :=
  ⟨0xF0007100000, 12, 0x10000, 1, 0x0, [
    ⟨"BUSY", 15, 0, .ro, .ro, .runtime, 0, none⟩,
    ⟨"BLOCKED", 31, 16, .ro, .ro, .runtime, 0, none⟩,
    ⟨"SUSPENDED", 38, 32, .ro, .ro, .runtime, 0, none⟩]⟩

/-- PAT_ENG_BYTES (R219). -/
def RegDef.PAT_ENG_BYTES : RegDef :=
  ⟨0xF0007100008, 12, 0x10000, 1, 0x0, [
    ⟨"BYTES", 47, 0, .rw, .ro, .runtime, 0, none⟩]⟩

/-- PAT_ENG_COUNT (R219). -/
def RegDef.PAT_ENG_COUNT : RegDef :=
  ⟨0xF0007100010, 12, 0x10000, 1, 0x0, [
    ⟨"RECORDS", 31, 0, .rw, .ro, .runtime, 0, none⟩,
    ⟨"SKIPPED", 47, 32, .rw, .ro, .runtime, 0, none⟩,
    ⟨"SUSPENSIONS", 63, 48, .rw, .ro, .runtime, 0, none⟩]⟩

/-- PAT_STREAM (R219). -/
def RegDef.PAT_STREAM : RegDef :=
  ⟨0xF0007100100, 12, 0x10000, 16, 0x8, [
    ⟨"STATE", 1, 0, .ro, .ro, .runtime, 0, none⟩,
    ⟨"RUN_SLOT", 13, 8, .ro, .ro, .runtime, 0, none⟩,
    ⟨"AUTOMATON_STATE", 31, 16, .ro, .ro, .runtime, 0, none⟩,
    ⟨"OFFSET", 63, 32, .ro, .ro, .runtime, 0, none⟩]⟩

/-- EMB_CTL (R249). -/
def RegDef.EMB_CTL : RegDef :=
  ⟨0xF0008000000, 1, 0x0, 1, 0x0, [
    ⟨"ROUND_DEFAULT", 13, 0, .rw, .ro, .pitch, 200, some (1, 10000)⟩,
    ⟨"AUTO_MIGRATE", 16, 16, .rw, .ro, .pitch, 0, none⟩,
    ⟨"MIGRATE_MAX", 19, 17, .rw, .ro, .pitch, 4, none⟩,
    ⟨"IMBALANCE", 23, 20, .rw, .ro, .pitch, 2, some (2, 15)⟩,
    ⟨"HOT_REGION", 39, 24, .rw, .ro, .pitch, 65535, none⟩,
    ⟨"ROUND_IDS", 59, 40, .rw, .ro, .pitch, 262144, some (1024, 524288)⟩]⟩

/-- EMB_HOT_CTL (R249). -/
def RegDef.EMB_HOT_CTL : RegDef :=
  ⟨0xF0008000008, 1, 0x0, 1, 0x0, [
    ⟨"THRESHOLD", 15, 0, .rw, .ro, .pitch, 64, some (2, 65535)⟩,
    ⟨"DECAY_US", 35, 16, .rw, .ro, .pitch, 1000, some (10, 1000000)⟩,
    ⟨"FORWARD_MIN_US", 51, 36, .rw, .ro, .pitch, 400, some (1, 65535)⟩]⟩

/-- EMB_GATHER (R249). -/
def RegDef.EMB_GATHER : RegDef :=
  ⟨0xF0008000010, 1, 0x0, 1, 0x0, [
    ⟨"GATHER_NS", 15, 0, .ro, .ro, .runtime, 1000, none⟩,
    ⟨"GATHER_MAX_NS", 31, 16, .rw, .ro, .pitch, 20000, none⟩]⟩

/-- EMB_ROUND_COUNT (R249). -/
def RegDef.EMB_ROUND_COUNT : RegDef :=
  ⟨0xF0008000018, 1, 0x0, 1, 0x0, [
    ⟨"ROUNDS", 31, 0, .rw, .ro, .runtime, 0, none⟩,
    ⟨"TIMEOUTS", 47, 32, .rw, .ro, .runtime, 0, none⟩,
    ⟨"REDIRECTS", 63, 48, .rw, .ro, .runtime, 0, none⟩]⟩

/-- EMB_ROUND_TIME (R249). -/
def RegDef.EMB_ROUND_TIME : RegDef :=
  ⟨0xF0008000020, 1, 0x0, 1, 0x0, [
    ⟨"MEAN_NS", 31, 0, .ro, .ro, .runtime, 0, none⟩,
    ⟨"MAX_NS", 63, 32, .w1c, .ro, .runtime, 0, none⟩]⟩

/-- EMB_MIGRATE (R249). -/
def RegDef.EMB_MIGRATE : RegDef :=
  ⟨0xF0008000100, 1, 0x0, 1, 0x0, [
    ⟨"POSITION", 15, 0, .wo, .na, .runtime, 0, none⟩,
    ⟨"MAP", 19, 16, .wo, .na, .runtime, 0, none⟩,
    ⟨"NEW_OWNER", 39, 20, .wo, .na, .runtime, 0, none⟩,
    ⟨"FORCE", 40, 40, .wo, .na, .runtime, 0, none⟩]⟩

/-- EMB_TABLE_STATUS (R249). -/
def RegDef.EMB_TABLE_STATUS : RegDef :=
  ⟨0xF0008100000, 64, 0x100, 1, 0x0, [
    ⟨"ROWS", 31, 0, .ro, .ro, .runtime, 0, none⟩,
    ⟨"DEFINED", 32, 32, .ro, .ro, .pitch, 0, none⟩,
    ⟨"FULL_SLICES", 47, 40, .ro, .ro, .runtime, 0, none⟩]⟩

/-- EMB_TABLE_COUNT (R249). -/
def RegDef.EMB_TABLE_COUNT : RegDef :=
  ⟨0xF0008100008, 64, 0x100, 1, 0x0, [
    ⟨"SERVED", 31, 0, .rw, .ro, .runtime, 0, none⟩,
    ⟨"MISSING", 47, 32, .rw, .ro, .runtime, 0, none⟩,
    ⟨"HOT_ROWS", 63, 48, .ro, .ro, .runtime, 0, none⟩]⟩

/-- EMB_MIGRATE_STATE (R249). -/
def RegDef.EMB_MIGRATE_STATE : RegDef :=
  ⟨0xF0008200000, 8, 0x100, 1, 0x0, [
    ⟨"STATE", 2, 0, .ro, .ro, .runtime, 0, none⟩,
    ⟨"MAP", 7, 4, .ro, .ro, .runtime, 0, none⟩,
    ⟨"POSITION", 31, 16, .ro, .ro, .runtime, 0, none⟩,
    ⟨"PEER", 51, 32, .ro, .ro, .runtime, 0, none⟩]⟩

/-- EMB_MIGRATE_ROWS (R249). -/
def RegDef.EMB_MIGRATE_ROWS : RegDef :=
  ⟨0xF0008200008, 8, 0x100, 1, 0x0, [
    ⟨"TOTAL", 31, 0, .ro, .ro, .runtime, 0, none⟩,
    ⟨"SENT", 63, 32, .ro, .ro, .runtime, 0, none⟩]⟩

/-- CMP_CTL (R270). -/
def RegDef.CMP_CTL : RegDef :=
  ⟨0xF0009000000, 1, 0x0, 1, 0x0, [
    ⟨"RATIO_DEFAULT", 15, 0, .rw, .ro, .pitch, 1024, some (1, 65535)⟩]⟩

/-- CMP_STATUS (R270). -/
def RegDef.CMP_STATUS : RegDef :=
  ⟨0xF0009000008, 1, 0x0, 1, 0x0, [
    ⟨"ENGINES", 4, 0, .ro, .ro, .runtime, 24, none⟩,
    ⟨"DICTS", 14, 8, .ro, .ro, .pitch, 0, none⟩,
    ⟨"DICT_KIB", 32, 16, .ro, .ro, .pitch, 0, none⟩]⟩

/-- CMP_FAIL (R270). -/
def RegDef.CMP_FAIL : RegDef :=
  ⟨0xF0009000010, 1, 0x0, 1, 0x0, [
    ⟨"CODE", 15, 0, .ro, .ro, .runtime, 0, none⟩,
    ⟨"OP", 17, 16, .ro, .ro, .runtime, 0, none⟩,
    ⟨"CLUSTER", 27, 24, .ro, .ro, .runtime, 0, none⟩,
    ⟨"ENGINE", 28, 28, .ro, .ro, .runtime, 0, none⟩,
    ⟨"RUN_SLOT", 37, 32, .ro, .ro, .runtime, 0, none⟩]⟩

/-- CMP_ENG_STATUS (R270). -/
def RegDef.CMP_ENG_STATUS : RegDef :=
  ⟨0xF0009100000, 12, 0x10000, 2, 0x100, [
    ⟨"BUSY", 0, 0, .ro, .ro, .runtime, 0, none⟩,
    ⟨"QUARANTINED", 1, 1, .w1c, .ro, .sticky, 0, none⟩,
    ⟨"VERIFY_FAILS", 9, 8, .ro, .ro, .sticky, 0, none⟩]⟩

/-- CMP_ENG_BYTES_IN (R270). -/
def RegDef.CMP_ENG_BYTES_IN : RegDef :=
  ⟨0xF0009100008, 12, 0x10000, 2, 0x100, [
    ⟨"BYTES", 47, 0, .rw, .ro, .runtime, 0, none⟩]⟩

/-- CMP_ENG_BYTES_OUT (R270). -/
def RegDef.CMP_ENG_BYTES_OUT : RegDef :=
  ⟨0xF0009100010, 12, 0x10000, 2, 0x100, [
    ⟨"BYTES", 47, 0, .rw, .ro, .runtime, 0, none⟩]⟩

/-- CMP_ENG_COUNT (R270). -/
def RegDef.CMP_ENG_COUNT : RegDef :=
  ⟨0xF0009100018, 12, 0x10000, 2, 0x100, [
    ⟨"JOBS", 31, 0, .rw, .ro, .runtime, 0, none⟩,
    ⟨"FAILED", 47, 32, .rw, .ro, .runtime, 0, none⟩,
    ⟨"STORED", 63, 48, .rw, .ro, .runtime, 0, none⟩]⟩

/-- MTX_CTL (R298). -/
def RegDef.MTX_CTL : RegDef :=
  ⟨0xF000A000000, 1, 0x0, 1, 0x0, [
    ⟨"WEIGHT_KIB", 9, 0, .rw, .ro, .pitch, 384, some (0, 768)⟩,
    ⟨"ENGINE_REMAP", 16, 16, .rw, .ro, .pitch, 0, none⟩]⟩

/-- MTX_STATUS (R298). -/
def RegDef.MTX_STATUS : RegDef :=
  ⟨0xF000A000008, 1, 0x0, 1, 0x0, [
    ⟨"GRAPHS", 8, 0, .ro, .ro, .pitch, 0, none⟩,
    ⟨"ENGINES_OUT", 25, 16, .ro, .ro, .sticky, 0, none⟩]⟩

/-- MTX_FAIL (R298). -/
def RegDef.MTX_FAIL : RegDef :=
  ⟨0xF000A000010, 1, 0x0, 1, 0x0, [
    ⟨"CODE", 15, 0, .ro, .ro, .runtime, 0, none⟩,
    ⟨"GRAPH", 23, 16, .ro, .ro, .runtime, 0, none⟩,
    ⟨"NODE", 33, 24, .ro, .ro, .runtime, 0, none⟩,
    ⟨"RUN_SLOT", 39, 34, .ro, .ro, .runtime, 0, none⟩,
    ⟨"CORE", 47, 40, .ro, .ro, .runtime, 0, none⟩]⟩

/-- MTX_CORE_STATUS (R298). -/
def RegDef.MTX_CORE_STATUS : RegDef :=
  ⟨0xF000A100000, 192, 0x1000, 1, 0x0, [
    ⟨"ENGINES", 3, 0, .ro, .ro, .sticky, 15, none⟩,
    ⟨"BUSY", 7, 4, .ro, .ro, .runtime, 0, none⟩,
    ⟨"VECTOR_BUSY", 8, 8, .ro, .ro, .runtime, 0, none⟩,
    ⟨"RESIDENT_KIB", 25, 16, .ro, .ro, .runtime, 0, none⟩]⟩

/-- MTX_CORE_CYCLES (R298). -/
def RegDef.MTX_CORE_CYCLES : RegDef :=
  ⟨0xF000A100008, 192, 0x1000, 1, 0x0, [
    ⟨"ENGINE_CYCLES", 47, 0, .rw, .ro, .runtime, 0, none⟩]⟩

/-- MTX_CORE_EXC (R298). -/
def RegDef.MTX_CORE_EXC : RegDef :=
  ⟨0xF000A100010, 192, 0x1000, 1, 0x0, [
    ⟨"NAN", 15, 0, .rw, .ro, .runtime, 0, none⟩,
    ⟨"INF", 31, 16, .rw, .ro, .runtime, 0, none⟩,
    ⟨"SATURATED", 47, 32, .rw, .ro, .runtime, 0, none⟩]⟩

/-- MTX_CORE_REPAIR (R298). -/
def RegDef.MTX_CORE_REPAIR : RegDef :=
  ⟨0xF000A100018, 192, 0x1000, 1, 0x0, [
    ⟨"SPARE_COLS", 7, 0, .ro, .ro, .sticky, 0, none⟩]⟩

/-- DSP_CTL (R317). -/
def RegDef.DSP_CTL : RegDef :=
  ⟨0xF000B000000, 1, 0x0, 1, 0x0, [
    ⟨"WINDOW_US", 15, 0, .rw, .ro, .pitch, 100, some (1, 65535)⟩]⟩

/-- DSP_STATUS (R317). -/
def RegDef.DSP_STATUS : RegDef :=
  ⟨0xF000B000008, 1, 0x0, 1, 0x0, [
    ⟨"IN_FLIGHT", 17, 0, .ro, .ro, .runtime, 0, none⟩,
    ⟨"READY", 41, 24, .ro, .ro, .runtime, 0, none⟩,
    ⟨"CONTEXTS", 55, 42, .ro, .ro, .runtime, 0, none⟩]⟩

/-- DSP_COUNT (R317). -/
def RegDef.DSP_COUNT : RegDef :=
  ⟨0xF000B000010, 1, 0x0, 1, 0x0, [
    ⟨"DISPATCHED", 47, 0, .rw, .ro, .runtime, 0, none⟩,
    ⟨"REISSUED", 63, 48, .rw, .ro, .runtime, 0, none⟩]⟩

/-- DSP_CANCEL (R317). -/
def RegDef.DSP_CANCEL : RegDef :=
  ⟨0xF000B000018, 1, 0x0, 1, 0x0, [
    ⟨"BEFORE", 31, 0, .rw, .ro, .runtime, 0, none⟩,
    ⟨"AFTER", 63, 32, .rw, .ro, .runtime, 0, none⟩]⟩

/-- DSP_LOG_CTL (R317). -/
def RegDef.DSP_LOG_CTL : RegDef :=
  ⟨0xF000B000100, 1, 0x0, 1, 0x0, [
    ⟨"ENABLE", 0, 0, .rw, .ro, .runtime, 0, none⟩,
    ⟨"MODE", 1, 1, .rw, .ro, .runtime, 0, none⟩,
    ⟨"EVENTS", 15, 8, .rw, .ro, .runtime, 255, none⟩,
    ⟨"REGION", 27, 16, .rw, .ro, .runtime, 0, none⟩,
    ⟨"RUN", 63, 32, .rw, .ro, .runtime, 0, none⟩]⟩

/-- DSP_LOG_BASE (R317). -/
def RegDef.DSP_LOG_BASE : RegDef :=
  ⟨0xF000B000108, 1, 0x0, 1, 0x0, [
    ⟨"OFFSET", 39, 0, .rw, .ro, .runtime, 0, none⟩]⟩

/-- DSP_LOG_SIZE (R317). -/
def RegDef.DSP_LOG_SIZE : RegDef :=
  ⟨0xF000B000110, 1, 0x0, 1, 0x0, [
    ⟨"SIZE_LOG", 4, 0, .rw, .ro, .runtime, 16, none⟩]⟩

/-- DSP_LOG_STATUS (R317). -/
def RegDef.DSP_LOG_STATUS : RegDef :=
  ⟨0xF000B000118, 1, 0x0, 1, 0x0, [
    ⟨"WRITTEN", 47, 0, .ro, .ro, .runtime, 0, none⟩,
    ⟨"CODE", 63, 48, .ro, .ro, .runtime, 0, none⟩]⟩

/-- DSP_LOG_DROP (R317). -/
def RegDef.DSP_LOG_DROP : RegDef :=
  ⟨0xF000B000120, 1, 0x0, 1, 0x0, [
    ⟨"DROPPED", 47, 0, .rw, .ro, .runtime, 0, none⟩]⟩

/-- DSP_LEVEL (R317). -/
def RegDef.DSP_LEVEL : RegDef :=
  ⟨0xF000B000040, 8, 0x8, 1, 0x0, [
    ⟨"READY", 17, 0, .ro, .ro, .runtime, 0, none⟩]⟩

/-- DSP_CENSUS_DEPTH (R317). -/
def RegDef.DSP_CENSUS_DEPTH : RegDef :=
  ⟨0xF000B100000, 192, 0x1000, 1, 0x0, [
    ⟨"OWN", 17, 0, .ro, .ro, .runtime, 0, none⟩,
    ⟨"SHARED", 41, 24, .ro, .ro, .runtime, 0, none⟩]⟩

/-- DSP_CENSUS_WAIT (R317). -/
def RegDef.DSP_CENSUS_WAIT : RegDef :=
  ⟨0xF000B100008, 192, 0x1000, 1, 0x0, [
    ⟨"WAIT_NS", 31, 0, .ro, .ro, .runtime, 0, none⟩,
    ⟨"MAX_NS", 63, 32, .w1c, .ro, .runtime, 0, none⟩]⟩

/-- DSP_CENSUS_LOAD (R317). -/
def RegDef.DSP_CENSUS_LOAD : RegDef :=
  ⟨0xF000B100010, 192, 0x1000, 1, 0x0, [
    ⟨"LOAD", 10, 0, .ro, .ro, .runtime, 0, none⟩,
    ⟨"TASKS", 47, 16, .ro, .ro, .runtime, 0, none⟩]⟩

/-- DSP_RUN_TASKS (R317). -/
def RegDef.DSP_RUN_TASKS : RegDef :=
  ⟨0xF000B200000, 64, 0x100, 1, 0x0, [
    ⟨"READY", 17, 0, .ro, .ro, .runtime, 0, none⟩,
    ⟨"RUNNING", 37, 20, .ro, .ro, .runtime, 0, none⟩,
    ⟨"PENDING", 57, 40, .ro, .ro, .runtime, 0, none⟩]⟩

/-- DSP_RUN_STALL (R317). -/
def RegDef.DSP_RUN_STALL : RegDef :=
  ⟨0xF000B200008, 64, 0x100, 1, 0x0, [
    ⟨"RELEASE_STALL", 47, 0, .ro, .ro, .runtime, 0, none⟩]⟩

/-- TTH_ID (R343). -/
def RegDef.TTH_ID : RegDef :=
  ⟨0xF000C000000, 1, 0x0, 1, 0x0, [
    ⟨"DEVICE", 19, 0, .ro, .ro, .pitch, 0, none⟩,
    ⟨"EPOCH", 31, 24, .ro, .ro, .pitch, 0, none⟩,
    ⟨"EPOCH_MIN", 39, 32, .ro, .ro, .pitch, 0, none⟩,
    ⟨"EPOCH_MAX", 47, 40, .ro, .ro, .pitch, 0, none⟩]⟩

/-- TTH_CTL (R343). -/
def RegDef.TTH_CTL : RegDef :=
  ⟨0xF000C000008, 1, 0x0, 1, 0x0, [
    ⟨"HOP_LIMIT", 7, 0, .rw, .ro, .pitch, 255, some (1, 255)⟩,
    ⟨"LIFETIME_US", 21, 8, .rw, .ro, .pitch, 500, some (64, 10000)⟩,
    ⟨"PEER_RESET", 24, 24, .rw, .ro, .pitch, 0, none⟩,
    ⟨"W_EXCHANGE", 35, 32, .rw, .ro, .pitch, 4, some (1, 15)⟩,
    ⟨"W_BULK", 39, 36, .rw, .ro, .pitch, 2, some (1, 15)⟩,
    ⟨"W_FRAMES", 43, 40, .rw, .ro, .pitch, 2, some (1, 15)⟩]⟩

/-- TTH_TIME (R343). -/
def RegDef.TTH_TIME : RegDef :=
  ⟨0xF000C000010, 1, 0x0, 1, 0x0, [
    ⟨"STRATUM", 7, 0, .ro, .ro, .runtime, 255, none⟩,
    ⟨"LOCKED", 8, 8, .ro, .ro, .runtime, 0, none⟩,
    ⟨"PARENT_LINK", 21, 16, .ro, .ro, .runtime, 0, none⟩,
    ⟨"OFFSET_NS", 63, 32, .ro, .ro, .runtime, 0, none⟩]⟩

/-- TTH_DISCARD (R343). -/
def RegDef.TTH_DISCARD : RegDef :=
  ⟨0xF000C000018, 1, 0x0, 1, 0x0, [
    ⟨"DISCARD_HOPS", 15, 0, .rw, .ro, .runtime, 0, none⟩,
    ⟨"DISCARD_AGE", 31, 16, .rw, .ro, .runtime, 0, none⟩,
    ⟨"DISCARD_ROUTE", 47, 32, .rw, .ro, .runtime, 0, none⟩]⟩

/-- TTH_LINK_STATUS (R343). -/
def RegDef.TTH_LINK_STATUS : RegDef :=
  ⟨0xF000C100000, 64, 0x100, 1, 0x0, [
    ⟨"STATE", 3, 0, .ro, .ro, .runtime, 1, none⟩,
    ⟨"TX_WIDTH", 5, 4, .ro, .ro, .runtime, 0, none⟩,
    ⟨"RX_WIDTH", 7, 6, .ro, .ro, .runtime, 0, none⟩,
    ⟨"POLARITY", 9, 8, .ro, .ro, .runtime, 0, none⟩,
    ⟨"REVERSED", 10, 10, .ro, .ro, .runtime, 0, none⟩,
    ⟨"OPEN", 13, 12, .ro, .ro, .sticky, 0, none⟩,
    ⟨"SHORT", 15, 14, .ro, .ro, .sticky, 0, none⟩,
    ⟨"ENGAGED", 16, 16, .ro, .ro, .runtime, 0, none⟩,
    ⟨"RESERVE", 17, 17, .ro, .ro, .runtime, 0, none⟩,
    ⟨"PEER_DEVICE", 39, 20, .ro, .ro, .runtime, 0, none⟩,
    ⟨"PEER_LINK", 45, 40, .ro, .ro, .runtime, 0, none⟩,
    ⟨"PEER_EPOCH", 55, 48, .ro, .ro, .runtime, 0, none⟩]⟩

/-- TTH_LINK_CTL (R343). -/
def RegDef.TTH_LINK_CTL : RegDef :=
  ⟨0xF000C100008, 64, 0x100, 1, 0x0, [
    ⟨"ENABLE", 0, 0, .rw, .ro, .pitch, 1, none⟩,
    ⟨"STANDBY", 1, 1, .rw, .ro, .pitch, 0, none⟩,
    ⟨"RETRAIN", 8, 8, .wo, .na, .runtime, 0, none⟩,
    ⟨"SEND_RESET", 10, 9, .wo, .na, .runtime, 0, none⟩]⟩

/-- TTH_LINK_ERR (R343). -/
def RegDef.TTH_LINK_ERR : RegDef :=
  ⟨0xF000C100010, 64, 0x100, 1, 0x0, [
    ⟨"RETRIES", 23, 0, .rw, .ro, .sticky, 0, none⟩,
    ⟨"RETRAINS", 39, 24, .rw, .ro, .sticky, 0, none⟩,
    ⟨"UNCORRECTED", 55, 40, .rw, .ro, .sticky, 0, none⟩,
    ⟨"LOST", 63, 56, .rw, .ro, .sticky, 0, none⟩]⟩

/-- TTH_LINK_BYTES_TX (R343). -/
def RegDef.TTH_LINK_BYTES_TX : RegDef :=
  ⟨0xF000C100018, 64, 0x100, 1, 0x0, [
    ⟨"BYTES", 47, 0, .rw, .ro, .runtime, 0, none⟩]⟩

/-- TTH_LINK_BYTES_RX (R343). -/
def RegDef.TTH_LINK_BYTES_RX : RegDef :=
  ⟨0xF000C100020, 64, 0x100, 1, 0x0, [
    ⟨"BYTES", 47, 0, .rw, .ro, .runtime, 0, none⟩]⟩

/-- TTH_LINK_CREDIT (R343). -/
def RegDef.TTH_LINK_CREDIT : RegDef :=
  ⟨0xF000C100028, 64, 0x100, 1, 0x0, [
    ⟨"VC0", 31, 0, .ro, .ro, .runtime, 0, none⟩,
    ⟨"VC1", 63, 32, .ro, .ro, .runtime, 0, none⟩]⟩

/-- TTH_ROUTE0 (R343). -/
def RegDef.TTH_ROUTE0 : RegDef :=
  ⟨0xF000C200000, 4096, 0x10, 1, 0x0, [
    ⟨"PREFIX", 19, 0, .rw, .ro, .pitch, 0, none⟩,
    ⟨"LEN", 24, 20, .rw, .ro, .pitch, 0, none⟩,
    ⟨"VALID", 25, 25, .rw, .ro, .pitch, 0, none⟩,
    ⟨"DATELINE", 26, 26, .rw, .ro, .pitch, 0, none⟩,
    ⟨"SOURCE_ROUTE", 27, 27, .rw, .ro, .pitch, 0, none⟩]⟩

/-- TTH_ROUTE1 (R343). -/
def RegDef.TTH_ROUTE1 : RegDef :=
  ⟨0xF000C200008, 4096, 0x10, 1, 0x0, [
    ⟨"LINKS", 63, 0, .rw, .ro, .pitch, 0, none⟩]⟩

/-- ODN_CTL (R362). -/
def RegDef.ODN_CTL : RegDef :=
  ⟨0xF000D000000, 1, 0x0, 1, 0x0, [
    ⟨"IDLE_S", 7, 0, .rw, .ro, .pitch, 10, some (1, 255)⟩,
    ⟨"OPERATOR_OPEN", 8, 8, .rw, .ro, .pitch, 1, none⟩,
    ⟨"RELAY_ENABLE", 9, 9, .rw, .ro, .pitch, 1, none⟩]⟩

/-- ODN_MAC (R362). -/
def RegDef.ODN_MAC : RegDef :=
  ⟨0xF000D000008, 1, 0x0, 1, 0x0, [
    ⟨"MAC", 47, 0, .ro, .ro, .pitch, 0, none⟩]⟩

/-- ODN_NODE_MAC (R362). -/
def RegDef.ODN_NODE_MAC : RegDef :=
  ⟨0xF000D000010, 1, 0x0, 1, 0x0, [
    ⟨"MAC", 47, 0, .ro, .ro, .pitch, 0, none⟩]⟩

/-- ODN_STATUS (R362). -/
def RegDef.ODN_STATUS : RegDef :=
  ⟨0xF000D000018, 1, 0x0, 1, 0x0, [
    ⟨"PORT", 1, 0, .ro, .ro, .runtime, 0, none⟩,
    ⟨"SESSIONS", 11, 8, .ro, .ro, .runtime, 0, none⟩,
    ⟨"KEEPERS", 13, 12, .ro, .ro, .runtime, 0, none⟩,
    ⟨"BACKLOG", 26, 16, .ro, .ro, .runtime, 0, none⟩]⟩

/-- ODN_COUNT (R362). -/
def RegDef.ODN_COUNT : RegDef :=
  ⟨0xF000D000020, 1, 0x0, 1, 0x0, [
    ⟨"BAD_FCS", 15, 0, .rw, .ro, .runtime, 0, none⟩,
    ⟨"OTHER", 31, 16, .rw, .ro, .runtime, 0, none⟩,
    ⟨"AUTH_DROP", 47, 32, .rw, .ro, .runtime, 0, none⟩,
    ⟨"RELAY_DROP", 63, 48, .rw, .ro, .runtime, 0, none⟩]⟩

/-- ODN_AUTH (R362). -/
def RegDef.ODN_AUTH : RegDef :=
  ⟨0xF000D000028, 1, 0x0, 1, 0x0, [
    ⟨"FAILS", 15, 0, .ro, .ro, .lantern, 0, none⟩]⟩

/-- ODN_SESSION (R362). -/
def RegDef.ODN_SESSION : RegDef :=
  ⟨0xF000D100000, 8, 0x100, 1, 0x0, [
    ⟨"ID", 31, 0, .ro, .ro, .runtime, 0, none⟩,
    ⟨"OPEN", 32, 32, .ro, .ro, .runtime, 0, none⟩,
    ⟨"KEEPER", 33, 33, .ro, .ro, .runtime, 0, none⟩,
    ⟨"ATTENTION", 34, 34, .ro, .ro, .runtime, 0, none⟩,
    ⟨"RELAYED", 35, 35, .ro, .ro, .runtime, 0, none⟩]⟩

/-- ODN_SESSION_SEQ (R362). -/
def RegDef.ODN_SESSION_SEQ : RegDef :=
  ⟨0xF000D100008, 8, 0x100, 1, 0x0, [
    ⟨"EXPECTED", 63, 0, .ro, .ro, .runtime, 0, none⟩]⟩

/-- ODN_SESSION_ATTN (R362). -/
def RegDef.ODN_SESSION_ATTN : RegDef :=
  ⟨0xF000D100010, 8, 0x100, 1, 0x0, [
    ⟨"NEXT", 31, 0, .ro, .ro, .runtime, 0, none⟩,
    ⟨"UNACKED", 42, 32, .ro, .ro, .runtime, 0, none⟩,
    ⟨"OVERFLOW", 63, 48, .ro, .ro, .runtime, 0, none⟩]⟩

/-- PWS_STATE (R378). -/
def RegDef.PWS_STATE : RegDef :=
  ⟨0xF000E000000, 1, 0x0, 1, 0x0, [
    ⟨"STATE", 1, 0, .ro, .ro, .runtime, 0, none⟩,
    ⟨"SHADED", 27, 16, .ro, .ro, .runtime, 0, none⟩,
    ⟨"LAST_RESET", 35, 32, .ro, .ro, .sticky, 0, none⟩]⟩

/-- PWS_CTL (R378). -/
def RegDef.PWS_CTL : RegDef :=
  ⟨0xF000E000008, 1, 0x0, 1, 0x0, [
    ⟨"SHADE_US", 15, 0, .rw, .ro, .pitch, 200, some (20, 65535)⟩,
    ⟨"AUTO_SHADE", 16, 16, .rw, .ro, .pitch, 1, none⟩]⟩

/-- PWS_REQUEST (R378). -/
def RegDef.PWS_REQUEST : RegDef :=
  ⟨0xF000E000010, 1, 0x0, 1, 0x0, [
    ⟨"STATE", 1, 0, .wo, .na, .runtime, 0, none⟩,
    ⟨"FORCE", 2, 2, .wo, .na, .runtime, 0, none⟩,
    ⟨"ALARM_MS", 47, 16, .wo, .na, .runtime, 0, none⟩]⟩

/-- PWS_RESET_COUNT (R378). -/
def RegDef.PWS_RESET_COUNT : RegDef :=
  ⟨0xF000E000018, 1, 0x0, 1, 0x0, [
    ⟨"WARM", 15, 0, .ro, .ro, .lantern, 0, none⟩,
    ⟨"SOFT", 31, 16, .ro, .ro, .lantern, 0, none⟩,
    ⟨"WATCHDOG", 47, 32, .ro, .ro, .lantern, 0, none⟩,
    ⟨"POWER_ON", 63, 48, .ro, .ro, .lantern, 0, none⟩]⟩

/-- PWS_WAKE (R378). -/
def RegDef.PWS_WAKE : RegDef :=
  ⟨0xF000E000020, 1, 0x0, 1, 0x0, [
    ⟨"LAST_US", 31, 0, .ro, .ro, .lantern, 0, none⟩,
    ⟨"BANKED", 47, 32, .ro, .ro, .lantern, 0, none⟩,
    ⟨"DOUSED", 63, 48, .ro, .ro, .lantern, 0, none⟩]⟩

/-- PWS_WATCHDOG (R378). -/
def RegDef.PWS_WATCHDOG : RegDef :=
  ⟨0xF000E000028, 1, 0x0, 1, 0x0, [
    ⟨"ACTIVE", 0, 0, .ro, .ro, .sticky, 0, none⟩,
    ⟨"STANDBY_OK", 1, 1, .ro, .ro, .sticky, 1, none⟩,
    ⟨"TAKEOVERS", 31, 16, .ro, .ro, .sticky, 0, none⟩]⟩

/-- PWS_CLUSTER (R378). -/
def RegDef.PWS_CLUSTER : RegDef :=
  ⟨0xF000E100000, 12, 0x10000, 1, 0x0, [
    ⟨"SHADED", 0, 0, .ro, .ro, .runtime, 0, none⟩,
    ⟨"PLL_LOCKED", 1, 1, .ro, .ro, .runtime, 0, none⟩,
    ⟨"RESET", 8, 8, .wo, .na, .runtime, 0, none⟩,
    ⟨"WAKES", 47, 16, .rw, .ro, .runtime, 0, none⟩,
    ⟨"RESETS", 63, 48, .ro, .ro, .sticky, 0, none⟩]⟩

/-- PCH_STATUS (R401). -/
def RegDef.PCH_STATUS : RegDef :=
  ⟨0xF000F000000, 1, 0x0, 1, 0x0, [
    ⟨"STATE", 1, 0, .ro, .ro, .runtime, 0, none⟩,
    ⟨"SLOT", 3, 2, .ro, .ro, .pitch, 0, none⟩,
    ⟨"UNTESTED", 4, 4, .ro, .ro, .lantern, 0, none⟩,
    ⟨"SAMPLE", 5, 5, .ro, .ro, .pitch, 0, none⟩,
    ⟨"QUICK", 6, 6, .ro, .ro, .runtime, 0, none⟩,
    ⟨"REASON", 31, 16, .ro, .ro, .runtime, 0, none⟩]⟩

/-- PCH_VERSION (R401). -/
def RegDef.PCH_VERSION : RegDef :=
  ⟨0xF000F000008, 1, 0x0, 1, 0x0, [
    ⟨"WARDEN", 31, 0, .ro, .ro, .pitch, 0, none⟩,
    ⟨"STEWARD", 63, 32, .ro, .ro, .pitch, 0, none⟩]⟩

/-- PCH_IMAGE (R401). -/
def RegDef.PCH_IMAGE : RegDef :=
  ⟨0xF000F000010, 1, 0x0, 1, 0x0, [
    ⟨"PITCH_VERSION", 31, 0, .ro, .ro, .pitch, 0, none⟩,
    ⟨"PITCH_FORMAT", 39, 32, .ro, .ro, .pitch, 0, none⟩]⟩

/-- PCH_FUSE (R401). -/
def RegDef.PCH_FUSE : RegDef :=
  ⟨0xF000F000018, 1, 0x0, 1, 0x0, [
    ⟨"SVN_WARDEN", 6, 0, .ro, .ro, .pitch, 0, none⟩,
    ⟨"SVN_STEWARD", 14, 8, .ro, .ro, .pitch, 0, none⟩,
    ⟨"SVN_PITCH", 22, 16, .ro, .ro, .pitch, 0, none⟩,
    ⟨"ENROLLED", 27, 24, .ro, .ro, .pitch, 0, none⟩,
    ⟨"REVOKED", 31, 28, .ro, .ro, .pitch, 0, none⟩,
    ⟨"GRENOG_REVOKED", 35, 32, .ro, .ro, .pitch, 0, none⟩]⟩

/-- PCH_BOOT (R401). -/
def RegDef.PCH_BOOT : RegDef :=
  ⟨0xF000F000020, 1, 0x0, 1, 0x0, [
    ⟨"FAILS_0", 1, 0, .ro, .ro, .lantern, 0, none⟩,
    ⟨"FAILS_1", 3, 2, .ro, .ro, .lantern, 0, none⟩,
    ⟨"NEXT_SLOT", 5, 4, .rw, .ro, .lantern, 0, some (0, 2)⟩,
    ⟨"BOOT_COUNT", 47, 16, .ro, .ro, .lantern, 0, none⟩]⟩

/-- PCH_REFUSE (R401). -/
def RegDef.PCH_REFUSE : RegDef :=
  ⟨0xF000F000028, 1, 0x0, 1, 0x0, [
    ⟨"CODE", 15, 0, .ro, .ro, .lantern, 0, none⟩,
    ⟨"SECTION", 23, 16, .ro, .ro, .lantern, 0, none⟩,
    ⟨"SLOT", 25, 24, .ro, .ro, .lantern, 0, none⟩,
    ⟨"SIG", 27, 26, .ro, .ro, .lantern, 0, none⟩,
    ⟨"VALID", 28, 28, .w1c, .ro, .lantern, 0, none⟩]⟩

/-- PCH_SECURITY (R401). -/
def RegDef.PCH_SECURITY : RegDef :=
  ⟨0xF000F000030, 1, 0x0, 1, 0x0, [
    ⟨"SIG_FAILS", 15, 0, .ro, .ro, .lantern, 0, none⟩,
    ⟨"ROLLBACKS", 31, 16, .ro, .ro, .lantern, 0, none⟩,
    ⟨"KEYS", 47, 32, .ro, .ro, .lantern, 0, none⟩]⟩

/-- PCH_ROLLBACK (R401). -/
def RegDef.PCH_ROLLBACK : RegDef :=
  ⟨0xF000F000050, 1, 0x0, 1, 0x0, [
    ⟨"COMMIT", 0, 0, .wo, .na, .runtime, 0, none⟩]⟩

/-- PCH_ROM (R401). -/
def RegDef.PCH_ROM : RegDef :=
  ⟨0xF000F000058, 1, 0x0, 1, 0x0, [
    ⟨"WARDEN_MIN", 7, 0, .ro, .ro, .pitch, 0, none⟩,
    ⟨"WARDEN_MAX", 15, 8, .ro, .ro, .pitch, 0, none⟩,
    ⟨"STEWARD_MIN", 23, 16, .ro, .ro, .pitch, 0, none⟩,
    ⟨"STEWARD_MAX", 31, 24, .ro, .ro, .pitch, 0, none⟩]⟩

/-- PCH_SHAKEDOWN (R401). -/
def RegDef.PCH_SHAKEDOWN : RegDef :=
  ⟨0xF000F000060, 1, 0x0, 1, 0x0, [
    ⟨"CORES", 7, 0, .ro, .ro, .runtime, 0, none⟩,
    ⟨"VAULTS", 15, 8, .ro, .ro, .runtime, 0, none⟩,
    ⟨"OTHER", 23, 16, .ro, .ro, .runtime, 0, none⟩,
    ⟨"PITCH_MS", 47, 32, .ro, .ro, .runtime, 0, none⟩]⟩

/-- PCH_ENROLL_CMD (R401). -/
def RegDef.PCH_ENROLL_CMD : RegDef :=
  ⟨0xF000F000140, 1, 0x0, 1, 0x0, [
    ⟨"POSITION", 1, 0, .wo, .na, .runtime, 0, none⟩,
    ⟨"ENROLL", 8, 8, .wo, .na, .runtime, 0, none⟩,
    ⟨"REVOKE", 9, 9, .wo, .na, .runtime, 0, none⟩]⟩

/-- PCH_QUOTE_CTL (R401). -/
def RegDef.PCH_QUOTE_CTL : RegDef :=
  ⟨0xF000F000240, 1, 0x0, 1, 0x0, [
    ⟨"GO", 0, 0, .wo, .wo, .runtime, 0, none⟩,
    ⟨"SELECT", 1, 1, .rw, .rw, .runtime, 0, none⟩,
    ⟨"READY", 8, 8, .ro, .ro, .runtime, 0, none⟩,
    ⟨"LENGTH", 31, 16, .ro, .ro, .runtime, 0, none⟩]⟩

/-- PCH_SLOT (R401). -/
def RegDef.PCH_SLOT : RegDef :=
  ⟨0xF000F000040, 2, 0x8, 1, 0x0, [
    ⟨"WRITTEN", 26, 0, .ro, .ro, .runtime, 134217727, none⟩,
    ⟨"CHECK", 32, 32, .wo, .na, .runtime, 0, none⟩,
    ⟨"CHECK_OK", 33, 33, .ro, .ro, .runtime, 0, none⟩]⟩

/-- PCH_ENROLL_DIGEST (R401). -/
def RegDef.PCH_ENROLL_DIGEST : RegDef :=
  ⟨0xF000F000100, 8, 0x8, 1, 0x0, [
    ⟨"DIGEST", 63, 0, .rw, .na, .runtime, 0, none⟩]⟩

/-- PCH_QUOTE_NONCE (R401). -/
def RegDef.PCH_QUOTE_NONCE : RegDef :=
  ⟨0xF000F000200, 8, 0x8, 1, 0x0, [
    ⟨"NONCE", 63, 0, .rw, .rw, .runtime, 0, none⟩]⟩

/-- PCH_QUOTE_DATA (R401). -/
def RegDef.PCH_QUOTE_DATA : RegDef :=
  ⟨0xF000F001000, 512, 0x8, 1, 0x0, [
    ⟨"WORD", 63, 0, .ro, .ro, .runtime, 0, none⟩]⟩

/-- PMC_WINDOW (R419). -/
def RegDef.PMC_WINDOW : RegDef :=
  ⟨0xF0010000000, 1, 0x0, 1, 0x0, [
    ⟨"LENGTH_US", 19, 0, .rw, .ro, .runtime, 1000, some (1, 1000000)⟩,
    ⟨"SHORT", 20, 20, .ro, .ro, .runtime, 0, none⟩,
    ⟨"WINDOWS", 63, 32, .ro, .ro, .runtime, 0, none⟩]⟩

/-- PMC_GLOBAL_LOST (R419). -/
def RegDef.PMC_GLOBAL_LOST : RegDef :=
  ⟨0xF0010000008, 1, 0x0, 1, 0x0, [
    ⟨"LOST", 15, 0, .rw, .ro, .runtime, 0, none⟩]⟩

/-- PMC_ENERGY (R419). -/
def RegDef.PMC_ENERGY : RegDef :=
  ⟨0xF0010000010, 1, 0x0, 1, 0x0, [
    ⟨"TOTAL_UJ", 47, 0, .ro, .ro, .runtime, 0, none⟩,
    ⟨"ARRAY_FJ", 63, 48, .ro, .ro, .pitch, 0, none⟩]⟩

/-- PMC_ENERGY_WINDOW (R419). -/
def RegDef.PMC_ENERGY_WINDOW : RegDef :=
  ⟨0xF0010000018, 1, 0x0, 1, 0x0, [
    ⟨"UJ", 39, 0, .ro, .ro, .runtime, 0, none⟩]⟩

/-- PMC_TD_CTL (R419). -/
def RegDef.PMC_TD_CTL : RegDef :=
  ⟨0xF0010000020, 1, 0x0, 1, 0x0, [
    ⟨"MODE", 1, 0, .rw, .ro, .runtime, 0, none⟩,
    ⟨"CLUSTERS", 27, 16, .rw, .ro, .runtime, 0, none⟩,
    ⟨"RECOVERY", 39, 28, .ro, .ro, .runtime, 0, none⟩]⟩

/-- PMC_CNT_CTL (R419). -/
def RegDef.PMC_CNT_CTL : RegDef :=
  ⟨0xF0010000100, 64, 0x10, 1, 0x0, [
    ⟨"EVENT", 11, 0, .rw, .ro, .runtime, 0, none⟩,
    ⟨"MODE", 12, 12, .rw, .ro, .runtime, 1, none⟩,
    ⟨"ENABLE", 16, 16, .rw, .ro, .runtime, 0, none⟩,
    ⟨"ATTN", 17, 17, .rw, .ro, .runtime, 0, none⟩,
    ⟨"INSTANCE", 31, 24, .rw, .ro, .runtime, 255, none⟩,
    ⟨"ACTIVE_EVENT", 43, 32, .ro, .ro, .runtime, 0, none⟩,
    ⟨"OVF_EVENT", 59, 48, .ro, .ro, .runtime, 0, none⟩]⟩

/-- PMC_CNT (R419). -/
def RegDef.PMC_CNT : RegDef :=
  ⟨0xF0010000108, 64, 0x10, 1, 0x0, [
    ⟨"VALUE", 47, 0, .rw, .ro, .runtime, 0, none⟩,
    ⟨"OVF", 48, 48, .w1c, .ro, .runtime, 0, none⟩]⟩

/-- PMC_CL_LOST (R419). -/
def RegDef.PMC_CL_LOST : RegDef :=
  ⟨0xF0010100000, 12, 0x10000, 1, 0x0, [
    ⟨"LOST", 15, 0, .rw, .ro, .runtime, 0, none⟩]⟩

/-- PMC_TD_SEL (R419). -/
def RegDef.PMC_TD_SEL : RegDef :=
  ⟨0xF0010100008, 12, 0x10000, 1, 0x0, [
    ⟨"UNITS", 15, 0, .rw, .ro, .runtime, 0, none⟩,
    ⟨"INTERRUPTED", 32, 32, .w1c, .ro, .runtime, 0, none⟩]⟩

/-- PMC_CL_CNT_CTL (R419). -/
def RegDef.PMC_CL_CNT_CTL : RegDef :=
  ⟨0xF0010100100, 12, 0x10000, 16, 0x10, [
    ⟨"EVENT", 11, 0, .rw, .ro, .runtime, 0, none⟩,
    ⟨"MODE", 12, 12, .rw, .ro, .runtime, 1, none⟩,
    ⟨"ENABLE", 16, 16, .rw, .ro, .runtime, 0, none⟩,
    ⟨"ATTN", 17, 17, .rw, .ro, .runtime, 0, none⟩,
    ⟨"INSTANCE", 31, 24, .rw, .ro, .runtime, 255, none⟩,
    ⟨"ACTIVE_EVENT", 43, 32, .ro, .ro, .runtime, 0, none⟩,
    ⟨"OVF_EVENT", 59, 48, .ro, .ro, .runtime, 0, none⟩]⟩

/-- PMC_CL_CNT (R419). -/
def RegDef.PMC_CL_CNT : RegDef :=
  ⟨0xF0010100108, 12, 0x10000, 16, 0x10, [
    ⟨"VALUE", 47, 0, .rw, .ro, .runtime, 0, none⟩,
    ⟨"OVF", 48, 48, .w1c, .ro, .runtime, 0, none⟩]⟩

/-- PMC_BW (R419). -/
def RegDef.PMC_BW : RegDef :=
  ⟨0xF0010200000, 378, 0x8, 1, 0x0, [
    ⟨"BYTES", 47, 0, .ro, .ro, .runtime, 0, none⟩]⟩

/-- FLT_CTL (R435). -/
def RegDef.FLT_CTL : RegDef :=
  ⟨0xF0011000000, 1, 0x0, 1, 0x0, [
    ⟨"THROTTLE_C", 7, 0, .rw, .ro, .pitch, 95, none⟩,
    ⟨"SHADE_C", 15, 8, .rw, .ro, .pitch, 105, none⟩,
    ⟨"TRIP_C", 23, 16, .rw, .ro, .pitch, 115, none⟩,
    ⟨"POWER_CAP_W", 35, 24, .rw, .ro, .pitch, 1300, some (400, 1300)⟩,
    ⟨"MTX_MIN_LEVEL", 39, 36, .rw, .ro, .pitch, 2, some (2, 8)⟩]⟩

/-- FLT_GOV (R435). -/
def RegDef.FLT_GOV : RegDef :=
  ⟨0xF0011000008, 1, 0x0, 1, 0x0, [
    ⟨"LEVEL", 3, 0, .ro, .ro, .runtime, 8, none⟩,
    ⟨"MST_CAP", 9, 4, .ro, .ro, .runtime, 32, none⟩,
    ⟨"POWER_W", 27, 16, .ro, .ro, .runtime, 0, none⟩,
    ⟨"TEMP_MAX", 35, 28, .ro, .ro, .runtime, 0, none⟩,
    ⟨"HOT_SENSOR", 41, 36, .ro, .ro, .runtime, 0, none⟩,
    ⟨"HELD", 53, 42, .ro, .ro, .runtime, 0, none⟩,
    ⟨"TRIPPED", 54, 54, .ro, .ro, .sticky, 0, none⟩]⟩

/-- FLT_UNITS (R435). -/
def RegDef.FLT_UNITS : RegDef :=
  ⟨0xF0011000010, 1, 0x0, 1, 0x0, [
    ⟨"SPARE_SLOTS", 11, 0, .ro, .ro, .sticky, 4095, none⟩,
    ⟨"SPARE_CLUSTER", 12, 12, .ro, .ro, .sticky, 1, none⟩,
    ⟨"DEGRADED", 27, 16, .ro, .ro, .sticky, 0, none⟩,
    ⟨"LOST", 39, 28, .ro, .ro, .sticky, 0, none⟩,
    ⟨"VAULTS_LOST", 47, 40, .ro, .ro, .sticky, 0, none⟩,
    ⟨"UNITS_OUT", 55, 48, .ro, .ro, .sticky, 0, none⟩]⟩

/-- FLT_UNIT_CLEAR (R435). -/
def RegDef.FLT_UNIT_CLEAR : RegDef :=
  ⟨0xF0011000018, 1, 0x0, 1, 0x0, [
    ⟨"CLEAR", 0, 0, .wo, .na, .runtime, 0, none⟩,
    ⟨"PENDING", 1, 1, .ro, .ro, .runtime, 0, none⟩]⟩

/-- FLT_LOG_SEL (R435). -/
def RegDef.FLT_LOG_SEL : RegDef :=
  ⟨0xF0011000020, 1, 0x0, 1, 0x0, [
    ⟨"INDEX", 7, 0, .rw, .rw, .runtime, 0, none⟩,
    ⟨"COUNT", 16, 8, .ro, .ro, .lantern, 0, none⟩,
    ⟨"TOTAL", 48, 17, .ro, .ro, .lantern, 0, none⟩,
    ⟨"CLEAR", 63, 63, .wo, .na, .runtime, 0, none⟩]⟩

/-- FLT_LOG_DATA (R435). -/
def RegDef.FLT_LOG_DATA : RegDef :=
  ⟨0xF0011000028, 4, 0x8, 1, 0x0, [
    ⟨"WORD", 63, 0, .ro, .ro, .lantern, 0, none⟩]⟩

/-- MOD_ID (R463). -/
def RegDef.MOD_ID : RegDef :=
  ⟨0xF0012000000, 1, 0x0, 1, 0x0, [
    ⟨"PART", 15, 0, .ro, .ro, .pitch, 150, none⟩,
    ⟨"STEPPING", 23, 16, .ro, .ro, .pitch, 0, none⟩,
    ⟨"BOARD", 31, 24, .ro, .ro, .pitch, 0, none⟩]⟩

/-- MOD_PINS (R463). -/
def RegDef.MOD_PINS : RegDef :=
  ⟨0xF0012000008, 1, 0x0, 1, 0x0, [
    ⟨"RESET_N", 0, 0, .ro, .ro, .runtime, 1, none⟩,
    ⟨"PWRGOOD", 1, 1, .ro, .ro, .runtime, 1, none⟩,
    ⟨"THERM", 2, 2, .ro, .ro, .runtime, 0, none⟩,
    ⟨"FAULT", 3, 3, .ro, .ro, .runtime, 0, none⟩,
    ⟨"ENROLL_EN", 4, 4, .ro, .ro, .runtime, 0, none⟩,
    ⟨"ADDR", 7, 5, .ro, .ro, .runtime, 0, none⟩]⟩

/-- MOD_INPUT (R463). -/
def RegDef.MOD_INPUT : RegDef :=
  ⟨0xF0012000010, 1, 0x0, 1, 0x0, [
    ⟨"MILLIVOLTS", 15, 0, .ro, .ro, .runtime, 0, none⟩,
    ⟨"MILLIAMPS", 31, 16, .ro, .ro, .runtime, 0, none⟩,
    ⟨"WATTS", 43, 32, .ro, .ro, .runtime, 0, none⟩,
    ⟨"OUT_OF_RANGE", 59, 48, .rw, .ro, .sticky, 0, none⟩]⟩

/-- MOD_COOLANT (R463). -/
def RegDef.MOD_COOLANT : RegDef :=
  ⟨0xF0012000018, 1, 0x0, 1, 0x0, [
    ⟨"INLET_C", 7, 0, .ro, .ro, .runtime, 0, none⟩,
    ⟨"OUTLET_C", 15, 8, .ro, .ro, .runtime, 0, none⟩,
    ⟨"WARNINGS", 31, 16, .rw, .ro, .sticky, 0, none⟩]⟩

/-- MOD_MGMT (R463). -/
def RegDef.MOD_MGMT : RegDef :=
  ⟨0xF0012000020, 1, 0x0, 1, 0x0, [
    ⟨"ADDRESS", 6, 0, .ro, .ro, .runtime, 88, none⟩,
    ⟨"DYNAMIC", 7, 7, .ro, .ro, .runtime, 0, none⟩,
    ⟨"STUCK", 23, 8, .rw, .ro, .sticky, 0, none⟩,
    ⟨"ISOLATED", 24, 24, .ro, .ro, .runtime, 0, none⟩,
    ⟨"JTAG_DEBUG", 25, 25, .rw, .ro, .runtime, 0, none⟩]⟩

/-- CMP_ENG_JOB_E0 (R270). -/
def RegDef.CMP_ENG_JOB_E0 : RegDef :=
  ⟨0xF0009100020, 12, 0x10000, 4, 0x8, [
    ⟨"WORD", 63, 0, .ro, .ro, .runtime, 0, none⟩]⟩

/-- CMP_ENG_JOB_E1 (R270). -/
def RegDef.CMP_ENG_JOB_E1 : RegDef :=
  ⟨0xF0009100120, 12, 0x10000, 4, 0x8, [
    ⟨"WORD", 63, 0, .ro, .ro, .runtime, 0, none⟩]⟩

/-- The map of a register. -/
def regDef : RegId → RegDef
  | .VLT_STATUS => RegDef.VLT_STATUS
  | .VLT_ERR => RegDef.VLT_ERR
  | .VLT_ERR_ADDR => RegDef.VLT_ERR_ADDR
  | .VLT_POISON => RegDef.VLT_POISON
  | .VLT_SCRUB => RegDef.VLT_SCRUB
  | .VLT_OPS_STATUS => RegDef.VLT_OPS_STATUS
  | .VLT_OPS_ROWS => RegDef.VLT_OPS_ROWS
  | .VLT_OPS_JOIN => RegDef.VLT_OPS_JOIN
  | .VLT_OPS_EXC => RegDef.VLT_OPS_EXC
  | .VLT_SCRUB_CTL => RegDef.VLT_SCRUB_CTL
  | .VLT_WATCH => RegDef.VLT_WATCH
  | .VLT_OPS_CTL => RegDef.VLT_OPS_CTL
  | .VLT_OPS_FAIL => RegDef.VLT_OPS_FAIL
  | .LPT_CH_STATUS => RegDef.LPT_CH_STATUS
  | .LPT_CH_ERR => RegDef.LPT_CH_ERR
  | .LPT_CH_ERR_ADDR => RegDef.LPT_CH_ERR_ADDR
  | .LPT_CH_POISON => RegDef.LPT_CH_POISON
  | .LPT_CH_SCRUB => RegDef.LPT_CH_SCRUB
  | .LPT_AVAIL => RegDef.LPT_AVAIL
  | .PIP_CTL => RegDef.PIP_CTL
  | .PIP_STATUS => RegDef.PIP_STATUS
  | .PIP_COUNT => RegDef.PIP_COUNT
  | .PIP_RUN_STATE => RegDef.PIP_RUN_STATE
  | .PIP_RUN_ROWS_IN => RegDef.PIP_RUN_ROWS_IN
  | .PIP_RUN_ROWS_OUT => RegDef.PIP_RUN_ROWS_OUT
  | .PIP_RUN_LOSS_A => RegDef.PIP_RUN_LOSS_A
  | .PIP_RUN_LOSS_B => RegDef.PIP_RUN_LOSS_B
  | .PIP_RUN_STATUS => RegDef.PIP_RUN_STATUS
  | .PIP_RUN_START => RegDef.PIP_RUN_START
  | .ING_CTL => RegDef.ING_CTL
  | .ING_LOSS_A => RegDef.ING_LOSS_A
  | .ING_LOSS_B => RegDef.ING_LOSS_B
  | .ING_LOSS_C => RegDef.ING_LOSS_C
  | .ING_LOSS_D => RegDef.ING_LOSS_D
  | .ING_BATCH => RegDef.ING_BATCH
  | .ING_DEC_STATUS => RegDef.ING_DEC_STATUS
  | .ING_STREAM_STATE => RegDef.ING_STREAM_STATE
  | .ING_STREAM_COUNT => RegDef.ING_STREAM_COUNT
  | .ING_MEAN => RegDef.ING_MEAN
  | .LAY_DESC_SEL => RegDef.LAY_DESC_SEL
  | .LAY_DESC_STATUS => RegDef.LAY_DESC_STATUS
  | .LAY_REFUSE => RegDef.LAY_REFUSE
  | .LAY_DESC_DATA => RegDef.LAY_DESC_DATA
  | .LAY_STATUS => RegDef.LAY_STATUS
  | .LAY_BYTES => RegDef.LAY_BYTES
  | .LAY_IDX => RegDef.LAY_IDX
  | .LAY_COMBINE => RegDef.LAY_COMBINE
  | .MST_CTL => RegDef.MST_CTL
  | .MST_STATUS => RegDef.MST_STATUS
  | .MST_SEARCHES => RegDef.MST_SEARCHES
  | .MST_SCRUB => RegDef.MST_SCRUB
  | .MST_THROTTLE => RegDef.MST_THROTTLE
  | .MST_STAGE_META => RegDef.MST_STAGE_META
  | .MST_CMD => RegDef.MST_CMD
  | .MST_RESULT => RegDef.MST_RESULT
  | .MST_STAGE_KEY => RegDef.MST_STAGE_KEY
  | .MST_STAGE_MASK => RegDef.MST_STAGE_MASK
  | .MST_STAGE_RES => RegDef.MST_STAGE_RES
  | .MST_RESULT_DATA => RegDef.MST_RESULT_DATA
  | .MST_TABLE_CFG => RegDef.MST_TABLE_CFG
  | .MST_TABLE_STATE => RegDef.MST_TABLE_STATE
  | .MST_TABLE_OPS => RegDef.MST_TABLE_OPS
  | .MST_TABLE_ERR => RegDef.MST_TABLE_ERR
  | .MST_BLOCK_STATUS => RegDef.MST_BLOCK_STATUS
  | .PAT_CTL => RegDef.PAT_CTL
  | .PAT_STATUS => RegDef.PAT_STATUS
  | .PAT_ENG_STATUS => RegDef.PAT_ENG_STATUS
  | .PAT_ENG_BYTES => RegDef.PAT_ENG_BYTES
  | .PAT_ENG_COUNT => RegDef.PAT_ENG_COUNT
  | .PAT_STREAM => RegDef.PAT_STREAM
  | .EMB_CTL => RegDef.EMB_CTL
  | .EMB_HOT_CTL => RegDef.EMB_HOT_CTL
  | .EMB_GATHER => RegDef.EMB_GATHER
  | .EMB_ROUND_COUNT => RegDef.EMB_ROUND_COUNT
  | .EMB_ROUND_TIME => RegDef.EMB_ROUND_TIME
  | .EMB_MIGRATE => RegDef.EMB_MIGRATE
  | .EMB_TABLE_STATUS => RegDef.EMB_TABLE_STATUS
  | .EMB_TABLE_COUNT => RegDef.EMB_TABLE_COUNT
  | .EMB_MIGRATE_STATE => RegDef.EMB_MIGRATE_STATE
  | .EMB_MIGRATE_ROWS => RegDef.EMB_MIGRATE_ROWS
  | .CMP_CTL => RegDef.CMP_CTL
  | .CMP_STATUS => RegDef.CMP_STATUS
  | .CMP_FAIL => RegDef.CMP_FAIL
  | .CMP_ENG_STATUS => RegDef.CMP_ENG_STATUS
  | .CMP_ENG_BYTES_IN => RegDef.CMP_ENG_BYTES_IN
  | .CMP_ENG_BYTES_OUT => RegDef.CMP_ENG_BYTES_OUT
  | .CMP_ENG_COUNT => RegDef.CMP_ENG_COUNT
  | .MTX_CTL => RegDef.MTX_CTL
  | .MTX_STATUS => RegDef.MTX_STATUS
  | .MTX_FAIL => RegDef.MTX_FAIL
  | .MTX_CORE_STATUS => RegDef.MTX_CORE_STATUS
  | .MTX_CORE_CYCLES => RegDef.MTX_CORE_CYCLES
  | .MTX_CORE_EXC => RegDef.MTX_CORE_EXC
  | .MTX_CORE_REPAIR => RegDef.MTX_CORE_REPAIR
  | .DSP_CTL => RegDef.DSP_CTL
  | .DSP_STATUS => RegDef.DSP_STATUS
  | .DSP_COUNT => RegDef.DSP_COUNT
  | .DSP_CANCEL => RegDef.DSP_CANCEL
  | .DSP_LOG_CTL => RegDef.DSP_LOG_CTL
  | .DSP_LOG_BASE => RegDef.DSP_LOG_BASE
  | .DSP_LOG_SIZE => RegDef.DSP_LOG_SIZE
  | .DSP_LOG_STATUS => RegDef.DSP_LOG_STATUS
  | .DSP_LOG_DROP => RegDef.DSP_LOG_DROP
  | .DSP_LEVEL => RegDef.DSP_LEVEL
  | .DSP_CENSUS_DEPTH => RegDef.DSP_CENSUS_DEPTH
  | .DSP_CENSUS_WAIT => RegDef.DSP_CENSUS_WAIT
  | .DSP_CENSUS_LOAD => RegDef.DSP_CENSUS_LOAD
  | .DSP_RUN_TASKS => RegDef.DSP_RUN_TASKS
  | .DSP_RUN_STALL => RegDef.DSP_RUN_STALL
  | .TTH_ID => RegDef.TTH_ID
  | .TTH_CTL => RegDef.TTH_CTL
  | .TTH_TIME => RegDef.TTH_TIME
  | .TTH_DISCARD => RegDef.TTH_DISCARD
  | .TTH_LINK_STATUS => RegDef.TTH_LINK_STATUS
  | .TTH_LINK_CTL => RegDef.TTH_LINK_CTL
  | .TTH_LINK_ERR => RegDef.TTH_LINK_ERR
  | .TTH_LINK_BYTES_TX => RegDef.TTH_LINK_BYTES_TX
  | .TTH_LINK_BYTES_RX => RegDef.TTH_LINK_BYTES_RX
  | .TTH_LINK_CREDIT => RegDef.TTH_LINK_CREDIT
  | .TTH_ROUTE0 => RegDef.TTH_ROUTE0
  | .TTH_ROUTE1 => RegDef.TTH_ROUTE1
  | .ODN_CTL => RegDef.ODN_CTL
  | .ODN_MAC => RegDef.ODN_MAC
  | .ODN_NODE_MAC => RegDef.ODN_NODE_MAC
  | .ODN_STATUS => RegDef.ODN_STATUS
  | .ODN_COUNT => RegDef.ODN_COUNT
  | .ODN_AUTH => RegDef.ODN_AUTH
  | .ODN_SESSION => RegDef.ODN_SESSION
  | .ODN_SESSION_SEQ => RegDef.ODN_SESSION_SEQ
  | .ODN_SESSION_ATTN => RegDef.ODN_SESSION_ATTN
  | .PWS_STATE => RegDef.PWS_STATE
  | .PWS_CTL => RegDef.PWS_CTL
  | .PWS_REQUEST => RegDef.PWS_REQUEST
  | .PWS_RESET_COUNT => RegDef.PWS_RESET_COUNT
  | .PWS_WAKE => RegDef.PWS_WAKE
  | .PWS_WATCHDOG => RegDef.PWS_WATCHDOG
  | .PWS_CLUSTER => RegDef.PWS_CLUSTER
  | .PCH_STATUS => RegDef.PCH_STATUS
  | .PCH_VERSION => RegDef.PCH_VERSION
  | .PCH_IMAGE => RegDef.PCH_IMAGE
  | .PCH_FUSE => RegDef.PCH_FUSE
  | .PCH_BOOT => RegDef.PCH_BOOT
  | .PCH_REFUSE => RegDef.PCH_REFUSE
  | .PCH_SECURITY => RegDef.PCH_SECURITY
  | .PCH_ROLLBACK => RegDef.PCH_ROLLBACK
  | .PCH_ROM => RegDef.PCH_ROM
  | .PCH_SHAKEDOWN => RegDef.PCH_SHAKEDOWN
  | .PCH_ENROLL_CMD => RegDef.PCH_ENROLL_CMD
  | .PCH_QUOTE_CTL => RegDef.PCH_QUOTE_CTL
  | .PCH_SLOT => RegDef.PCH_SLOT
  | .PCH_ENROLL_DIGEST => RegDef.PCH_ENROLL_DIGEST
  | .PCH_QUOTE_NONCE => RegDef.PCH_QUOTE_NONCE
  | .PCH_QUOTE_DATA => RegDef.PCH_QUOTE_DATA
  | .PMC_WINDOW => RegDef.PMC_WINDOW
  | .PMC_GLOBAL_LOST => RegDef.PMC_GLOBAL_LOST
  | .PMC_ENERGY => RegDef.PMC_ENERGY
  | .PMC_ENERGY_WINDOW => RegDef.PMC_ENERGY_WINDOW
  | .PMC_TD_CTL => RegDef.PMC_TD_CTL
  | .PMC_CNT_CTL => RegDef.PMC_CNT_CTL
  | .PMC_CNT => RegDef.PMC_CNT
  | .PMC_CL_LOST => RegDef.PMC_CL_LOST
  | .PMC_TD_SEL => RegDef.PMC_TD_SEL
  | .PMC_CL_CNT_CTL => RegDef.PMC_CL_CNT_CTL
  | .PMC_CL_CNT => RegDef.PMC_CL_CNT
  | .PMC_BW => RegDef.PMC_BW
  | .FLT_CTL => RegDef.FLT_CTL
  | .FLT_GOV => RegDef.FLT_GOV
  | .FLT_UNITS => RegDef.FLT_UNITS
  | .FLT_UNIT_CLEAR => RegDef.FLT_UNIT_CLEAR
  | .FLT_LOG_SEL => RegDef.FLT_LOG_SEL
  | .FLT_LOG_DATA => RegDef.FLT_LOG_DATA
  | .MOD_ID => RegDef.MOD_ID
  | .MOD_PINS => RegDef.MOD_PINS
  | .MOD_INPUT => RegDef.MOD_INPUT
  | .MOD_COOLANT => RegDef.MOD_COOLANT
  | .MOD_MGMT => RegDef.MOD_MGMT
  | .CMP_ENG_JOB_E0 => RegDef.CMP_ENG_JOB_E0
  | .CMP_ENG_JOB_E1 => RegDef.CMP_ENG_JOB_E1

def allRegs0 : List RegId :=
  [.VLT_STATUS, .VLT_ERR, .VLT_ERR_ADDR, .VLT_POISON, .VLT_SCRUB,
   .VLT_OPS_STATUS, .VLT_OPS_ROWS, .VLT_OPS_JOIN, .VLT_OPS_EXC, .VLT_SCRUB_CTL,
   .VLT_WATCH, .VLT_OPS_CTL, .VLT_OPS_FAIL, .LPT_CH_STATUS, .LPT_CH_ERR,
   .LPT_CH_ERR_ADDR, .LPT_CH_POISON, .LPT_CH_SCRUB, .LPT_AVAIL, .PIP_CTL,
   .PIP_STATUS, .PIP_COUNT, .PIP_RUN_STATE, .PIP_RUN_ROWS_IN, .PIP_RUN_ROWS_OUT,
   .PIP_RUN_LOSS_A, .PIP_RUN_LOSS_B, .PIP_RUN_STATUS, .PIP_RUN_START, .ING_CTL]

def allRegs1 : List RegId :=
  [.ING_LOSS_A, .ING_LOSS_B, .ING_LOSS_C, .ING_LOSS_D, .ING_BATCH,
   .ING_DEC_STATUS, .ING_STREAM_STATE, .ING_STREAM_COUNT, .ING_MEAN, .LAY_DESC_SEL,
   .LAY_DESC_STATUS, .LAY_REFUSE, .LAY_DESC_DATA, .LAY_STATUS, .LAY_BYTES,
   .LAY_IDX, .LAY_COMBINE, .MST_CTL, .MST_STATUS, .MST_SEARCHES,
   .MST_SCRUB, .MST_THROTTLE, .MST_STAGE_META, .MST_CMD, .MST_RESULT,
   .MST_STAGE_KEY, .MST_STAGE_MASK, .MST_STAGE_RES, .MST_RESULT_DATA, .MST_TABLE_CFG]

def allRegs2 : List RegId :=
  [.MST_TABLE_STATE, .MST_TABLE_OPS, .MST_TABLE_ERR, .MST_BLOCK_STATUS, .PAT_CTL,
   .PAT_STATUS, .PAT_ENG_STATUS, .PAT_ENG_BYTES, .PAT_ENG_COUNT, .PAT_STREAM,
   .EMB_CTL, .EMB_HOT_CTL, .EMB_GATHER, .EMB_ROUND_COUNT, .EMB_ROUND_TIME,
   .EMB_MIGRATE, .EMB_TABLE_STATUS, .EMB_TABLE_COUNT, .EMB_MIGRATE_STATE, .EMB_MIGRATE_ROWS,
   .CMP_CTL, .CMP_STATUS, .CMP_FAIL, .CMP_ENG_STATUS, .CMP_ENG_BYTES_IN,
   .CMP_ENG_BYTES_OUT, .CMP_ENG_COUNT, .MTX_CTL, .MTX_STATUS, .MTX_FAIL]

def allRegs3 : List RegId :=
  [.MTX_CORE_STATUS, .MTX_CORE_CYCLES, .MTX_CORE_EXC, .MTX_CORE_REPAIR, .DSP_CTL,
   .DSP_STATUS, .DSP_COUNT, .DSP_CANCEL, .DSP_LOG_CTL, .DSP_LOG_BASE,
   .DSP_LOG_SIZE, .DSP_LOG_STATUS, .DSP_LOG_DROP, .DSP_LEVEL, .DSP_CENSUS_DEPTH,
   .DSP_CENSUS_WAIT, .DSP_CENSUS_LOAD, .DSP_RUN_TASKS, .DSP_RUN_STALL, .TTH_ID,
   .TTH_CTL, .TTH_TIME, .TTH_DISCARD, .TTH_LINK_STATUS, .TTH_LINK_CTL,
   .TTH_LINK_ERR, .TTH_LINK_BYTES_TX, .TTH_LINK_BYTES_RX, .TTH_LINK_CREDIT, .TTH_ROUTE0]

def allRegs4 : List RegId :=
  [.TTH_ROUTE1, .ODN_CTL, .ODN_MAC, .ODN_NODE_MAC, .ODN_STATUS,
   .ODN_COUNT, .ODN_AUTH, .ODN_SESSION, .ODN_SESSION_SEQ, .ODN_SESSION_ATTN,
   .PWS_STATE, .PWS_CTL, .PWS_REQUEST, .PWS_RESET_COUNT, .PWS_WAKE,
   .PWS_WATCHDOG, .PWS_CLUSTER, .PCH_STATUS, .PCH_VERSION, .PCH_IMAGE,
   .PCH_FUSE, .PCH_BOOT, .PCH_REFUSE, .PCH_SECURITY, .PCH_ROLLBACK,
   .PCH_ROM, .PCH_SHAKEDOWN, .PCH_ENROLL_CMD, .PCH_QUOTE_CTL, .PCH_SLOT]

def allRegs5 : List RegId :=
  [.PCH_ENROLL_DIGEST, .PCH_QUOTE_NONCE, .PCH_QUOTE_DATA, .PMC_WINDOW, .PMC_GLOBAL_LOST,
   .PMC_ENERGY, .PMC_ENERGY_WINDOW, .PMC_TD_CTL, .PMC_CNT_CTL, .PMC_CNT,
   .PMC_CL_LOST, .PMC_TD_SEL, .PMC_CL_CNT_CTL, .PMC_CL_CNT, .PMC_BW,
   .FLT_CTL, .FLT_GOV, .FLT_UNITS, .FLT_UNIT_CLEAR, .FLT_LOG_SEL,
   .FLT_LOG_DATA, .MOD_ID, .MOD_PINS, .MOD_INPUT, .MOD_COOLANT,
   .MOD_MGMT, .CMP_ENG_JOB_E0, .CMP_ENG_JOB_E1]

/-- Every register of the index. -/
def allRegs : List RegId :=
  allRegs0 ++ allRegs1 ++ allRegs2 ++ allRegs3 ++ allRegs4 ++ allRegs5

end Sys2Proof.Machine
end

