-- ==== Sys2Proof/Machine/Fields.lean ====
section
/-!
DEFINITION. The names of the register fields that the operations read and write: `F.<register>_<field>`.
-/
namespace Sys2Proof.Machine.F

def VLT_STATUS_SELF_REFRESH : FRef := ⟨.VLT_STATUS, 0, 0⟩
def VLT_STATUS_SPARE_SLOT : FRef := ⟨.VLT_STATUS, 1, 1⟩
def VLT_STATUS_REFRESH_MULT : FRef := ⟨.VLT_STATUS, 3, 2⟩
def VLT_STATUS_TEMP : FRef := ⟨.VLT_STATUS, 15, 8⟩
def VLT_ERR_REPLAY_OK : FRef := ⟨.VLT_ERR, 15, 0⟩
def VLT_ERR_POISONED : FRef := ⟨.VLT_ERR, 31, 16⟩
def VLT_ERR_SCRUB_PERSIST : FRef := ⟨.VLT_ERR, 47, 32⟩
def VLT_ERR_MIRROR_REPAIR : FRef := ⟨.VLT_ERR, 63, 48⟩
def VLT_ERR_ADDR_OFFSET : FRef := ⟨.VLT_ERR_ADDR, 28, 0⟩
def VLT_ERR_ADDR_SCRUB : FRef := ⟨.VLT_ERR_ADDR, 29, 29⟩
def VLT_ERR_ADDR_MIRRORED : FRef := ⟨.VLT_ERR_ADDR, 30, 30⟩
def VLT_ERR_ADDR_VALID : FRef := ⟨.VLT_ERR_ADDR, 31, 31⟩
def VLT_POISON_USED : FRef := ⟨.VLT_POISON, 8, 0⟩
def VLT_POISON_FULL : FRef := ⟨.VLT_POISON, 16, 16⟩
def VLT_SCRUB_POSITION : FRef := ⟨.VLT_SCRUB, 28, 0⟩
def VLT_SCRUB_PASSES : FRef := ⟨.VLT_SCRUB, 47, 32⟩
def VLT_OPS_STATUS_BUSY : FRef := ⟨.VLT_OPS_STATUS, 0, 0⟩
def VLT_OPS_STATUS_OP : FRef := ⟨.VLT_OPS_STATUS, 15, 8⟩
def VLT_OPS_STATUS_JOIN_HELD : FRef := ⟨.VLT_OPS_STATUS, 16, 16⟩
def VLT_OPS_ROWS_ROWS : FRef := ⟨.VLT_OPS_ROWS, 47, 0⟩
def VLT_OPS_JOIN_BUILD_ROWS : FRef := ⟨.VLT_OPS_JOIN, 31, 0⟩
def VLT_OPS_JOIN_OVERFLOW : FRef := ⟨.VLT_OPS_JOIN, 47, 32⟩
def VLT_OPS_EXC_DOMAIN : FRef := ⟨.VLT_OPS_EXC, 15, 0⟩
def VLT_OPS_EXC_NONFINITE : FRef := ⟨.VLT_OPS_EXC, 31, 16⟩
def VLT_OPS_EXC_DICT_MULTI : FRef := ⟨.VLT_OPS_EXC, 47, 32⟩
def VLT_OPS_EXC_RANGE_NOMATCH : FRef := ⟨.VLT_OPS_EXC, 63, 48⟩
def VLT_SCRUB_CTL_ENABLE : FRef := ⟨.VLT_SCRUB_CTL, 0, 0⟩
def VLT_SCRUB_CTL_PERIOD : FRef := ⟨.VLT_SCRUB_CTL, 12, 8⟩
def VLT_WATCH_USED : FRef := ⟨.VLT_WATCH, 12, 0⟩
def VLT_WATCH_PITCHED : FRef := ⟨.VLT_WATCH, 28, 16⟩
def VLT_WATCH_REFUSED : FRef := ⟨.VLT_WATCH, 32, 32⟩
def VLT_OPS_CTL_CORE_CHUNK : FRef := ⟨.VLT_OPS_CTL, 9, 0⟩
def VLT_OPS_CTL_TAG_FILTER : FRef := ⟨.VLT_OPS_CTL, 16, 16⟩
def VLT_OPS_FAIL_CODE : FRef := ⟨.VLT_OPS_FAIL, 15, 0⟩
def VLT_OPS_FAIL_OP : FRef := ⟨.VLT_OPS_FAIL, 23, 16⟩
def VLT_OPS_FAIL_VAULT : FRef := ⟨.VLT_OPS_FAIL, 39, 32⟩
def LPT_CH_STATUS_STATE : FRef := ⟨.LPT_CH_STATUS, 1, 0⟩
def LPT_CH_STATUS_REFRESH_RATE : FRef := ⟨.LPT_CH_STATUS, 7, 4⟩
def LPT_CH_ERR_REPLAY_OK : FRef := ⟨.LPT_CH_ERR, 15, 0⟩
def LPT_CH_ERR_POISONED : FRef := ⟨.LPT_CH_ERR, 31, 16⟩
def LPT_CH_ERR_SCRUB_PERSIST : FRef := ⟨.LPT_CH_ERR, 47, 32⟩
def LPT_CH_ERR_MIRROR_REPAIR : FRef := ⟨.LPT_CH_ERR, 63, 48⟩
def LPT_CH_ERR_ADDR_OFFSET : FRef := ⟨.LPT_CH_ERR_ADDR, 33, 0⟩
def LPT_CH_ERR_ADDR_SCRUB : FRef := ⟨.LPT_CH_ERR_ADDR, 34, 34⟩
def LPT_CH_ERR_ADDR_MIRRORED : FRef := ⟨.LPT_CH_ERR_ADDR, 35, 35⟩
def LPT_CH_ERR_ADDR_VALID : FRef := ⟨.LPT_CH_ERR_ADDR, 36, 36⟩
def LPT_CH_POISON_USED : FRef := ⟨.LPT_CH_POISON, 8, 0⟩
def LPT_CH_POISON_FULL : FRef := ⟨.LPT_CH_POISON, 16, 16⟩
def LPT_CH_SCRUB_POSITION : FRef := ⟨.LPT_CH_SCRUB, 33, 0⟩
def LPT_CH_SCRUB_PASSES : FRef := ⟨.LPT_CH_SCRUB, 63, 48⟩
def LPT_AVAIL_CHANNELS : FRef := ⟨.LPT_AVAIL, 31, 0⟩
def PIP_CTL_MAX_RUNS : FRef := ⟨.PIP_CTL, 6, 0⟩
def PIP_CTL_ACCEPT : FRef := ⟨.PIP_CTL, 8, 8⟩
def PIP_STATUS_ACTIVE : FRef := ⟨.PIP_STATUS, 6, 0⟩
def PIP_STATUS_PIPELINES : FRef := ⟨.PIP_STATUS, 16, 8⟩
def PIP_STATUS_REGIONS : FRef := ⟨.PIP_STATUS, 44, 32⟩
def PIP_COUNT_STARTED : FRef := ⟨.PIP_COUNT, 31, 0⟩
def PIP_COUNT_FAILED : FRef := ⟨.PIP_COUNT, 47, 32⟩
def PIP_COUNT_CANCELLED : FRef := ⟨.PIP_COUNT, 63, 48⟩
def PIP_RUN_STATE_RUN : FRef := ⟨.PIP_RUN_STATE, 31, 0⟩
def PIP_RUN_STATE_STATE : FRef := ⟨.PIP_RUN_STATE, 34, 32⟩
def PIP_RUN_STATE_KEEPER : FRef := ⟨.PIP_RUN_STATE, 35, 35⟩
def PIP_RUN_STATE_PIPELINE : FRef := ⟨.PIP_RUN_STATE, 47, 40⟩
def PIP_RUN_STATE_PRIORITY : FRef := ⟨.PIP_RUN_STATE, 50, 48⟩
def PIP_RUN_ROWS_IN_COUNT : FRef := ⟨.PIP_RUN_ROWS_IN, 47, 0⟩
def PIP_RUN_ROWS_OUT_COUNT : FRef := ⟨.PIP_RUN_ROWS_OUT, 47, 0⟩
def PIP_RUN_LOSS_A_FIRST : FRef := ⟨.PIP_RUN_LOSS_A, 31, 0⟩
def PIP_RUN_LOSS_A_SECOND : FRef := ⟨.PIP_RUN_LOSS_A, 63, 32⟩
def PIP_RUN_LOSS_B_FIRST : FRef := ⟨.PIP_RUN_LOSS_B, 31, 0⟩
def PIP_RUN_LOSS_B_SECOND : FRef := ⟨.PIP_RUN_LOSS_B, 63, 32⟩
def PIP_RUN_STATUS_STATUS : FRef := ⟨.PIP_RUN_STATUS, 15, 0⟩
def PIP_RUN_STATUS_FAILURES : FRef := ⟨.PIP_RUN_STATUS, 31, 16⟩
def PIP_RUN_STATUS_BATCHES : FRef := ⟨.PIP_RUN_STATUS, 63, 32⟩
def PIP_RUN_START_TIME : FRef := ⟨.PIP_RUN_START, 63, 0⟩
def ING_CTL_STALE_DEFAULT : FRef := ⟨.ING_CTL, 23, 0⟩
def ING_LOSS_A_FIRST : FRef := ⟨.ING_LOSS_A, 31, 0⟩
def ING_LOSS_A_SECOND : FRef := ⟨.ING_LOSS_A, 63, 32⟩
def ING_LOSS_B_FIRST : FRef := ⟨.ING_LOSS_B, 31, 0⟩
def ING_LOSS_B_SECOND : FRef := ⟨.ING_LOSS_B, 63, 32⟩
def ING_LOSS_C_FIRST : FRef := ⟨.ING_LOSS_C, 31, 0⟩
def ING_LOSS_C_SECOND : FRef := ⟨.ING_LOSS_C, 63, 32⟩
def ING_LOSS_D_FIRST : FRef := ⟨.ING_LOSS_D, 31, 0⟩
def ING_LOSS_D_SECOND : FRef := ⟨.ING_LOSS_D, 63, 32⟩
def ING_BATCH_LATE : FRef := ⟨.ING_BATCH, 31, 0⟩
def ING_BATCH_TIMEOUTS : FRef := ⟨.ING_BATCH, 63, 32⟩
def ING_DEC_STATUS_JPEG_BUSY : FRef := ⟨.ING_DEC_STATUS, 3, 0⟩
def ING_DEC_STATUS_PYRAMID_BUSY : FRef := ⟨.ING_DEC_STATUS, 8, 8⟩
def ING_DEC_STATUS_PIXELS : FRef := ⟨.ING_DEC_STATUS, 63, 16⟩
def ING_STREAM_STATE_RUN : FRef := ⟨.ING_STREAM_STATE, 31, 0⟩
def ING_STREAM_STATE_BOUND : FRef := ⟨.ING_STREAM_STATE, 32, 32⟩
def ING_STREAM_STATE_DECLARED : FRef := ⟨.ING_STREAM_STATE, 33, 33⟩
def ING_STREAM_STATE_GATEWAY : FRef := ⟨.ING_STREAM_STATE, 55, 36⟩
def ING_STREAM_COUNT_ADMITTED : FRef := ⟨.ING_STREAM_COUNT, 31, 0⟩
def ING_STREAM_COUNT_NO_RUN : FRef := ⟨.ING_STREAM_COUNT, 47, 32⟩
def ING_STREAM_COUNT_GAPS : FRef := ⟨.ING_STREAM_COUNT, 63, 48⟩
def ING_MEAN_MEAN_NS : FRef := ⟨.ING_MEAN, 31, 0⟩
def ING_MEAN_STAGE : FRef := ⟨.ING_MEAN, 39, 32⟩
def LAY_DESC_SEL_NUMBER : FRef := ⟨.LAY_DESC_SEL, 15, 0⟩
def LAY_DESC_SEL_EMPTY : FRef := ⟨.LAY_DESC_SEL, 16, 16⟩
def LAY_DESC_STATUS_PITCHED : FRef := ⟨.LAY_DESC_STATUS, 15, 0⟩
def LAY_DESC_STATUS_BOUND : FRef := ⟨.LAY_DESC_STATUS, 31, 16⟩
def LAY_REFUSE_CODE : FRef := ⟨.LAY_REFUSE, 15, 0⟩
def LAY_REFUSE_DESC : FRef := ⟨.LAY_REFUSE, 31, 16⟩
def LAY_REFUSE_RUN_SLOT : FRef := ⟨.LAY_REFUSE, 37, 32⟩
def LAY_REFUSE_VALID : FRef := ⟨.LAY_REFUSE, 40, 40⟩
def LAY_DESC_DATA_WORD : FRef := ⟨.LAY_DESC_DATA, 63, 0⟩
def LAY_STATUS_COPY_BUSY : FRef := ⟨.LAY_STATUS, 0, 0⟩
def LAY_STATUS_INDEX_BUSY : FRef := ⟨.LAY_STATUS, 1, 1⟩
def LAY_STATUS_FUSED : FRef := ⟨.LAY_STATUS, 2, 2⟩
def LAY_BYTES_BYTES : FRef := ⟨.LAY_BYTES, 47, 0⟩
def LAY_IDX_ZEROED : FRef := ⟨.LAY_IDX, 15, 0⟩
def LAY_IDX_CLAMPED : FRef := ⟨.LAY_IDX, 31, 16⟩
def LAY_IDX_WRAPPED : FRef := ⟨.LAY_IDX, 47, 32⟩
def LAY_COMBINE_SAVED : FRef := ⟨.LAY_COMBINE, 47, 0⟩
def MST_CTL_ACT_CAP : FRef := ⟨.MST_CTL, 5, 0⟩
def MST_CTL_RETIRE_LIMIT : FRef := ⟨.MST_CTL, 15, 8⟩
def MST_CTL_SCRUB_ENABLE : FRef := ⟨.MST_CTL, 16, 16⟩
def MST_STATUS_ACT_LIMIT : FRef := ⟨.MST_STATUS, 5, 0⟩
def MST_STATUS_TEMP : FRef := ⟨.MST_STATUS, 15, 8⟩
def MST_STATUS_SPARES : FRef := ⟨.MST_STATUS, 18, 16⟩
def MST_SEARCHES_COUNT : FRef := ⟨.MST_SEARCHES, 47, 0⟩
def MST_SCRUB_REPAIRED : FRef := ⟨.MST_SCRUB, 15, 0⟩
def MST_SCRUB_SHADOW_REPAIRED : FRef := ⟨.MST_SCRUB, 31, 16⟩
def MST_SCRUB_LOST : FRef := ⟨.MST_SCRUB, 47, 32⟩
def MST_SCRUB_PASSES : FRef := ⟨.MST_SCRUB, 63, 48⟩
def MST_THROTTLE_WAIT_CYCLES : FRef := ⟨.MST_THROTTLE, 47, 0⟩
def MST_STAGE_META_PRIORITY : FRef := ⟨.MST_STAGE_META, 7, 0⟩
def MST_STAGE_META_VALID : FRef := ⟨.MST_STAGE_META, 8, 8⟩
def MST_CMD_OP : FRef := ⟨.MST_CMD, 3, 0⟩
def MST_CMD_TABLE : FRef := ⟨.MST_CMD, 11, 8⟩
def MST_CMD_ADDR : FRef := ⟨.MST_CMD, 34, 16⟩
def MST_RESULT_HIT : FRef := ⟨.MST_RESULT, 0, 0⟩
def MST_RESULT_MULTI : FRef := ⟨.MST_RESULT, 1, 1⟩
def MST_RESULT_TIE : FRef := ⟨.MST_RESULT, 2, 2⟩
def MST_RESULT_PRIORITY : FRef := ⟨.MST_RESULT, 15, 8⟩
def MST_RESULT_ADDR : FRef := ⟨.MST_RESULT, 50, 32⟩
def MST_RESULT_DONE : FRef := ⟨.MST_RESULT, 63, 63⟩
def MST_STAGE_KEY_KEY : FRef := ⟨.MST_STAGE_KEY, 63, 0⟩
def MST_STAGE_MASK_MASK : FRef := ⟨.MST_STAGE_MASK, 63, 0⟩
def MST_STAGE_RES_RES : FRef := ⟨.MST_STAGE_RES, 63, 0⟩
def MST_RESULT_DATA_WORD : FRef := ⟨.MST_RESULT_DATA, 63, 0⟩
def MST_TABLE_CFG_FIRST : FRef := ⟨.MST_TABLE_CFG, 5, 0⟩
def MST_TABLE_CFG_BLOCKS : FRef := ⟨.MST_TABLE_CFG, 14, 8⟩
def MST_TABLE_CFG_WIDTH : FRef := ⟨.MST_TABLE_CFG, 16, 16⟩
def MST_TABLE_CFG_KIND : FRef := ⟨.MST_TABLE_CFG, 17, 17⟩
def MST_TABLE_CFG_DEFINED : FRef := ⟨.MST_TABLE_CFG, 24, 24⟩
def MST_TABLE_STATE_USED_END : FRef := ⟨.MST_TABLE_STATE, 19, 0⟩
def MST_TABLE_STATE_SHIFTING : FRef := ⟨.MST_TABLE_STATE, 24, 24⟩
def MST_TABLE_STATE_QUEUED : FRef := ⟨.MST_TABLE_STATE, 36, 32⟩
def MST_TABLE_STATE_BOUNDARY : FRef := ⟨.MST_TABLE_STATE, 58, 40⟩
def MST_TABLE_OPS_ISSUED : FRef := ⟨.MST_TABLE_OPS, 31, 0⟩
def MST_TABLE_OPS_DONE : FRef := ⟨.MST_TABLE_OPS, 63, 32⟩
def MST_TABLE_ERR_CODE : FRef := ⟨.MST_TABLE_ERR, 15, 0⟩
def MST_TABLE_ERR_ORDINAL : FRef := ⟨.MST_TABLE_ERR, 47, 16⟩
def MST_TABLE_ERR_VALID : FRef := ⟨.MST_TABLE_ERR, 48, 48⟩
def MST_BLOCK_STATUS_STATE : FRef := ⟨.MST_BLOCK_STATUS, 1, 0⟩
def MST_BLOCK_STATUS_LOGICAL : FRef := ⟨.MST_BLOCK_STATUS, 13, 8⟩
def MST_BLOCK_STATUS_REPAIRS : FRef := ⟨.MST_BLOCK_STATUS, 31, 16⟩
def PAT_CTL_SUSPEND_DEFAULT : FRef := ⟨.PAT_CTL, 19, 0⟩
def PAT_STATUS_IMAGES : FRef := ⟨.PAT_STATUS, 6, 0⟩
def PAT_STATUS_MEMORY_KIB : FRef := ⟨.PAT_STATUS, 29, 16⟩
def PAT_ENG_STATUS_BUSY : FRef := ⟨.PAT_ENG_STATUS, 15, 0⟩
def PAT_ENG_STATUS_BLOCKED : FRef := ⟨.PAT_ENG_STATUS, 31, 16⟩
def PAT_ENG_STATUS_SUSPENDED : FRef := ⟨.PAT_ENG_STATUS, 38, 32⟩
def PAT_ENG_BYTES_BYTES : FRef := ⟨.PAT_ENG_BYTES, 47, 0⟩
def PAT_ENG_COUNT_RECORDS : FRef := ⟨.PAT_ENG_COUNT, 31, 0⟩
def PAT_ENG_COUNT_SKIPPED : FRef := ⟨.PAT_ENG_COUNT, 47, 32⟩
def PAT_ENG_COUNT_SUSPENSIONS : FRef := ⟨.PAT_ENG_COUNT, 63, 48⟩
def PAT_STREAM_STATE : FRef := ⟨.PAT_STREAM, 1, 0⟩
def PAT_STREAM_RUN_SLOT : FRef := ⟨.PAT_STREAM, 13, 8⟩
def PAT_STREAM_AUTOMATON_STATE : FRef := ⟨.PAT_STREAM, 31, 16⟩
def PAT_STREAM_OFFSET : FRef := ⟨.PAT_STREAM, 63, 32⟩
def EMB_CTL_ROUND_DEFAULT : FRef := ⟨.EMB_CTL, 13, 0⟩
def EMB_CTL_AUTO_MIGRATE : FRef := ⟨.EMB_CTL, 16, 16⟩
def EMB_CTL_MIGRATE_MAX : FRef := ⟨.EMB_CTL, 19, 17⟩
def EMB_CTL_IMBALANCE : FRef := ⟨.EMB_CTL, 23, 20⟩
def EMB_CTL_HOT_REGION : FRef := ⟨.EMB_CTL, 39, 24⟩
def EMB_CTL_ROUND_IDS : FRef := ⟨.EMB_CTL, 59, 40⟩
def EMB_HOT_CTL_THRESHOLD : FRef := ⟨.EMB_HOT_CTL, 15, 0⟩
def EMB_HOT_CTL_DECAY_US : FRef := ⟨.EMB_HOT_CTL, 35, 16⟩
def EMB_HOT_CTL_FORWARD_MIN_US : FRef := ⟨.EMB_HOT_CTL, 51, 36⟩
def EMB_GATHER_GATHER_NS : FRef := ⟨.EMB_GATHER, 15, 0⟩
def EMB_GATHER_GATHER_MAX_NS : FRef := ⟨.EMB_GATHER, 31, 16⟩
def EMB_ROUND_COUNT_ROUNDS : FRef := ⟨.EMB_ROUND_COUNT, 31, 0⟩
def EMB_ROUND_COUNT_TIMEOUTS : FRef := ⟨.EMB_ROUND_COUNT, 47, 32⟩
def EMB_ROUND_COUNT_REDIRECTS : FRef := ⟨.EMB_ROUND_COUNT, 63, 48⟩
def EMB_ROUND_TIME_MEAN_NS : FRef := ⟨.EMB_ROUND_TIME, 31, 0⟩
def EMB_ROUND_TIME_MAX_NS : FRef := ⟨.EMB_ROUND_TIME, 63, 32⟩
def EMB_MIGRATE_POSITION : FRef := ⟨.EMB_MIGRATE, 15, 0⟩
def EMB_MIGRATE_MAP : FRef := ⟨.EMB_MIGRATE, 19, 16⟩
def EMB_MIGRATE_NEW_OWNER : FRef := ⟨.EMB_MIGRATE, 39, 20⟩
def EMB_MIGRATE_FORCE : FRef := ⟨.EMB_MIGRATE, 40, 40⟩
def EMB_TABLE_STATUS_ROWS : FRef := ⟨.EMB_TABLE_STATUS, 31, 0⟩
def EMB_TABLE_STATUS_DEFINED : FRef := ⟨.EMB_TABLE_STATUS, 32, 32⟩
def EMB_TABLE_STATUS_FULL_SLICES : FRef := ⟨.EMB_TABLE_STATUS, 47, 40⟩
def EMB_TABLE_COUNT_SERVED : FRef := ⟨.EMB_TABLE_COUNT, 31, 0⟩
def EMB_TABLE_COUNT_MISSING : FRef := ⟨.EMB_TABLE_COUNT, 47, 32⟩
def EMB_TABLE_COUNT_HOT_ROWS : FRef := ⟨.EMB_TABLE_COUNT, 63, 48⟩
def EMB_MIGRATE_STATE_STATE : FRef := ⟨.EMB_MIGRATE_STATE, 2, 0⟩
def EMB_MIGRATE_STATE_MAP : FRef := ⟨.EMB_MIGRATE_STATE, 7, 4⟩
def EMB_MIGRATE_STATE_POSITION : FRef := ⟨.EMB_MIGRATE_STATE, 31, 16⟩
def EMB_MIGRATE_STATE_PEER : FRef := ⟨.EMB_MIGRATE_STATE, 51, 32⟩
def EMB_MIGRATE_ROWS_TOTAL : FRef := ⟨.EMB_MIGRATE_ROWS, 31, 0⟩
def EMB_MIGRATE_ROWS_SENT : FRef := ⟨.EMB_MIGRATE_ROWS, 63, 32⟩
def CMP_CTL_RATIO_DEFAULT : FRef := ⟨.CMP_CTL, 15, 0⟩
def CMP_STATUS_ENGINES : FRef := ⟨.CMP_STATUS, 4, 0⟩
def CMP_STATUS_DICTS : FRef := ⟨.CMP_STATUS, 14, 8⟩
def CMP_STATUS_DICT_KIB : FRef := ⟨.CMP_STATUS, 32, 16⟩
def CMP_FAIL_CODE : FRef := ⟨.CMP_FAIL, 15, 0⟩
def CMP_FAIL_OP : FRef := ⟨.CMP_FAIL, 17, 16⟩
def CMP_FAIL_CLUSTER : FRef := ⟨.CMP_FAIL, 27, 24⟩
def CMP_FAIL_ENGINE : FRef := ⟨.CMP_FAIL, 28, 28⟩
def CMP_FAIL_RUN_SLOT : FRef := ⟨.CMP_FAIL, 37, 32⟩
def CMP_ENG_STATUS_BUSY : FRef := ⟨.CMP_ENG_STATUS, 0, 0⟩
def CMP_ENG_STATUS_QUARANTINED : FRef := ⟨.CMP_ENG_STATUS, 1, 1⟩
def CMP_ENG_STATUS_VERIFY_FAILS : FRef := ⟨.CMP_ENG_STATUS, 9, 8⟩
def CMP_ENG_BYTES_IN_BYTES : FRef := ⟨.CMP_ENG_BYTES_IN, 47, 0⟩
def CMP_ENG_BYTES_OUT_BYTES : FRef := ⟨.CMP_ENG_BYTES_OUT, 47, 0⟩
def CMP_ENG_COUNT_JOBS : FRef := ⟨.CMP_ENG_COUNT, 31, 0⟩
def CMP_ENG_COUNT_FAILED : FRef := ⟨.CMP_ENG_COUNT, 47, 32⟩
def CMP_ENG_COUNT_STORED : FRef := ⟨.CMP_ENG_COUNT, 63, 48⟩
def MTX_CTL_WEIGHT_KIB : FRef := ⟨.MTX_CTL, 9, 0⟩
def MTX_CTL_ENGINE_REMAP : FRef := ⟨.MTX_CTL, 16, 16⟩
def MTX_STATUS_GRAPHS : FRef := ⟨.MTX_STATUS, 8, 0⟩
def MTX_STATUS_ENGINES_OUT : FRef := ⟨.MTX_STATUS, 25, 16⟩
def MTX_FAIL_CODE : FRef := ⟨.MTX_FAIL, 15, 0⟩
def MTX_FAIL_GRAPH : FRef := ⟨.MTX_FAIL, 23, 16⟩
def MTX_FAIL_NODE : FRef := ⟨.MTX_FAIL, 33, 24⟩
def MTX_FAIL_RUN_SLOT : FRef := ⟨.MTX_FAIL, 39, 34⟩
def MTX_FAIL_CORE : FRef := ⟨.MTX_FAIL, 47, 40⟩
def MTX_CORE_STATUS_ENGINES : FRef := ⟨.MTX_CORE_STATUS, 3, 0⟩
def MTX_CORE_STATUS_BUSY : FRef := ⟨.MTX_CORE_STATUS, 7, 4⟩
def MTX_CORE_STATUS_VECTOR_BUSY : FRef := ⟨.MTX_CORE_STATUS, 8, 8⟩
def MTX_CORE_STATUS_RESIDENT_KIB : FRef := ⟨.MTX_CORE_STATUS, 25, 16⟩
def MTX_CORE_CYCLES_ENGINE_CYCLES : FRef := ⟨.MTX_CORE_CYCLES, 47, 0⟩
def MTX_CORE_EXC_NAN : FRef := ⟨.MTX_CORE_EXC, 15, 0⟩
def MTX_CORE_EXC_INF : FRef := ⟨.MTX_CORE_EXC, 31, 16⟩
def MTX_CORE_EXC_SATURATED : FRef := ⟨.MTX_CORE_EXC, 47, 32⟩
def MTX_CORE_REPAIR_SPARE_COLS : FRef := ⟨.MTX_CORE_REPAIR, 7, 0⟩
def DSP_CTL_WINDOW_US : FRef := ⟨.DSP_CTL, 15, 0⟩
def DSP_STATUS_IN_FLIGHT : FRef := ⟨.DSP_STATUS, 17, 0⟩
def DSP_STATUS_READY : FRef := ⟨.DSP_STATUS, 41, 24⟩
def DSP_STATUS_CONTEXTS : FRef := ⟨.DSP_STATUS, 55, 42⟩
def DSP_COUNT_DISPATCHED : FRef := ⟨.DSP_COUNT, 47, 0⟩
def DSP_COUNT_REISSUED : FRef := ⟨.DSP_COUNT, 63, 48⟩
def DSP_CANCEL_BEFORE : FRef := ⟨.DSP_CANCEL, 31, 0⟩
def DSP_CANCEL_AFTER : FRef := ⟨.DSP_CANCEL, 63, 32⟩
def DSP_LOG_CTL_ENABLE : FRef := ⟨.DSP_LOG_CTL, 0, 0⟩
def DSP_LOG_CTL_MODE : FRef := ⟨.DSP_LOG_CTL, 1, 1⟩
def DSP_LOG_CTL_EVENTS : FRef := ⟨.DSP_LOG_CTL, 15, 8⟩
def DSP_LOG_CTL_REGION : FRef := ⟨.DSP_LOG_CTL, 27, 16⟩
def DSP_LOG_CTL_RUN : FRef := ⟨.DSP_LOG_CTL, 63, 32⟩
def DSP_LOG_BASE_OFFSET : FRef := ⟨.DSP_LOG_BASE, 39, 0⟩
def DSP_LOG_SIZE_SIZE_LOG : FRef := ⟨.DSP_LOG_SIZE, 4, 0⟩
def DSP_LOG_STATUS_WRITTEN : FRef := ⟨.DSP_LOG_STATUS, 47, 0⟩
def DSP_LOG_STATUS_CODE : FRef := ⟨.DSP_LOG_STATUS, 63, 48⟩
def DSP_LOG_DROP_DROPPED : FRef := ⟨.DSP_LOG_DROP, 47, 0⟩
def DSP_LEVEL_READY : FRef := ⟨.DSP_LEVEL, 17, 0⟩
def DSP_CENSUS_DEPTH_OWN : FRef := ⟨.DSP_CENSUS_DEPTH, 17, 0⟩
def DSP_CENSUS_DEPTH_SHARED : FRef := ⟨.DSP_CENSUS_DEPTH, 41, 24⟩
def DSP_CENSUS_WAIT_WAIT_NS : FRef := ⟨.DSP_CENSUS_WAIT, 31, 0⟩
def DSP_CENSUS_WAIT_MAX_NS : FRef := ⟨.DSP_CENSUS_WAIT, 63, 32⟩
def DSP_CENSUS_LOAD_LOAD : FRef := ⟨.DSP_CENSUS_LOAD, 10, 0⟩
def DSP_CENSUS_LOAD_TASKS : FRef := ⟨.DSP_CENSUS_LOAD, 47, 16⟩
def DSP_RUN_TASKS_READY : FRef := ⟨.DSP_RUN_TASKS, 17, 0⟩
def DSP_RUN_TASKS_RUNNING : FRef := ⟨.DSP_RUN_TASKS, 37, 20⟩
def DSP_RUN_TASKS_PENDING : FRef := ⟨.DSP_RUN_TASKS, 57, 40⟩
def DSP_RUN_STALL_RELEASE_STALL : FRef := ⟨.DSP_RUN_STALL, 47, 0⟩
def TTH_ID_DEVICE : FRef := ⟨.TTH_ID, 19, 0⟩
def TTH_ID_EPOCH : FRef := ⟨.TTH_ID, 31, 24⟩
def TTH_ID_EPOCH_MIN : FRef := ⟨.TTH_ID, 39, 32⟩
def TTH_ID_EPOCH_MAX : FRef := ⟨.TTH_ID, 47, 40⟩
def TTH_CTL_HOP_LIMIT : FRef := ⟨.TTH_CTL, 7, 0⟩
def TTH_CTL_LIFETIME_US : FRef := ⟨.TTH_CTL, 21, 8⟩
def TTH_CTL_PEER_RESET : FRef := ⟨.TTH_CTL, 24, 24⟩
def TTH_CTL_W_EXCHANGE : FRef := ⟨.TTH_CTL, 35, 32⟩
def TTH_CTL_W_BULK : FRef := ⟨.TTH_CTL, 39, 36⟩
def TTH_CTL_W_FRAMES : FRef := ⟨.TTH_CTL, 43, 40⟩
def TTH_TIME_STRATUM : FRef := ⟨.TTH_TIME, 7, 0⟩
def TTH_TIME_LOCKED : FRef := ⟨.TTH_TIME, 8, 8⟩
def TTH_TIME_PARENT_LINK : FRef := ⟨.TTH_TIME, 21, 16⟩
def TTH_TIME_OFFSET_NS : FRef := ⟨.TTH_TIME, 63, 32⟩
def TTH_DISCARD_DISCARD_HOPS : FRef := ⟨.TTH_DISCARD, 15, 0⟩
def TTH_DISCARD_DISCARD_AGE : FRef := ⟨.TTH_DISCARD, 31, 16⟩
def TTH_DISCARD_DISCARD_ROUTE : FRef := ⟨.TTH_DISCARD, 47, 32⟩
def TTH_LINK_STATUS_STATE : FRef := ⟨.TTH_LINK_STATUS, 3, 0⟩
def TTH_LINK_STATUS_TX_WIDTH : FRef := ⟨.TTH_LINK_STATUS, 5, 4⟩
def TTH_LINK_STATUS_RX_WIDTH : FRef := ⟨.TTH_LINK_STATUS, 7, 6⟩
def TTH_LINK_STATUS_POLARITY : FRef := ⟨.TTH_LINK_STATUS, 9, 8⟩
def TTH_LINK_STATUS_REVERSED : FRef := ⟨.TTH_LINK_STATUS, 10, 10⟩
def TTH_LINK_STATUS_OPEN : FRef := ⟨.TTH_LINK_STATUS, 13, 12⟩
def TTH_LINK_STATUS_SHORT : FRef := ⟨.TTH_LINK_STATUS, 15, 14⟩
def TTH_LINK_STATUS_ENGAGED : FRef := ⟨.TTH_LINK_STATUS, 16, 16⟩
def TTH_LINK_STATUS_RESERVE : FRef := ⟨.TTH_LINK_STATUS, 17, 17⟩
def TTH_LINK_STATUS_PEER_DEVICE : FRef := ⟨.TTH_LINK_STATUS, 39, 20⟩
def TTH_LINK_STATUS_PEER_LINK : FRef := ⟨.TTH_LINK_STATUS, 45, 40⟩
def TTH_LINK_STATUS_PEER_EPOCH : FRef := ⟨.TTH_LINK_STATUS, 55, 48⟩
def TTH_LINK_CTL_ENABLE : FRef := ⟨.TTH_LINK_CTL, 0, 0⟩
def TTH_LINK_CTL_STANDBY : FRef := ⟨.TTH_LINK_CTL, 1, 1⟩
def TTH_LINK_CTL_RETRAIN : FRef := ⟨.TTH_LINK_CTL, 8, 8⟩
def TTH_LINK_CTL_SEND_RESET : FRef := ⟨.TTH_LINK_CTL, 10, 9⟩
def TTH_LINK_ERR_RETRIES : FRef := ⟨.TTH_LINK_ERR, 23, 0⟩
def TTH_LINK_ERR_RETRAINS : FRef := ⟨.TTH_LINK_ERR, 39, 24⟩
def TTH_LINK_ERR_UNCORRECTED : FRef := ⟨.TTH_LINK_ERR, 55, 40⟩
def TTH_LINK_ERR_LOST : FRef := ⟨.TTH_LINK_ERR, 63, 56⟩
def TTH_LINK_BYTES_TX_BYTES : FRef := ⟨.TTH_LINK_BYTES_TX, 47, 0⟩
def TTH_LINK_BYTES_RX_BYTES : FRef := ⟨.TTH_LINK_BYTES_RX, 47, 0⟩
def TTH_LINK_CREDIT_VC0 : FRef := ⟨.TTH_LINK_CREDIT, 31, 0⟩
def TTH_LINK_CREDIT_VC1 : FRef := ⟨.TTH_LINK_CREDIT, 63, 32⟩
def TTH_ROUTE0_PREFIX : FRef := ⟨.TTH_ROUTE0, 19, 0⟩
def TTH_ROUTE0_LEN : FRef := ⟨.TTH_ROUTE0, 24, 20⟩
def TTH_ROUTE0_VALID : FRef := ⟨.TTH_ROUTE0, 25, 25⟩
def TTH_ROUTE0_DATELINE : FRef := ⟨.TTH_ROUTE0, 26, 26⟩
def TTH_ROUTE0_SOURCE_ROUTE : FRef := ⟨.TTH_ROUTE0, 27, 27⟩
def TTH_ROUTE1_LINKS : FRef := ⟨.TTH_ROUTE1, 63, 0⟩
def ODN_CTL_IDLE_S : FRef := ⟨.ODN_CTL, 7, 0⟩
def ODN_CTL_OPERATOR_OPEN : FRef := ⟨.ODN_CTL, 8, 8⟩
def ODN_CTL_RELAY_ENABLE : FRef := ⟨.ODN_CTL, 9, 9⟩
def ODN_MAC_MAC : FRef := ⟨.ODN_MAC, 47, 0⟩
def ODN_NODE_MAC_MAC : FRef := ⟨.ODN_NODE_MAC, 47, 0⟩
def ODN_STATUS_PORT : FRef := ⟨.ODN_STATUS, 1, 0⟩
def ODN_STATUS_SESSIONS : FRef := ⟨.ODN_STATUS, 11, 8⟩
def ODN_STATUS_KEEPERS : FRef := ⟨.ODN_STATUS, 13, 12⟩
def ODN_STATUS_BACKLOG : FRef := ⟨.ODN_STATUS, 26, 16⟩
def ODN_COUNT_BAD_FCS : FRef := ⟨.ODN_COUNT, 15, 0⟩
def ODN_COUNT_OTHER : FRef := ⟨.ODN_COUNT, 31, 16⟩
def ODN_COUNT_AUTH_DROP : FRef := ⟨.ODN_COUNT, 47, 32⟩
def ODN_COUNT_RELAY_DROP : FRef := ⟨.ODN_COUNT, 63, 48⟩
def ODN_AUTH_FAILS : FRef := ⟨.ODN_AUTH, 15, 0⟩
def ODN_SESSION_ID : FRef := ⟨.ODN_SESSION, 31, 0⟩
def ODN_SESSION_OPEN : FRef := ⟨.ODN_SESSION, 32, 32⟩
def ODN_SESSION_KEEPER : FRef := ⟨.ODN_SESSION, 33, 33⟩
def ODN_SESSION_ATTENTION : FRef := ⟨.ODN_SESSION, 34, 34⟩
def ODN_SESSION_RELAYED : FRef := ⟨.ODN_SESSION, 35, 35⟩
def ODN_SESSION_SEQ_EXPECTED : FRef := ⟨.ODN_SESSION_SEQ, 63, 0⟩
def ODN_SESSION_ATTN_NEXT : FRef := ⟨.ODN_SESSION_ATTN, 31, 0⟩
def ODN_SESSION_ATTN_UNACKED : FRef := ⟨.ODN_SESSION_ATTN, 42, 32⟩
def ODN_SESSION_ATTN_OVERFLOW : FRef := ⟨.ODN_SESSION_ATTN, 63, 48⟩
def PWS_STATE_STATE : FRef := ⟨.PWS_STATE, 1, 0⟩
def PWS_STATE_SHADED : FRef := ⟨.PWS_STATE, 27, 16⟩
def PWS_STATE_LAST_RESET : FRef := ⟨.PWS_STATE, 35, 32⟩
def PWS_CTL_SHADE_US : FRef := ⟨.PWS_CTL, 15, 0⟩
def PWS_CTL_AUTO_SHADE : FRef := ⟨.PWS_CTL, 16, 16⟩
def PWS_REQUEST_STATE : FRef := ⟨.PWS_REQUEST, 1, 0⟩
def PWS_REQUEST_FORCE : FRef := ⟨.PWS_REQUEST, 2, 2⟩
def PWS_REQUEST_ALARM_MS : FRef := ⟨.PWS_REQUEST, 47, 16⟩
def PWS_RESET_COUNT_WARM : FRef := ⟨.PWS_RESET_COUNT, 15, 0⟩
def PWS_RESET_COUNT_SOFT : FRef := ⟨.PWS_RESET_COUNT, 31, 16⟩
def PWS_RESET_COUNT_WATCHDOG : FRef := ⟨.PWS_RESET_COUNT, 47, 32⟩
def PWS_RESET_COUNT_POWER_ON : FRef := ⟨.PWS_RESET_COUNT, 63, 48⟩
def PWS_WAKE_LAST_US : FRef := ⟨.PWS_WAKE, 31, 0⟩
def PWS_WAKE_BANKED : FRef := ⟨.PWS_WAKE, 47, 32⟩
def PWS_WAKE_DOUSED : FRef := ⟨.PWS_WAKE, 63, 48⟩
def PWS_WATCHDOG_ACTIVE : FRef := ⟨.PWS_WATCHDOG, 0, 0⟩
def PWS_WATCHDOG_STANDBY_OK : FRef := ⟨.PWS_WATCHDOG, 1, 1⟩
def PWS_WATCHDOG_TAKEOVERS : FRef := ⟨.PWS_WATCHDOG, 31, 16⟩
def PWS_CLUSTER_SHADED : FRef := ⟨.PWS_CLUSTER, 0, 0⟩
def PWS_CLUSTER_PLL_LOCKED : FRef := ⟨.PWS_CLUSTER, 1, 1⟩
def PWS_CLUSTER_RESET : FRef := ⟨.PWS_CLUSTER, 8, 8⟩
def PWS_CLUSTER_WAKES : FRef := ⟨.PWS_CLUSTER, 47, 16⟩
def PWS_CLUSTER_RESETS : FRef := ⟨.PWS_CLUSTER, 63, 48⟩
def PCH_STATUS_STATE : FRef := ⟨.PCH_STATUS, 1, 0⟩
def PCH_STATUS_SLOT : FRef := ⟨.PCH_STATUS, 3, 2⟩
def PCH_STATUS_UNTESTED : FRef := ⟨.PCH_STATUS, 4, 4⟩
def PCH_STATUS_SAMPLE : FRef := ⟨.PCH_STATUS, 5, 5⟩
def PCH_STATUS_QUICK : FRef := ⟨.PCH_STATUS, 6, 6⟩
def PCH_STATUS_REASON : FRef := ⟨.PCH_STATUS, 31, 16⟩
def PCH_VERSION_WARDEN : FRef := ⟨.PCH_VERSION, 31, 0⟩
def PCH_VERSION_STEWARD : FRef := ⟨.PCH_VERSION, 63, 32⟩
def PCH_IMAGE_PITCH_VERSION : FRef := ⟨.PCH_IMAGE, 31, 0⟩
def PCH_IMAGE_PITCH_FORMAT : FRef := ⟨.PCH_IMAGE, 39, 32⟩
def PCH_FUSE_SVN_WARDEN : FRef := ⟨.PCH_FUSE, 6, 0⟩
def PCH_FUSE_SVN_STEWARD : FRef := ⟨.PCH_FUSE, 14, 8⟩
def PCH_FUSE_SVN_PITCH : FRef := ⟨.PCH_FUSE, 22, 16⟩
def PCH_FUSE_ENROLLED : FRef := ⟨.PCH_FUSE, 27, 24⟩
def PCH_FUSE_REVOKED : FRef := ⟨.PCH_FUSE, 31, 28⟩
def PCH_FUSE_GRENOG_REVOKED : FRef := ⟨.PCH_FUSE, 35, 32⟩
def PCH_BOOT_FAILS_0 : FRef := ⟨.PCH_BOOT, 1, 0⟩
def PCH_BOOT_FAILS_1 : FRef := ⟨.PCH_BOOT, 3, 2⟩
def PCH_BOOT_NEXT_SLOT : FRef := ⟨.PCH_BOOT, 5, 4⟩
def PCH_BOOT_BOOT_COUNT : FRef := ⟨.PCH_BOOT, 47, 16⟩
def PCH_REFUSE_CODE : FRef := ⟨.PCH_REFUSE, 15, 0⟩
def PCH_REFUSE_SECTION : FRef := ⟨.PCH_REFUSE, 23, 16⟩
def PCH_REFUSE_SLOT : FRef := ⟨.PCH_REFUSE, 25, 24⟩
def PCH_REFUSE_SIG : FRef := ⟨.PCH_REFUSE, 27, 26⟩
def PCH_REFUSE_VALID : FRef := ⟨.PCH_REFUSE, 28, 28⟩
def PCH_SECURITY_SIG_FAILS : FRef := ⟨.PCH_SECURITY, 15, 0⟩
def PCH_SECURITY_ROLLBACKS : FRef := ⟨.PCH_SECURITY, 31, 16⟩
def PCH_SECURITY_KEYS : FRef := ⟨.PCH_SECURITY, 47, 32⟩
def PCH_ROLLBACK_COMMIT : FRef := ⟨.PCH_ROLLBACK, 0, 0⟩
def PCH_ROM_WARDEN_MIN : FRef := ⟨.PCH_ROM, 7, 0⟩
def PCH_ROM_WARDEN_MAX : FRef := ⟨.PCH_ROM, 15, 8⟩
def PCH_ROM_STEWARD_MIN : FRef := ⟨.PCH_ROM, 23, 16⟩
def PCH_ROM_STEWARD_MAX : FRef := ⟨.PCH_ROM, 31, 24⟩
def PCH_SHAKEDOWN_CORES : FRef := ⟨.PCH_SHAKEDOWN, 7, 0⟩
def PCH_SHAKEDOWN_VAULTS : FRef := ⟨.PCH_SHAKEDOWN, 15, 8⟩
def PCH_SHAKEDOWN_OTHER : FRef := ⟨.PCH_SHAKEDOWN, 23, 16⟩
def PCH_SHAKEDOWN_PITCH_MS : FRef := ⟨.PCH_SHAKEDOWN, 47, 32⟩
def PCH_ENROLL_CMD_POSITION : FRef := ⟨.PCH_ENROLL_CMD, 1, 0⟩
def PCH_ENROLL_CMD_ENROLL : FRef := ⟨.PCH_ENROLL_CMD, 8, 8⟩
def PCH_ENROLL_CMD_REVOKE : FRef := ⟨.PCH_ENROLL_CMD, 9, 9⟩
def PCH_QUOTE_CTL_GO : FRef := ⟨.PCH_QUOTE_CTL, 0, 0⟩
def PCH_QUOTE_CTL_SELECT : FRef := ⟨.PCH_QUOTE_CTL, 1, 1⟩
def PCH_QUOTE_CTL_READY : FRef := ⟨.PCH_QUOTE_CTL, 8, 8⟩
def PCH_QUOTE_CTL_LENGTH : FRef := ⟨.PCH_QUOTE_CTL, 31, 16⟩
def PCH_SLOT_WRITTEN : FRef := ⟨.PCH_SLOT, 26, 0⟩
def PCH_SLOT_CHECK : FRef := ⟨.PCH_SLOT, 32, 32⟩
def PCH_SLOT_CHECK_OK : FRef := ⟨.PCH_SLOT, 33, 33⟩
def PCH_ENROLL_DIGEST_DIGEST : FRef := ⟨.PCH_ENROLL_DIGEST, 63, 0⟩
def PCH_QUOTE_NONCE_NONCE : FRef := ⟨.PCH_QUOTE_NONCE, 63, 0⟩
def PCH_QUOTE_DATA_WORD : FRef := ⟨.PCH_QUOTE_DATA, 63, 0⟩
def PMC_WINDOW_LENGTH_US : FRef := ⟨.PMC_WINDOW, 19, 0⟩
def PMC_WINDOW_SHORT : FRef := ⟨.PMC_WINDOW, 20, 20⟩
def PMC_WINDOW_WINDOWS : FRef := ⟨.PMC_WINDOW, 63, 32⟩
def PMC_GLOBAL_LOST_LOST : FRef := ⟨.PMC_GLOBAL_LOST, 15, 0⟩
def PMC_ENERGY_TOTAL_UJ : FRef := ⟨.PMC_ENERGY, 47, 0⟩
def PMC_ENERGY_ARRAY_FJ : FRef := ⟨.PMC_ENERGY, 63, 48⟩
def PMC_ENERGY_WINDOW_UJ : FRef := ⟨.PMC_ENERGY_WINDOW, 39, 0⟩
def PMC_TD_CTL_MODE : FRef := ⟨.PMC_TD_CTL, 1, 0⟩
def PMC_TD_CTL_CLUSTERS : FRef := ⟨.PMC_TD_CTL, 27, 16⟩
def PMC_TD_CTL_RECOVERY : FRef := ⟨.PMC_TD_CTL, 39, 28⟩
def PMC_CNT_CTL_EVENT : FRef := ⟨.PMC_CNT_CTL, 11, 0⟩
def PMC_CNT_CTL_MODE : FRef := ⟨.PMC_CNT_CTL, 12, 12⟩
def PMC_CNT_CTL_ENABLE : FRef := ⟨.PMC_CNT_CTL, 16, 16⟩
def PMC_CNT_CTL_ATTN : FRef := ⟨.PMC_CNT_CTL, 17, 17⟩
def PMC_CNT_CTL_INSTANCE : FRef := ⟨.PMC_CNT_CTL, 31, 24⟩
def PMC_CNT_CTL_ACTIVE_EVENT : FRef := ⟨.PMC_CNT_CTL, 43, 32⟩
def PMC_CNT_CTL_OVF_EVENT : FRef := ⟨.PMC_CNT_CTL, 59, 48⟩
def PMC_CNT_VALUE : FRef := ⟨.PMC_CNT, 47, 0⟩
def PMC_CNT_OVF : FRef := ⟨.PMC_CNT, 48, 48⟩
def PMC_CL_LOST_LOST : FRef := ⟨.PMC_CL_LOST, 15, 0⟩
def PMC_TD_SEL_UNITS : FRef := ⟨.PMC_TD_SEL, 15, 0⟩
def PMC_TD_SEL_INTERRUPTED : FRef := ⟨.PMC_TD_SEL, 32, 32⟩
def PMC_CL_CNT_CTL_EVENT : FRef := ⟨.PMC_CL_CNT_CTL, 11, 0⟩
def PMC_CL_CNT_CTL_MODE : FRef := ⟨.PMC_CL_CNT_CTL, 12, 12⟩
def PMC_CL_CNT_CTL_ENABLE : FRef := ⟨.PMC_CL_CNT_CTL, 16, 16⟩
def PMC_CL_CNT_CTL_ATTN : FRef := ⟨.PMC_CL_CNT_CTL, 17, 17⟩
def PMC_CL_CNT_CTL_INSTANCE : FRef := ⟨.PMC_CL_CNT_CTL, 31, 24⟩
def PMC_CL_CNT_CTL_ACTIVE_EVENT : FRef := ⟨.PMC_CL_CNT_CTL, 43, 32⟩
def PMC_CL_CNT_CTL_OVF_EVENT : FRef := ⟨.PMC_CL_CNT_CTL, 59, 48⟩
def PMC_CL_CNT_VALUE : FRef := ⟨.PMC_CL_CNT, 47, 0⟩
def PMC_CL_CNT_OVF : FRef := ⟨.PMC_CL_CNT, 48, 48⟩
def PMC_BW_BYTES : FRef := ⟨.PMC_BW, 47, 0⟩
def FLT_CTL_THROTTLE_C : FRef := ⟨.FLT_CTL, 7, 0⟩
def FLT_CTL_SHADE_C : FRef := ⟨.FLT_CTL, 15, 8⟩
def FLT_CTL_TRIP_C : FRef := ⟨.FLT_CTL, 23, 16⟩
def FLT_CTL_POWER_CAP_W : FRef := ⟨.FLT_CTL, 35, 24⟩
def FLT_CTL_MTX_MIN_LEVEL : FRef := ⟨.FLT_CTL, 39, 36⟩
def FLT_GOV_LEVEL : FRef := ⟨.FLT_GOV, 3, 0⟩
def FLT_GOV_MST_CAP : FRef := ⟨.FLT_GOV, 9, 4⟩
def FLT_GOV_POWER_W : FRef := ⟨.FLT_GOV, 27, 16⟩
def FLT_GOV_TEMP_MAX : FRef := ⟨.FLT_GOV, 35, 28⟩
def FLT_GOV_HOT_SENSOR : FRef := ⟨.FLT_GOV, 41, 36⟩
def FLT_GOV_HELD : FRef := ⟨.FLT_GOV, 53, 42⟩
def FLT_GOV_TRIPPED : FRef := ⟨.FLT_GOV, 54, 54⟩
def FLT_UNITS_SPARE_SLOTS : FRef := ⟨.FLT_UNITS, 11, 0⟩
def FLT_UNITS_SPARE_CLUSTER : FRef := ⟨.FLT_UNITS, 12, 12⟩
def FLT_UNITS_DEGRADED : FRef := ⟨.FLT_UNITS, 27, 16⟩
def FLT_UNITS_LOST : FRef := ⟨.FLT_UNITS, 39, 28⟩
def FLT_UNITS_VAULTS_LOST : FRef := ⟨.FLT_UNITS, 47, 40⟩
def FLT_UNITS_UNITS_OUT : FRef := ⟨.FLT_UNITS, 55, 48⟩
def FLT_UNIT_CLEAR_CLEAR : FRef := ⟨.FLT_UNIT_CLEAR, 0, 0⟩
def FLT_UNIT_CLEAR_PENDING : FRef := ⟨.FLT_UNIT_CLEAR, 1, 1⟩
def FLT_LOG_SEL_INDEX : FRef := ⟨.FLT_LOG_SEL, 7, 0⟩
def FLT_LOG_SEL_COUNT : FRef := ⟨.FLT_LOG_SEL, 16, 8⟩
def FLT_LOG_SEL_TOTAL : FRef := ⟨.FLT_LOG_SEL, 48, 17⟩
def FLT_LOG_SEL_CLEAR : FRef := ⟨.FLT_LOG_SEL, 63, 63⟩
def FLT_LOG_DATA_WORD : FRef := ⟨.FLT_LOG_DATA, 63, 0⟩
def MOD_ID_PART : FRef := ⟨.MOD_ID, 15, 0⟩
def MOD_ID_STEPPING : FRef := ⟨.MOD_ID, 23, 16⟩
def MOD_ID_BOARD : FRef := ⟨.MOD_ID, 31, 24⟩
def MOD_PINS_RESET_N : FRef := ⟨.MOD_PINS, 0, 0⟩
def MOD_PINS_PWRGOOD : FRef := ⟨.MOD_PINS, 1, 1⟩
def MOD_PINS_THERM : FRef := ⟨.MOD_PINS, 2, 2⟩
def MOD_PINS_FAULT : FRef := ⟨.MOD_PINS, 3, 3⟩
def MOD_PINS_ENROLL_EN : FRef := ⟨.MOD_PINS, 4, 4⟩
def MOD_PINS_ADDR : FRef := ⟨.MOD_PINS, 7, 5⟩
def MOD_INPUT_MILLIVOLTS : FRef := ⟨.MOD_INPUT, 15, 0⟩
def MOD_INPUT_MILLIAMPS : FRef := ⟨.MOD_INPUT, 31, 16⟩
def MOD_INPUT_WATTS : FRef := ⟨.MOD_INPUT, 43, 32⟩
def MOD_INPUT_OUT_OF_RANGE : FRef := ⟨.MOD_INPUT, 59, 48⟩
def MOD_COOLANT_INLET_C : FRef := ⟨.MOD_COOLANT, 7, 0⟩
def MOD_COOLANT_OUTLET_C : FRef := ⟨.MOD_COOLANT, 15, 8⟩
def MOD_COOLANT_WARNINGS : FRef := ⟨.MOD_COOLANT, 31, 16⟩
def MOD_MGMT_ADDRESS : FRef := ⟨.MOD_MGMT, 6, 0⟩
def MOD_MGMT_DYNAMIC : FRef := ⟨.MOD_MGMT, 7, 7⟩
def MOD_MGMT_STUCK : FRef := ⟨.MOD_MGMT, 23, 8⟩
def MOD_MGMT_ISOLATED : FRef := ⟨.MOD_MGMT, 24, 24⟩
def MOD_MGMT_JTAG_DEBUG : FRef := ⟨.MOD_MGMT, 25, 25⟩
def CMP_ENG_JOB_E0_WORD : FRef := ⟨.CMP_ENG_JOB_E0, 63, 0⟩
def CMP_ENG_JOB_E1_WORD : FRef := ⟨.CMP_ENG_JOB_E1, 63, 0⟩

end Sys2Proof.Machine.F
end

