-- ==== Sys2Proof/Machine/Image.lean ====
section
/-!
DEFINITION. The contents of a pitch image as records (R52 to R58, R127, R152, R181, R182, R206, R221, R225, R257,
R281 to R283, R385 to R387): what pitching makes of the verified bytes of a flash slot.
-/
namespace Sys2Proof.Machine

/-- Region kinds (R52). -/
inductive RegionKind where
  | vaultRange | vaultHash | vaultSingle | interleaved | lpddr6
deriving DecidableEq, Repr

/-- Access class of a region (R54). -/
inductive RegionAccess where
  | keeperOnly | operatorRead | operatorWrite
deriving DecidableEq, Repr

/-- A region declaration (R386). `base` is the BASE field; for LPDDR6 it counts from 0x080_0000_0000. -/
structure Region where
  number : Nat
  kind : RegionKind
  access : RegionAccess
  mirrored : Bool
  vault : Nat
  base : Nat
  size : Nat
  seed : W64
  keys : List Nat
deriving DecidableEq, Repr

/-- Operators (R58). -/
inductive Op where
  | scan | filter | project | hash | bucket | normalise | stats | partition | joinBuild | joinProbe | dictJoin
  | gather | scatter | lookup | update | decode | parse | pyramid | compress | decompress | model | batch | emit
deriving DecidableEq, Repr

/-- A stage record (R55) with its parameter block. -/
structure StageRec where
  op : Op
  priority : Nat
  source : Bool
  inQ : List Nat
  outQ : List Nat
  outFlow : Nat
  param : List Byte
deriving DecidableEq, Repr

/-- A queue record (R56). -/
structure QueueRec where
  depth : Nat
  producer : Nat
  consumer : Nat
deriving DecidableEq, Repr

/-- Kinds of argument slot (R56, R61). -/
inductive ArgKind where
  | table | scalar | ring | stream
deriving DecidableEq, Repr

/-- A pipeline record with the lists it names (R56). `ordered` gives each flow's ORDER. -/
structure Pipeline where
  number : Nat
  defaultPriority : Nat
  ceiling : Nat
  stages : List StageRec
  queues : List QueueRec
  ordered : List Bool
  args : List (Nat × ArgKind)
deriving DecidableEq, Repr

/-- A schema column (R127). -/
structure SchemaCol where
  typ : Nat
  nullable : Bool
  dictionary : Bool
  elem : Nat
  unit : Nat
  width : Nat
  validityOff : Nat
  valuesOff : Nat
  dataOff : Nat
deriving DecidableEq, Repr

/-- A schema (R127): `format` 0 ARROW, 1 PARQUET, 2 DELIMITED, 3 JSONL. -/
structure Schema where
  number : Nat
  format : Nat
  cols : List SchemaCol
deriving DecidableEq, Repr

/-- A tensor descriptor (R152), fields decoded; `raw` holds its 128 bytes. -/
structure Desc where
  typ : Nat
  rank : Nat
  flags : Nat
  policy : Nat
  region : Nat
  arg : Nat
  scale : Nat
  base : Nat
  extent : List Nat
  stride : List Int
  piece : List Nat
  raw : List Byte
deriving DecidableEq, Repr

/-- A payload tensor of a batch layout (R387): `role` 0 DATA, 1 MASK, 2 VALIDITY. -/
structure LayoutTensor where
  typ : Nat
  rank : Nat
  role : Nat
  offset : Nat
  extents : List Nat
deriving DecidableEq, Repr

/-- A batch layout (R387). -/
structure Layout where
  number : Nat
  slots : Nat
  payload : Nat
  tensors : List LayoutTensor
deriving DecidableEq, Repr

/-- A tensor record of a stage graph (R282). -/
structure GTensor where
  kind : Nat
  typ : Nat
  rank : Nat
  desc : Nat
  scale : Nat
  payload : Nat
  extent : List Nat
deriving DecidableEq, Repr

/-- A copy record (R163): source and destination descriptors, PERM, whether a bit that must be zero is set. -/
structure CopyRec where
  src : Nat
  dst : Nat
  perm : List Nat
  rest : Bool
deriving DecidableEq, Repr

/-- A node record of a stage graph (R283). -/
structure GNode where
  op : Nat
  flags : Nat
  act : Nat
  axis : Nat
  in0 : Nat
  in1 : Nat
  in2 : Nat
  in3 : Nat
  out : Nat
  p0 : W32
  p1 : W32
deriving DecidableEq, Repr

/-- A stage graph (R281). -/
structure Graph where
  number : Nat
  inLayout : Nat
  outLayout : Nat
  nodes : List GNode
  tensors : List GTensor
  copies : List CopyRec
deriving DecidableEq, Repr

/-- An embedding table record (R221): `hot` 0 OFF, 1 INVALIDATE, 2 PUSH. -/
structure EmbTable where
  table : Nat
  format : Nat
  scaled : Bool
  hot : Nat
  missFault : Bool
  migratable : Bool
  dim : Nat
  map : Nat
  region : Nat
  capacity : Nat
  seed : W64
  base : Nat
deriving DecidableEq, Repr

/-- A shard map (R225). -/
structure ShardMap where
  map : Nat
  version : W32
  devices : List (BitVec 20)
deriving DecidableEq, Repr

/-- A live-frame stream declaration (R385). -/
structure StreamDecl where
  stream : Nat
  gateway : Nat
deriving DecidableEq, Repr

/-- An automaton image as it stands in the section (R206), with the header fields the stages use. -/
structure Automaton where
  number : Nat
  bytes : List Byte
deriving DecidableEq, Repr

/-- A match-store table record (R182) with its initial entry records (R181), from table address 0 upward. -/
structure MstTableRec where
  table : Nat
  firstBlock : Nat
  blocks : Nat
  wide : Bool
  prefilter : Bool
  records : List (List Byte)
deriving DecidableEq, Repr

/-- A compression dictionary (R257): `kind` 0 FORMATTED, 1 RAW_CONTENT. -/
structure Dict where
  number : Nat
  kind : Nat
  id : Nat
  bytes : List Byte
deriving DecidableEq, Repr

/-- What the three manifests of the image in force say (R384). -/
structure Manifests where
  wardenVersion : W32
  stewardVersion : W32
  pitchVersion : W32
  pitchFormat : Nat
  device : BitVec 20
  linkEpoch : Byte
  linkEpochMin : Byte
  linkEpochMax : Byte
  sample : Bool
  recovery : Bool
  owner : Bool
  signer : Nat
  svnWarden : Nat
  svnSteward : Nat
  svnPitch : Nat
  digests : List (List Byte)
  signerId : List Byte
deriving DecidableEq, Repr

/-- The image in force, as pitching loads it. -/
structure Image where
  man : Manifests
  settings : List (Nat × W64)
  regions : List Region
  schemas : List Schema
  pipelines : List Pipeline
  pipeBytes : List Byte
  descs : List (Nat × Desc)
  layouts : List Layout
  automata : List Automaton
  graphs : List Graph
  mstTables : List MstTableRec
  embTables : List EmbTable
  maps : List ShardMap
  dicts : List Dict
  dictRegion : Nat
  streams : List StreamDecl
  routes : List (W64 × W64)
  watches : List Nat
deriving DecidableEq, Repr

end Sys2Proof.Machine
end

