-- ==== Sys2Proof/Machine/Types.lean ====
section
/-!
DEFINITION. The records that the state of the block is made of: chunks and tasks, runs, sessions and attention,
rounds and rows, links and packets, the match store, the pattern streams, power and fault bookkeeping, and the
model's own record of what leaves the block.
-/
namespace Sys2Proof.Machine

/-! ### Chunks (R59, R77 to R79) -/

/-- One value of a column: validity bit, stored bytes (little-endian), poison bit (R34). -/
structure CellV where
  valid : Bool
  bytes : List Byte
  poison : Bool
deriving DecidableEq, Repr

/-- A column of a chunk (R77): its number, its type (codes of R127) and its values. -/
structure Column where
  num : Nat
  typ : Nat
  elem : Nat
  width : Nat
  cells : List CellV
deriving DecidableEq, Repr

/-- A decoded image (R132): channels interleaved, 8 or 16 bits deep. -/
structure Pix where
  w : Nat
  h : Nat
  ch : Nat
  depth : Nat
  px : List Nat
deriving DecidableEq, Repr

/-- Why a sample is lost (R69, REASON codes in order). -/
inductive Loss where
  | parse | checksum | decode | type | size | poison | stale | straggler
deriving DecidableEq, Repr

/-- What a batch slot holds (R69). -/
inductive SlotKind where
  | sample | late | fill | repeat_ | pad
deriving DecidableEq, Repr

/-- A slot of a batch: kind, source index, reason for FILL and REPEAT, capture time and staleness limit of a live frame,
and what fills its tensors: for each payload tensor the slot's packed run, or its one element. -/
structure Slot where
  kind : SlotKind
  source : Nat
  reason : Option Loss
  capture : Option (Nat × Nat)
  data : List (List Byte)
deriving DecidableEq, Repr

/-- A closed batch on its way to EMIT (R68). `layout` changes when a MODEL stage passes it on; `early` says that it closed
before it was full. -/
structure BatchBuf where
  layout : Nat
  slots : List Slot
  tail : List (Nat × Loss)
  timeout : Bool
  early : Bool
  last : Bool
  ordered : Bool
  flow : Nat
  closeTime : Nat
deriving DecidableEq, Repr

/-- The rows of a TABLE argument that a chunk names and whose columns in `mask` have not been read (R79): argument
slot, schema, first row within the vault's slice (or the table). -/
structure RowRange where
  arg : Nat
  schema : Nat
  mask : Nat
  first : Nat
deriving DecidableEq, Repr

/-- What a chunk carries. -/
inductive Payload where
  /-- `n` rows: the columns at hand, and those still in the table -/
  | rows (cols : List Column) (n : Nat) (rest : Option RowRange)
  /-- one encoded sample of a source stage; `none` for a null value (R132) -/
  | raw (bytes : Option (List Byte)) (poison : Bool)
  /-- a live frame (R139) -/
  | frame (f : Frame)
  /-- a decoded image -/
  | image (p : Pix)
  /-- the levels of a pyramid, one payload tensor each (R138) -/
  | levels (ts : List (List Byte))
  /-- a batch -/
  | batch (b : BatchBuf)
deriving DecidableEq, Repr

/-- A tensor in a fresh chunk buffer (R169, R228): its element type and its bytes with their poison. -/
structure FreshTensor where
  typ : Nat
  bytes : List (Byte × Bool)
deriving DecidableEq, Repr

/-- A chunk (R59): flow and position, the vault that holds it (R134), the source index of each row or of the
sample, capture time and staleness limit of a frame in ns, the tensor that a GATHER or a LOOKUP put in a fresh buffer. -/
structure Chunk where
  flow : Nat
  ordinal : Nat
  sub : Nat
  vault : Nat
  inCore : Bool
  late : Bool
  sources : List Nat
  capture : Option (Nat × Nat)
  payload : Payload
  tensor : Option FreshTensor
deriving DecidableEq, Repr

/-- A hole marker (R309). -/
inductive Marker where
  | empty
  | cancelled
  | lost (source : Nat) (why : Loss)
deriving DecidableEq, Repr

/-- What a queue position carries: a chunk, or a marker at a position. -/
inductive QItem where
  | chunk (c : Chunk)
  | hole (flow ordinal sub : Nat) (m : Marker)
deriving DecidableEq, Repr

/-! ### Runs, tasks, flow contexts -/

/-- A record written to a ring slot of another device, not yet acknowledged (R72): the request's TAG, run slot, RING
argument, sequence number, the EMIT task that waits, whether the write has completed. -/
structure Publish where
  tag : Nat
  slot : Nat
  arg : Nat
  seq : Nat
  task : Option Nat
  done : Bool
deriving DecidableEq, Repr

/-- A FILTER that has ended and the PROJECT that follows it on the same vault unit (R80): the unit, the run, the PROJECT
stage, the source indices of the chunk. -/
structure Pair where
  unit : Nat
  slot : Nat
  stage : Nat
  sources : List Nat
deriving DecidableEq, Repr

/-- States of an active run (R64); a free slot has no `Run`. -/
inductive RunState where
  | running | cancelling | failing | completing
deriving DecidableEq, Repr

/-- A batch ring or match ring bound to a RING argument (R71, R212). -/
structure Ring where
  arg : Nat
  ctl : W64
  slot0 : W64
  size : Nat
  count : Nat
  writeIndex : Nat
  readIndex : Nat
deriving DecidableEq, Repr

/-- A stage's mean task time (R144): completions counted so far, and m in ns as the fraction `num` / `den`. -/
structure MeanTime where
  stage : Nat
  n : Nat
  num : Nat
  den : Nat
deriving DecidableEq, Repr

/-- Partial statistics of one column in one vault unit (R101 to R105). -/
structure StatPart where
  stage : Nat
  col : Nat
  vault : Nat
  count : Nat
  nulls : Nat
  nonfinite : Nat
  min : W64
  max : W64
  mean : W64
  m2 : W64
  values : List W64
  bins : List Nat
deriving DecidableEq, Repr

/-- One row of a join's hash table (R115): its key bytes and its payload cells. -/
structure BuildRow where
  vault : Nat
  key : List Byte
  payload : List CellV
deriving DecidableEq, Repr

/-- A join build of a run (R115 to R119). -/
structure JoinBuild where
  stage : Nat
  rows : List BuildRow
  complete : Bool
  markersFrom : List (BitVec 20)
deriving DecidableEq, Repr

/-- A batch being filled by a BATCH stage for one of its flows (R141 to R143): slots, tail, when the first slot was
filled, losses for the next batch, the latest SAMPLE or LATE slot of earlier batches, whether the flow's last batch has
closed, batches closed. -/
structure OpenBatch where
  stage : Nat
  flow : Nat
  slots : List Slot
  tail : List (Nat × Loss)
  firstAt : Option Nat
  carry : List (Nat × Loss)
  lastGood : Option Slot
  ended : Bool
  batches : Nat
deriving DecidableEq, Repr

/-- A run (R61 to R67), held in its run slot. -/
structure Run where
  slot : Nat
  run : W32
  keeper : Bool
  pipeline : Nat
  priority : Nat
  completion : W64
  args : List ArgEntry
  state : RunState
  cancelDue : Bool
  status : Code
  failures : Nat
  rowsIn : Nat
  rowsOut : Nat
  skipped : Nat
  replaced : Nat
  stale : Nat
  abandoned : Nat
  poisonSeen : Bool
  batches : Nat
  startTime : Nat
  stall : Nat
  rings : List Ring
  streams : List (Nat × Nat × Option W32)
deriving DecidableEq, Repr

/-- What a run's stages accumulate across tasks; `sourcesLeft` holds the chunks of source stages that have no task
yet (a frame lost at admission stands among them as its marker), `holes` the markers that have reached BATCH: stage, first task number behind the marker, flow, marker;
`statsRead` the statistics records read once for the run (R107). -/
structure RunWork where
  slot : Nat
  means : List MeanTime
  parts : List StatPart
  statsDone : List Nat
  builds : List JoinBuild
  opens : List OpenBatch
  sourcesLeft : List (Nat × QItem)
  holes : List (Nat × Nat × Nat × Marker)
  statsRead : List (Nat × List Byte)
  joinMaps : List ShardMap
deriving DecidableEq, Repr

/-- A completion record (R67), 32 bytes. -/
abbrev Completion := List Byte

/-- Task states with an entry held (R301). -/
inductive TaskState where
  | pending | held | ready | running
deriving DecidableEq, Repr

/-- A task (R301). `taken` says the exchange unit has its contribution (R238); `stop` that it was cancelled while
RUNNING (R311); `deferred` that it reached D (R145). `queue` is the queue its chunk stands in until dispatch,
`units` the units it runs on (`unit…` numbers), `core` the logical core the logbook names (0xFF for none); `past` is the
exchange round of an earlier attempt, which it does not join again (R238). -/
structure Task where
  id : Nat
  slot : Nat
  stage : Nat
  chunk : Chunk
  queue : Option Nat
  state : TaskState
  prio : Nat
  readyAt : Nat
  sentAt : Nat
  core : Nat
  units : List Nat
  taken : Bool
  stop : Bool
  deferred : Bool
  shared : Bool
  held : Option (List Chunk × List QItem)
  past : Option Nat
deriving DecidableEq, Repr

/-- A position of a stage's outputs that is not yet wholly in the output queue (R308): the task that will fill it,
what it has put out, whether the task has ended, whether it took a release-buffer entry, whether it holds a reserved
place of the queue, and the ORDERED flow in whose order it is released; none where it leaves as soon as it has ended. -/
structure RelPos where
  task : Nat
  ordinal : Nat
  sub : Nat
  out : List QItem
  ended : Bool
  entry : Bool
  place : Bool
  flow : Option Nat
deriving DecidableEq, Repr

/-- A flow context (R307): one queue of one active run, with the positions its producing stage has yet to
release, the next ordinal for a stage that renumbers, and for each ORDERED flow the last position that the consuming
stage took from the queue. -/
structure Ctx where
  slot : Nat
  queue : Nat
  items : List QItem
  reserved : Nat
  nextOrd : Nat
  rel : List RelPos
  seen : List (Nat × Nat × Nat)
deriving DecidableEq, Repr

/-! ### Odren -/

/-- A response as sent (R348): its TYPE is that of its command (R351). -/
structure Response where
  type : Nat
  session : W32
  seq : Nat
  status : Code
  final : Bool
  body : List Byte
deriving DecidableEq, Repr

/-- What a PENDING command waits for (R350). A RUN waits for the indexes of rings on other devices (R62 check 10): the
reads asked for, by TAG, and the values that have come, none where one could not be read. -/
inductive PendWork where
  | run (b : RunBlock) (asked : List (Nat × W64)) (known : List (W64 × Option W64))
  | flash
  | poolRead (tag : Nat)
  | poolWrite (tag : Nat)
  | rowWrite (tag : Nat)
  | hotRow
  | vault
deriving DecidableEq, Repr

/-- A command that still awaits its final response; `result` once the work has ended. -/
structure Pend where
  type : Nat
  seq : Nat
  work : PendWork
  result : Option (Code × List Byte)
deriving DecidableEq, Repr

/-- An attention message queued for a session (R358, R359); `sent` is the time of its last send and the interval
to the next resend. -/
structure AttnMsg where
  seq : Nat
  code : Code
  count : Nat
  first : Nat
  last : Nat
  detail : List W64
  backlog : Bool
  sent : Option (Nat × Nat)
deriving DecidableEq, Repr

/-- An occurrence kept while no attention session is open (R359). -/
structure Occur where
  code : Code
  count : Nat
  first : Nat
  last : Nat
  detail : List W64
deriving DecidableEq, Repr

/-- A session (R353 to R355): `keys` is K of R354, `transcript` D. -/
structure Session where
  slot : Nat
  id : W32
  role : Role
  attention : Bool
  isOpen : Bool
  expected : Nat
  mac : BitVec 48
  relayed : Bool
  keys : List Byte
  transcript : List Byte
  helloAt : Nat
  heardAt : Nat
  sent : List Response
  pends : List Pend
  nextAttn : Nat
  queue : List AttnMsg
  overflow : Nat
  lastFirst : Option Nat
deriving DecidableEq, Repr

/-! ### Memory side tables -/

/-- Who is told when a watch fires (R44). -/
inductive Watcher where
  | pitched
  | ring (slot : Nat) (arg : Nat)
  | session (id : W32)
  | device (d : BitVec 20)
deriving DecidableEq, Repr

/-- A watch entry: the physical address of the word, the address it was set by, the watcher. -/
structure Watch where
  phys : Nat
  addr : W64
  who : Watcher
deriving DecidableEq, Repr

/-- State of the memory beside its bytes (R32 to R38, R44): words whose next reads fail parity (how many reads in a
row; 4 or more is persistent), poison lists, watch entries, LOST vaults, copies being rebuilt. -/
structure MemSide where
  flaky : SMap Nat
  poison : List Nat
  watches : List Watch
  remote : List Watch
  lostVaults : List Nat
  rebuilding : List MemUnit
  idleSince : SMap Nat
deriving DecidableEq, Repr

/-! ### Embedding pool -/

/-- A stored row (R223); `poison` says that a word of it is listed as poisoned (R35), `flaky` how many reads in a row fail
parity, 4 or more for ever (R33). -/
structure Row where
  table : Nat
  id : W64
  version : W32
  scale : W32
  bytes : List Byte
  poison : Bool
  flaky : Nat
deriving DecidableEq, Repr

/-- A hot row and its holders (R242, R243). -/
structure HotRow where
  table : Nat
  id : W64
  holders : List (BitVec 20)
deriving DecidableEq, Repr

/-- What waits for the HOT_ACKs of a row write (R243). -/
inductive AckFor where
  | update (requester : BitVec 20) (table : Nat) (round : Nat) (part : Nat) (forwarded : Bool)
  | ownUpdate (round : Nat)
  | rowWrite (session : W32) (seq : Nat)
  | rowForward (source : BitVec 20) (tag : Nat)
  | nothing
deriving DecidableEq, Repr

/-- A row write, or a bundle of them, whose holders have not all answered: the acknowledgements still to come, one entry
for each message sent. -/
structure HotWait where
  table : Nat
  awaiting : List (BitVec 20)
  version : W32
  statuses : List Entry
  then_ : AckFor
deriving DecidableEq, Repr

/-- An id of a round: the owner it was sent to, in which part and at which index, the combined values of an UPDATE
(R236), its final answer, whether it has been redirected, passed on to a new owner, and held back under R246. -/
structure RoundId where
  id : W64
  owner : BitVec 20
  part : Nat
  index : Nat
  sent : Bool
  values : List W32
  answer : Option Entry
  redirected : Bool
  forwarded : Bool
  deferredSend : Bool
deriving DecidableEq, Repr

/-- A task of a round: its number, the core that runs it, the ids the exchange unit has taken from it (none for a null id),
and for an UPDATE the values that pair with them, as FP32 words. -/
structure RoundTask where
  task : Nat
  core : Nat
  ids : Option (List (Option W64))
  values : List (List W32)
deriving DecidableEq, Repr

/-- An exchange round (R230, R231). `parts` gives the parts sent to each owner, `timeout` is in µs, `order` counts the
rounds in the order of their closing (R241). -/
structure Round where
  slot : Nat
  number : Nat
  runSlot : Nat
  stage : Nat
  update : Bool
  table : Nat
  openedAt : Nat
  closedAt : Option Nat
  order : Nat
  tasks : List RoundTask
  parts : List (Nat × Nat)
  timeout : Nat
  ids : List RoundId
deriving DecidableEq, Repr

/-- An entry of a round that has failed, sent to an owner and not answered yet: entries for its position still wait for the
answer (R246). -/
structure Unanswered where
  update : Bool
  round : Nat
  table : Nat
  id : W64
  owner : BitVec 20
  part : Nat
  index : Nat
  forwarded : Bool
deriving DecidableEq, Repr

/-- Phases of a migration (R245). -/
inductive MigPhase where
  | streaming | forwarding | redirecting
deriving DecidableEq, Repr

/-- A migration slot of the old owner (R245); `unacked` are the rows sent and not acknowledged, by table and id. -/
structure Mig where
  slot : Nat
  map : Nat
  position : Nat
  peer : BitVec 20
  phase : MigPhase
  startedAt : Nat
  cutoverAt : Nat
  roundsAtCutover : Nat
  total : Nat
  sent : Nat
  unacked : List (Nat × W64)
deriving DecidableEq, Repr

/-- The embedding pool and the exchange unit. `decayedAt` is the last halving of the sketch (R242), `balancedAt` the last
balance of each map (R244). -/
structure Emb where
  rows : List Row
  maps : List ShardMap
  sketch : SMap Nat
  hot : List HotRow
  cache : List Row
  waits : List HotWait
  rounds : List Round
  unanswered : List Unanswered
  nextRound : Nat
  closings : Nat
  roundsDone : Nat
  roundTimes : List Nat
  migs : List Mig
  incoming : List (Nat × Nat × BitVec 20)
  gatherReport : Option Nat
  hotReport : SMap Nat
  decayedAt : Nat
  balancedAt : SMap Nat
deriving DecidableEq, Repr

/-! ### Match store -/

/-- A physical entry (R178). `odd` marks the odd half of a 320-bit entry (R181). `flaky` says how many reads in a row
fail parity: 0 none, 1 to 3 a replay passes, 4 or more persistent (R33). -/
structure MstEntry where
  key : BitVec 160
  mask : BitVec 160
  prio : Byte
  valid : Bool
  result : W64
  odd : Bool
  flaky : Nat
deriving DecidableEq, Repr

/-- A staged entry at full width (R189). -/
structure Staged where
  key : BitVec 320
  mask : BitVec 320
  prio : Byte
  valid : Bool
  result : BitVec 128
deriving DecidableEq, Repr

/-- Operations of the match store (R189). -/
inductive MstOp where
  | write | insert | remove | read
deriving DecidableEq, Repr

/-- A queued operation. -/
structure MstQueued where
  op : MstOp
  addr : Nat
  ordinal : Nat
  staged : Staged
deriving DecidableEq, Repr

/-- A shift in progress (R192, R193): `next` is the address the next move takes its entry from, `left` the moves
still to make, `suppress` the boundary address, `done` says that the commit or final invalidation has been made. -/
structure Shift where
  insert : Bool
  addr : Nat
  next : Nat
  left : Nat
  usedEnd : Nat
  suppress : Option Nat
  staged : Staged
  done : Bool
deriving DecidableEq, Repr

/-- The resident weights of a graph (R291): the cores that hold them, and what was read of each descriptor. -/
structure Resident where
  graph : Nat
  cores : List Nat
  data : List (Nat × List (Byte × Bool))
deriving DecidableEq, Repr

/-- A search waiting at a port (R186): activations still to be granted, and the task it is for (none: the Keeper). -/
structure Search where
  table : Nat
  key : BitVec 320
  need : Nat
  started : Bool
  owner : Option Nat
deriving DecidableEq, Repr

/-- What a search returns (R185); `poison` says the result word arrived poisoned. -/
structure Hit where
  hit : Bool
  addr : Nat
  prio : Nat
  multi : Bool
  tie : Bool
  result : BitVec 128
  poison : Bool
deriving DecidableEq, Repr

/-- The searches of a task (R99, R124, R210): its port and table, the keys not yet issued, the searches issued and not
answered, the answers in order. `first` says that the first hit ends them; `chunk` is the task's chunk with what was read. -/
structure Asking where
  task : Nat
  port : Nat
  table : Nat
  keys : List (BitVec 320)
  waiting : Nat
  hits : List Hit
  first : Bool
  chunk : Chunk
deriving DecidableEq, Repr

/-- The match store beside its registers. Entries are keyed by physical block × 8,192 + index. `step` is the limit that
the temperature sets (0 for the full 32), `cool` since when each higher step's condition has held (R188). -/
structure Mst where
  entries : SMap MstEntry
  queues : List (Nat × List MstQueued)
  shifts : List (Nat × Shift)
  ports : List (Nat × List Search)
  asking : List Asking
  lastPort : Nat
  step : Nat
  cool : List (Nat × Nat)
  repairTimes : List (Nat × Nat)
  retiring : List (Nat × Nat)
  rebuilding : List Nat
  exhausted : Bool
  visits : Nat
deriving DecidableEq, Repr

/-! ### Pattern engines -/

/-- The context of a stream (R213): its task, state, tags, next offset, match records still to write, when it
became blocked, time spent blocked, match records so far and the pattern of the first, whether the input has been read to
its end, the reason if it is lost. -/
structure PatCtx where
  cluster : Nat
  stream : Option Nat
  task : Nat
  state : Nat
  tags : List W32
  offset : Nat
  blockedAt : Option Nat
  waited : Nat
  records : Nat
  firstPat : Nat
  queue : List (List Byte)
  scanned : Bool
  lost : Option Loss
deriving DecidableEq, Repr

/-! ### Tether -/

/-- The retry state of a link (R320 to R324): sending side (next SEQ, unacknowledged flits and packets with the SEQ
of their last flit, packets partly sent with the DATA fields to come, round-robin turn), receiving side (next SEQ,
flits since the last ACK, whether a NAK is out, the last SEQ of a whole packet, packets partly received by queue),
NAKs in a row with one ACK, output queues, training history (R325, R335). -/
structure LinkX where
  link : Nat
  txSeq : Nat
  replay : List Flit
  flights : List (Nat × Packet)
  sending : List (Nat × Packet × List (List Byte))
  turn : Nat
  left : Nat
  rxNext : Nat
  rxCount : Nat
  nakSent : Bool
  lastWhole : Nat
  parts : List (Nat × List Byte)
  closed : Bool
  nakAck : Option Nat
  nakCount : Nat
  ackAt : Nat
  queues : List (Nat × List Packet)
  failedOnce : Bool
  downAt : Nat
  replaced : Bool
deriving DecidableEq, Repr

/-- A path being drained (R336): the link that left, the link on which FENCE was sent, the packets the old link had
not acknowledged with the SEQ of their last flit, the packets held meanwhile, and the traffic lists the routing
entries had before the change. -/
structure Fence where
  old : Nat
  new : Option Nat
  startedAt : Nat
  unacked : List (Nat × Packet)
  held : List Packet
  lists : List (Nat × List Nat)
deriving DecidableEq, Repr

/-- A pool or row request injected and not yet answered. -/
structure PoolReq where
  tag : Nat
  dest : BitVec 20
  sentAt : Nat
deriving DecidableEq, Repr

/-- The tether ports beside their registers: links, drained paths, own requests by TAG, own departure number,
departures passed on, the last departure number known of each device, devices gone, messages being joined from a train, messages delivered and not yet taken by their
unit, links engaged for others, and the state of joining and of time synchronisation (R340, R398); `coldJoin` says that
the pitch before joining lost the rows. -/
structure Tth where
  links : List LinkX
  fences : List Fence
  reqs : List PoolReq
  nextTag : Nat
  departure : Nat
  departures : List (BitVec 20 × Nat)
  seen : List (BitVec 20 × Nat)
  gone : List (BitVec 20)
  trains : List (BitVec 20 × Nat × List Byte)
  inbox : List Packet
  replacedBy : List (Nat × Nat)
  joining : Option Nat
  coldJoin : Bool
  joinWaiting : List Nat
  joinMaps : List MapRecord
  exchanges : Nat
  everLocked : Bool
  syncAt : Nat
  peerStrata : List (Nat × Nat)
deriving DecidableEq, Repr

/-! ### Time, power, pitching, module -/

/-- Lantern count (80 ns each, R365), meridian time in ns, the correction still to apply (R352), the phase of the
rate correction, whether the device has been stratum 0 since its last reset. -/
structure Clock where
  lantern : Nat
  meridian : Nat
  corr : Int
  phase : Nat
  wasZero : Bool
deriving DecidableEq, Repr

/-- What the device as a whole is doing (R367, R394, R401, R453, R454). -/
inductive DevState where
  | off | pitching | lit | bivouac | banked | doused | halted
deriving DecidableEq, Repr

/-- A request that waits until a vault serves: a command of a session, a packet of another device (R425, R426, R431). -/
inductive VaultWait where
  | read (session : W32) (seq : Nat) (addr : W64) (len : Nat)
  | write (session : W32) (seq : Nat) (addr : W64) (data : List Byte)
  | row (session : W32) (seq table : Nat) (id : W64) (scale : W32) (row : List Byte)
  | peerRead (source : BitVec 20) (tag : Nat) (addr : W64) (len : Nat)
  | peerWrite (source : BitVec 20) (tag : Nat) (addr : W64) (data : List Byte) (poison : List Nat)
  | peerRow (source : BitVec 20) (tag table : Nat) (id : W64) (scale : W32) (row : List Byte)
  | bundle (b : BundleHdr) (update forwarded : Bool) (es : List Entry)
deriving DecidableEq, Repr

/-- Power and reset bookkeeping: `idleSince` gives each cluster the time of its last ready task or vault request
(R368), `waking` the clusters that a request wakes and since when (R366), `waits` the requests that wait for a vault, in
order, `blocked` whether the task of the command under way has asked for a vault that cannot serve yet, `lastResets` the last reset of each
cluster (R422), `wakeHeld` a WAKE that waits for a tripped device to cool (R432), `copyHoles` the vaults whose part of
the pitch copy is missing (R425). -/
structure Power where
  state : DevState
  alarmAt : Option Nat
  tripped : Bool
  wakeHeld : Bool
  input48 : Bool
  pwrgood : Bool
  retries : Nat
  stuckOpen : Bool
  idleSince : List (Nat × Nat)
  waking : List (Nat × Nat)
  waits : List VaultWait
  blocked : Bool
  copyHoles : List Nat
  copyOk : Bool
  lastResets : List (Nat × Nat)
deriving DecidableEq, Repr

/-- The fuses and the boot ROM's values (R388, R390, R391, R400, R401). -/
structure Fuses where
  mac : BitVec 48
  serial : W64
  stepping : Byte
  board : Byte
  arrayFj : BitVec 16
  svnWarden : Nat
  svnSteward : Nat
  svnPitch : Nat
  owners : List (Option (List Byte))
  revoked : List Bool
  grenogRevoked : List Bool
  wardenMin : Byte
  wardenMax : Byte
  stewardMin : Byte
  stewardMax : Byte
  repairs : List (Nat × Nat × Nat)
deriving DecidableEq, Repr

/-- The flash (R380): the two slots and the golden slot as the bytes programmed; a byte beyond reads 0xFF. -/
structure Flash where
  slot0 : List Byte
  slot1 : List Byte
  golden : List Byte
  certificate : List Byte
deriving DecidableEq, Repr

/-- Quotes and attestation (R399). -/
structure Trust where
  quotePending : Bool
  quote : List Byte
deriving DecidableEq, Repr

/-- A unit in the Sticky out-of-service set (R429): unit kind code of R434, physical cluster, physical unit. -/
structure OutUnit where
  kind : Nat
  cluster : Nat
  unit : Nat
deriving DecidableEq, Repr

/-- A cluster reset in progress (R375): the cluster, when it began, its cause (0 the Warden, 1 a Keeper), the tasks
issued again. -/
structure ClusterReset where
  cluster : Nat
  since : Nat
  cause : Nat
  reissued : Nat
deriving DecidableEq, Repr

/-- Numbering and redundancy (R11, R12, R421 to R429). `slotOf` lists the logical cores served by another physical
slot than their own, `vaultSlotOf` the vaults that stand in another slot; `clusterOf` the logical clusters on another
physical cluster than their own; `replacing` the clusters whose spare is being brought in, `clearing` the vaults whose replacement is being cleared,
`clearAsked` that the Sticky set is to be cleared at the next pitch. -/
structure Units where
  outSet : List OutUnit
  slotOf : List (Nat × Nat)
  vaultSlotOf : List (Nat × Nat)
  clusterOf : List (Nat × Nat)
  coresOut : List Nat
  orphans : List Nat
  lostClusters : List Nat
  missed : List (HwUnit × Nat)
  patOut : List Nat
  cmpOut : List (Nat × Nat)
  jpegOut : List (Nat × Nat)
  pyrOut : List Nat
  vaultSpareUsed : List Nat
  sensorsOut : List Nat
  resetting : List ClusterReset
  replacing : List Nat
  clearing : List Nat
  clearAsked : Bool
deriving DecidableEq, Repr

/-- Counter bookkeeping (R403 to R416): settings in force of counters whose new setting waits for the window
boundary (by register address), the bytes of each port in the window in progress, energy in the window, banks saved
by top-down counting, work cycles held back by unit (cluster × 2 + u), the window length in force and the start of
the window in progress, and whether no window is in progress, which lasts from a time step to the next multiple of the
length. -/
structure Pmc where
  active : List (Nat × W64)
  ports : SMap Nat
  energy : Nat
  saved : List (Nat × List (Nat × W64))
  tdHeld : List (Nat × Nat)
  length : Nat
  windowStart : Nat
  gap : Bool
deriving DecidableEq, Repr

/-- Governor, census and module measurements (R430 to R432, R314, R462). `coolSeconds` counts the checks in a row that found
the device cool: six of them span five seconds. `busy` is the time with a running task of each
core in the census window, `busyFrom` when a core that is busy became so; the window in progress began `windowStart` ns
after 48 V was applied and ends at meridian time `windowEnd`; `windowWaits` while the first window is still waited for. -/
structure Gov where
  coolSeconds : Nat
  hotSensors : List (Nat × Nat)
  coolSince : List (Nat × Nat)
  coolantBad : Bool
  coolantOkAt : Option Nat
  inputBad : Bool
  inputBadAt : Option Nat
  inputOkAt : Option Nat
  busy : List (Nat × Nat)
  busyFrom : List (Nat × Nat)
  windowStart : Nat
  windowEnd : Nat
  windowWaits : Bool
  censusTasks : List (Nat × Nat)
deriving DecidableEq, Repr

/-- The management bus (R456, R457): the response waiting to be read. -/
structure Mgmt where
  response : Option (Code × List Byte)
deriving DecidableEq, Repr

/-- A fault-log entry (R434), 32 bytes. -/
abbrev FaultEntry := List Byte

/-- The model's own record of what leaves the block, newest last; nothing in the block reads it. -/
inductive Output where
  | response (mac : BitVec 48) (relayed : Bool) (r : Response)
  | attention (mac : BitVec 48) (session : W32) (m : AttnMsg) (flags : Nat)
  | flit (link : Nat) (f : Flit)
  | linkInit (link : Nat) (b : LinkInitBody)
  | relayed (mac : BitVec 48) (b : RelayBody)
  | notify (w : Watcher) (addr : W64) (value : W64) (poison : Bool)
  | mgmt (status : Code) (data : List Byte)
  | watchRegister (owner : BitVec 20) (addr : W64) (remove : Bool)
deriving DecidableEq, Repr

end Sys2Proof.Machine
end

