-- ==== Sys2Proof/Machine/State.lean ====
section
/-!
DEFINITION. The state of the block, all of it plain data: the registers of the map by address, the memory by
physical address, the units' own state, the queue of waiting commands, and `State.reset`.
-/
namespace Sys2Proof.Machine

/-- Nothing in the block stops with a fault: what the manual calls an error is a status code, an attention message
or a lost sample, each an effect on the state. No command raises one; safe. -/
inductive Fault where
deriving DecidableEq, Repr

/-- The reasons a command has no meaning. -/
inductive Refusal where
  /-- the dispatch of a command whose meaning is not written yet; safe -/
  | notModelled (mnemonic : String)
  /-- JTAG_INSTRUCTION with one of Grenog's private instructions while MOD_MGMT.JTAG_DEBUG is 1: the manual
  names these instructions and gives no effect (R458); safe -/
  | jtagPrivate
deriving DecidableEq, Repr

/-- The Odren port: sessions and the backlog of occurrences (R359). -/
structure Odn where
  sessions : List Session
  occurs : List Occur
deriving DecidableEq, Repr

/-- The dispatcher (R300 to R316): tasks with an entry, PENDING chunks stay in `ctxs`, the completion history
(newest first, R64), records dropped since the last record written and the time of the last record, the ring records
on their way to other devices, and the chunks whose PROJECT follows their FILTER at once. -/
structure Disp where
  tasks : List Task
  nextTask : Nat
  ctxs : List Ctx
  history : List Completion
  overrun : Nat
  logAt : Option Nat
  publishing : List Publish
  pairs : List Pair
deriving DecidableEq, Repr

/-- The block. `core` holds the core stores (R13), 1 MiB of each core in turn. `pending` is the queue of waiting commands; `free` counts the values the manual leaves open that
have been drawn (the model's own field); `outbox` records what leaves the block (the model's own field). -/
structure State where
  pending : List Instr
  free : Nat
  regs : SMap W64
  mem : List Host.Cell
  core : List Host.Cell
  side : MemSide
  clock : Clock
  power : Power
  fuses : Fuses
  flash : Flash
  trust : Trust
  image : Option Image
  odn : Odn
  runs : List Run
  work : List RunWork
  runDescs : List (Nat × Desc)
  heldRegions : List (Nat × Nat)
  resident : List Resident
  disp : Disp
  emb : Emb
  mst : Mst
  pat : List PatCtx
  tth : Tth
  units : Units
  pmc : Pmc
  gov : Gov
  mgmt : Mgmt
  flog : List FaultEntry
  outbox : List Output
deriving DecidableEq, Repr

def MemSide.empty : MemSide := ⟨[], [], [], [], [], [], []⟩
def Emb.empty : Emb := ⟨[], [], [], [], [], [], [], [], 0, 0, 0, [], [], [], none, [], 0, []⟩
def Mst.empty : Mst := ⟨[], [], [], [], [], 0, 0, [], [], [], [], false, 0⟩
def Tth.empty : Tth := ⟨[], [], [], 0, 0, [], [], [], [], [], [], none, false, [], [], 0, false, 0, []⟩
def Units.empty : Units := ⟨[], [], [], [], [], [], [], [], [], [], [], [], [], [], [], [], [], false⟩
def Pmc.empty : Pmc := ⟨[], [], 0, [], [], 1000, 0, false⟩
def Gov.empty : Gov := ⟨0, [], [], false, none, false, none, none, [], [], 0, 0, true, []⟩
def Disp.empty : Disp := ⟨[], 0, [], [], 0, none, [], []⟩
def Odn.empty : Odn := ⟨[], []⟩
def Flash.empty : Flash := ⟨[], [], [], []⟩

/-- The fuses of the modelled part: no owner enrolled, nothing revoked, every counter and every value 0 that the
manual leaves to manufacture (log entry 5). -/
def Fuses.blank : Fuses :=
  ⟨0, 0, 0, 0, 0, 0, 0, 0, [none, none, none, none], [false, false, false, false],
    [false, false, false, false], 0, 255, 0, 255, []⟩

/-- The state right after reset: 48 V is good, the lantern domain has just started and pitching has not begun
(R395 step 1). Every register reads its reset value (R445), memory lists nothing, no command waits. -/
def State.reset : State where
  pending := []
  free := 0
  regs := []
  mem := []
  core := []
  side := MemSide.empty
  clock := ⟨0, 0, 0, 0, false⟩
  power := ⟨.pitching, none, false, false, true, true, 0, false, [], [], [], false, [], false, []⟩
  fuses := Fuses.blank
  flash := Flash.empty
  trust := ⟨false, []⟩
  image := none
  odn := Odn.empty
  runs := []
  work := []
  runDescs := []
  heldRegions := []
  resident := []
  disp := Disp.empty
  emb := Emb.empty
  mst := Mst.empty
  pat := []
  tth := Tth.empty
  units := Units.empty
  pmc := Pmc.empty
  gov := Gov.empty
  mgmt := ⟨none⟩
  flog := []
  outbox := []

end Sys2Proof.Machine
end

