-- ==== Sys2Proof/Machine/Regs.lean ====
section
/-!
DEFINITION. Registers as the state holds them: addresses from the index (R448), fields by name, counters that
saturate, the defaults of the setting classes (R7, R377).
-/
namespace Sys2Proof.Machine

/-- The reset word of a register. -/
def RegDef.resetWord (d : RegDef) : W64 :=
  BitVec.ofNat 64 (d.fields.foldl (fun acc f => acc + (f.reset <<< f.lsb)) 0)

/-- The address of an instance (R448): base, then the two instance numbers times their strides. -/
def regAddr (id : RegId) (i j : Nat) : Nat :=
  (regDef id).base + i * (regDef id).s1 + j * (regDef id).s2

def regReset (id : RegId) : W64 := (regDef id).resetWord

/-- The instance of `d` that stands at `a`, if there is one. -/
def RegDef.instanceAt (d : RegDef) (a : Nat) : Option (Nat × Nat) :=
  if a < d.base then none
  else
    let off := a - d.base
    let i := if d.n1 ≤ 1 then 0 else off / d.s1
    let r := off - i * d.s1
    let j := if d.n2 ≤ 1 then 0 else r / d.s2
    if i < d.n1 ∧ j < d.n2 ∧ r = j * d.s2 then some (i, j) else none

/-- The register at a local address among `l`. -/
def locateIn (a : Nat) : List RegId → Option (RegId × Nat × Nat)
  | [] => none
  | id :: r =>
    match (regDef id).instanceAt a with
    | some (i, j) => some (id, i, j)
    | none => locateIn a r

/-- The register at a local address (R438): none where the index names none. -/
def locate (a : Nat) : Option (RegId × Nat × Nat) := locateIn a allRegs

/-- The word a register holds (fields the device derives from other state are computed where it is read). -/
def State.raw (s : State) (id : RegId) (i j : Nat) : W64 :=
  SMap.get (regReset id) s.regs (regAddr id i j)

def State.setRaw (s : State) (id : RegId) (i j : Nat) (w : W64) : State :=
  { s with regs := SMap.set (regReset id) s.regs (regAddr id i j) w }

/-- Largest value of a field. -/
def FRef.max (f : FRef) : Nat := 2 ^ (f.msb + 1 - f.lsb) - 1

/-- A field of instance (i, j). -/
def State.fget2 (s : State) (f : FRef) (i j : Nat) : Nat := bitsOf (s.raw f.reg i j).toNat f.msb f.lsb

/-- A field of a register with one instance dimension, or none. -/
def State.fget (s : State) (f : FRef) (i : Nat := 0) : Nat := s.fget2 f i 0

def State.flag (s : State) (f : FRef) (i : Nat := 0) : Bool := s.fget f i != 0

def State.fset2 (s : State) (f : FRef) (i j x : Nat) : State :=
  s.setRaw f.reg i j (putBits (s.raw f.reg i j) f.msb f.lsb x)

/-- Set a field; the rest of the register keeps its value. -/
def State.fset (s : State) (f : FRef) (i x : Nat) : State := s.fset2 f i 0 x

/-- Add to a counter field, which stops at its largest value (R443). -/
def State.bump2 (s : State) (f : FRef) (i j n : Nat) : State :=
  s.fset2 f i j (satAdd f.max (s.fget2 f i j) n)

def State.bump (s : State) (f : FRef) (i n : Nat) : State := s.bump2 f i 0 n

/-- Subtract from a field, not below 0. -/
def State.drop (s : State) (f : FRef) (i n : Nat) : State := s.fset f i (s.fget f i - n)

/-- The Pitch, Runtime, Sticky or Lantern bits of a register, as a mask. -/
def RegDef.clsMask (d : RegDef) (keep : Cls → Bool) : W64 :=
  BitVec.ofNat 64 (d.fields.foldl (fun acc f =>
    if keep f.cls then acc + ((2 ^ (f.msb + 1 - f.lsb) - 1) <<< f.lsb) else acc) 0)

/-- A stored word with the fields of the chosen classes back at their reset values (R377). -/
def RegDef.defaultCls (d : RegDef) (which : Cls → Bool) (w : W64) : W64 :=
  let m := d.clsMask which
  (w &&& ~~~ m) ||| (d.resetWord &&& m)

/-- Every register of `ids`' choice has the fields of the chosen classes returned to their reset values. -/
def defaultRegs (which : Cls → Bool) (pick : RegId → Nat → Nat → Bool) (regs : SMap W64) : SMap W64 :=
  regs.filterMap (fun e =>
    match locate e.1 with
    | none => none
    | some (id, i, j) =>
      if pick id i j then
        let w := (regDef id).defaultCls which e.2
        if w = regReset id then none else some (e.1, w)
      else some e)

/-- Time since 48 V was applied in ns, from the lantern count (80 ns each, R365); it never steps. -/
def State.now (s : State) : Nat := s.clock.lantern * 80

/-- Meridian time in ns. -/
def State.meridian (s : State) : Nat := s.clock.meridian

/-- Draw a value the manual leaves open: the present count, and the state with the count advanced. -/
def State.draw (s : State) : Nat × State := (s.free, { s with free := s.free + 1 })

/-- The device's number (R337). -/
def State.device (s : State) : Nat := s.fget F.TTH_ID_DEVICE

/-- LIT or bivouac: the port, its sessions and the registers work (R394). -/
def State.upAndRunning (s : State) : Bool := s.power.state == .lit || s.power.state == .bivouac

def State.lit (s : State) : Bool := s.power.state == .lit

end Sys2Proof.Machine
end

