-- ==== Sys2Proof/Machine/Report.lean ====
section
/-!
DEFINITION. Reporting: attention messages and their queues (R357 to R359), the relay they take while the port is
down (R360), responses (R348), the fault log (R434), and a link's output queues (R324).
-/
namespace Sys2Proof.Machine

/-! ### Links -/

/-- A link with nothing sent or received since it trained (R325 step 5). -/
def LinkX.fresh (l : Nat) : LinkX :=
  ⟨l, 0, [], [], [], 0, 0, 0, 0, false, 4095, [], false, none, 0, 0, [], false, 0, false⟩

def State.linkx (s : State) (l : Nat) : LinkX := (s.tth.links.find? (·.link == l)).getD (LinkX.fresh l)

def State.setLinkx (s : State) (x : LinkX) : State :=
  { s with tth := { s.tth with
      links := insertBy (fun a b => a.link ≤ b.link) x (s.tth.links.filter (·.link != x.link)) } }

/-- Link states (R327). -/
def lnkDisabled : Nat := 0
def lnkDown : Nat := 1
def lnkTraining : Nat := 2
def lnkActive : Nat := 3
def lnkStandby : Nat := 4
def lnkMaintenance : Nat := 5
def lnkRetraining : Nat := 6

def State.linkState (s : State) (l : Nat) : Nat := s.fget F.TTH_LINK_STATUS_STATE l

def State.linksIn (s : State) (p : Nat → Bool) : List Nat := (List.range 64).filter (fun l => p (s.linkState l))

def State.activeLinks (s : State) : List Nat := s.linksIn (· == lnkActive)

/-- The output queue of a class and virtual channel. -/
def LinkX.queue (x : LinkX) (k : Nat) : List Packet := lookupD [] x.queues k

def LinkX.setQueue (x : LinkX) (k : Nat) (q : List Packet) : LinkX :=
  { x with queues := insertBy (fun a b => a.1 ≤ b.1) (k, q) (x.queues.filter (·.1 != k)) }

/-- Queue number of a class and a virtual channel. -/
def vcKey (cls : BitVec 2) (vc : Bool) : Nat := cls.toNat * 2 + b2n vc

/-- A packet joins the output queue of its class and virtual channel (R334: behind what is there). -/
def State.enqueue (s : State) (l : Nat) (p : Packet) : State :=
  let x := s.linkx l
  let k := vcKey p.hdr.cls p.hdr.vc
  s.setLinkx (x.setQueue k (x.queue k ++ [p]))

/-- The header of a packet this device injects (R329): VC0, HOPS_LEFT at the limit, INJECT the time. -/
def State.header (s : State) (dest cls kind len tag : Nat) : PacketHdr :=
  { dest := BitVec.ofNat 20 dest, source := BitVec.ofNat 20 s.device, cls := BitVec.ofNat 2 cls, vc := false,
    sourceRouted := false, more := false, hopsLeft := s.fget F.TTH_CTL_HOP_LIMIT, kind := kind, length := len,
    tag := tag, inject := BitVec.ofNat 32 s.meridian, route := [], pos := 0, routeLen := 0 }

/-! ### Messages and relay -/

/-- The 24-byte message header (R348). -/
def msgHeader (type flags session seq status len : Nat) : List Byte :=
  [1] ++ natLe 1 type ++ natLe 1 flags ++ [0] ++ natLe 4 session ++ natLe 8 seq ++ natLe 2 status ++ [0, 0] ++
    natLe 4 len

/-- The RELAY body (R360). -/
def relayBytes (b : RelayBody) : List Byte :=
  natLe 4 b.device.toNat ++ natLe 1 b.hops ++ natLe 1 (b2n b.toDevice) ++ [0, 0] ++ natLe 6 b.mac.toNat ++ [0, 0] ++
    b.inner

/-- The link a relay leaves on: the lowest that is ACTIVE or MAINTENANCE, other than the arrival link (R360). -/
def State.relayLink (s : State) (notOn : Option Nat) : Option Nat :=
  (s.linksIn (fun st => st == lnkActive || st == lnkMaintenance)).find? (fun l => notOn != some l)

/-- Send a RELAY packet on a link. -/
def State.sendRelay (s : State) (l : Nat) (b : RelayBody) : State :=
  let body := relayBytes b
  s.enqueue l ⟨s.header 0xFFFFF 2 0x0E body.length 0, body⟩

/-- Send a message of the device's own towards a node while the port is down (R360). -/
def State.relayOut (s : State) (mac : BitVec 48) (inner : List Byte) : State :=
  if s.flag F.ODN_CTL_RELAY_ENABLE then
    match s.relayLink none with
    | some l => s.sendRelay l ⟨BitVec.ofNat 20 s.device, 0, false, mac, inner⟩
    | none => s
  else s

def State.out (s : State) (o : Output) : State := { s with outbox := s.outbox ++ [o] }

/-- Bytes that crossed a port (R411). -/
def State.meter (s : State) (port bytes : Nat) : State :=
  { s with pmc := { s.pmc with ports := SMap.set 0 s.pmc.ports port (SMap.get 0 s.pmc.ports port + bytes) } }

/-- The Ethernet payload of a message with `body` bytes (R347): header, body, the tag of a protected message, padding. -/
def messageBytes (body : Nat) (isProtected : Bool) : Nat := max 46 (24 + body + (if isProtected then 16 else 0))

/-- Whether the port is up (R345; ODN_STATUS.PORT 0b01). -/
def State.portUp (s : State) : Bool := s.fget F.ODN_STATUS_PORT == 1

/-! ### Responses -/

/-- Send a response: through the port, or through the fabric when the command came by relay (R360). -/
def State.sendResponse (s : State) (mac : BitVec 48) (relayed : Bool) (r : Response) : State :=
  let s := s.out (.response mac relayed r)
  if relayed then
    s.relayOut mac (msgHeader r.type (1 + 2 * b2n r.final) r.session.toNat r.seq r.status.toNat r.body.length ++ r.body)
  else s.meter 352 (messageBytes r.body.length (r.session != 0 && !(r.type == 1 && r.seq == 0)))

/-- An answer outside any session (R348, R353, R354). -/
def State.answerBare (s : State) (mac : BitVec 48) (relayed : Bool) (type : Nat) (session : W32) (seq : Nat)
    (st : Code) (body : List Byte) : State :=
  s.sendResponse mac relayed ⟨type, session, seq, st, false, body⟩

def State.session? (s : State) (id : W32) : Option Session := s.odn.sessions.find? (·.id == id)

/-- Replace the session of the same slot. -/
def State.putSession (s : State) (x : Session) : State :=
  { s with odn := { s.odn with sessions := updWhere (·.slot == x.slot) (fun _ => x) s.odn.sessions } }

/-- Keep a response for resending: the last 64 commands (R349). -/
def Session.keep (x : Session) (r : Response) : Session :=
  { x with sent := ((x.sent.filter (·.seq != r.seq)) ++ [r]).reverse.take 64 |>.reverse }

/-- Answer a command of a session and keep the response. -/
def State.respond (s : State) (id : W32) (type seq : Nat) (st : Code) (body : List Byte)
    (final : Bool := false) : State :=
  match s.session? id with
  | none => s
  | some x =>
    let r : Response := ⟨type, id, seq, st, final, body⟩
    (s.putSession (x.keep r)).sendResponse x.mac x.relayed r

/-! ### Attention -/

/-- FLAGS of an ATTENTION body (R358). -/
def State.attnFlags (s : State) (backlog : Bool) : Nat :=
  b2n (s.flag F.PCH_STATUS_UNTESTED) + 2 * b2n (!s.portUp) + 4 * b2n backlog

/-- The bytes of an ATTENTION message (R348, R358). -/
def State.attnBytes (s : State) (session : W32) (m : AttnMsg) : List Byte :=
  let detail := m.detail.flatMap (fun w => natLe 8 w.toNat)
  let body := natLe 2 m.code.toNat ++ natLe 2 detail.length ++ natLe 4 m.count ++ natLe 8 m.first ++ natLe 8 m.last ++
    natLe 4 s.device ++ natLe 4 (s.attnFlags m.backlog) ++ detail
  msgHeader 0x10 4 session.toNat m.seq 0 body.length ++ body

/-- Put an attention message on the wire: through the port, or by relay while the port is down (R360). -/
def State.sendAttention (s : State) (mac : BitVec 48) (session : W32) (m : AttnMsg) : State :=
  let s := s.out (.attention mac session m (s.attnFlags m.backlog))
  if s.portUp then s.meter 352 (messageBytes (32 + 8 * m.detail.length) (session != 0))
  else s.relayOut mac (s.attnBytes session m)

/-- Whether two occurrences merge (R359): the same code, never RUN_DONE, WATCH_FIRED only for one address. -/
def mergeable (c1 : Code) (d1 : List W64) (c2 : Code) (d2 : List W64) : Bool :=
  c1 == c2 && c1 != C.RUN_DONE && (c1 != C.WATCH_FIRED || d1.head? == d2.head?)

/-- Attention queue places of a session, and occurrences kept while no attention session is open (R359). -/
def attnPlaces : Nat := 1024

/-- Merge into the first message waiting for its first send; none where no message takes the occurrence. -/
def mergeQueue (o : Occur) : List AttnMsg → Option (List AttnMsg)
  | [] => none
  | m :: r =>
    if m.sent.isNone && mergeable m.code m.detail o.code o.detail then
      some ({ m with count := m.count + o.count, last := o.last, detail := o.detail } :: r)
    else (mergeQueue o r).map (m :: ·)

/-- An occurrence joins a session's queue, merges, or is counted as lost (R359). -/
def Session.queueOccur (x : Session) (o : Occur) (backlog : Bool) : Session :=
  match mergeQueue o x.queue with
  | some q => { x with queue := q }
  | none =>
    if x.queue.length < attnPlaces then
      { x with
        nextAttn := x.nextAttn + 1
        queue := x.queue ++ [⟨x.nextAttn, o.code, o.count, o.first, o.last, o.detail, backlog, none⟩] }
    else { x with overflow := satAdd 65535 x.overflow 1 }

/-- Gap between first sends, and the first resend interval, in ns (R359). -/
def firstSendGap : Nat := 100000
def firstResend : Nat := 10000000

/-- The first message of the queue that still waits for its first send is sent, if the gap has passed. -/
def State.firstSend (s : State) (slot : Nat) : State :=
  match s.odn.sessions.find? (·.slot == slot) with
  | none => s
  | some x =>
    if !x.isOpen || (match x.lastFirst with | some t => s.now < t + firstSendGap | none => false) then s
    else
      match x.queue.find? (·.sent.isNone) with
      | none => s
      | some m =>
        let m' := { m with sent := some (s.now, firstResend) }
        let x := { x with lastFirst := some s.now, queue := updWhere (·.seq == m.seq) (fun _ => m') x.queue }
        (s.putSession x).sendAttention x.mac x.id m'

/-- Merge into the backlog, or keep the occurrence there while a place is left. -/
def backlogAdd (o : Occur) : List Occur → Nat → List Occur
  | [], n => if n < attnPlaces then [o] else []
  | p :: r, n =>
    if mergeable p.code p.detail o.code o.detail then
      { p with count := p.count + o.count, last := o.last, detail := o.detail } :: r
    else p :: backlogAdd o r (n + 1)

/-- Whether a session takes reports (R357). -/
def Session.hears (x : Session) : Bool := x.isOpen && x.attention

/-- One occurrence for the sessions that `to` picks. -/
def State.deliver (s : State) (o : Occur) (backlog : Bool) (dst : Session → Bool) : State :=
  let s := { s with odn := { s.odn with
    sessions := s.odn.sessions.map (fun x => if dst x then x.queueOccur o backlog else x) } }
  (s.odn.sessions.filter dst).foldl (fun s x => s.firstSend x.slot) s

/-- Report an attention code (R357): to every open session that asked for attention; with none open, once to the
node's address and into the backlog (R359). -/
def State.report (s : State) (code : Code) (detail : List W64) : State :=
  let o : Occur := ⟨code, 1, s.meridian, s.meridian, detail⟩
  if s.odn.sessions.any Session.hears then s.deliver o false Session.hears
  else
    let mac := BitVec.ofNat 48 (s.fget F.ODN_NODE_MAC_MAC)
    let mac := if mac = 0 then BitVec.allOnes 48 else mac
    let s := s.sendAttention mac 0 ⟨0, code, 1, o.first, o.last, detail, false, none⟩
    { s with odn := { s.odn with occurs := backlogAdd o s.odn.occurs 0 } }

/-- Report with numbers as detail items. -/
def State.attn (s : State) (code : Code) (detail : List Nat) : State :=
  s.report code (detail.map (BitVec.ofNat 64))

/-- When queue space frees after occurrences were lost, one ATTN_OVERFLOW carrying the count is queued (R359). -/
def State.overflowNotice (s : State) (slot : Nat) : State :=
  match s.odn.sessions.find? (·.slot == slot) with
  | none => s
  | some x =>
    if x.overflow = 0 ∨ x.queue.length ≥ attnPlaces then s
    else
      let o : Occur := ⟨C.ATTN_OVERFLOW, 1, s.meridian, s.meridian, [BitVec.ofNat 64 x.overflow]⟩
      (s.putSession ({ x with overflow := 0 }.queueOccur o false)).firstSend slot

/-! ### The fault log (R434) -/

/-- Outcomes of a log entry. -/
def outReplaced : Nat := 0
def outDegraded : Nat := 1
def outLost : Nat := 2
def outEvent : Nat := 3

/-- One entry in the layout of R434. -/
def State.logEntry (s : State) (code kind outcome physCluster physUnit logical detail : Nat) : FaultEntry :=
  natLe 8 s.meridian ++ natLe 2 code ++ natLe 1 kind ++ natLe 1 outcome ++ natLe 1 physCluster ++
    natLe 1 physUnit ++ natLe 2 logical ++ natLe 4 (s.fget F.PCH_BOOT_BOOT_COUNT) ++ natLe 8 detail ++ zeros 4

/-- Write an entry: newest first, the oldest of 257 is overwritten; COUNT and TOTAL follow. -/
def State.faultLog (s : State) (code kind outcome physCluster physUnit logical detail : Nat) : State :=
  let e := s.logEntry code kind outcome physCluster physUnit logical detail
  let s := { s with flog := (e :: s.flog).take 256 }
  (s.fset F.FLT_LOG_SEL_COUNT 0 s.flog.length).bump F.FLT_LOG_SEL_TOTAL 0 1

/-- An entry about an event that changed no unit. -/
def State.faultEvent (s : State) (code detail : Nat) : State :=
  s.faultLog code 0xFF outEvent 0xFF 0xFF 0xFFFF detail

/-! ### Units leaving service (R422, R434) -/

/-- The physical cluster of a logical one (R12). -/
def State.physCluster (s : State) (c : Nat) : Nat := lookupD c s.units.clusterOf c

/-- The report and the log entry of a unit that leaves service; the numbers of UNIT_FAILED are the kind, the physical
cluster (0xFF for none) and unit, the logical number, the outcome (log entry 53). -/
def State.unitReport (s : State) (kind outcome physCluster physUnit logical : Nat) : State :=
  (s.faultLog C.UNIT_FAILED.toNat kind outcome physCluster physUnit logical kind).attn C.UNIT_FAILED
    [kind, physCluster, physUnit, logical, outcome]

/-- The out-of-service set (R429), with its size in FLT_UNITS. -/
def State.setOut (s : State) (l : List OutUnit) : State :=
  ({ s with units := { s.units with outSet := l } }).fset F.FLT_UNITS_UNITS_OUT 0 (min 255 l.length)

def State.addOut (s : State) (u : OutUnit) : State :=
  if s.units.outSet.contains u then s else s.setOut (s.units.outSet ++ [u])

/-- A unit leaves service: it enters the out-of-service set, the log and the report. -/
def State.unitLeaves (s : State) (kind outcome physCluster physUnit logical : Nat) : State :=
  (s.addOut ⟨kind, physCluster, physUnit⟩).unitReport kind outcome physCluster physUnit logical

end Sys2Proof.Machine
end

