-- ==== Sys2Proof/Machine/Count.lean ====
section
/-!
DEFINITION. The event counters (R403 to R408) and port meters (R411): what an event adds, and what a counter does
when it passes its largest value.
-/
namespace Sys2Proof.Machine

end Sys2Proof.Machine

namespace Sys2Proof
open Sys2Proof.Machine

/-- The registers of a counter: its settings and its count. -/
def CounterRef.ctlId : CounterRef → RegId
  | .global _ => .PMC_CNT_CTL
  | .cluster .. => .PMC_CL_CNT_CTL

def CounterRef.cntId : CounterRef → RegId
  | .global _ => .PMC_CNT
  | .cluster .. => .PMC_CL_CNT

/-- The register instance: a cluster bank's first instance number is the cluster. -/
def CounterRef.i : CounterRef → Nat
  | .global i => i
  | .cluster c _ => c

def CounterRef.j : CounterRef → Nat
  | .global _ => 0
  | .cluster _ i => i

/-- A field of the settings register of a counter, and of its count register. -/
def CounterRef.ctlField (r : CounterRef) (f : FRef) : FRef := { f with reg := r.ctlId }
def CounterRef.cntField (r : CounterRef) (f : FRef) : FRef := { f with reg := r.cntId }

/-- Bank and counter numbers as COUNTER_OVERFLOW carries them: bank 0–11 for a cluster, 12 for the global bank
(log entry 13). -/
def CounterRef.bank : CounterRef → Nat × Nat
  | .global i => (12, i)
  | .cluster c i => (c, i)

end Sys2Proof

namespace Sys2Proof.Machine

/-- The settings a counter counts by (R408): those in force until the window boundary. -/
def State.counterInForce (s : State) (r : CounterRef) : W64 :=
  lookupD (s.raw r.ctlId r.i r.j) s.pmc.active (regAddr r.ctlId r.i r.j)

/-- A counter wraps to 0, sets OVF, names the event in force, and reports if ATTN is set (R407). -/
def State.counterWrap (s : State) (r : CounterRef) : State :=
  let ev := bitsOf (s.counterInForce r).toNat 11 0
  let s := s.fset2 (r.cntField F.PMC_CNT_OVF) r.i r.j 1
  let s := s.fset2 (r.ctlField F.PMC_CNT_CTL_OVF_EVENT) r.i r.j ev
  if s.fget2 (r.ctlField F.PMC_CNT_CTL_ATTN) r.i r.j = 1 then
    s.attn C.COUNTER_OVERFLOW [r.bank.1, r.bank.2, ev]
  else s

/-- Add to a counter; passing 2^48 − 1 wraps it (R407). -/
def State.counterAdd (s : State) (r : CounterRef) (n : Nat) : State :=
  let v := s.fget2 (r.cntField F.PMC_CNT_VALUE) r.i r.j + n
  let s := s.fset2 (r.cntField F.PMC_CNT_VALUE) r.i r.j (v % 2 ^ 48)
  if v < 2 ^ 48 then s else s.counterWrap r

/-- Whether a cluster's bank counts top-down slots instead of events (R414). -/
def State.topDown (s : State) (c : Nat) : Bool :=
  (s.flag F.PMC_TD_CTL_MODE && bitAt (s.fget F.PMC_TD_CTL_CLUSTERS) c) || bitAt (s.fget F.PMC_TD_CTL_RECOVERY) c

def State.shaded (s : State) (c : Nat) : Bool := bitAt (s.fget F.PWS_STATE_SHADED) c

/-- The counters whose settings register holds ENABLE. -/
def State.countersOn (s : State) : List CounterRef :=
  s.regs.filterMap (fun e =>
    if bitAt e.2.toNat 16 then
      match (regDef .PMC_CNT_CTL).instanceAt e.1, (regDef .PMC_CL_CNT_CTL).instanceAt e.1 with
      | some (i, _), _ => if h : i < 64 then some (.global ⟨i, h⟩) else none
      | none, some (c, i) =>
        if h : c < 12 ∧ i < 16 then
          if s.shaded c || s.topDown c || s.units.lostClusters.contains c then none else some (.cluster ⟨c, h.1⟩ ⟨i, h.2⟩)
        else none
      | none, none => none
    else none)

/-- The instance a counter of bank `r` sees for device-wide instance `inst` of an event (R405): core and vault events
count the slot within the cluster, group 0x7 the stream, group 0x8 the engine. Occurrences of group 0x7 carry
cluster × 16 + stream, of which the global bank sees the cluster (R406). -/
def instanceIn (r : CounterRef) (ev inst : Nat) : Option Nat :=
  match r with
  | .global _ => if ev / 256 = 7 then some (inst / 16) else some inst
  | .cluster c _ =>
    let g := ev / 256
    if g = 0 then some 0
    else if g = 1 ∨ g = 3 ∨ g = 4 ∨ g = 5 then (if inst / 16 = c.val then some (inst % 16) else none)
    else if g = 8 then (if inst / 2 = c.val then some (inst % 2) else none)
    else if g = 7 then (if inst / 16 = c.val then some (inst % 16) else none)
    else if g = 11 then (if inst = c.val then some 0 else none)
    else none

/-- Whether a counter in force as `w` takes an occurrence of `ev` at `inst` (R404: 0xFF is the OR of all). -/
def counts (w : W64) (r : CounterRef) (ev inst : Nat) : Bool :=
  bitsOf w.toNat 11 0 == ev &&
    (match instanceIn r ev inst with
     | some i => bitsOf w.toNat 31 24 == 0xFF || bitsOf w.toNat 31 24 == i
     | none => false)

/-- The logical core that a physical slot of a cluster serves, if any (R12, R424). -/
def State.coreAt (s : State) (c slot : Nat) : Option Nat :=
  match s.units.slotOf.find? (fun e => e.1 / 16 == c && e.2 == slot) with
  | some e => some e.1
  | none =>
    let n := c * 16 + slot
    if slot < 16 ∧ s.units.slotOf.all (fun e => e.1 != n) then some n else none

/-- The unit that PMC_TD_SEL names as unit `u` of a cluster: the logical core of its slot, and its kind (R415). -/
def State.topDownSel (s : State) (c u : Nat) : Option Nat × Nat :=
  let b := bitsOf (s.fget F.PMC_TD_SEL_UNITS c) (8 * u + 7) (8 * u)
  (s.coreAt c (b % 32), b / 32)

/-- `n` occurrences of an event. LEVEL counts each; EDGE counts runs of back-to-back occurrences, and how the `n` of
one command follow each other is open (R404), so between 1 and `n` are counted. -/
def State.event (s : State) (ev inst n : Nat) : State :=
  if n = 0 then s
  else
    s.countersOn.foldl (fun s r =>
      let w := s.counterInForce r
      if counts w r ev inst then
        if bitAt w.toNat 12 then s.counterAdd r n
        else
          let (k, s) := s.draw
          s.counterAdd r (1 + Config.choice k % n)
      else s) s

end Sys2Proof.Machine
end

