-- ==== Sys2Proof/Machine/Fabric.lean ====
section
/-!
DEFINITION. Routing (R330 to R333): the table, the traffic lists with their replacements, the order of the checks,
and injection of the device's own packets.
-/
namespace Sys2Proof.Machine

/-- A VALID routing entry: index and its two words (R331). -/
structure RouteEntry where
  index : Nat
  w0 : W64
  w1 : W64
deriving DecidableEq, Repr

def RouteEntry.len (r : RouteEntry) : Nat := bitsOf r.w0.toNat 24 20
def RouteEntry.dateline (r : RouteEntry) : Bool := bitAt r.w0.toNat 26
def RouteEntry.sourceRoute (r : RouteEntry) : Bool := bitAt r.w0.toNat 27
def RouteEntry.mask (r : RouteEntry) : List Nat := bitList 64 r.w1.toNat
def RouteEntry.hops (r : RouteEntry) : List Nat := (List.range 8).map (fun i => bitsOf r.w1.toNat (6 * i + 5) (6 * i))
def RouteEntry.routeLen (r : RouteEntry) : Nat := bitsOf r.w1.toNat 51 48

/-- The top LEN bits of DEST equal those of PREFIX (R331). -/
def RouteEntry.covers (r : RouteEntry) (dest : Nat) : Bool :=
  (dest >>> (20 - r.len)) == (bitsOf r.w0.toNat 19 0 >>> (20 - r.len))

/-- The VALID entries, by index. -/
def State.routeTable (s : State) : List RouteEntry :=
  s.regs.filterMap (fun e =>
    match (regDef .TTH_ROUTE0).instanceAt e.1 with
    | some (i, _) => if bitAt e.2.toNat 25 then some ⟨i, e.2, s.raw .TTH_ROUTE1 i 0⟩ else none
    | none => none)

/-- The traffic list of a mask (R332, R335): the ACTIVE links that are not engaged for another, in ascending number,
each replaced link's position held by the link engaged for it; other links are left out. -/
def trafficList (state : Nat → Nat) (replacedBy : List (Nat × Nat)) (mask : List Nat) : List Nat :=
  mask.filterMap (fun l =>
    match replacedBy.find? (fun p => p.1 == l && mask.contains p.2) with
    | some (_, r) => if state r = lnkActive then some r else none
    | none =>
      if state l = lnkActive ∧ replacedBy.all (fun p => p.2 != l) then some l else none)

def State.traffic (s : State) (r : RouteEntry) : List Nat :=
  trafficList s.linkState s.tth.replacedBy r.mask

/-- Whether an entry is usable (R331). -/
def State.usable (s : State) (inject : Bool) (r : RouteEntry) : Bool :=
  if r.sourceRoute then inject && s.linkState (r.hops.headD 0) == lnkActive
  else !(s.traffic r).isEmpty

/-- The matching usable entry with the largest LEN, and among equals the lowest index (R331). -/
def State.routeFor (s : State) (inject : Bool) (dest : Nat) : Option RouteEntry :=
  (s.routeTable.filter (fun r => r.covers dest && s.usable inject r)).foldl
    (fun best r =>
      match best with
      | none => some r
      | some b => if r.len > b.len ∨ (r.len = b.len ∧ r.index < b.index) then some r else best)
    none

/-- The list position of a (source, destination) pair (R332). -/
def pairPosition (source dest n : Nat) : Nat :=
  hashBucket (cairn64 0 (natLe 4 source ++ natLe 4 dest)) n

/-- What routing decides for a packet. -/
inductive Route where
  /-- deliver here (R330 step 1) -/
  | deliver
  /-- step 2 -/
  | discardHops
  /-- step 3 -/
  | discardAge
  /-- step 4: the source-route link is not ACTIVE -/
  | discardRoute
  /-- step 5 with no usable entry (R331) -/
  | miss
  /-- leave on a link, chosen by the entry given (none on a source route) -/
  | leave (link : Nat) (p : Packet) (entry : Option Nat)
deriving DecidableEq, Repr

/-- The age of a packet in ns (R330 step 3). -/
def State.age (s : State) (p : Packet) : Nat := (BitVec.ofNat 32 s.meridian - p.hdr.inject).toNat

def State.tooOld (s : State) (p : Packet) : Bool := s.age p > s.fget F.TTH_CTL_LIFETIME_US * 1000

/-- Step 4 of R330: the packet leaves on ROUTE[POS], and POS increases by 1. -/
def State.sourceHop (s : State) (p : Packet) : Route :=
  let l := p.hdr.route.getD p.hdr.pos 0
  if s.linkState l = lnkActive then .leave l { p with hdr := { p.hdr with pos := p.hdr.pos + 1 } } none
  else .discardRoute

/-- The checks of R330 in order. -/
def State.route (s : State) (inject : Bool) (p : Packet) : Route :=
  if p.hdr.dest.toNat = s.device ∨ p.hdr.dest.toNat = 0xFFFFF then .deliver
  else if p.hdr.hopsLeft = 0 then .discardHops
  else if s.tooOld p then .discardAge
  else if p.hdr.sourceRouted ∧ p.hdr.pos < p.hdr.routeLen then s.sourceHop p
  else
    match s.routeFor inject p.hdr.dest.toNat with
    | none => .miss
    | some r =>
      if r.sourceRoute then
        s.sourceHop { p with hdr := { p.hdr with
          route := r.hops, routeLen := r.routeLen, sourceRouted := true, pos := 0 } }
      else
        let list := s.traffic r
        let l := list.getD (pairPosition p.hdr.source.toNat p.hdr.dest.toNat list.length) 0
        .leave l { p with hdr := { p.hdr with vc := p.hdr.vc || r.dateline } } (some r.index)

/-- The fence that holds the pair of a packet that leaves on `l` by entry `e` (R336): before the change the entry's list
gave the pair the fence's link, and now it gives another. -/
def fenceHolding (fences : List Fence) (p : Packet) (l : Nat) (e : Option Nat) : Option Fence :=
  match e with
  | none => none
  | some e => fences.find? (fun f =>
      f.lists.any (fun q => q.1 == e &&
        f.old != l && q.2.getD (pairPosition p.hdr.source.toNat p.hdr.dest.toNat q.2.length) l == f.old))

/-- Put a routed packet on its link, or with the fence that holds its pair. -/
def State.leaveOn (s : State) (l : Nat) (p : Packet) (e : Option Nat) : State :=
  match fenceHolding s.tth.fences p l e with
  | some f => { s with tth := { s.tth with
      fences := updWhere (·.old == f.old) (fun g => { g with held := g.held ++ [p] }) s.tth.fences } }
  | none => s.enqueue l p

/-- Act on a routing decision for a packet that is not for this device. -/
def State.follow (s : State) (r : Route) (dest : Nat) : State :=
  match r with
  | .deliver => s
  | .discardHops => s.bump F.TTH_DISCARD_DISCARD_HOPS 0 1
  | .discardAge => s.bump F.TTH_DISCARD_DISCARD_AGE 0 1
  | .discardRoute => s.bump F.TTH_DISCARD_DISCARD_ROUTE 0 1
  | .miss => (s.bump F.TTH_DISCARD_DISCARD_ROUTE 0 1).attn C.ROUTE_MISS [dest]
  | .leave l p e => s.leaveOn l p e

/-- Inject a packet of this device's own (R330). One for this device itself is the caller's to act on. -/
def State.inject (s : State) (p : Packet) : State := s.follow (s.route true p) p.hdr.dest.toNat

/-- Inject the parts of a train: MORE on every packet but the last (R329). -/
def State.injectParts (s : State) (dest cls kind tag : Nat) : List (List Byte) → State
  | [] => s
  | b :: r =>
    let h := s.header dest cls kind b.length tag
    State.injectParts (s.inject ⟨{ h with more := !r.isEmpty }, b⟩) dest cls kind tag r

/-- Inject a body of a kind and class to a device, as a train when it is longer than 65,504 B (R329). -/
def State.injectBody (s : State) (dest cls kind tag : Nat) (body : List Byte) : State :=
  if body.isEmpty then s.injectParts dest cls kind tag [[]]
  else s.injectParts dest cls kind tag (chunksOf 65504 (body.length + 1) body)

/-- Whether a packet injected to a device would find a route (R331: else PEER_UNREACHABLE). -/
def State.reachable (s : State) (dest : Nat) : Bool :=
  match s.route true ⟨s.header dest 1 0 0 0, []⟩ with
  | .leave .. => true
  | _ => false

/-- A fresh TAG (16 bits, R329). -/
def State.newTag (s : State) : Nat × State :=
  (s.tth.nextTag % 65536, { s with tth := { s.tth with nextTag := s.tth.nextTag + 1 } })

/-- Send a packet to the neighbour on one link (DEST 0xF_FFFF, never forwarded: R329). -/
def State.sendControl (s : State) (l kind : Nat) (body : List Byte) : State :=
  s.enqueue l ⟨s.header 0xFFFFF 2 kind body.length 0, body⟩

end Sys2Proof.Machine
end

