-- ==== Sys2Proof/Machine/Memory.lean ====
section
/-!
DEFINITION. Memory: the local address map (R27, R28), regions (R52, R54), the checks on an access, words with
parity, replay and poison (R32 to R35), mirrored regions (R36 to R38) and watch words (R44 to R47).
-/
namespace Sys2Proof.Machine

/-! ### Addresses -/

def vaultSize : Nat := 0x20000000
def vaultsEnd : Nat := 192 * vaultSize
def aliasBase : Nat := 0x04000000000
def lpBase : Nat := 0x08000000000
def lpEnd : Nat := 0x10000000000
def channelSize : Nat := 0x400000000
/-- Offsets at and above this one of every vault hold shadows or the pitch copy (R196, R369). -/
def reservedTop : Nat := 0x1FF80000

/-- The vault-linear address of byte `a` of the interleaved range (R28). -/
def interleave (a : Nat) : Nat :=
  let g := a / 4096
  (g % 192) * vaultSize + (g / 192) * 4096 + a % 4096

/-- The interleaved offset of a vault-linear address: the inverse of R28. -/
def uninterleave (p : Nat) : Nat :=
  let v := p / vaultSize
  let o := p % vaultSize
  ((o / 4096) * 192 + v) * 4096 + o % 4096

/-- The physical address of a local address: vault-linear, or in the LPDDR6 range (R27); none where nothing is
mapped. -/
def physOf (a : Nat) : Option Nat :=
  if a < vaultsEnd then some a
  else if aliasBase ≤ a ∧ a < aliasBase + vaultsEnd then some (interleave (a - aliasBase))
  else if lpBase ≤ a ∧ a < lpEnd then some a
  else none

/-- The device and the local address of a pool address (R31). -/
def poolDevice (a : W64) : Nat := a.toNat >>> 44
def poolLocal (a : W64) : Nat := a.toNat % 2 ^ 44

/-- The pool address of a local address of a device. -/
def poolAddr (dev loc : Nat) : W64 := BitVec.ofNat 64 ((dev <<< 44) + loc)

/-- Vault of a physical address, or channel. -/
inductive Bank where
  | vault (v : Nat) (off : Nat)
  | channel (ch : Nat) (off : Nat)
deriving DecidableEq, Repr

def bankOf (p : Nat) : Bank :=
  if p < vaultsEnd then .vault (p / vaultSize) (p % vaultSize)
  else .channel ((p - lpBase) / channelSize) ((p - lpBase) % channelSize)

/-- The parts of a local range, cut at 4 KiB boundaries so that each part is contiguous: physical address and length;
none where a byte is unmapped. `fuel` bounds the parts. -/
def partsFrom : Nat → Nat → Nat → Option (List (Nat × Nat))
  | 0, _, len => if len = 0 then some [] else none
  | fuel + 1, a, len =>
    if len = 0 then some []
    else
      let n := min len (4096 - a % 4096)
      match physOf a, partsFrom fuel (a + n) (len - n) with
      | some p, some r => some ((p, n) :: r)
      | _, _ => none

def parts (a len : Nat) : Option (List (Nat × Nat)) := partsFrom (len / 4096 + 2) a len

/-! ### Regions -/

/-- Whether a region names the physical byte `p` (R52, R386). -/
def Region.holds (r : Region) (p : Nat) : Bool :=
  match r.kind with
  | .vaultRange | .vaultHash =>
    decide (p < vaultsEnd ∧ r.base ≤ p % vaultSize ∧ p % vaultSize < r.base + r.size)
  | .vaultSingle =>
    decide (p < vaultsEnd ∧ p / vaultSize = r.vault ∧ r.base ≤ p % vaultSize ∧ p % vaultSize < r.base + r.size)
  | .interleaved => decide (p < vaultsEnd ∧ r.base ≤ uninterleave p ∧ uninterleave p < r.base + r.size)
  | .lpddr6 => decide (lpBase ≤ p ∧ r.base ≤ p - lpBase ∧ p - lpBase < r.base + r.size)

/-- The local address of offset `off` in a region; vault kinds with many vaults take the vault. -/
def Region.localAddr (r : Region) (v off : Nat) : Nat :=
  match r.kind with
  | .vaultRange | .vaultHash => v * vaultSize + r.base + off
  | .vaultSingle => r.vault * vaultSize + r.base + off
  | .interleaved => aliasBase + r.base + off
  | .lpddr6 => lpBase + r.base + off

/-- The partner of a byte of a mirrored region (R36). -/
def Region.partner (r : Region) (p : Nat) : Nat :=
  match r.kind with
  | .vaultRange | .vaultHash => ((p / vaultSize + 96) % 192) * vaultSize + p % vaultSize + r.size
  | .vaultSingle => ((p / vaultSize + 96) % 192) * vaultSize + p % vaultSize
  | .interleaved => p
  | .lpddr6 =>
    let q := p - lpBase
    lpBase + ((q / channelSize) ^^^ 16) * channelSize + q % channelSize

def State.regions (s : State) : List Region :=
  match s.image with
  | some im => im.regions
  | none => []

def State.region? (s : State) (n : Nat) : Option Region := s.regions.find? (·.number == n)

/-- The region that holds a physical byte: no byte belongs to two (R52). -/
def State.regionAt (s : State) (p : Nat) : Option Region := s.regions.find? (·.holds p)

/-- The partner of a physical byte of a mirrored region. -/
def State.mirrorOf (s : State) (p : Nat) : Option Nat :=
  (s.regions.find? (fun r => r.mirrored && r.holds p)).map (fun r => r.partner p)

/-- The other copy of a byte of a mirrored region, from either copy (R36). -/
def Region.counterpart (r : Region) (p : Nat) : Option Nat :=
  if !r.mirrored then none
  else if r.holds p then some (r.partner p)
  else
    match r.kind with
    | .vaultRange | .vaultHash =>
      let q := ((p / vaultSize + 96) % 192) * vaultSize + p % vaultSize - r.size
      if p < vaultsEnd ∧ r.size ≤ p % vaultSize ∧ r.holds q then some q else none
    | .vaultSingle | .lpddr6 => if r.holds (r.partner p) then some (r.partner p) else none
    | .interleaved => none

def State.counterpart (s : State) (p : Nat) : Option Nat := s.regions.findSome? (fun r => r.counterpart p)

/-! ### Embedding slices and dictionaries, which only their units reach -/

def EmbTable.rowBytes (t : EmbTable) : Nat := t.dim * elemBits t.format / 8
def EmbTable.slotBytes (t : EmbTable) : Nat := roundUp (16 + t.rowBytes) 64

/-- Smallest k with 2^k at or above n. -/
def ceilLog2 (n : Nat) : Nat := if n ≤ 1 then 0 else Nat.log2 (n - 1) + 1

/-- Bytes of one slice: directory and slots (R223). -/
def EmbTable.sliceBytes (t : EmbTable) : Nat :=
  64 * 2 ^ (max 10 (ceilLog2 (ceilDiv t.capacity 4))) + t.slotBytes * t.capacity

/-- Whether a physical byte lies in a slice of a table stored in region `r`: a slice in each vault, or in each whole
channel of an LPDDR6 region. -/
def EmbTable.holds (t : EmbTable) (r : Region) (p : Nat) : Bool :=
  r.holds p &&
    (match bankOf p with
     | .vault _ off => decide (r.base + t.base ≤ off ∧ off < r.base + t.base + t.sliceBytes)
     | .channel _ off => decide (t.base ≤ off ∧ off < t.base + t.sliceBytes))

def State.embTables (s : State) : List EmbTable :=
  match s.image with
  | some im => im.embTables
  | none => []

def State.inTable (s : State) (p : Nat) : Bool :=
  s.embTables.any (fun t => match s.region? t.region with
    | some r => t.holds r p
    | none => false)

def State.inDict (s : State) (p : Nat) : Bool :=
  match s.image with
  | some im => !im.dicts.isEmpty && (match s.region? im.dictRegion with
      | some r => r.holds p
      | none => false)
  | none => false

/-! ### Checks on an access -/

/-- Whether a vault or channel serves: a LOST vault and a channel out of service do not (R30, R425). -/
def State.bankServes (s : State) (b : Bank) : Bool :=
  match b with
  | .vault v _ => !s.side.lostVaults.contains v
  | .channel ch _ => bitAt (s.fget F.LPT_AVAIL_CHANNELS) ch

/-- Whether a physical byte can be served by its own bank or by its mirror (R38). -/
def State.served (s : State) (p : Nat) : Bool :=
  s.bankServes (bankOf p) ||
    (match s.mirrorOf p with
     | some q => s.bankServes (bankOf q)
     | none => false)

/-- The refusal that one part of an access meets, if any: shadow (R196), pitch copy (R369), table slice (R224),
dictionary region (R257), LOST vault (R425), channel out of service (R30). -/
def State.partCheck (s : State) (p n : Nat) : Option Code :=
  match bankOf p with
  | .vault v off =>
    if off + n > reservedTop then some (if v < 64 then C.SHADOW_PROTECTED else C.PITCH_COPY_PROTECTED)
    else if s.inTable p || s.inTable (p + n - 1) then some C.TABLE_REGION_PROTECTED
    else if s.inDict p then some C.DICT_PROTECTED
    else if s.served p then none else some C.VAULT_UNAVAILABLE
  | .channel _ _ =>
    if s.inTable p || s.inTable (p + n - 1) then some C.TABLE_REGION_PROTECTED
    else if s.served p then none else some C.CHANNEL_UNAVAILABLE

/-- The first refusal among the parts of an access. -/
def State.partsCheck (s : State) : List (Nat × Nat) → Option Code
  | [] => none
  | (p, n) :: r =>
    match s.partCheck p n with
    | some c => some c
    | none => s.partsCheck r

/-- The checks of a local access: mapped (R27), then part by part. -/
def State.accessCheck (s : State) (a len : Nat) : Except Code (List (Nat × Nat)) :=
  match parts a len with
  | none => .error C.ADDRESS_UNMAPPED
  | some ps =>
    match s.partsCheck ps with
    | some c => .error c
    | none => .ok ps

/-- Whether an Operator may read, or write, every byte of a range (R356): each 4 KiB part lies in one region. -/
def State.operatorMay (s : State) (write : Bool) (ps : List (Nat × Nat)) : Bool :=
  ps.all (fun e => match s.regionAt e.1 with
    | some r => r.access == .operatorWrite || (!write && r.access == .operatorRead)
    | none => false)

/-! ### Bytes and words -/

/-- A byte as stored; memory never written reads 0 (log entry 7). -/
def State.byteAt (s : State) (p : Nat) : Byte := SMap.get 0 s.mem p

/-- The canonical form of the memory list. -/
def Memory.wf (m : List Host.Cell) : Bool := SMap.wf (0 : Byte) m

/-- Store bytes from a physical address on; the list keeps its canonical form. -/
def Mem.store : List Host.Cell → Nat → List Byte → List Host.Cell
  | m, _, [] => m
  | m, p, b :: r => Mem.store (SMap.set (0 : Byte) m p b) (p + 1) r

def State.storeBytes (s : State) (p : Nat) (bs : List Byte) : State := { s with mem := Mem.store s.mem p bs }

/-- The bytes stored from `p` on. -/
def State.bytesAt (s : State) (p n : Nat) : List Byte := (List.range n).map (fun i => s.byteAt (p + i))

def State.wordAt (s : State) (p : Nat) : W64 := BitVec.ofNat 64 (leNat (s.bytesAt p 8))

def State.setSide (s : State) (x : MemSide) : State := { s with side := x }

def State.poisoned (s : State) (w : Nat) : Bool := s.side.poison.contains w || SMap.get 0 s.side.flaky w ≥ 4

/-- Words of the same bank. -/
def sameBank (a b : Nat) : Bool :=
  match bankOf a, bankOf b with
  | .vault v _, .vault w _ => v == w
  | .channel c _, .channel d _ => c == d
  | _, _ => false

/-- A field of the bank's registers: the vault's or the channel's. -/
def bankField (p : Nat) (fv fc : FRef) : FRef × Nat :=
  match bankOf p with
  | .vault v _ => (fv, v)
  | .channel ch _ => (fc, ch)

def State.bankBump (s : State) (p : Nat) (fv fc : FRef) : State :=
  s.bump (bankField p fv fc).1 (bankField p fv fc).2 1

def State.bankSet (s : State) (p : Nat) (fv fc : FRef) (x : Nat) : State :=
  s.fset (bankField p fv fc).1 (bankField p fv fc).2 x

def bankOffset (p : Nat) : Nat :=
  match bankOf p with
  | .vault _ o => o
  | .channel _ o => o

/-- Record a persistent error in the unit's error-address register (R33, R37, R40, R447). -/
def State.errAddr (s : State) (p : Nat) (scrub mirrored : Bool) : State :=
  let s := s.bankSet p F.VLT_ERR_ADDR_OFFSET F.LPT_CH_ERR_ADDR_OFFSET (bankOffset p)
  let s := s.bankSet p F.VLT_ERR_ADDR_SCRUB F.LPT_CH_ERR_ADDR_SCRUB (b2n scrub)
  let s := s.bankSet p F.VLT_ERR_ADDR_MIRRORED F.LPT_CH_ERR_ADDR_MIRRORED (b2n mirrored)
  s.bankSet p F.VLT_ERR_ADDR_VALID F.LPT_CH_ERR_ADDR_VALID 1

/-- Enter a word in the poison list of its bank (R35): a full list stores inverted parity only. -/
def State.listPoison (s : State) (w : Nat) : State :=
  if s.side.poison.contains w then s
  else if (s.side.poison.filter (sameBank w)).length < 256 then
    s.setSide { s.side with
      poison := insertBy (· ≤ ·) w s.side.poison, flaky := SMap.set 0 s.side.flaky w 0 }
  else
    let s := s.setSide { s.side with flaky := SMap.set 0 s.side.flaky w 4 }
    (s.bankSet w F.VLT_POISON_FULL F.LPT_CH_POISON_FULL 1).attn C.POISON_LIST_FULL [s.device, w]

/-- Good data for the whole word: correct parity, no entry (R35). -/
def State.cleanWord (s : State) (w : Nat) : State :=
  s.setSide { s.side with poison := s.side.poison.filter (· != w), flaky := SMap.set 0 s.side.flaky w 0 }

/-- What one copy of a word answers (R33): its value, or that it is listed, or that every re-read failed. -/
inductive CopyRead where
  | good (v : W64)
  | listed
  | failed
deriving DecidableEq, Repr

def bankNumber (p : Nat) : Nat :=
  match bankOf p with
  | .vault v _ => v
  | .channel ch _ => ch

/-- Read one copy, with up to three re-reads (R33, R35). -/
def State.readCopy (s : State) (w : Nat) : CopyRead × State :=
  if s.side.poison.contains w then (.listed, s)
  else
    let n := SMap.get 0 s.side.flaky w
    let s1 := if w < vaultsEnd then s.event 0x102 (bankNumber w) (min n 3) else s
    if n = 0 then (.good (s.wordAt w), s)
    else if n ≤ 3 then
      let s2 := s1.setSide { s1.side with flaky := SMap.set 0 s1.side.flaky w 0 }
      (.good (s.wordAt w), s2.bankBump w F.VLT_ERR_REPLAY_OK F.LPT_CH_ERR_REPLAY_OK)
    else (.failed, s1)

/-- Whether the mirror copies in a bank are being rebuilt (R38). -/
def State.bankStale (s : State) (b : Bank) : Bool :=
  match b with
  | .vault v _ => s.side.rebuilding.any (fun u => match u with | .vault x => x.val == v | .channel _ => false)
  | .channel c _ => s.side.rebuilding.any (fun u => match u with | .channel x => x.val == c | .vault _ => false)

/-- Whether a copy of a mirrored word is whole: its bank serves and is not being rebuilt. -/
def State.copyWhole (s : State) (w : Nat) : Bool := s.bankServes (bankOf w) && !s.bankStale (bankOf w)

/-- The copy that serves reads of a word: the survivor while the other copy is lost or being rebuilt (R38). -/
def State.primaryOf (s : State) (w : Nat) : Nat :=
  match s.counterpart w with
  | some q => if s.copyWhole w then w else q
  | none => w

/-- A word that is not mirrored fails every re-read (R33). The scrub treats the failure in the same way and adds its own
entry, count and report (R40, log entry 156). -/
def State.wordFails (s : State) (p : Nat) (scrub : Bool) : State :=
  let s := if scrub then (s.listPoison p).bankBump p F.VLT_ERR_SCRUB_PERSIST F.LPT_CH_ERR_SCRUB_PERSIST else s
  let s := s.bankBump p F.VLT_ERR_POISONED F.LPT_CH_ERR_POISONED
  let s := (s.errAddr p scrub false).attn C.POISON_CREATED [s.device, p, b2n scrub]
  if scrub then s.attn C.SCRUB_PERSISTENT [s.device, p] else s

/-- A mirrored word is good in its other copy: the copy that failed is repaired from it (R37). -/
def State.repairWord (s : State) (p : Nat) (v : W64) (scrub : Bool) : State :=
  let s := (s.storeBytes p (natLe 8 v.toNat)).cleanWord p
  let s := s.bankBump p F.VLT_ERR_MIRROR_REPAIR F.LPT_CH_ERR_MIRROR_REPAIR
  (s.errAddr p scrub true).attn C.MIRROR_REPAIRED [s.device, p]

/-- Both copies of a mirrored word have failed, or the other copy is lost or not yet rebuilt (R37). -/
def State.loseWord (s : State) (p q : Nat) (scrub : Bool) : State :=
  let s := s.listPoison p
  let s := if s.bankServes (bankOf q) then s.listPoison q else s
  let s := s.bankBump p F.VLT_ERR_POISONED F.LPT_CH_ERR_POISONED
  (s.errAddr p scrub true).attn C.MIRROR_LOST [s.device, p]

/-- Read a word (R33, R35, R37; the scrub reports under R40): its value, whether it is poisoned, the state after. -/
def State.readWord (s : State) (w : Nat) (scrub : Bool := false) : W64 × Bool × State :=
  let p := s.primaryOf w
  match s.readCopy p with
  | (.good v, s) => (v, false, s)
  | (.listed, s) => (s.wordAt p, true, s)
  | (.failed, s) =>
    match s.counterpart p with
    | some q =>
      if s.copyWhole q then
        match s.readCopy q with
        | (.good v, s) => (v, false, s.repairWord p v scrub)
        | (_, s) => (s.wordAt p, true, s.loseWord p q scrub)
      else (s.wordAt p, true, s.loseWord p q scrub)
    | none => (s.wordAt p, true, s.wordFails p scrub)

/-! ### Watches -/

/-- Deliver a control-node watch as WATCH_FIRED, to the session that set it (R47, R357, log entry 12). -/
def State.fireSession (s : State) (id : W32) (addr value : W64) (poison : Bool) : State :=
  s.deliver ⟨C.WATCH_FIRED, 1, s.meridian, s.meridian, [addr, value, BitVec.ofNat 64 (b2n poison)]⟩ false
    (fun x => x.id == id && x.isOpen)

/-- A write to the watched word has completed: the watcher is told the value that stands, in the copy that serves reads
(R45, R47). -/
def State.fireWatch (s : State) (x : Watch) : State :=
  let p := s.primaryOf x.phys
  let v := s.wordAt p
  let bad := s.poisoned p
  let s := if bad then s.attn C.POISON_CREATED [s.device, x.phys, 0] else s
  match x.who with
  | .session id => s.fireSession id x.addr v bad
  | .device d =>
    s.injectBody d.toNat 2 0x06 0 (natLe 8 x.addr.toNat ++ natLe 8 v.toNat ++ [BitVec.ofNat 8 (b2n bad)])
  | w => s.out (.notify w x.addr v bad)

/-- Every watch on a word fires (R45). -/
def State.fireWord (s : State) (w : Nat) : State :=
  (s.side.watches.filter (·.phys == w)).foldl State.fireWatch s

/-- Watch entries the device holds (R44). -/
def watchPlaces : Nat := 4096

/-- Enter a watch, or nothing where the table is full. -/
def State.addWatch (s : State) (x : Watch) : Option State :=
  if s.side.watches.length < watchPlaces then
    some (s.setSide { s.side with watches := s.side.watches ++ [x] })
  else none

def State.dropWatches (s : State) (p : Watch → Bool) : State :=
  s.setSide { s.side with watches := s.side.watches.filter (fun x => !p x) }

/-- The owner of another device's word is told to enter this device's watch, or to free it. -/
def State.tellOwner (s : State) (addr : W64) (remove : Bool) : State :=
  s.out (.watchRegister (BitVec.ofNat 20 (poolDevice addr)) addr remove)

/-- A watch on another device's word: the owner holds one entry for this device, whoever watches here (R47, log entry
158). -/
def State.addRemote (s : State) (addr : W64) (who : Watcher) : State :=
  let first := !s.side.remote.any (·.addr == addr)
  let s := s.setSide { s.side with remote := s.side.remote ++ [⟨0, addr, who⟩] }
  if first then s.tellOwner addr false else s

/-- Watches on other devices' words end: an owner frees its entry when no watcher of the word is left here. -/
def State.dropRemote (s : State) (p : Watch → Bool) : State :=
  let kept := s.side.remote.filter (fun w => !p w)
  let gone := (((s.side.remote.filter p).map (·.addr)).eraseDups).filter (fun a => !kept.any (·.addr == a))
  let s := s.setSide { s.side with remote := kept }
  gone.foldl (fun s a => s.tellOwner a true) s

/-! ### Writes -/

/-- Store the bytes of one word of a copy: a poisoned word is listed, a whole good word is cleaned (R35), a partial
write leaves poison as it stands (log entry 9). -/
def State.writeCopy (s : State) (p : Nat) (bs : List Byte) (poison : Bool) : State :=
  let s := s.storeBytes p bs
  if poison then s.listPoison (p / 8 * 8)
  else if bs.length = 8 then s.cleanWord p
  else s

/-- Write the bytes of one word (all of it or a part): the primary, then its mirror (R37), then its watches. -/
def State.writeWord (s : State) (p : Nat) (bs : List Byte) (poison : Bool) : State :=
  let s := if s.bankServes (bankOf p) then s.writeCopy p bs poison else s
  let s := match s.mirrorOf p with
    | some q => if s.bankServes (bankOf q) then s.writeCopy q bs poison else s
    | none => s
  s.fireWord (p / 8 * 8)

/-- Write bytes from a physical address on, word by word; `bad` says which words (by index from the first) are
poisoned. `fuel` bounds the words. -/
def State.writeWords : Nat → State → Nat → List Byte → (Nat → Bool) → Nat → State
  | 0, s, _, _, _, _ => s
  | fuel + 1, s, p, bs, bad, i =>
    if bs.isEmpty then s
    else
      let n := 8 - p % 8
      State.writeWords fuel (s.writeWord p (bs.take n) (bad i)) (p + n) (bs.drop n) bad (i + 1)

def noPoison : Nat → Bool := fun _ => false

/-- Read whole words that cover `n` bytes from `p`: the bytes with their poison, and the state after. -/
def State.readWords : Nat → State → Nat → Nat → List (Byte × Bool) × State
  | 0, s, _, _ => ([], s)
  | fuel + 1, s, p, n =>
    if n = 0 then ([], s)
    else
      let w := p / 8 * 8
      let k := min n (8 - p % 8)
      let (v, bad, s) := s.readWord w
      let (r, s) := State.readWords fuel s (p + k) (n - k)
      ((slice (p % 8) k (natLe 8 v.toNat)).map (fun b => (b, bad)) ++ r, s)

/-- 64-byte accesses that cover a range. -/
def lines (p n : Nat) : Nat := if n = 0 then 0 else (p + n - 1) / 64 - p / 64 + 1

/-- Whether a cluster is held shaded (R431). -/
def State.heldShaded (s : State) (c : Nat) : Bool := bitAt (s.fget F.FLT_GOV_HELD) c

/-- Whether requests for a vault wait: its cluster is shaded (R43), held shaded (R431) or being replaced (R426), or the
vault is being cleared (R425). -/
def State.vaultWaits (s : State) (v : Nat) : Bool :=
  s.shaded (v / 16) || s.heldShaded (v / 16) || s.units.clearing.contains v || s.units.replacing.contains (v / 16)

/-- Whether an access to a physical address waits for its vault. -/
def State.bankWaits (s : State) (p : Nat) : Bool :=
  match bankOf p with
  | .vault v _ => s.vaultWaits v
  | .channel _ _ => false

/-- Whether a local access waits for a vault; one that would be refused does not wait. -/
def State.accessWaits (s : State) (a n : Nat) : Bool :=
  match s.accessCheck a n with
  | .error _ => false
  | .ok ps => ps.any (fun e => s.bankWaits e.1)

/-- A vault request: a SHADED cluster begins its wake (R43), the cluster is not idle (R368). -/
def State.vaultRequest (s : State) (v : Nat) : State :=
  let c := v / 16
  let s := { s with power := { s.power with
    idleSince := assocSet s.power.idleSince c s.now, blocked := s.power.blocked || s.vaultWaits v } }
  if s.shaded c && !s.power.waking.any (·.1 == c) then
    { s with power := { s.power with waking := s.power.waking ++ [(c, s.now)] } }
  else s

/-- Count an access: the port's meter (R411) and the read or write event (R406). -/
def State.portUse (s : State) (p n : Nat) (write : Bool) : State :=
  match bankOf p with
  | .vault v _ => ((s.vaultRequest v).meter v n).event (if write then 0x101 else 0x100) v (lines p n)
  | .channel ch _ => (s.meter (192 + ch) n).event (if write then 0x201 else 0x200) ch (lines p n)

/-- Write bytes over the parts of a local range. `bad` gives the poisoned words by index over the range. -/
def State.writeParts : State → List (Nat × Nat) → List Byte → (Nat → Bool) → Nat → State
  | s, [], _, _, _ => s
  | s, (p, n) :: r, bs, bad, i =>
    let k := (p + n + 7) / 8 - p / 8
    let s := (s.portUse p n true).writeWords (k + 1) p (bs.take n) bad i
    State.writeParts s r (bs.drop n) bad (i + k)

/-- Read the parts of a local range. -/
def State.readParts : State → List (Nat × Nat) → List (Byte × Bool) × State
  | s, [] => ([], s)
  | s, (p, n) :: r =>
    let (a, s) := (s.portUse p n false).readWords (n / 8 + 2) p n
    let (b, s) := State.readParts s r
    (a ++ b, s)

/-- Write to a local address for a unit of the device (no protection check: the unit owns the bytes). -/
def State.writeLocal (s : State) (a : Nat) (bs : List Byte) (bad : Nat → Bool := noPoison) : State :=
  match parts a bs.length with
  | some ps => s.writeParts ps bs bad 0
  | none => s

/-- Read from a local address for a unit of the device. -/
def State.readLocal (s : State) (a n : Nat) : List (Byte × Bool) × State :=
  match parts a n with
  | some ps => s.readParts ps
  | none => ([], s)

/-- A local write with the checks of an access: the refusal, or the state after. -/
def State.checkedWrite (s : State) (a : Nat) (bs : List Byte) (bad : Nat → Bool := noPoison) : Except Code State :=
  match s.accessCheck a bs.length with
  | .error c => .error c
  | .ok ps => .ok (s.writeParts ps bs bad 0)

/-- A local read with the checks of an access. -/
def State.checkedRead (s : State) (a n : Nat) : Except Code (List (Byte × Bool) × State) :=
  match s.accessCheck a n with
  | .error c => .error c
  | .ok ps => .ok (s.readParts ps)

/-! ### Requests that wait for a vault (R425, R426, R431) -/

/-- Who sent a waiting request: a session (true) or a device. Requests of one sender take effect in order (R334, R350). -/
def VaultWait.sender : VaultWait → Bool × Nat
  | .read id _ _ _ => (true, id.toNat)
  | .write id _ _ _ => (true, id.toNat)
  | .row id _ _ _ _ _ => (true, id.toNat)
  | .peerRead d _ _ _ => (false, d.toNat)
  | .peerWrite d _ _ _ _ => (false, d.toNat)
  | .peerRow d _ _ _ _ _ => (false, d.toNat)
  | .bundle b _ _ _ => (false, b.source.toNat)

/-- Whether a request must wait: its vault does not serve yet, or an earlier request of its sender waits. -/
def State.queues (s : State) (w : VaultWait) (closed : Bool) : Bool :=
  closed || s.power.waits.any (fun x => x.sender == w.sender)

def State.putWait (s : State) (w : VaultWait) : State :=
  { s with power := { s.power with waits := s.power.waits ++ [w] } }

/-- The vaults of an access hear its request: a shaded cluster begins its wake (R43). -/
def State.askVaults (s : State) (a n : Nat) : State :=
  match s.accessCheck a n with
  | .error _ => s
  | .ok ps => ps.foldl (fun s e => match bankOf e.1 with
      | .vault v _ => s.vaultRequest v
      | .channel _ _ => s) s

/-- A task's requests to its vaults: when one of them cannot serve yet, the task waits. Its shaded clusters begin their
wake (R43); nothing else of its step has happened. -/
def State.orBlocked (s : State) (f : State → State) : State :=
  let t := f { s with power := { s.power with blocked := false } }
  if t.power.blocked then
    { s with power := { s.power with waking := t.power.waking, idleSince := t.power.idleSince } }
  else t

end Sys2Proof.Machine
end

