-- ==== Sys2Proof/Machine/Session.lean ====
section
/-!
DEFINITION. Odren sessions (R349 to R355), the order in which a command is received, attention acknowledgement and
resending (R359), the port (R345, R346) and relay (R360).
-/
namespace Sys2Proof.Machine
open Sys2Proof

/-! ### Opening and ending -/

/-- The session becomes open; the first that asked for attention takes the backlog (R359). -/
def State.openSession (s : State) (x : Session) : State :=
  let x := { x with isOpen := true, heardAt := s.now }
  if x.attention then
    let held := s.odn.occurs
    let s := { s with odn := { s.odn with occurs := [] } }
    let x := held.foldl (fun x o => x.queueOccur o true) x
    ((s.putSession x).firstSend x.slot).overflowNotice x.slot
  else s.putSession x

/-- Whether another session's queue holds a copy of a message (R359). -/
def copyHeld (m : AttnMsg) (others : List Session) : Bool :=
  others.any (fun y => y.hears && y.queue.any (fun n => n.code == m.code && n.last == m.last && n.detail == m.detail))

/-- End a session (R355): its keys, watches and WATCH_FIRED messages go, the rest of its unacknowledged messages
return to the backlog unless another attention session holds copies (R359, R47). -/
def State.endSession (s : State) (slot : Nat) (toBacklog : Bool := true) : State :=
  match s.odn.sessions.find? (·.slot == slot) with
  | none => s
  | some x =>
    let others := s.odn.sessions.filter (·.slot != slot)
    let back := if toBacklog then
        x.queue.filter (fun m => m.code != C.WATCH_FIRED && !copyHeld m others)
      else []
    let occurs := back.foldl (fun l m => backlogAdd ⟨m.code, m.count, m.first, m.last, m.detail⟩ l 0) s.odn.occurs
    let s := (s.dropWatches (fun w => w.who == .session x.id)).dropRemote (fun w => w.who == .session x.id)
    { s with odn := { s.odn with sessions := others, occurs := occurs } }

/-! ### Receiving a command -/

/-- What receiving a protected message comes to. -/
inductive Receipt where
  /-- it does not reach the device -/
  | lost
  /-- it is answered without being executed -/
  | answered (s : State)
  /-- it is executed, for this session -/
  | execute (x : Session) (s : State)

/-- Whether a message reaches the device: through its port, or by relay (R345, R360). -/
def State.reached (s : State) (relayed : Bool) : Bool := s.upAndRunning && (s.portUp || relayed)

/-- A protected message has been authenticated for session `x`: the session's address and time, and its opening if it is
an Operator's first (R353). -/
def State.hear (s : State) (h : Hdr) (x : Session) : State :=
  let y := { x with mac := h.mac, relayed := h.relayed, heardAt := s.now }
  if !x.isOpen && x.role == .operator then s.openSession y else s.putSession y

/-- The place of a message among its session's commands (R349, R350): sent again, stale, out of order, one too many, or
the next, which is executed. -/
def State.sequence (s : State) (h : Hdr) (type : Nat) (x : Session) : Receipt :=
  if h.seq < x.expected then
    match x.sent.find? (·.seq == h.seq) with
    | some r => .answered (s.sendResponse x.mac x.relayed r)
    | none => .answered (s.answerBare h.mac h.relayed type h.session h.seq C.SEQ_STALE [])
  else if x.expected < h.seq then
    .answered (s.answerBare h.mac h.relayed type h.session h.seq C.SEQ_GAP (natLe 8 x.expected))
  else if x.pends.length ≥ 64 then
    .answered (s.answerBare h.mac h.relayed type h.session h.seq C.BUSY [])
  else
    let x := { x with expected := x.expected + 1 }
    .execute x (s.putSession x)

/-- Receive a command (R348, R349, R353, R354). `opening` holds for PROVE and CLOSE, which an unopened Keeper session
takes. -/
def State.receive (s : State) (h : Hdr) (type : Nat) (opening : Bool) : Receipt :=
  if !s.reached h.relayed then .lost
  else
    match s.session? h.session with
    | none => .answered (s.answerBare h.mac h.relayed type h.session h.seq C.SESSION_UNKNOWN [])
    | some x =>
      if !x.isOpen && x.role == .keeper && !opening then
        .answered (s.answerBare h.mac h.relayed type h.session h.seq C.ROLE_DENIED [])
      else (s.hear h x).sequence h type (((s.hear h x).session? h.session).getD x)

/-- Message types (R351). -/
def tySession : Nat := 0x01
def tyReadReg : Nat := 0x02
def tyWriteReg : Nat := 0x03
def tyRun : Nat := 0x04
def tyCancel : Nat := 0x05
def tyQuery : Nat := 0x06
def tyRowWrite : Nat := 0x07
def tyPoolRead : Nat := 0x08
def tyPoolWrite : Nat := 0x09
def tyWatch : Nat := 0x0A
def tyImageWrite : Nat := 0x0B
def tyTime : Nat := 0x0C
def tyReset : Nat := 0x0D
def tyAttnAck : Nat := 0x0E

/-- The effect of an executed command: the state, its status, the body of its response. -/
abbrev Answer := State × Code × List Byte

def State.ok (s : State) (body : List Byte := []) : Answer := (s, C.OK, body)
def State.refuse (s : State) (c : Code) : Answer := (s, c, [])

/-- A command of a session: received, its shape checked (R351), executed, answered; `after` acts once the response
has been sent. -/
def State.command (s : State) (h : Hdr) (type : Nat) (f : Session → State → Answer)
    (after : Session → Code → State → State := fun _ _ s => s) (opening : Bool := false) : State :=
  match s.receive h type opening with
  | .lost => s
  | .answered s => s
  | .execute x s =>
    if !h.wellShaped then s.respond h.session type h.seq C.MESSAGE_INVALID []
    else
      let (s, c, body) := f x s
      after x c (s.respond h.session type h.seq c body)

/-- A command that bivouac mode refuses (R394). -/
def State.litCommand (s : State) (h : Hdr) (type : Nat) (f : Session → State → Answer) : State :=
  s.command h type (fun x s => if s.lit then f x s else s.refuse C.BIVOUAC)

/-- A command for Keepers only (R356). -/
def keeperOnly (f : Session → State → Answer) (x : Session) (s : State) : Answer :=
  if x.role = .keeper then f x s else s.refuse C.ROLE_DENIED

/-- A PENDING answer: the work is entered with the session (R350). -/
def State.pend (s : State) (x : Session) (type seq : Nat) (w : PendWork) (result : Option (Code × List Byte)) :
    Answer :=
  let s := match s.session? x.id with
    | some y => s.putSession { y with pends := y.pends ++ [⟨type, seq, w, result⟩] }
    | none => s
  (s, C.PENDING, [])

/-- The work of PENDING commands that `p` picks has ended. -/
def State.settlePend (s : State) (p : PendWork → Bool) (c : Code) (body : List Byte) : State :=
  { s with odn := { s.odn with sessions := s.odn.sessions.map (fun x =>
      { x with pends := updWhere (fun e => p e.work) (fun e => { e with result := some (c, body) }) x.pends }) } }

/-! ### The commands -/

/-- The HELLO command body as sent (R354). -/
def helloBody (m : HelloMsg) : List Byte :=
  [0, BitVec.ofNat 8 (b2n (m.role == .keeper)), BitVec.ofNat 8 (b2n m.attention), 0] ++ fitTo 32 m.nonce ++
    fitTo 32 m.x25519 ++ fitTo 1184 m.mlkem

/-- A session identifier that is not 0 and not in use; which one is the device's choice. -/
def freshId (base : W32) (used : List W32) : W32 :=
  ((List.range 10).map (fun k => base + BitVec.ofNat 32 k)).find? (fun i => i != 0 && !used.contains i) |>.getD 1

/-- The refusal of a HELLO (R354, log entry 10). -/
def State.helloRefusal (s : State) (role : Role) : Option Code :=
  if role = .keeper ∧ s.fuses.owners.all Option.isNone then some C.ROLE_DENIED
  else if role = .operator ∧ !s.flag F.ODN_CTL_OPERATOR_OPEN then some C.ROLE_DENIED
  else if s.odn.sessions.length ≥ 8 then some C.SESSION_LIMIT
  else if role = .keeper ∧ (s.odn.sessions.filter (·.role == .keeper)).length ≥ 2 then some C.SESSION_LIMIT
  else none

/-- HELLO accepted: keys agreed, the transcript signed, the session held until it opens (R354). -/
def State.helloAccept (s : State) (m : HelloMsg) : State :=
  let (d, s) := s.draw
  let id := freshId (Config.word32 d) (s.odn.sessions.map (·.id))
  let share := natLe 4 id.toNat ++ fitTo 32 (Config.bytes d 32) ++ fitTo 32 (Config.x25519Public d) ++
    fitTo 1088 (Config.mlkemCipher d m.mlkem)
  let transcript := fitTo 64 (Config.sha512 (helloBody m ++ share))
  let keys := fitTo 64 (Config.sha512 (Config.x25519Shared d m.x25519 ++ Config.mlkemShared d m.mlkem ++ transcript))
  let slot := ((List.range 8).find? (fun k => s.odn.sessions.all (·.slot != k))).getD 0
  let x : Session :=
    { slot := slot, id := id, role := m.role, attention := m.attention, isOpen := false, expected := 1, mac := m.mac,
      relayed := m.relayed, keys := keys, transcript := transcript, helloAt := s.now, heardAt := s.now, sent := [],
      pends := [], nextAttn := 1, queue := [], overflow := 0, lastFirst := none }
  let s := { s with odn := { s.odn with
    sessions := insertBy (fun a b => a.slot ≤ b.slot) x s.odn.sessions } }
  s.answerBare m.mac m.relayed tySession id 0 C.OK
    (share ++ fitTo 64 (Config.ed25519Sign transcript) ++ fitTo 3309 (Config.mldsaSign d transcript))

def hello (m : HelloMsg) (s : State) : State :=
  if !s.reached m.relayed then s
  else if !m.wellShaped then s.answerBare m.mac m.relayed tySession 0 0 C.MESSAGE_INVALID []
  else
    match s.helloRefusal m.role with
    | some c => s.answerBare m.mac m.relayed tySession 0 0 c []
    | none => s.helloAccept m

/-- What PROVE is answered (R354): the keys must hash to the digest of an enrolled position, both signatures over
the transcript must verify. -/
def State.proveCode (s : State) (x : Session) (m : ProveMsg) : Code :=
  let position := m.key.val
  let digest := s.fuses.owners.getD position none
  let revoked := s.fuses.revoked.getD position false
  if x.role = .operator ∨ x.isOpen then C.ROLE_DENIED
  else if revoked ∨ digest ≠ some (fitTo 64 (Config.sha512 (m.edPublic ++ m.mlPublic))) then C.KEY_NOT_ENROLLED
  else if Config.ed25519Verify m.edPublic x.transcript m.edSignature ∧
      Config.mldsaVerify m.mlPublic x.transcript m.mlSignature then C.OK
  else C.AUTH_FAILED

def prove (h : Hdr) (m : ProveMsg) (s : State) : State :=
  s.command h tySession (opening := true)
    (fun x s =>
      let c := s.proveCode x m
      if c = C.OK then ((s.session? x.id).map (fun y => s.openSession y) |>.getD s, c, [])
      else if c = C.ROLE_DENIED then s.refuse c
      else (s.bump F.ODN_AUTH_FAILS 0 1).refuse c)
    (fun x c s => if c = C.KEY_NOT_ENROLLED ∨ c = C.AUTH_FAILED then s.endSession x.slot else s)

def close (h : Hdr) (s : State) : State :=
  s.command h tySession (fun _ s => s.ok) (fun x c s => if c = C.OK then s.endSession x.slot else s)
    (opening := true)

def sessionOpenTimeout (slot : Fin 8) (s : State) : State :=
  match s.odn.sessions.find? (·.slot == slot.val) with
  | some x => if !x.isOpen && s.now ≥ x.helloAt + 1000000000 then s.endSession slot else s
  | none => s

def sessionIdleTimeout (slot : Fin 8) (s : State) : State :=
  match s.odn.sessions.find? (·.slot == slot.val) with
  | some x =>
    if x.isOpen && s.now ≥ x.heardAt + s.fget F.ODN_CTL_IDLE_S * 1000000000 then s.endSession slot else s
  | none => s

/-- A discarded frame is counted (R347, R353). -/
def odrenFrameDiscard (why : FrameFault) (s : State) : State :=
  if !s.reached false then s
  else
    match why with
    | .badFcs => s.bump F.ODN_COUNT_BAD_FCS 0 1
    | .otherEtherType | .otherAddress => s.bump F.ODN_COUNT_OTHER 0 1
    | .badTag => s.bump F.ODN_COUNT_AUTH_DROP 0 1

/-- A message of unknown TYPE is answered in its session; one of another VERSION unprotected (R348, R351). -/
def messageInvalid (h : Hdr) (why : BadMessage) (s : State) : State :=
  match why with
  | .badVersion =>
    if s.reached h.relayed then
      s.answerBare h.mac h.relayed 0 h.session h.seq C.VERSION_UNSUPPORTED []
    else s
  | .unknownType => s.command h 0 (fun _ s => s.refuse C.MESSAGE_INVALID)

/-- The final response of a PENDING command whose work has ended (R350). -/
def finalResponse (slot : Fin 8) (seq : Nat) (s : State) : State :=
  match s.odn.sessions.find? (·.slot == slot.val) with
  | none => s
  | some x =>
    match x.pends.find? (fun p => p.seq == seq && p.result.isSome) with
    | none => s
    | some p =>
      let s := s.putSession { x with pends := x.pends.filter (·.seq != seq) }
      match p.result with
      | some (c, body) => s.respond x.id p.type seq c body true
      | none => s

/-- ATTN_ACK takes no command number and is not answered (R349, R359). -/
def attnAck (h : Hdr) (s : State) : State :=
  if !s.reached h.relayed then s
  else
    match s.session? h.session with
    | none => s.answerBare h.mac h.relayed tyAttnAck h.session h.seq C.SESSION_UNKNOWN []
    | some x =>
      if !x.isOpen then s
      else if !h.wellShaped then s.answerBare h.mac h.relayed tyAttnAck h.session h.seq C.MESSAGE_INVALID []
      else
        let x := { x with
          mac := h.mac, relayed := h.relayed, heardAt := s.now, queue := x.queue.filter (fun m => h.seq < m.seq) }
        (s.putSession x).overflowNotice x.slot

def attnFirstSend (slot : Fin 8) (s : State) : State := s.firstSend slot

/-- A message not acknowledged is sent again; intervals double to 160 ms (R359). -/
def attnResend (slot : Fin 8) (seq : Nat) (s : State) : State :=
  match s.odn.sessions.find? (·.slot == slot.val) with
  | none => s
  | some x =>
    match x.queue.find? (·.seq == seq) with
    | none => s
    | some m =>
      match m.sent with
      | none => s
      | some (t, wait) =>
        if s.now < t + wait then s
        else
          let m' := { m with sent := some (s.now, min (2 * wait) 160000000) }
          (s.putSession { x with queue := updWhere (·.seq == seq) (fun _ => m') x.queue }).sendAttention x.mac x.id m'

/-! ### The port and relay -/

def portDown (s : State) : State :=
  if s.upAndRunning && s.portUp then (s.fset F.ODN_STATUS_PORT 0 0).attn C.PORT_DOWN [] else s

def portUp (s : State) : State :=
  if s.upAndRunning && !s.portUp then (s.fset F.ODN_STATUS_PORT 0 1).attn C.PORT_UP [] else s

def crossedFibre (s : State) : State :=
  if s.upAndRunning && s.fget F.ODN_STATUS_PORT != 2 then
    (s.fset F.ODN_STATUS_PORT 0 2).attn C.CROSSED_FIBRE []
  else s

/-- Send a RELAY towards the named device: on a MAINTENANCE link whose peer it is, else by the routing table (R360). -/
def State.relayInward (s : State) (b : RelayBody) : State :=
  match (s.linksIn (· == lnkMaintenance)).find? (fun l => s.fget F.TTH_LINK_STATUS_PEER_DEVICE l == b.device.toNat) with
  | some l => s.sendRelay l b
  | none => s.injectBody b.device.toNat 2 0x0E 0 (relayBytes b)

/-- A RELAY packet received on a link (R360). One that names this device carries a message that arrives as its own
command, marked `relayed` (log entry 15). -/
def relay (link : Fin 64) (b : RelayBody) (s : State) : State :=
  let st := s.linkState link
  if !s.upAndRunning || !(st == lnkActive || st == lnkMaintenance) then s
  else if b.toDevice then
    if b.device.toNat = s.device then s
    else if b.hops ≥ 8 then s.bump F.ODN_COUNT_RELAY_DROP 0 1
    else s.relayInward { b with hops := b.hops + 1 }
  else if s.portUp then (s.out (.relayed b.mac b)).meter 352 (messageBytes (16 + b.inner.length) false)
  else if b.hops ≥ 8 then s.bump F.ODN_COUNT_RELAY_DROP 0 1
  else
    match s.relayLink (some link) with
    | some l => s.sendRelay l { b with hops := b.hops + 1 }
    | none => s

/-- A RELAYED message from the control node, taken in and sent towards the named device with the MAC to answer. -/
def relayed (mac : BitVec 48) (b : RelayBody) (s : State) : State :=
  if !s.reached false || !b.toDevice || b.device.toNat = s.device then s
  else s.relayInward { b with mac := mac }

end Sys2Proof.Machine
end

