-- ==== Sys2Proof/Machine/Footprint.lean ====
section
/-!
DEFINITION. What each kind of command can touch: the parts of the state that its meaning leaves as they are, said once. The
queue belongs to `step`; the fuses change by enrolment, revocation and COMMIT alone (R390, R391), the flash by IMAGE_WRITE
alone (R381), memory, core stores and the image in force by no command of sessions, registers, counters or links.
-/
namespace Sys2Proof.Machine

open Sys2Proof

/-- A command that may burn a fuse. -/
def State.holdQueue (s t : State) : State := { t with pending := s.pending }

/-- A command that may write the flash. -/
def State.holdFuses (s t : State) : State := { t with pending := s.pending, fuses := s.fuses }

/-- A command that may touch memory, runs, units or the image in force. -/
def State.holdFlash (s t : State) : State := { t with pending := s.pending, fuses := s.fuses, flash := s.flash }

/-- A command that touches no memory and leaves the image in force. -/
def State.holdData (s t : State) : State :=
  { t with
    pending := s.pending, fuses := s.fuses, flash := s.flash, mem := s.mem, core := s.core, image := s.image }

/-- A message that arrives through the port is metered (R411): its body, and whether it is protected. -/
def State.odrenIn (s : State) (relayed : Bool) (body : Nat) (isProtected : Bool) : State :=
  if s.reached relayed && !relayed then s.meter 353 (messageBytes body isProtected) else s

end Sys2Proof.Machine
end

