-- ==== Sys2Proof/Machine/Float.lean ====
section
/-!
DEFINITION. Floating-point arithmetic with exact intermediate values and one rounding to nearest even (R2 names the
formats; IEEE 754-2019): values, decoding, rounding, the operations and comparisons.
-/
namespace Sys2Proof.Machine

/-- A binary format without its sign bit: exponent and fraction widths, the largest finite code, the code of
infinity if it has one, the NaN code if it has one. -/
structure Fmt where
  ebits : Nat
  mbits : Nat
  maxCode : Nat
  inf : Option Nat
  nan : Option Nat
deriving DecidableEq, Repr

def fmtIeee (e m : Nat) : Fmt :=
  ⟨e, m, (2 ^ e - 1) * 2 ^ m - 1, some ((2 ^ e - 1) * 2 ^ m), some ((2 ^ e - 1) * 2 ^ m + 2 ^ (m - 1))⟩

def fp64 : Fmt := fmtIeee 11 52
def fp32 : Fmt := fmtIeee 8 23
def fp16 : Fmt := fmtIeee 5 10
def bf16 : Fmt := fmtIeee 8 7
def fp8e5m2 : Fmt := fmtIeee 5 2
/-- E4M3 has no infinity; its largest value is 448 and its NaN 0x7F. -/
def fp8e4m3 : Fmt := ⟨4, 3, 0x7E, none, some 0x7F⟩
/-- E2M1 has neither infinity nor NaN; its largest value is 6. -/
def fp4e2m1 : Fmt := ⟨2, 1, 7, none, none⟩

def Fmt.bias (f : Fmt) : Nat := 2 ^ (f.ebits - 1) - 1
def Fmt.width (f : Fmt) : Nat := 1 + f.ebits + f.mbits
/-- Exponent of the smallest normal number. -/
def Fmt.emin (f : Fmt) : Int := 1 - (f.bias : Int)
def Fmt.signBit (f : Fmt) : Nat := 2 ^ (f.ebits + f.mbits)

/-- A value: m × 2^e, infinity, or not a number. -/
inductive FVal where
  | nan
  | inf (neg : Bool)
  | fin (neg : Bool) (m : Nat) (e : Int)
deriving DecidableEq, Repr

def FVal.isNan : FVal → Bool
  | .nan => true
  | _ => false

def FVal.isFin : FVal → Bool
  | .fin .. => true
  | _ => false

def FVal.isZero : FVal → Bool
  | .fin _ m _ => m == 0
  | _ => false

def FVal.neg : FVal → Bool
  | .nan => false
  | .inf n => n
  | .fin n _ _ => n

/-- The value a code stands for. -/
def Fmt.decode (f : Fmt) (code : Nat) : FVal :=
  let c := code % f.signBit
  let neg := code / f.signBit % 2 == 1
  if f.inf = some c then .inf neg
  else if c > f.maxCode then .nan
  else
    let e := c / 2 ^ f.mbits
    let m := c % 2 ^ f.mbits
    if e = 0 then .fin neg m (f.emin - f.mbits)
    else .fin neg (2 ^ f.mbits + m) ((e : Int) - f.bias - f.mbits)

/-- A quotient rounded to nearest, ties to even. -/
def divRne (n d : Nat) : Nat :=
  let q := n / d
  let r := n % d
  if 2 * r < d then q else if d < 2 * r then q + 1 else q + q % 2

/-- The floor of log2 of n / d. -/
def ratLog2 (n d : Nat) : Int :=
  let g : Int := (Nat.log2 n : Int) - Nat.log2 d
  let ge := if 0 ≤ g then decide (d * 2 ^ g.toNat ≤ n) else decide (d ≤ n * 2 ^ (-g).toNat)
  if ge then g else g - 1

/-- What stands for a value beyond the largest finite one: infinity, or the largest value where `sat` holds or the
format has neither infinity nor NaN. -/
def Fmt.overflow (f : Fmt) (sat : Bool) : Nat :=
  if sat then f.maxCode else (f.inf.or f.nan).getD f.maxCode

def Fmt.signed (f : Fmt) (neg : Bool) (c : Nat) : Nat := if neg then c + f.signBit else c

def Fmt.nanCode (f : Fmt) : Nat := f.nan.getD 0

/-- The code nearest to (num / den) × 2^e, ties to even. -/
def Fmt.roundRat (f : Fmt) (sat neg : Bool) (num den : Nat) (e : Int) : Nat :=
  if num = 0 ∨ den = 0 then f.signed neg 0
  else
    let l := ratLog2 num den + e
    let q := max l f.emin - f.mbits
    let k := e - q
    let r := if 0 ≤ k then divRne (num * 2 ^ k.toNat) den else divRne num (den * 2 ^ (-k).toNat)
    let c := (q + f.mbits - f.emin).toNat * 2 ^ f.mbits + r
    f.signed neg (if c > f.maxCode then f.overflow sat else c)

/-- The code of a value. -/
def Fmt.encode (f : Fmt) (v : FVal) (sat : Bool := false) : Nat :=
  match v with
  | .nan => f.nanCode
  | .inf n => f.signed n (f.overflow sat)
  | .fin n m e => f.roundRat sat n m 1 e

/-- m × 2^e in units of 2^lo (lo not above e), with its sign. -/
def scaledInt (neg : Bool) (m : Nat) (e lo : Int) : Int :=
  let v : Int := (m * 2 ^ (e - lo).toNat : Nat)
  if neg then -v else v

/-- The exact sum of two values; an exact zero sum is +0 unless both are −0. -/
def FVal.add : FVal → FVal → FVal
  | .nan, _ => .nan
  | _, .nan => .nan
  | .inf a, .inf b => if a = b then .inf a else .nan
  | .inf a, _ => .inf a
  | _, .inf b => .inf b
  | .fin na ma ea, .fin nb mb eb =>
    let lo := min ea eb
    let t := scaledInt na ma ea lo + scaledInt nb mb eb lo
    if t = 0 then .fin (na && nb) 0 lo else .fin (decide (t < 0)) t.natAbs lo

def FVal.negate : FVal → FVal
  | .nan => .nan
  | .inf n => .inf (!n)
  | .fin n m e => .fin (!n) m e

def FVal.sub (a b : FVal) : FVal := a.add b.negate

def FVal.abs : FVal → FVal
  | .nan => .nan
  | .inf _ => .inf false
  | .fin _ m e => .fin false m e

/-- The exact product. -/
def FVal.mul : FVal → FVal → FVal
  | .nan, _ => .nan
  | _, .nan => .nan
  | .inf a, b => if b.isZero then .nan else .inf (a != b.neg)
  | a, .inf b => if a.isZero then .nan else .inf (a.neg != b)
  | .fin na ma ea, .fin nb mb eb => .fin (na != nb) (ma * mb) (ea + eb)

/-- A quotient rounded to a format. -/
def Fmt.div (f : Fmt) (a b : FVal) : Nat :=
  match a, b with
  | .nan, _ => f.nanCode
  | _, .nan => f.nanCode
  | .inf _, .inf _ => f.nanCode
  | .inf n, .fin m _ _ => f.encode (.inf (n != m))
  | .fin n _ _, .inf m => f.signed (n != m) 0
  | .fin na ma ea, .fin nb mb eb =>
    if mb = 0 then (if ma = 0 then f.nanCode else f.encode (.inf (na != nb)))
    else f.roundRat false (na != nb) ma mb (ea - eb)

/-- A quotient rounded to a format and saturated to its range (R237). -/
def Fmt.divSat (f : Fmt) (a b : FVal) : Nat :=
  match a, b with
  | .fin na ma ea, .fin nb mb eb =>
    if mb = 0 then (if ma = 0 then f.nanCode else f.signed (na != nb) f.maxCode) else f.roundRat true (na != nb) ma mb (ea - eb)
  | .inf n, .fin m _ _ => f.signed (n != m) f.maxCode
  | .fin n _ _, .inf m => f.signed (n != m) 0
  | _, _ => f.nanCode

/-- Integer square root by bisection on the bits, highest first. -/
def isqrtFrom : Nat → Nat → Nat → Nat
  | 0, _, r => r
  | k + 1, n, r => isqrtFrom k n (if (r + 2 ^ k) * (r + 2 ^ k) ≤ n then r + 2 ^ k else r)

def isqrt (n : Nat) : Nat := isqrtFrom (Nat.log2 n / 2 + 1) n 0

/-- The square root of (num / den) × 2^e rounded to a format; a value below 0 gives NaN. -/
def Fmt.sqrtRat (f : Fmt) (num den : Nat) (e : Int) : Nat :=
  if num = 0 ∨ den = 0 then 0
  else
    let up := 2 * (f.mbits + 4) + 2 * (Nat.log2 den + 1)
    let odd := (e % 2).toNat
    let n := num * 2 ^ (up + odd) / den
    let r := isqrt n
    let sticky := if r * r = n ∧ num * 2 ^ (up + odd) % den = 0 then 0 else 1
    f.roundRat false false (2 * r + sticky) 2 ((e - odd) / 2 - (up / 2 : Nat))

def Fmt.sqrt (f : Fmt) : FVal → Nat
  | .nan => f.nanCode
  | .inf n => if n then f.nanCode else f.encode (.inf false)
  | .fin n m e => if m = 0 then f.signed n 0 else if n then f.nanCode else f.sqrtRat m 1 e

/-- a × b + c with one rounding. -/
def Fmt.fma (f : Fmt) (a b c : FVal) : Nat := f.encode ((a.mul b).add c)

/-- Operations on codes of one format. -/
def Fmt.addC (f : Fmt) (a b : Nat) : Nat := f.encode ((f.decode a).add (f.decode b))
def Fmt.subC (f : Fmt) (a b : Nat) : Nat := f.encode ((f.decode a).sub (f.decode b))
def Fmt.mulC (f : Fmt) (a b : Nat) : Nat := f.encode ((f.decode a).mul (f.decode b))
def Fmt.divC (f : Fmt) (a b : Nat) : Nat := f.div (f.decode a) (f.decode b)

/-- Quiet comparisons: NaN compares false, the two zeros are equal (R87). -/
def FVal.lt : FVal → FVal → Bool
  | .nan, _ => false
  | _, .nan => false
  | .inf a, .inf b => a && !b
  | .inf a, _ => a
  | _, .inf b => !b
  | .fin na ma ea, .fin nb mb eb =>
    let lo := min ea eb
    decide (scaledInt na ma ea lo < scaledInt nb mb eb lo)

def FVal.eq : FVal → FVal → Bool
  | .nan, _ => false
  | _, .nan => false
  | .inf a, .inf b => a == b
  | .inf _, _ => false
  | _, .inf _ => false
  | .fin na ma ea, .fin nb mb eb =>
    let lo := min ea eb
    decide (scaledInt na ma ea lo = scaledInt nb mb eb lo)

def FVal.le (a b : FVal) : Bool := a.lt b || a.eq b

/-- The value of an integer. -/
def FVal.ofInt (i : Int) : FVal := .fin (decide (i < 0)) i.natAbs 0

/-- A finite value rounded to an integer, ties to even. -/
def roundInt (neg : Bool) (m : Nat) (e : Int) : Int :=
  let r := if 0 ≤ e then m * 2 ^ e.toNat else divRne m (2 ^ (-e).toNat)
  if neg then -(r : Int) else r

/-- A finite value toward zero. -/
def truncInt (neg : Bool) (m : Nat) (e : Int) : Int :=
  let r := if 0 ≤ e then m * 2 ^ e.toNat else m / 2 ^ (-e).toNat
  if neg then -(r : Int) else r

/-- Clamp an integer. -/
def clampInt (lo hi i : Int) : Int := max lo (min hi i)

/-- Whether a code lies within `n` ulp of (num / den) × 2^e: ulp of the exact value's binade. -/
def Fmt.within (f : Fmt) (n : Nat) (code : Nat) (neg : Bool) (num den : Nat) (e : Int) : Bool :=
  match f.decode code with
  | .fin cn cm ce =>
    let q := max (ratLog2 num den + e) f.emin - f.mbits
    let lo := min (min ce e) q
    let exact := scaledInt neg num e lo
    let got := scaledInt cn (cm * den) ce lo
    decide ((exact - got).natAbs ≤ n * den * 2 ^ (q - lo).toNat)
  | _ => false

/-- Bits after the point of the logarithms below: far finer than an FP32 code. -/
def lnBits : Nat := 256

/-- 2 × (z + z³/3 + z⁵/5 + …) with z = `zn` / `zd`, of magnitude at most 1/3, in units of 2^-256; `fuel` bounds the terms. -/
def atanhTwice : Nat → Nat → Int → Int → Int → Int
  | 0, _, _, _, acc => 2 * acc
  | fuel + 1, k, z2, p, acc => atanhTwice fuel (k + 2) z2 (p * z2 / 2 ^ lnBits) (acc + p / k)

/-- The logarithm of `p` / `q`, a ratio from 1/2 to 2, in units of 2^-256. -/
def lnRatio (p q : Nat) : Int :=
  let z : Int := ((p : Int) - q) * 2 ^ lnBits / ((p : Int) + q)
  atanhTwice 90 1 (z * z / 2 ^ lnBits) z 0

/-- ln(1 + x) of a finite x above -1, to within a few units of 2^-256: 1 + x is 2^k times a ratio near 1. -/
def lnOnePlus (neg : Bool) (m : Nat) (e : Int) : Int :=
  let num := m * 2 ^ e.toNat
  let den := 2 ^ (-e).toNat
  let p := if neg then den - num else den + num
  let k : Int := (Nat.log2 p : Int) - Nat.log2 den
  k * lnRatio 2 1 + lnRatio (p * 2 ^ (-k).toNat) (den * 2 ^ k.toNat)

/-- A result known to within 2 ulp of the exact value: the nearest code moved by up to two codes as `pick` says,
where that stays within the bound (R110). -/
def Fmt.near2 (f : Fmt) (pick : Nat) (neg : Bool) (num den : Nat) (e : Int) : Nat :=
  let c := f.roundRat false neg num den e
  let move := pick % 5
  let d := if move < 2 then c - (2 - move) else c + (move - 2)
  if f.within 2 d neg num den e then d else c

end Sys2Proof.Machine
end

