-- ==== Sys2Proof/Machine/Operands.lean ====
section
/-!
DEFINITION. Columns: the types of R127, the values of a cell, key bytes (R90), and the reading of a table's buffers
(R53, R127, R128).
-/
namespace Sys2Proof.Machine

/-! ### Types -/

/-- Type codes (R127). -/
def tInt8 : Nat := 0x01
def tInt64 : Nat := 0x04
def tUint8 : Nat := 0x05
def tUint32 : Nat := 0x07
def tUint64 : Nat := 0x08
def tFloat16 : Nat := 0x09
def tFloat32 : Nat := 0x0A
def tFloat64 : Nat := 0x0B
def tBool : Nat := 0x0C
def tUtf8 : Nat := 0x0D
def tBinary : Nat := 0x0E
def tFsb : Nat := 0x0F
def tDate32 : Nat := 0x10
def tTimestamp : Nat := 0x11
def tList : Nat := 0x12
def tFsl : Nat := 0x13
/-- The model's own code for a BF16 column, which NORMALISE and DICT_JOIN can write and R127 gives no code. -/
def tBf16 : Nat := 0x20

/-- Stored bytes of a primitive type; FIXED_SIZE_BINARY takes its width; 0 for the types of variable length. -/
def typeBytes (typ width : Nat) : Nat :=
  if typ = 1 ∨ typ = 5 ∨ typ = tBool then 1
  else if typ = 2 ∨ typ = 6 ∨ typ = tFloat16 ∨ typ = tBf16 then 2
  else if typ = 3 ∨ typ = 7 ∨ typ = tFloat32 ∨ typ = tDate32 then 4
  else if typ = 4 ∨ typ = 8 ∨ typ = tFloat64 ∨ typ = tTimestamp then 8
  else if typ = tFsb then width
  else 0

def isSignedT (t : Nat) : Bool := decide (1 ≤ t ∧ t ≤ 4) || t == tDate32 || t == tTimestamp
def isUnsignedT (t : Nat) : Bool := decide (5 ≤ t ∧ t ≤ 8) || t == tBool
def isIntT (t : Nat) : Bool := isSignedT t || isUnsignedT t
/-- The floating types, a BF16 column among them: R109 and R123 write one. -/
def isFloatT (t : Nat) : Bool := decide (9 ≤ t ∧ t ≤ 11) || t == tBf16
def isVarT (t : Nat) : Bool := t == tUtf8 || t == tBinary

/-- A primitive type: fixed width, no child. -/
def isPrimT (t : Nat) : Bool := isIntT t || isFloatT t

/-- The format of a float type. -/
def floatFmt (t : Nat) : Fmt :=
  if t = tFloat16 then fp16 else if t = tFloat64 then fp64 else if t = tBf16 then bf16 else fp32

/-- A comparable value (R78): an integer, a float, bytes. -/
inductive Val where
  | int (i : Int)
  | flt (v : FVal)
  | raw (bs : List Byte)
deriving DecidableEq, Repr

/-- The value of stored bytes under a type. -/
def valOf (typ : Nat) (bs : List Byte) : Val :=
  if isSignedT typ then .int (toSigned (8 * bs.length) (leNat bs))
  else if isUnsignedT typ then .int (leNat bs)
  else if isFloatT typ then .flt ((floatFmt typ).decode (leNat bs))
  else .raw bs

def Val.lt : Val → Val → Bool
  | .int a, .int b => decide (a < b)
  | .flt a, .flt b => a.lt b
  | _, _ => false

def Val.eq : Val → Val → Bool
  | .int a, .int b => a == b
  | .flt a, .flt b => a.eq b
  | .raw a, .raw b => a == b
  | _, _ => false

def Val.isNan : Val → Bool
  | .flt v => v.isNan
  | _ => false

/-- The value as a float: integers are exact. -/
def Val.toF : Val → FVal
  | .int i => FVal.ofInt i
  | .flt v => v
  | .raw _ => .nan

/-! ### Columns -/

def nullCell (typ width : Nat) : CellV := ⟨false, zeros (typeBytes typ width), false⟩

def Column.cell (c : Column) (r : Nat) : CellV := c.cells.getD r ⟨false, [], false⟩

def Column.val (c : Column) (r : Nat) : Option Val :=
  let x := c.cell r
  if x.valid then some (valOf c.typ x.bytes) else none

/-- The column numbered `n`. -/
def colAt (cols : List Column) (n : Nat) : Option Column := cols.find? (·.num == n)

/-- Whether a consumed column holds poison (R81). -/
def Column.poisoned (c : Column) : Bool := c.cells.any (·.poison)

/-- Bits packed into bytes: bit (k mod 8) of byte k div 8 is bit k (R88, R128). -/
def packBits (bs : List Bool) : List Byte :=
  (chunksOf 8 (bs.length + 1) bs).map (fun g =>
    BitVec.ofNat 8 ((g.zip (List.range g.length)).map (fun e => b2n e.1 * 2 ^ e.2)).sum)

/-- The buffers of a column as a chunk holds it (R77, R79, R88): a validity bitmap where a row is null, offsets before
values of variable length, BOOL values bit-packed. -/
def Column.held (c : Column) : List Byte :=
  let values := c.cells.flatMap (·.bytes)
  let bits (bs : List Byte) : List Byte := packBits (bs.map (fun b => b == 1))
  let ends : List Nat := c.cells.foldl (fun (acc : List Nat) x => acc ++ [acc.getLastD 0 + x.bytes.length]) [0]
  let isBits := c.typ == tBool || ((c.typ == tList || c.typ == tFsl) && c.elem == tBool)
  (if c.cells.all (·.valid) then [] else packBits (c.cells.map (·.valid))) ++
    (if isVarT c.typ || c.typ == tList then ends.flatMap (natLe 4) else []) ++ (if isBits then bits values else values)

/-- Put a column in its place by number. -/
def putCol (cols : List Column) (c : Column) : List Column :=
  insertBy (fun a b => a.num ≤ b.num) c (cols.filter (·.num != c.num))

/-- The rows that `keep` picks, of every column. -/
def pickRows (rows : List Nat) (cols : List Column) : List Column :=
  cols.map (fun c => { c with cells := rows.map c.cell })

/-- Key bytes of a cell (R90): its stored bytes, or a variable value and its length. -/
def cellKey (c : Column) (x : CellV) : List Byte :=
  let bs := if x.valid then x.bytes else zeros (typeBytes c.typ c.width)
  if isVarT c.typ then (if x.valid then x.bytes else []) ++ natLe 4 (if x.valid then x.bytes.length else 0) else bs

/-- Key bytes of a row (R90): none where a key column is null and NULL_KEYS is clear. -/
def rowKey (keys : List Column) (nullKeys : Bool) (r : Nat) : Option (List Byte) :=
  let cells := keys.map (fun c => (c, c.cell r))
  if !nullKeys && cells.any (fun e => !e.2.valid) then none
  else some (cells.flatMap (fun e => cellKey e.1 e.2))

/-- Column numbers listed in a parameter block: 0xFF stands for none. -/
def colList (bs : List Byte) : List Nat := (bs.map BitVec.toNat).filter (· != 0xFF)

/-! ### Rows and vaults -/

/-- Rows that vault `v` holds of `n`, and its first row (R53). -/
def shareRows (n v : Nat) : Nat := n / 192 + (if 192 - n % 192 ≤ v then 1 else 0)
def shareFirst (n v : Nat) : Nat := v * (n / 192) + (v - (192 - n % 192))

/-- The vault whose share of `n` rows holds row `r`. -/
def shareVault (n r : Nat) : Nat :=
  ((List.range 192).find? (fun v => decide (shareFirst n v ≤ r ∧ r < shareFirst n v + shareRows n v))).getD 0

/-! ### Tables -/

/-- A table as a TABLE argument names it: region, offset A, row count B, source index C. -/
structure TableAt where
  region : Region
  a : Nat
  b : Nat
  c : Nat

/-- Whether each vault holds a slice of its own. -/
def TableAt.sliced (t : TableAt) : Bool := t.region.kind == .vaultRange || t.region.kind == .vaultHash

/-- Local address of an offset from the table base; sliced tables have one base in each vault (R128). -/
def TableAt.addr (t : TableAt) (v off : Nat) : Nat := t.region.localAddr v (t.a + off)

/-- The table that an argument slot of a run names. -/
def State.tableOf (s : State) (r : Run) (slot : Nat) : Option TableAt :=
  match r.args.find? (fun e => e.slot == slot && e.kind == 1) with
  | none => none
  | some e => (s.region? e.region).map (fun g => ⟨g, e.a.toNat, e.b.toNat, e.c.toNat⟩)

def State.schema? (s : State) (n : Nat) : Option Schema :=
  s.image.bind (fun im => im.schemas.find? (·.number == n))

/-- Rows in the slice of vault `v` (R53, R128); for a VAULT_HASH table its slice header says so. -/
def State.sliceRows (s : State) (t : TableAt) (v : Nat) : Nat × State :=
  match t.region.kind with
  | .vaultHash =>
    let (bs, s) := s.readLocal (t.addr v 0) 8
    (leNat (bs.map (·.1)), s)
  | .vaultRange => (shareRows t.b v, s)
  | _ => (t.b, s)

/-- The rows of the slices of a VAULT_HASH table, vault by vault (R128). -/
def State.sliceTable (s : State) (t : TableAt) : List Nat × State :=
  (List.range 192).foldl (fun (acc : List Nat × State) v =>
    let (n, s') := acc.2.sliceRows t v
    (acc.1 ++ [n], s')) ([], s)

/-- Bits of a buffer from row `first` on, each with its poison. -/
def State.readBits (s : State) (addr first n : Nat) : Except Code (List (Bool × Bool) × State) :=
  if n = 0 then .ok ([], s)
  else
    match s.checkedRead (addr + first / 8) ((first + n + 7) / 8 - first / 8) with
    | .error c => .error c
    | .ok (bs, s) =>
      .ok ((List.range n).map (fun k =>
        let i := first % 8 + k
        let b := bs.getD (i / 8) (0, false)
        (bitAt b.1.toNat (i % 8), b.2)), s)

/-- Fixed-width values from row `first` on: bytes and poison. -/
def State.readFixed (s : State) (addr w first n : Nat) : Except Code (List (List Byte × Bool) × State) :=
  if n = 0 ∨ w = 0 then .ok (List.replicate n ([], false), s)
  else
    match s.checkedRead (addr + first * w) (n * w) with
    | .error c => .error c
    | .ok (bs, s) => .ok ((chunksOf w n bs).map (fun g => (g.map (·.1), g.any (·.2))), s)

/-- Values of a primitive type: BOOL is bit-packed and becomes one byte. -/
def State.readPrim (s : State) (addr typ width first n : Nat) : Except Code (List (List Byte × Bool) × State) :=
  if typ = tBool then
    match s.readBits addr first n with
    | .error c => .error c
    | .ok (bs, s) => .ok (bs.map (fun b => ([BitVec.ofNat 8 (b2n b.1)], b.2)), s)
  else s.readFixed addr (typeBytes typ width) first n

/-- Values of variable length: `unit` is the width of one child element, `limit` the bytes of the region left for the
data buffer. Offsets that fall, or point outside, fail the run (R128). -/
def State.readVar (s : State) (offs data unit limit first n : Nat) : Except Code (List (List Byte × Bool) × State) :=
  match s.readFixed offs 4 first (n + 1) with
  | .error c => .error c
  | .ok (os, s) =>
    let vs := os.map (fun o => leNat o.1)
    let pairs := vs.zip (vs.drop 1)
    let lo := vs.headD 0
    let hi := vs.getLastD 0
    if pairs.any (fun p => p.2 < p.1) || hi * unit > limit then .error C.SCHEMA_MISMATCH
    else
      match s.checkedRead (data + lo * unit) ((hi - lo) * unit) with
      | .error c =>
        if hi = lo then .ok ((os.zip (os.drop 1)).map (fun e => ([], e.1.2 || e.2.2)), s) else .error c
      | .ok (bs, s) =>
        .ok ((pairs.zip (os.zip (os.drop 1))).map (fun e =>
          let g := slice ((e.1.1 - lo) * unit) ((e.1.2 - e.1.1) * unit) bs
          (g.map (·.1), e.2.1.2 || e.2.2.2 || g.any (·.2))), s)

/-- Lists of BOOL: the child values are bit-packed, and each becomes one byte (R128). -/
def State.readVarBits (s : State) (offs data limit first n : Nat) : Except Code (List (List Byte × Bool) × State) :=
  match s.readFixed offs 4 first (n + 1) with
  | .error c => .error c
  | .ok (os, s) =>
    let vs := os.map (fun o => leNat o.1)
    let pairs := vs.zip (vs.drop 1)
    let lo := vs.headD 0
    let hi := vs.getLastD 0
    if pairs.any (fun p => p.2 < p.1) || (hi + 7) / 8 > limit then .error C.SCHEMA_MISMATCH
    else
      match s.readBits data lo (hi - lo) with
      | .error c => .error c
      | .ok (bs, s) =>
        .ok ((pairs.zip (os.zip (os.drop 1))).map (fun e =>
          let g := slice (e.1.1 - lo) (e.1.2 - e.1.1) bs
          (g.map (fun b => BitVec.ofNat 8 (b2n b.1)), e.2.1.2 || e.2.2.2 || g.any (·.2))), s)

/-- The stored type of a schema column in a chunk: a DICTIONARY column is its index column. -/
def SchemaCol.chunkType (k : SchemaCol) : Nat := if k.dictionary then k.elem else k.typ

/-- A dictionary index at or above WIDTH is null and counted (R128). -/
def State.dictIndices (s : State) (k : SchemaCol) (cells : List CellV) : List CellV × State :=
  if !k.dictionary then (cells, s)
  else
    let bad (x : CellV) : Bool := x.valid && (match valOf k.elem x.bytes with
      | .int i => decide (i < 0 ∨ (k.width : Int) ≤ i)
      | _ => false)
    (cells.map (fun x => if bad x then { x with valid := false } else x),
      s.bump F.ING_LOSS_B_SECOND 0 (cells.filter bad).length)

/-- Read rows of one schema column. -/
def State.readColumn (s : State) (t : TableAt) (k : SchemaCol) (num v first n : Nat) :
    Except Code (Column × State) :=
  let valid := if k.nullable then s.readBits (t.addr v k.validityOff) first n
    else .ok (List.replicate n (true, false), s)
  match valid with
  | .error c => .error c
  | .ok (vb, s) =>
    let typ := k.chunkType
    let left := t.region.size - (t.a + k.dataOff)
    let values :=
      if k.dictionary then s.readPrim (t.addr v k.valuesOff) k.elem 0 first n
      else if isVarT typ then s.readVar (t.addr v k.valuesOff) (t.addr v k.dataOff) 1 left first n
      else if typ = tList ∧ k.elem = tBool then
        s.readVarBits (t.addr v k.valuesOff) (t.addr v k.dataOff) left first n
      else if typ = tList then
        s.readVar (t.addr v k.valuesOff) (t.addr v k.dataOff) (typeBytes k.elem 0) left first n
      else if typ = tFsl then
        match s.readPrim (t.addr v k.valuesOff) k.elem 0 (first * k.width) (n * k.width) with
        | .error c => .error c
        | .ok (vs, s) =>
          .ok ((chunksOf k.width n vs).map (fun g => (g.flatMap (·.1), g.any (·.2))), s)
      else s.readPrim (t.addr v k.valuesOff) typ k.width first n
    match values with
    | .error c => .error c
    | .ok (vs, s) =>
      let cells := (vb.zip vs).map (fun e => (⟨e.1.1, e.2.1, e.1.2 || e.2.2⟩ : CellV))
      let (cells, s) := s.dictIndices k cells
      .ok (⟨num, typ, k.elem, k.width, cells⟩, s)

/-- Table offsets and lengths of what a read of rows [first, first + n) takes from the buffers that the schema places; a
data buffer of variable length comes after its offsets. -/
def SchemaCol.reads (k : SchemaCol) (first n : Nat) : List (Nat × Nat) :=
  let typ := k.chunkType
  let bits (off a m : Nat) : Nat × Nat := (off + a / 8, (a + m + 7) / 8 - a / 8)
  let prim (off t a m : Nat) : Nat × Nat :=
    if t = tBool then bits off a m else (off + typeBytes t k.width * a, typeBytes t k.width * m)
  (if k.nullable then [bits k.validityOff first n] else []) ++
    [if isVarT typ ∨ typ = tList then (k.valuesOff + 4 * first, 4 * (n + 1))
     else if typ = tFsl then prim k.valuesOff k.elem (first * k.width) (n * k.width)
     else prim k.valuesOff typ first n]

/-- Offset and length of the buffers of a column over `n` rows, as far as the schema gives them (R128). -/
def SchemaCol.buffers (k : SchemaCol) (n : Nat) : List (Nat × Nat) :=
  let typ := k.chunkType
  let bits (m : Nat) := (m + 7) / 8
  let prim (t m : Nat) := if t = tBool then bits m else typeBytes t k.width * m
  let values :=
    if isVarT typ ∨ typ = tList then 4 * (n + 1)
    else if typ = tFsl then prim k.elem (n * k.width)
    else prim typ n
  (if k.nullable then [(k.validityOff, bits n)] else []) ++ [(k.valuesOff, values)] ++
    (if k.dictionary then [(k.dataOff, typeBytes k.typ 0 * k.width)]
     else if isVarT typ ∨ typ = tList then [(k.dataOff, 0)] else [])

/-- The first-read checks of a table (R128): every buffer starts on a 64-byte boundary and lies within the region. -/
def tableFits (t : TableAt) (sch : Schema) (n : Nat) : Bool :=
  sch.cols.all (fun k => (k.buffers n).all (fun b =>
    decide ((t.region.base + t.a + b.1) % 64 = 0 ∧ t.a + b.1 + b.2 ≤ t.region.size) &&
      (t.region.kind != .vaultHash || decide (64 ≤ b.1))))

end Sys2Proof.Machine
end

