-- ==== Sys2Proof/Machine/RunBase.lean ====
section
/-!
DEFINITION. Runs and tasks as records: access, loss counts (R67, R141), failure (R66), the logbook (R315, R316), the
flow contexts with their places and release buffers (R57, R307 to R309), and the end of a task.
-/
namespace Sys2Proof.Machine

/-! ### Operators -/

/-- Operator codes (R58). -/
def Op.code : Op → Nat
  | .scan => 0x01 | .filter => 0x02 | .project => 0x03 | .hash => 0x04 | .bucket => 0x05 | .normalise => 0x06
  | .stats => 0x07 | .partition => 0x08 | .joinBuild => 0x09 | .joinProbe => 0x0A | .dictJoin => 0x0B
  | .gather => 0x0C | .scatter => 0x0D | .lookup => 0x0E | .update => 0x0F | .decode => 0x10 | .parse => 0x11
  | .pyramid => 0x12 | .compress => 0x13 | .decompress => 0x14 | .model => 0x15 | .batch => 0x16 | .emit => 0x17

/-- Operators of the vault unit (R303). -/
def Op.onVaultUnit (o : Op) : Bool := decide (o.code ≤ 0x0B)

/-! ### Runs -/

def State.run? (s : State) (slot : Nat) : Option Run := s.runs.find? (·.slot == slot)

def State.putRun (s : State) (r : Run) : State :=
  { s with runs := updWhere (·.slot == r.slot) (fun _ => r) s.runs }

def State.modRun (s : State) (slot : Nat) (f : Run → Run) : State :=
  { s with runs := updWhere (·.slot == slot) f s.runs }

def RunWork.empty (slot : Nat) : RunWork := ⟨slot, [], [], [], [], [], [], [], [], []⟩

def State.workOf (s : State) (slot : Nat) : RunWork := (s.work.find? (·.slot == slot)).getD (RunWork.empty slot)

def State.modWork (s : State) (slot : Nat) (f : RunWork → RunWork) : State :=
  { s with work := updWhere (·.slot == slot) f s.work }

def State.pipelines (s : State) : List Pipeline :=
  match s.image with
  | some im => im.pipelines
  | none => []

def State.pipeBytes (s : State) : List Byte :=
  match s.image with
  | some im => im.pipeBytes
  | none => []

def State.pipelineOf (s : State) (slot : Nat) : Option Pipeline :=
  match s.run? slot with
  | some r => s.pipelines.find? (·.number == r.pipeline)
  | none => none

def State.stage? (s : State) (slot stage : Nat) : Option StageRec :=
  (s.pipelineOf slot).bind (fun p => p.stages[stage]?)

def State.task? (s : State) (id : Nat) : Option Task := s.disp.tasks.find? (·.id == id)

def State.putTask (s : State) (t : Task) : State :=
  { s with disp := { s.disp with tasks := updWhere (·.id == t.id) (fun _ => t) s.disp.tasks } }

def State.tasksOf (s : State) (slot : Nat) : List Task := s.disp.tasks.filter (·.slot == slot)

/-- Whether a flow of a pipeline is ORDERED (R60). -/
def Pipeline.isOrdered (p : Pipeline) (flow : Nat) : Bool := p.ordered.getD flow false

/-- The flow of a stage's output chunks. -/
def StageRec.flowOf (st : StageRec) (flow : Nat) : Nat := if st.outFlow = 0xFFFF then flow else st.outFlow

/-- Whether a stage's outputs keep the positions of its inputs in an ORDERED flow, so that they pass a release
buffer; a source's positions are those of its own chunks (R59, R60, R308). -/
def Pipeline.positioned (p : Pipeline) (st : StageRec) (flow : Nat) : Bool :=
  st.op != .batch && (st.outFlow == 0xFFFF || st.source) && p.isOrdered (st.flowOf flow)

/-- The completion status (R65, R66). -/
def Run.finalStatus (r : Run) : Code :=
  match r.state with
  | .cancelling => C.CANCELLED
  | .failing => r.status
  | _ => 0

/-- A run that takes new work. -/
def State.running (s : State) (slot : Nat) : Bool :=
  match s.run? slot with
  | some r => r.state == .running
  | none => false

/-- The stages that feed a stage. -/
def Pipeline.feeders (p : Pipeline) (n : Nat) : List Nat :=
  ((p.stages[n]?).map (fun st => st.inQ.filterMap (fun q => (p.queues[q]?).map QueueRec.producer))).getD []

/-- The flows whose chunks leave a stage. -/
def Pipeline.flowsOut (p : Pipeline) : Nat → Nat → List Nat
  | 0, _ => []
  | fuel + 1, n =>
    match p.stages[n]? with
    | none => []
    | some st => if st.outFlow = 0xFFFF then ((p.feeders n).flatMap (Pipeline.flowsOut p fuel)).eraseDups else [st.outFlow]

/-! ### Losses and failures -/

/-- A sample is lost: counted by reason (R141) and in the run (R67). -/
def State.countLoss (s : State) (slot : Nat) (why : Loss) : State :=
  let s := match why with
    | .parse => s.bump F.ING_LOSS_A_FIRST 0 1
    | .checksum => s.bump F.ING_LOSS_A_SECOND 0 1
    | .decode => s.bump F.ING_LOSS_B_FIRST 0 1
    | .type => s.bump F.ING_LOSS_B_SECOND 0 1
    | .size => s.bump F.ING_LOSS_C_FIRST 0 1
    | .poison => s.bump F.ING_LOSS_C_SECOND 0 1
    | .stale => s.bump F.ING_LOSS_D_FIRST 0 1
    | .straggler => s.bump F.ING_LOSS_D_SECOND 0 1
  s.modRun slot (fun r =>
    match why with
    | .stale => { r with stale := r.stale + 1 }
    | .straggler => { r with abandoned := r.abandoned + 1 }
    | .poison => { r with skipped := r.skipped + 1, poisonSeen := true }
    | _ => { r with skipped := r.skipped + 1 })

/-- An open batch with nothing in it. -/
def OpenBatch.fresh (stage flow : Nat) : OpenBatch := ⟨stage, flow, [], [], none, [], none, false, 0⟩

def State.openBatch (s : State) (slot stage flow : Nat) : OpenBatch :=
  ((s.workOf slot).opens.find? (fun b => b.stage == stage && b.flow == flow)).getD (OpenBatch.fresh stage flow)

def State.putOpen (s : State) (slot : Nat) (b : OpenBatch) : State :=
  s.modWork slot (fun w => { w with
    opens := w.opens.filter (fun x => !(x.stage == b.stage && x.flow == b.flow)) ++ [b] })

/-- The BATCH stages that a stage's outputs reach, with the flow they have there; `fuel` bounds the stages. -/
def Pipeline.batchesFrom (p : Pipeline) : Nat → Nat → Nat → List (Nat × Nat)
  | 0, _, _ => []
  | fuel + 1, stage, flow =>
    match p.stages[stage]? with
    | none => []
    | some st =>
      if st.op = .batch then [(stage, flow)]
      else (st.outQ.filterMap (fun q => (p.queues[q]?).map QueueRec.consumer)).flatMap
        (fun n => Pipeline.batchesFrom p fuel n (st.flowOf flow))

/-- A lost sample is charged to the open batch, or to the next where its tail is full (R69, R70). -/
def OpenBatch.charge (b : OpenBatch) (slots source : Nat) (why : Loss) : OpenBatch :=
  if b.tail.length < slots then { b with tail := b.tail ++ [(source, why)] }
  else { b with carry := b.carry ++ [(source, why)] }

def State.chargeBatch (s : State) (slot stage flow source : Nat) (why : Loss) : State :=
  match s.stage? slot stage with
  | none => s
  | some st => s.putOpen slot ((s.openBatch slot stage flow).charge (u32 st.param 4) source why)

/-- A sample of a stage is lost: counted, and charged to the batch of its flow that is open now (R70, R141). -/
def State.loseSample (s : State) (slot stage flow source : Nat) (why : Loss) : State :=
  let s := s.countLoss slot why
  match s.pipelineOf slot with
  | none => s
  | some p => (p.batchesFrom 64 stage flow).foldl (fun s e => s.chargeBatch slot e.1 e.2 source why) s

/-- A failure of a run (R66): the first moves it to FAILING with its code; later ones are counted. -/
def State.failRun (s : State) (slot : Nat) (code : Code) : State :=
  s.modRun slot (fun r =>
    if r.state == .running then { r with state := .failing, status := code, cancelDue := true }
    else { r with failures := satAdd 65535 r.failures 1 })

/-! ### Logbook -/

/-- One logbook record (R315). -/
def State.logRecord (s : State) (ev prio core stage : Nat) (run : W32) (ordinal sub flow detail : Nat) : List Byte :=
  natLe 8 s.meridian ++ natLe 1 ev ++ natLe 1 prio ++ natLe 1 core ++ natLe 1 stage ++ natLe 4 run.toNat ++
    natLe 4 ordinal ++ natLe 2 sub ++ natLe 1 flow ++ [0] ++ natLe 4 s.device ++ natLe 4 detail

/-- Write a record: the ring slot, WRITTEN, and in STOP mode the end of the ring (R315). No task waits for a record; one
that the ring's memory refuses is dropped and counted (log entry 171). -/
def State.logWrite (s : State) (rec : List Byte) : State :=
  match s.region? (s.fget F.DSP_LOG_CTL_REGION) with
  | none => s
  | some r =>
    let size := 2 ^ s.fget F.DSP_LOG_SIZE_SIZE_LOG
    let k := s.fget F.DSP_LOG_STATUS_WRITTEN
    match s.checkedWrite (r.localAddr 0 (s.fget F.DSP_LOG_BASE_OFFSET + 32 * (k % size))) rec with
    | .error _ => s.bump F.DSP_LOG_DROP_DROPPED 0 1
    | .ok w =>
    let s := { w with power := { w.power with blocked := s.power.blocked } }
    let s := s.fset F.DSP_LOG_STATUS_WRITTEN 0 (k + 1)
    if s.flag F.DSP_LOG_CTL_MODE && k + 1 == size then
      (s.fset F.DSP_LOG_CTL_ENABLE 0 0).attn C.LOG_FULL [r.number, k + 1]
    else s

/-- An event for the logbook (R316). The logbook takes one record every 2 cycles: a record that follows another in one
lantern cycle may be dropped, which is open (log entry 17). -/
def State.logEvent (s : State) (ev prio core stage : Nat) (run : W32) (ordinal sub flow detail : Nat) : State :=
  if !s.flag F.DSP_LOG_CTL_ENABLE || !bitAt (s.fget F.DSP_LOG_CTL_EVENTS) (ev - 1) ||
      !(s.fget F.DSP_LOG_CTL_RUN == 0 || s.fget F.DSP_LOG_CTL_RUN == run.toNat) then s
  else
    let (d, s) := s.draw
    if s.disp.logAt == some s.now && Config.coin d then
      let s := s.bump F.DSP_LOG_DROP_DROPPED 0 1
      { s with disp := { s.disp with overrun := satAdd 0xFFFFFFFF s.disp.overrun 1 } }
    else
      let s := if s.disp.overrun = 0 then s
        else
          let s := s.logWrite (s.logRecord 0x0F 0 0xFF 0 0 0 0 0 s.disp.overrun)
          { s with disp := { s.disp with overrun := 0 } }
      let s := if s.flag F.DSP_LOG_CTL_ENABLE then
          s.logWrite (s.logRecord ev prio core stage run ordinal sub flow detail) else s
      { s with disp := { s.disp with logAt := some s.now } }

/-- A logbook event about a task. -/
def State.logTask (s : State) (ev : Nat) (t : Task) (core detail : Nat) : State :=
  match s.run? t.slot with
  | none => s
  | some r => s.logEvent ev t.prio core t.stage r.run t.chunk.ordinal t.chunk.sub t.chunk.flow detail

/-! ### Flow contexts -/

def State.ctx? (s : State) (slot q : Nat) : Option Ctx := s.disp.ctxs.find? (fun c => c.slot == slot && c.queue == q)

def State.modCtx (s : State) (slot q : Nat) (f : Ctx → Ctx) : State :=
  { s with disp := { s.disp with ctxs := updWhere (fun c => c.slot == slot && c.queue == q) f s.disp.ctxs } }

def QItem.isChunk : QItem → Bool
  | .chunk _ => true
  | .hole .. => false

/-- Places of a queue in use: chunks standing in it (those whose task is not dispatched included) and reserved
places (R57, R303). -/
def State.placesUsed (s : State) (c : Ctx) : Nat :=
  (c.items.filter QItem.isChunk).length + c.reserved +
    (s.disp.tasks.filter (fun t => t.slot == c.slot && t.queue == some c.queue &&
      (t.state == .held || t.state == .ready))).length

def State.queueDepth (s : State) (slot q : Nat) : Nat :=
  match s.pipelineOf slot with
  | some p => (p.queues[q]?.map QueueRec.depth).getD 0
  | none => 0

/-- Whether a queue has a free place that is not reserved. -/
def State.placeFree (s : State) (slot q : Nat) : Bool :=
  match s.ctx? slot q with
  | some c => decide (s.placesUsed c < s.queueDepth slot q)
  | none => false

/-- Entries that the release buffer of an ORDERED flow has taken (R308): one for a position dispatched, one for each
output chunk after a position's first. -/
def Ctx.taken (c : Ctx) (flow : Nat) : Nat :=
  (c.rel.filter (fun p => p.flow == some flow)).foldl
    (fun n p => n + b2n p.entry + (if p.entry then p.out.length - 1 else 0)) 0

/-- Whether a task's position is the oldest of its flow that is not released. -/
def Ctx.isOldest (c : Ctx) (flow task : Nat) : Bool :=
  (c.rel.find? (fun p => p.flow == some flow)).any (fun p => p.task == task)

/-- Entries of a release buffer. -/
def releaseEntries : Nat := 1024

/-- Move what a position has put out into the queue, item by item, while there is room: the first chunk takes the
reserved place, a marker takes none. The position is returned with what is left. -/
def moveOut (depth : Nat) : List QItem → Bool → Nat → Nat → List QItem → List QItem × List QItem × Bool × Nat
  | [], place, _, reserved, acc => ([], acc, place, reserved)
  | x :: r, place, used, reserved, acc =>
    if x.isChunk then
      if place then moveOut depth r false used (reserved - 1) (acc ++ [x])
      else if used < depth then moveOut depth r false (used + 1) reserved (acc ++ [x])
      else (x :: r, acc, place, reserved)
    else moveOut depth r place used reserved (acc ++ [x])

/-- (ordinal, sub-ordinal) order (R60). -/
def posBefore (a b : Nat × Nat) : Bool := decide (a.1 < b.1) || (a.1 == b.1 && decide (a.2 < b.2))

/-- A position takes its place among those of its ORDERED flow; one of no ORDERED flow goes last. -/
def insertPos (x : RelPos) : List RelPos → List RelPos
  | [] => [x]
  | y :: r =>
    if x.flow.isSome && y.flow == x.flow && posBefore (x.ordinal, x.sub) (y.ordinal, y.sub) then x :: y :: r
    else y :: insertPos x r

/-- Flow and position of an item. -/
def QItem.flow : QItem → Nat
  | .chunk c => c.flow
  | .hole f _ _ _ => f

def QItem.pos : QItem → Nat × Nat
  | .chunk c => (c.ordinal, c.sub)
  | .hole _ o b _ => (o, b)

/-- Whether nothing before a position of an ORDERED flow can still come out of a queue: the queue has passed the position,
shows a later one, or has ended (R60). `done` are the stages that have ended. -/
def Ctx.passed (c : Ctx) (p : Pipeline) (producer : Nat) (done : List Nat) (flow : Nat) (at_ : Nat × Nat) : Bool :=
  if !(p.flowsOut 64 producer).contains flow then true
  else
    match c.items.find? (fun x => x.flow == flow) with
    | some x => !posBefore x.pos at_
    | none =>
      c.seen.any (fun e => e.1 == flow && !posBefore e.2 at_) || (done.contains producer && c.rel.isEmpty)

/-- Whether a stage with several input queues has all that stands before a position of an ORDERED flow; one queue brings
its positions in order. -/
def State.nothingBefore (s : State) (slot : Nat) (p : Pipeline) (st : StageRec) (done : List Nat) (flow : Nat)
    (at_ : Nat × Nat) : Bool :=
  decide (st.inQ.length ≤ 1) || st.inQ.all (fun q =>
    match p.queues[q]?, s.ctx? slot q with
    | some k, some c => c.passed p k.producer done flow at_
    | _, _ => true)

/-- Release the positions that have ended: those of an ORDERED flow in its order, any other as it stands (R60, R308).
Answers what stays, what moved, the reserved places left. `used` counts the places in use. -/
def releaseGo (depth : Nat) (clear : RelPos → Bool) :
    List RelPos → List (Option Nat) → Nat → Nat → List RelPos × List QItem × Nat
  | [], _, _, reserved => ([], [], reserved)
  | x :: r, blocked, used, reserved =>
    if blocked.contains x.flow || !x.ended || (x.flow.isSome && !clear x) then
      let (rel, items, n) := releaseGo depth clear r (x.flow :: blocked) used reserved
      (x :: rel, items, n)
    else
      let (left, moved, place, n) := moveOut depth x.out x.place used reserved []
      let used := used + (moved.filter QItem.isChunk).length - (reserved - n)
      if left.isEmpty then
        let (rel, items, m) := releaseGo depth clear r blocked (used - b2n place) (n - b2n place)
        (rel, moved ++ items, m)
      else
        let (rel, items, m) := releaseGo depth clear r (x.flow :: blocked) used n
        ({ x with out := left, place := place } :: rel, moved ++ items, m)

/-- What a queue's producing stage has put out enters the queue as far as it may. -/
def State.releaseCtx (s : State) (slot q : Nat) (p : Pipeline) (st : StageRec) (done : List Nat) : State :=
  match s.ctx? slot q with
  | none => s
  | some c =>
    let clear (x : RelPos) : Bool := s.nothingBefore slot p st done (x.flow.getD 0) (x.ordinal, x.sub)
    let (rel, moved, reserved) := releaseGo (s.queueDepth slot q) clear c.rel [] (s.placesUsed c) c.reserved
    s.modCtx slot q (fun c => { c with items := c.items ++ moved, reserved := reserved, rel := rel })

/-- A stage of a run puts items out at a position of its own: they wait in the context until released. -/
def State.putOut (s : State) (slot : Nat) (st : StageRec) (flow : Option Nat) (ordinal sub : Nat) (items : List QItem)
    (place : Bool) : State :=
  st.outQ.foldl (fun s q => s.modCtx slot q (fun c => { c with
    rel := insertPos ⟨0, ordinal, sub, items, true, false, place, flow⟩ c.rel })) s

/-- Number output chunks (R59): one keeps its position, several take sub-ordinals. -/
def numberOuts (flow ordinal sub : Nat) (outs : List Chunk) : List Chunk :=
  if outs.length ≤ 1 then outs.map (fun c => { c with flow := flow, ordinal := ordinal, sub := sub })
  else (outs.zip (List.range outs.length)).map (fun e =>
    { e.1 with flow := flow, ordinal := ordinal, sub := e.2 % 65536 })

/-- The task of a position of an ORDERED flow has ended: what it put out lies in the release buffer, and its reserved place
of the queue is free again, so that the oldest position is never kept from its place (log entry 66). -/
def Ctx.endPosition (c : Ctx) (task : Nat) (items : List QItem) : Ctx :=
  { c with
    reserved := c.reserved - b2n (c.rel.any (fun e => e.task == task && !e.ended && e.place))
    rel := updWhere (fun e => e.task == task && !e.ended)
      (fun e => { e with out := items, ended := true, place := false }) c.rel }

/-- The outputs of an ended task enter the contexts of its output queues: at its position where the flow is ORDERED,
renumbered where a stage that is no source has a flow of its own; a source's chunks keep their numbers (R59). -/
def State.deliverOuts (s : State) (t : Task) (st : StageRec) (p : Pipeline) (outs : List Chunk)
    (lost : List QItem) : State :=
  let s := if lost.isEmpty then s else s.logTask 0x07 t t.core 2
  let flow := st.flowOf t.chunk.flow
  if p.positioned st t.chunk.flow then
    let items := (numberOuts flow t.chunk.ordinal t.chunk.sub outs).map QItem.chunk ++ lost
    let items := if items.isEmpty then [.hole flow t.chunk.ordinal t.chunk.sub .empty] else items
    let s := if outs.isEmpty ∧ lost.isEmpty then s.logTask 0x07 t t.core 0 else s
    st.outQ.foldl (fun s q => s.modCtx t.slot q (fun c => c.endPosition t.id items)) s
  else
    st.outQ.foldl (fun s q => s.modCtx t.slot q (fun c =>
      let keep := st.outFlow == 0xFFFF || st.source
      let outs := if keep then numberOuts flow t.chunk.ordinal t.chunk.sub outs
        else (outs.zip (List.range outs.length)).map (fun e =>
          { e.1 with flow := flow, ordinal := c.nextOrd + e.2, sub := 0 })
      { c with
        nextOrd := if keep then c.nextOrd else c.nextOrd + outs.length
        rel := c.rel ++ [⟨t.id, t.chunk.ordinal, t.chunk.sub, outs.map QItem.chunk ++ lost, true, false, true, none⟩] })) s

/-- A position whose task was cancelled carries no chunk (R309). -/
def State.deliverCancelled (s : State) (t : Task) (st : StageRec) (p : Pipeline) (marker : Option Marker) : State :=
  let item (m : Marker) : QItem := .hole (st.flowOf t.chunk.flow) t.chunk.ordinal t.chunk.sub m
  if p.positioned st t.chunk.flow then
    let s := s.logTask 0x07 t t.core (match marker with | some _ => 2 | none => 1)
    st.outQ.foldl (fun s q => s.modCtx t.slot q (fun c => c.endPosition t.id [item (marker.getD .cancelled)])) s
  else
    let s := if marker.isSome then s.logTask 0x07 t t.core 2 else s
    let items := match marker with | some m => [item m] | none => []
    st.outQ.foldl (fun s q => s.modCtx t.slot q (fun c => { c with
      rel := c.rel ++ [⟨t.id, t.chunk.ordinal, t.chunk.sub, items, true, false, t.state == .running, none⟩] })) s

/-! ### Units -/

/-- Unit numbers: vault units, cores, JPEG decoders, sample decoders, pyramid units, pattern streams, compression
engines (R19, R303). -/
def unitVault (n : Nat) : Nat := n
def unitCore (n : Nat) : Nat := 256 + n
def unitJpeg (c d : Nat) : Nat := 512 + 4 * c + d
def unitSample (c : Nat) : Nat := 576 + c
def unitPyramid (c : Nat) : Nat := 592 + c
def unitStream (c i : Nat) : Nat := 608 + 16 * c + i
def unitEngine (c e : Nat) : Nat := 832 + 2 * c + e

/-- The logical cores whose units a task runs on. -/
def Task.cores (t : Task) : List Nat := (t.units.filter (· < 512)).map (· % 256)

/-- The core that runs a task: its descriptors resolve in that core's vault and store (R153). -/
def Task.home (t : Task) : Nat := t.cores.headD t.chunk.vault

/-- Whether a unit is busy. A core that has handed its ids over is free for other tasks (R231 step 1). -/
def State.unitBusy (s : State) (u : Nat) : Bool :=
  s.disp.tasks.any (fun t => t.state == .running && !t.taken && t.units.contains u)

/-- A core of an ended task that no other task keeps busy adds its busy time to the census window (R314). -/
def State.coreIdle (s : State) (n : Nat) : State :=
  if s.disp.tasks.any (fun t => t.state == .running && t.cores.contains n) then s
  else
    let from_ := max (lookupD s.now s.gov.busyFrom n) s.gov.windowStart
    { s with gov := { s.gov with
      busy := assocSet s.gov.busy n (lookupD 0 s.gov.busy n + (s.now - from_))
      busyFrom := s.gov.busyFrom.filter (·.1 != n) } }

/-- Work cycles held back for the top-down units of a task's cores are charged when it ends: to the work causes if it
completed, to CANCELLED otherwise (R415). Causes: 6 work, 7 cancelled work. -/
def State.topDownEnd (s : State) (t : Task) (done : Bool) : State :=
  s.pmc.tdHeld.foldl (fun s e =>
    let c := e.1 / 2
    let u := e.1 % 2
    if ((s.topDownSel c u).1.map t.cores.contains).getD false then
      let k := 8 * u + (if done then 6 else 7)
      let f : FRef := F.PMC_CL_CNT_VALUE
      let s := s.fset2 f c k ((s.fget2 f c k + e.2) % 2 ^ 48)
      { s with pmc := { s.pmc with tdHeld := s.pmc.tdHeld.filter (·.1 != e.1) } }
    else s) s

/-- Remove a task's entry, its pattern context if it has one (R214), its searches of the match store (the results of those
in flight have no taker), and its place in a round that has not taken its contribution (R238). -/
def State.dropTask (s : State) (t : Task) (done : Bool) : State :=
  let s := { s with
    disp := { s.disp with tasks := s.disp.tasks.filter (·.id != t.id) }
    pat := s.pat.filter (fun x => x.task != t.id)
    mst := { s.mst with asking := s.mst.asking.filter (·.task != t.id) }
    emb := { s.emb with rounds := s.emb.rounds.map (fun r => { r with
      tasks := r.tasks.filter (fun x => x.task != t.id || x.ids.isSome) }) } }
  if t.state == .running then (t.cores.foldl State.coreIdle s).topDownEnd t done else s

/-- Whether the release buffers have room for the output chunks after a task's first; the oldest unreleased position
needs none (R308). -/
def State.roomFor (s : State) (t : Task) (st : StageRec) (p : Pipeline) (outs : List Chunk) : Bool :=
  !p.positioned st t.chunk.flow || decide (outs.length ≤ 1) ||
    st.outQ.all (fun q =>
      match s.ctx? t.slot q with
      | some c =>
        let flow := st.flowOf t.chunk.flow
        decide (c.taken flow + (outs.length - 1) ≤ releaseEntries) || c.isOldest flow t.id
      | none => true)

/-- A RUNNING task that has finished its chunk leaves: its outputs and lost samples go to its queues. -/
def State.leaveTask (s : State) (t : Task) (outs : List Chunk) (lost : List QItem) : State :=
  match s.pipelineOf t.slot, s.stage? t.slot t.stage with
  | some p, some st =>
    let s := s.logTask 0x03 t t.core 0
    (s.deliverOuts t st p outs lost).dropTask t true
  | _, _ => s.dropTask t true

/-- A RUNNING task ends with outputs and lost samples (R301); one that finds the release buffer full keeps its finished
chunk and its unit (R308). -/
def State.endTask (s : State) (t : Task) (outs : List Chunk) (lost : List QItem := []) : State :=
  match s.pipelineOf t.slot, s.stage? t.slot t.stage with
  | some p, some st =>
    if s.roomFor t st p outs then s.leaveTask t outs lost
    else (s.putTask { t with held := some (outs, lost) }).logTask 0x08 t t.core releaseEntries
  | _, _ => s.leaveTask t outs lost

/-- Finished chunks that waited for release-buffer entries go on once there is room. -/
def State.heldChunksGo (s : State) (slot : Nat) : State :=
  (s.disp.tasks.filter (fun t => t.slot == slot && t.held.isSome)).foldl (fun s t =>
    match t.held, s.pipelineOf t.slot, s.stage? t.slot t.stage with
    | some (outs, lost), some p, some st => if s.roomFor t st p outs then s.leaveTask t outs lost else s
    | _, _, _ => s) s

/-- A RUNNING task fails: its run moves to FAILING (R66), its output is not released. -/
def State.failTask (s : State) (t : Task) (code : Code) : State :=
  let s := s.logTask 0x03 t t.core code.toNat
  let s := match s.pipelineOf t.slot, s.stage? t.slot t.stage with
    | some p, some st => s.deliverCancelled t st p none
    | _, _ => s
  (s.dropTask t true).failRun t.slot code

/-- A task cancelled while RUNNING stops: none of its output is released (R311). -/
def State.stopTask (s : State) (t : Task) : State :=
  let s := (s.logTask 0x05 t t.core 0x0B02).bump F.DSP_CANCEL_AFTER 0 1
  let s := match s.pipelineOf t.slot, s.stage? t.slot t.stage with
    | some p, some st => s.deliverCancelled t st p none
    | _, _ => s
  s.dropTask t false

/-- The sample of a task is lost: it is charged, and a marker takes its position (R309). -/
def State.loseTask (s : State) (t : Task) (source : Nat) (why : Loss) : State :=
  let flow := match s.stage? t.slot t.stage with
    | some st => st.flowOf t.chunk.flow
    | none => t.chunk.flow
  (s.loseSample t.slot t.stage t.chunk.flow source why).endTask t []
    [.hole flow t.chunk.ordinal t.chunk.sub (.lost source why)]

/-- The task of a command, if it runs the operator `op` and has not been told to stop. -/
def State.runningTask (s : State) (id : Nat) (op : Op) : Option (Task × StageRec × Pipeline × Run) :=
  match s.task? id with
  | none => none
  | some t =>
    match s.pipelineOf t.slot, s.stage? t.slot t.stage, s.run? t.slot with
    | some p, some st, some r => if st.op = op ∧ t.state = .running ∧ !t.stop ∧ t.held.isNone then some (t, st, p, r) else none
    | _, _, _ => none

end Sys2Proof.Machine
end

