-- ==== Sys2Proof/Machine/Columns.lean ====
section
/-!
DEFINITION. The columns that stand in the chunks between the stages of a pipeline, as its parameter blocks say (R77,
R78): number, type, element type and width of each.
-/
namespace Sys2Proof.Machine

/-- A column as a pipeline declares it. -/
structure SCol where
  num : Nat
  typ : Nat
  elem : Nat
  width : Nat
deriving DecidableEq, Repr

def schemaCol (n : Nat) (k : SchemaCol) : SCol := ⟨n, k.chunkType, k.elem, k.width⟩

/-- The columns of a schema that a mask picks. -/
def schemaCols (sch : Option Schema) (mask : Nat) : List SCol :=
  match sch with
  | none => []
  | some g => ((List.range g.cols.length).zip g.cols).filterMap (fun e =>
      if bitAt mask e.1 then some (schemaCol e.1 e.2) else none)

def allColumns : Nat := 2 ^ 64 - 1

/-- The column type of NORMALISE's OUT_TYPE: 0 FP32, 1 FP16, 2 BF16. -/
def normType (t : Nat) : Nat := if t = 1 then tFloat16 else if t = 2 then tBf16 else tFloat32

/-- The column type and width in bytes of a field map (R123): types 0 UINT, 1 INT, 2 FP32, 3 FP16, 4 BF16. -/
def fieldType (m : Nat) : Nat × Nat :=
  let w := bitsOf m 11 6 + 1
  let size := if w ≤ 8 then 1 else if w ≤ 16 then 2 else if w ≤ 32 then 4 else 8
  match bitsOf m 15 12 with
  | 0 => (4 + Nat.log2 size + 1, size)
  | 1 => (Nat.log2 size + 1, size)
  | 2 => (tFloat32, 4)
  | 3 => (tFloat16, 2)
  | _ => (tBf16, 2)

def scolAt (cols : List SCol) (n : Nat) : Option SCol := cols.find? (fun c => c.num == n)

/-- Number of elements of a row that a LOOKUP writes. -/
def Image.embDim (im : Image) (table : Nat) : Nat :=
  ((im.embTables.find? (fun t => t.table == table)).map EmbTable.dim).getD 0

/-- The columns that a stage creates, given those of its input and of the build it names. -/
def stageAdds (im : Image) (build : List SCol) (st : StageRec) : List SCol :=
  let p := st.param
  let plain (n typ : Nat) : SCol := ⟨n, typ, 0, 0⟩
  let schema (n : Nat) : Option Schema := im.schemas.find? (fun g => g.number == n)
  match st.op with
  | .scan => schemaCols (schema (u16 p 16)) (u64 p 8)
  | .decode => if u8 p 0 ≤ 3 then schemaCols (schema (u16 p 4)) allColumns else []
  | .parse => if u8 p 7 = 0xFF then [] else [plain (u8 p 7) tUint64, plain (u8 p 7 + 1) tUint32, plain (u8 p 7 + 2) 6]
  | .filter => [plain (u8 p 5) tBool]
  | .hash => [plain (u8 p 1) (if u8 p 0 = 1 then tUint32 else tUint64)]
  | .bucket => [plain (u8 p 2) tUint32]
  | .normalise => ((List.range 4).filter (fun i => u8 p i != 0xFF)).map (fun i => plain (u8 p (4 + i)) (normType (u8 p 15)))
  | .dictJoin =>
    ((List.range 4).filter (fun j => u16 p (8 + 2 * j) != 0xFFFF)).map (fun j =>
      plain (u8 p (16 + j)) (fieldType (u16 p (8 + 2 * j))).1)
  | .joinProbe =>
    if u8 p 0 ≤ 1 then
      (build.zip (List.range build.length)).filterMap (fun e =>
        if u8 p (8 + e.2) = 0xFF then none else some { e.1 with num := u8 p (8 + e.2) })
    else []
  | .lookup => if u16 p 4 = 0xFFFF then [⟨u8 p 6, tFsl, tFloat32, im.embDim (u8 p 0)⟩] else []
  | .compress => [plain (u8 p 3) tBinary]
  | .decompress => [plain (u8 p 2) tBinary]
  | _ => []

/-- The columns that a stage keeps of its input. -/
def stageKeeps (st : StageRec) (cols : List SCol) : List SCol :=
  match st.op with
  | .project => cols.filter (fun c => bitAt (u64 st.param 8) c.num)
  | .joinProbe => cols.filter (fun c => bitAt (u64 st.param 16) c.num)
  | _ => cols

/-- The stage that fills the first input queue of a stage. -/
def Pipeline.feeder (p : Pipeline) (st : StageRec) : Option Nat :=
  ((st.inQ.head?).bind (fun q => p.queues[q]?)).map QueueRec.producer

/-- The columns of the chunks that leave a stage; `fuel` bounds the stages before it. -/
def Pipeline.colsOut (p : Pipeline) (im : Image) : Nat → Nat → List SCol
  | 0, _ => []
  | fuel + 1, n =>
    match p.stages[n]? with
    | none => []
    | some st =>
      let enter (x : StageRec) : List SCol := ((p.feeder x).map (Pipeline.colsOut p im fuel)).getD []
      let build := if st.op = .joinProbe then
          (match p.stages[u8 st.param 1]? with
           | some b => (colList (slice 4 8 b.param)).filterMap (scolAt (enter b))
           | none => [])
        else []
      stageKeeps st (enter st) ++ stageAdds im build st

/-- The stages that feed a stage's queues, and the sets of columns that its chunks may carry, one for each way through the
pipeline; `fuel` bounds the stages before it (R77). -/
def Pipeline.colsWays (p : Pipeline) (im : Image) : Nat → Nat → List (List SCol)
  | 0, _ => [[]]
  | fuel + 1, n =>
    match p.stages[n]? with
    | none => [[]]
    | some st =>
      let enter (x : Nat) : List (List SCol) :=
        if (p.feeders x).isEmpty then [[]] else ((p.feeders x).flatMap (Pipeline.colsWays p im fuel)).eraseDups
      let builds : List (List SCol) := if st.op = .joinProbe then
          (match p.stages[u8 st.param 1]? with
           | some b => (enter (u8 st.param 1)).map (fun cs => (colList (slice 4 8 b.param)).filterMap (scolAt cs))
           | none => [[]])
        else [[]]
      ((enter n).flatMap (fun cs => builds.map (fun b => stageKeeps st cs ++ stageAdds im b st))).eraseDups

/-- The columns of the chunks that enter a stage by its first queue. -/
def Pipeline.colsIn (p : Pipeline) (im : Image) (fuel n : Nat) : List SCol :=
  match p.stages[n]? with
  | none => []
  | some st => ((p.feeder st).map (p.colsOut im fuel)).getD []

/-- The columns that enter a stage of a run. -/
def State.colsIn (s : State) (slot stage : Nat) : List SCol :=
  match s.image, s.pipelineOf slot with
  | some im, some p => p.colsIn im 64 stage
  | _, _ => []

end Sys2Proof.Machine
end

