-- ==== Sys2Proof/Machine/VaultOps.lean ====
section
/-!
DEFINITION. The operators of the vault units that read, select, hash, count and normalise rows: SCAN, FILTER, PROJECT,
HASH, STATS and its merge, NORMALISE (R77 to R110).
-/
namespace Sys2Proof.Machine

/-! ### Reading a chunk's columns -/

/-- The rows of a chunk: columns at hand, count, columns still in the table. -/
structure Rows where
  cols : List Column
  n : Nat
  rest : Option RowRange

def Chunk.rows (c : Chunk) : Rows :=
  match c.payload with
  | .rows cols n rest => ⟨cols, n, rest⟩
  | _ => ⟨[], 0, none⟩

def Chunk.withRows (c : Chunk) (r : Rows) : Chunk := { c with payload := .rows r.cols r.n r.rest }

/-- A copy through the NoC from physical ranges to a cluster: the cluster ports' meters (R411). -/
def State.nocMove (s : State) (ps : List (Nat × Nat)) (c : Nat) : State :=
  ps.foldl (fun s e =>
    match bankOf e.1 with
    | .vault v _ => if v / 16 = c then s else (s.meter (354 + v / 16) e.2).meter (366 + c) e.2
    | .channel _ _ => s.meter (366 + c) e.2) s

/-- The physical ranges that a read of one column takes: what the schema places, and the values of variable length. -/
def State.columnParts (s : State) (t : TableAt) (k : SchemaCol) (v first n : Nat) : List (Nat × Nat) :=
  let at_ (e : Nat × Nat) : List (Nat × Nat) := (parts (t.addr v e.1) e.2).getD []
  let typ := k.chunkType
  let word (i : Nat) : Nat := ((physOf (t.addr v (k.valuesOff + 4 * i))).map (fun p => leNat (s.bytesAt p 4))).getD 0
  let values : List (Nat × Nat) :=
    if isVarT typ then [(k.dataOff + word first, word (first + n) - word first)]
    else if typ = tList ∧ k.elem = tBool then
      [(k.dataOff + word first / 8, (word (first + n) + 7) / 8 - word first / 8)]
    else if typ = tList then
      [(k.dataOff + word first * typeBytes k.elem 0, (word (first + n) - word first) * typeBytes k.elem 0)]
    else []
  (k.reads first n ++ values).flatMap at_

/-- Rows of a table that is not sliced are copied through the NoC into the vault of the unit that consumes them, and read
there (R83): the cluster ports, the vault's port, its read and write events. -/
def State.copyIn (s : State) (ps : List (Nat × Nat)) (v : Nat) : State :=
  let bytes := (ps.map (·.2)).sum
  let s := (((s.nocMove ps (v / 16)).vaultRequest v).meter v bytes).event 0x101 v (ceilDiv bytes 64)
  (s.meter v bytes).event 0x100 v (ceilDiv bytes 64)

/-- Read into a chunk the columns among `nums` that it names and has not read (R79, R80, log entry 18). -/
def State.fetch (s : State) (r : Run) (c : Chunk) (nums : List Nat) : Except Code (Rows × State) :=
  let rows := c.rows
  match rows.rest with
  | none => .ok (rows, s)
  | some q =>
    match s.tableOf r q.arg, s.schema? q.schema with
    | some t, some sch =>
      let want := nums.filter (fun k => bitAt q.mask k)
      let go := want.foldl (fun (acc : Except Code (Rows × State)) k =>
        match acc with
        | .error e => .error e
        | .ok (rows, s) =>
          match sch.cols[k]? with
          | none => .ok (rows, s)
          | some sc =>
            match s.readColumn t sc k c.vault q.first rows.n with
            | .error e => .error e
            | .ok (col, s) =>
              let s := if t.sliced then s else s.copyIn (s.columnParts t sc c.vault q.first rows.n) c.vault
              .ok ({ rows with cols := putCol rows.cols col }, s)) (.ok (rows, s))
      match go with
      | .error e => .error e
      | .ok (rows, s) =>
        .ok ({ rows with rest := some { q with mask := q.mask - want.foldl (fun m k => m + 2 ^ k) 0 } }, s)
    | _, _ => .ok (rows, s)

/-- Columns of a chunk that are numbered in `nums`, in that order. -/
def Rows.pick (r : Rows) (nums : List Nat) : List Column := nums.filterMap (colAt r.cols)

/-- A failure of a vault operator: recorded, and the run fails (R66, R125). -/
def State.vaultFail (s : State) (t : Task) (op : Op) (code : Code) : State :=
  let s := (s.fset F.VLT_OPS_FAIL_CODE 0 code.toNat).fset F.VLT_OPS_FAIL_OP 0 op.code
  (s.fset F.VLT_OPS_FAIL_VAULT 0 t.chunk.vault).failTask t code

/-- Bytes of columns as a chunk holds them. -/
def colBytes (cols : List Column) : Nat := (cols.map (fun c => c.held.length)).sum

/-- A task's whole output stays in core stores if it is no larger than CORE_CHUNK; otherwise its chunks are written to
their vaults through the ports (R79). -/
def State.placeAll (s : State) (cs : List Chunk) : List Chunk × State :=
  let size (c : Chunk) : Nat := colBytes c.rows.cols
  if (cs.map size).sum ≤ s.fget F.VLT_OPS_CTL_CORE_CHUNK * 1024 then (cs.map (fun c => { c with inCore := true }), s)
  else (cs.map (fun c => { c with inCore := false }), cs.foldl (fun s c =>
    (s.meter c.vault (size c)).event 0x101 c.vault (ceilDiv (size c) 64)) s)

/-- One output chunk. -/
def State.place (s : State) (c : Chunk) : Chunk × State :=
  let (cs, s) := s.placeAll [c]
  (cs.headD c, s)

/-- A row operator: it consumes the columns `reads`, whose poison fails the task (R81), and turns the rows into new
rows; none means that no chunk is passed on. Rows read are counted (R125). -/
def State.rowOp (s : State) (t : Task) (st : StageRec) (r : Run) (reads also : List Nat)
    (f : State → Rows → Except Code (Option Rows × State)) : State :=
  match s.fetch r t.chunk (reads ++ also) with
  | .error c => s.vaultFail t st.op c
  | .ok (rows, s) =>
    let s := s.bump F.VLT_OPS_ROWS_ROWS t.chunk.vault rows.n
    if (rows.pick reads).any Column.poisoned then s.vaultFail t st.op C.OPERAND_POISON
    else
      match f s rows with
      | .error c => s.vaultFail t st.op c
      | .ok (none, s) => s.endTask t []
      | .ok (some out, s) =>
        let (c, s) := s.place (t.chunk.withRows out)
        s.endTask t [c]

/-! ### SCAN (R83) -/

/-- SCAN reads no column data: it names a row range. The first read of the table checks its buffers (R128); the rows
are rows taken up by a source (R67). -/
def scan (task : Nat) (s : State) : State :=
  match s.runningTask task .scan with
  | none => s
  | some (t, st, _, r) =>
    match t.chunk.rows.rest with
    | none => s.endTask t []
    | some q =>
      match s.tableOf r q.arg, s.schema? q.schema with
      | some tab, some sch =>
        let (n, s) := s.sliceRows tab t.chunk.vault
        if !tableFits tab sch n then s.vaultFail t st.op C.SCHEMA_MISMATCH
        else (s.modRun t.slot (fun r => { r with rowsIn := r.rowsIn + t.chunk.rows.n })).endTask t [t.chunk]
      | _, _ => s.vaultFail t st.op C.SCHEMA_MISMATCH

/-! ### FILTER (R84 to R88) -/

/-- One micro-operation (R86). -/
structure Micro where
  opc : Nat
  d : Nat
  a : Nat
  b : Nat
  c : Nat
  k : Nat
  k2 : Nat

def microOf (bs : List Byte) : Micro :=
  let w := leNat bs
  ⟨bitsOf w 7 0, bitsOf w 11 8, bitsOf w 15 12, bitsOf w 19 16, bitsOf w 22 20, bitsOf w 27 24, bitsOf w 31 28⟩

/-- A FILTER stage as its parameter block and its constants say; bound constants come from the run (R85). -/
structure FilterProg where
  ops : List Micro
  out : Nat
  consts : List (List Byte)
  cols : List Nat

def scalarArg (r : Run) (slot : Nat) : List Byte :=
  natLe 8 (((r.args.find? (·.slot == slot)).map (fun e => e.a.toNat)).getD 0)

def filterProg (pipe : List Byte) (r : Run) (p : List Byte) : FilterProg :=
  let off := u32 p 0
  let len := u8 p 4
  let nc := u8 p 6
  let nb := u8 p 7
  let consts := (List.range nc).map (fun i => slice (off + 8 * len + 8 * i) 8 pipe)
  let binds := (List.range nb).map (fun i => slice (off + 8 * len + 8 * nc + 2 * i) 2 pipe)
  let consts := binds.foldl (fun cs b => cs.set (u8 b 0) (scalarArg r (u8 b 1))) consts
  ⟨(List.range len).map (fun i => microOf (slice (off + 8 * i) 8 pipe)), u8 p 5, consts,
    (slice 8 8 p).map BitVec.toNat⟩

/-- A constant in the type of the column it is compared with (R84, R85). -/
def constVal (c : Column) (bs : List Byte) : Val := valOf c.typ (bs.take (typeBytes c.typ c.width))

/-- Comparison codes 1 to 6: EQ, NE, LT, LE, GT, GE under R87. -/
def compareVals (code : Nat) (x y : Val) : Bool :=
  match code with
  | 1 => x.eq y
  | 2 => !x.eq y
  | 3 => x.lt y
  | 4 => x.lt y || x.eq y
  | 5 => y.lt x
  | _ => y.lt x || x.eq y

/-- The bits of an integer operand, for ANYBITS and ALLBITS. -/
def bitsVal (c : Column) (bs : List Byte) : Nat := leNat (bs.take (typeBytes c.typ c.width))

/-- What a micro-operation gives on row `r` with the predicate registers `p`. -/
def microValue (g : FilterProg) (cols : List (Option Column)) (row : Nat) (p : List Bool) (m : Micro) : Bool :=
  let col (i : Nat) : Option Column := (cols[i]?).bind id
  let const (k : Nat) : List Byte := g.consts.getD k []
  let withCol (f : Column → CellV → Bool) : Bool :=
    match col m.c with
    | some c => f c (c.cell row)
    | none => false
  let compare (f : Column → Val → Bool) : Bool :=
    withCol (fun c x => x.valid && f c (valOf c.typ x.bytes))
  let a := p.getD m.a false
  let b := p.getD m.b false
  if 0x01 ≤ m.opc ∧ m.opc ≤ 0x06 then compare (fun c v => compareVals m.opc v (constVal c (const m.k)))
  else if m.opc = 0x07 then
    compare (fun c v => compareVals 4 (constVal c (const m.k)) v && compareVals 4 v (constVal c (const m.k2)))
  else if m.opc = 0x08 then
    withCol (fun c x => x.valid && (leNat x.bytes &&& bitsVal c (const m.k)) != 0)
  else if m.opc = 0x09 then
    withCol (fun c x => x.valid && (leNat x.bytes &&& bitsVal c (const m.k)) == bitsVal c (const m.k))
  else if m.opc = 0x0A then withCol (fun _ x => !x.valid)
  else if m.opc = 0x0B then withCol (fun _ x => x.valid)
  else if 0x11 ≤ m.opc ∧ m.opc ≤ 0x16 then
    compare (fun _ v =>
      match col (m.k % 8) with
      | some d => (match d.val row with
          | some w => compareVals (m.opc - 0x10) v w
          | none => false)
      | none => false)
  else if m.opc = 0x20 then a && b
  else if m.opc = 0x21 then a || b
  else if m.opc = 0x22 then a != b
  else if m.opc = 0x23 then !a
  else if m.opc = 0x24 then a && !b
  else m.opc == 0x30

/-- The selection of a row: the destination of the last micro-operation (R86). -/
def selectRow (g : FilterProg) (cols : List (Option Column)) (row : Nat) : Bool :=
  (g.ops.foldl (fun (st : List Bool × Bool) m =>
    let v := microValue g cols row st.1 m
    (st.1.set m.d v, v)) (List.replicate 16 false, false)).2

def boolCell (b : Bool) : CellV := ⟨true, [BitVec.ofNat 8 (b2n b)], false⟩

/-- A FILTER whose selection a PROJECT takes directly: the PROJECT of the chunk follows on the same vault unit (R80). -/
def State.pairProject (s : State) (t : Task) (st : StageRec) (pl : Pipeline) : State :=
  let next := (st.outQ.filterMap (fun q => (pl.queues[q]?).map QueueRec.consumer)).find? (fun n =>
    (pl.stages[n]?).any (fun x => x.op == .project && u8 x.param 0 == u8 st.param 5))
  match next, t.units.head? with
  | some n, some u => { s with disp := { s.disp with
      pairs := s.disp.pairs.filter (fun e => e.unit != u) ++ [⟨u, t.slot, n, t.chunk.sources⟩] } }
  | _, _ => s

def filter (task : Nat) (s : State) : State :=
  match s.runningTask task .filter with
  | none => s
  | some (t, st, pl, r) =>
    let g := filterProg s.pipeBytes r st.param
    let reads := g.cols.filter (· != 0xFF)
    (s.pairProject t st pl).rowOp t st r reads [] (fun s rows =>
      let cols := g.cols.map (colAt rows.cols)
      let sel : Column := ⟨g.out, tBool, 0, 0, (List.range rows.n).map (fun i => boolCell (selectRow g cols i))⟩
      .ok (some { rows with cols := putCol rows.cols sel }, s))

/-! ### PROJECT (R89) -/

/-- Column numbers present in a chunk. -/
def Rows.present (r : Rows) : List Nat :=
  r.cols.map (·.num) ++ (match r.rest with | some q => bitList 64 q.mask | none => [])

/-- The source indices of picked rows. -/
def pickSources (rows : List Nat) (c : Chunk) : List Nat := rows.map (fun i => c.sources.getD i 0)

def project (task : Nat) (s : State) : State :=
  match s.runningTask task .project with
  | none => s
  | some (t, st, _, r) =>
    let sel := u8 st.param 0
    let keep := bitList 64 (u64 st.param 8)
    let reads := if sel = 0xFF then [] else [sel]
    match s.fetch r t.chunk (reads ++ keep) with
    | .error c => s.vaultFail t st.op c
    | .ok (rows, s) =>
      let s := s.bump F.VLT_OPS_ROWS_ROWS t.chunk.vault rows.n
      if (rows.pick reads).any Column.poisoned then s.vaultFail t st.op C.OPERAND_POISON
      else
        let picked := match colAt rows.cols sel with
          | some c => (List.range rows.n).filter (fun i => (c.cell i).valid && leNat (c.cell i).bytes == 1)
          | none => List.range rows.n
        if picked.isEmpty then s.endTask t []
        else
          let out : Rows := ⟨pickRows picked (rows.pick keep), picked.length, none⟩
          let (c, s) := s.place ({ t.chunk with sources := pickSources picked t.chunk }.withRows out)
          s.endTask t [c]

/-! ### HASH (R90 to R95) -/

/-- Hash of key bytes: FUNC 1 CRC-32C, 2 Cairn-64. -/
def hashKey (func : Nat) (seed : W64) (key : List Byte) : Nat :=
  if func = 1 then (crc32c (BitVec.ofNat 32 seed.toNat) key).toNat else (cairn64 seed key).toNat

/-- Bucket of a hash over `n` buckets (R93). -/
def bucketOf (func h n : Nat) : Nat := if func = 1 then (h * n) >>> 32 else ((h >>> 32) * n) >>> 32

def hash (task : Nat) (s : State) : State :=
  match s.runningTask task .hash with
  | none => s
  | some (t, st, _, r) =>
    let p := st.param
    let keys := (colList (slice 16 8 p)).take (u8 p 2)
    let func := u8 p 0
    s.rowOp t st r keys [] (fun s rows =>
      let ks := rows.pick keys
      let width := if func = 1 then 4 else 8
      let cells := (List.range rows.n).map (fun i =>
        match rowKey ks (bitAt (u8 p 3) 0) i with
        | none => (⟨false, zeros width, false⟩ : CellV)
        | some k => ⟨true, natLe width (hashKey func (BitVec.ofNat 64 (u64 p 8)) k), false⟩)
      .ok (some { rows with cols := putCol rows.cols ⟨u8 p 1, if func = 1 then tUint32 else tUint64, 0, 0, cells⟩ }, s))

/-! ### STATS (R101 to R107) -/

/-- KIND of a statistics record: 0 INT64, 1 UINT64, 2 FP64 (R102). -/
def statKind (typ : Nat) : Nat := if isFloatT typ then 2 else if isUnsignedT typ then 1 else 0

/-- A value encoded in 8 bytes as KIND says. -/
def statWord (v : Val) : W64 :=
  match v with
  | .int i => BitVec.ofNat 64 (ofSigned 64 i)
  | .flt f => BitVec.ofNat 64 (fp64.encode f)
  | .raw _ => 0

/-- The value an 8-byte encoding stands for. -/
def statVal (kind : Nat) (w : W64) : Val :=
  if kind = 2 then .flt (fp64.decode w.toNat) else if kind = 1 then .int w.toNat else .int (toSigned 64 w.toNat)

def StatPart.empty (stage col vault : Nat) : StatPart := ⟨stage, col, vault, 0, 0, 0, 0, 0, 0, 0, [], []⟩

/-- Welford's update in FP64 (R103). -/
def welford (count : Nat) (mean m2 : W64) (x : FVal) : W64 × W64 :=
  let xb := fp64.encode x
  let n := fp64.encode (FVal.ofInt (count + 1))
  let d := fp64.subC xb mean.toNat
  let mean' := fp64.addC mean.toNat (fp64.divC d n)
  let m2' := fp64.addC m2.toNat (fp64.mulC d (fp64.subC xb mean'))
  (BitVec.ofNat 64 mean', BitVec.ofNat 64 m2')

/-- Fold one value into a partial; `none` is a null. Non-finite values are kept out of every measure (R102). -/
def StatPart.add (p : StatPart) (kind bins measures : Nat) (v : Option Val) : StatPart :=
  match v with
  | none => { p with nulls := p.nulls + 1 }
  | some v =>
    let p := if bitAt measures 3 then
        let p := if p.bins.isEmpty then { p with bins := List.replicate (bins + 1) 0 } else p
        let b := match v with
          | .int i => if 0 ≤ i ∧ i < bins then i.toNat else bins
          | _ => bins
        { p with bins := p.bins.set b (p.bins.getD b 0 + 1) }
      else p
    if (match v with | .flt f => !f.isFin | _ => false) then { p with nonfinite := p.nonfinite + 1 }
    else
      let w := statWord v
      let lo := if p.count = 0 ∨ v.lt (statVal kind p.min) then w else p.min
      let hi := if p.count = 0 ∨ (statVal kind p.max).lt v then w else p.max
      let (mean, m2) := if bitAt measures 0 then welford p.count p.mean p.m2 v.toF else (p.mean, p.m2)
      { p with
        count := p.count + 1, min := lo, max := hi, mean := mean, m2 := m2
        values := if bitAt measures 2 then p.values ++ [w] else p.values }

/-- The partials of one stage after a task's columns are folded in. -/
def foldStats (parts : List StatPart) (stage vault bins measures : Nat) (cols : List Column) (n : Nat) :
    List StatPart :=
  cols.foldl (fun ps c =>
    let mine (p : StatPart) : Bool := p.stage == stage && p.col == c.num && p.vault == vault
    let p := (ps.find? mine).getD (StatPart.empty stage c.num vault)
    let p := (List.range n).foldl (fun p i => p.add (statKind c.typ) bins measures (c.val i)) p
    ps.filter (fun q => !mine q) ++ [p]) parts

def stats (task : Nat) (s : State) : State :=
  match s.runningTask task .stats with
  | none => s
  | some (t, st, _, r) =>
    let cols := (colList (slice 0 8 st.param)).eraseDups
    s.rowOp t st r cols [] (fun s rows =>
      let cs := rows.pick cols
      let bad := (cs.map (fun c => (c.cells.filter (fun x => x.valid &&
        (match valOf c.typ x.bytes with | .flt f => !f.isFin | _ => false))).length)).sum
      let s := s.bump F.VLT_OPS_EXC_NONFINITE t.chunk.vault bad
      let s := s.modWork t.slot (fun w => { w with
        parts := foldStats w.parts t.stage t.chunk.vault (u16 st.param 10) (u8 st.param 8) cs rows.n })
      .ok (some rows, s))

/-- The columns that a STATS block lists, each with its place in COLS, which is that of its record (R102). -/
def statCols (p : List Byte) : List (Nat × Nat) :=
  ((List.range 8).map (fun i => (i, u8 p i))).filter (fun e => e.2 != 0xFF)

/-- Size of a record (R102). -/
def recordBytes (bins : Nat) : Nat := roundUp (64 + 8192 + 8 * (bins + 1)) 64

/-- Merge of two partials (R103). -/
def mergeParts (kind : Nat) (a b : StatPart) : StatPart :=
  if a.count = 0 ∨ b.count = 0 then
    let k := if a.count = 0 then b else a
    { k with
      nulls := a.nulls + b.nulls, nonfinite := a.nonfinite + b.nonfinite, bins :=
        if a.bins.isEmpty then b.bins else if b.bins.isEmpty then a.bins
        else (a.bins.zip b.bins).map (fun e => e.1 + e.2) }
  else
    let f (n : Nat) : Nat := fp64.encode (FVal.ofInt n)
    let n := f (a.count + b.count)
    let d := fp64.subC b.mean.toNat a.mean.toNat
    let mean := fp64.addC a.mean.toNat (fp64.divC (fp64.mulC d (f b.count)) n)
    let dd := fp64.mulC (fp64.mulC (fp64.mulC d d) (f a.count)) (f b.count)
    let m2 := fp64.addC (fp64.addC a.m2.toNat b.m2.toNat) (fp64.divC dd n)
    { a with
      count := a.count + b.count, nulls := a.nulls + b.nulls, nonfinite := a.nonfinite + b.nonfinite
      min := if (statVal kind b.min).lt (statVal kind a.min) then b.min else a.min
      max := if (statVal kind a.max).lt (statVal kind b.max) then b.max else a.max
      mean := BitVec.ofNat 64 mean, m2 := BitVec.ofNat 64 m2
      values := a.values ++ b.values
      bins := if a.bins.isEmpty then b.bins else if b.bins.isEmpty then a.bins
        else (a.bins.zip b.bins).map (fun e => e.1 + e.2) }

/-- Ranks that answer every query within half a percent: strictly rising from 1 to the count, at most 512. -/
def ranksGood (count : Nat) : Nat → List Nat → Bool
  | last, [] => last == count
  | last, r :: rest => decide (last < r ∧ r ≤ count ∧ (r - last ≤ 1 ∨ 200 * (r - last) ≤ count)) && ranksGood count r rest

/-- Evenly spread ranks. -/
def evenRanks (count : Nat) : List Nat :=
  let n := min count 512
  (List.range n).map (fun j => ((j + 1) * count + n - 1) / n)

/-- The ranks that a sketch keeps: the device's own choice within R104. -/
def sketchRanks (d count : Nat) : List Nat :=
  let p := Config.sketchPick d count
  if p.length ≤ 512 ∧ ranksGood count 0 p then p else evenRanks count

/-- The sketch of a column: values in order with their ranks (R104). -/
def sketchOf (d kind : Nat) (values : List W64) : List (W64 × Nat) :=
  let sorted := sortBy (fun a b => !(statVal kind b).lt (statVal kind a)) values
  (sketchRanks d sorted.length).map (fun r => (sorted.getD (r - 1) 0, r))

/-- The bytes of a record's header (R102). A measure not asked for has no stated value: it is open. -/
def statHeader (d : Nat) (p : StatPart) (kind bins measures entries : Nat) : List Byte :=
  let open_ (asked : Bool) (w : W64) (k : Nat) : W64 :=
    if p.count = 0 then 0 else if asked then w else Config.word (d + k)
  natLe 8 p.count ++ natLe 8 p.nulls ++ natLe 8 p.nonfinite ++
    natLe 8 (open_ (bitAt measures 1) p.min 0).toNat ++ natLe 8 (open_ (bitAt measures 1) p.max 1).toNat ++
    natLe 8 (open_ (bitAt measures 0) p.mean 2).toNat ++ natLe 8 (open_ (bitAt measures 0) p.m2 3).toNat ++
    natLe 2 bins ++ natLe 1 kind ++ natLe 1 measures ++ natLe 4 entries

/-- Write the pieces of a record from a local address on. -/
def State.writePieces (s : State) (a : Nat) : List (Nat × List Byte) → Except Code State
  | [] => .ok s
  | (o, bs) :: r => do
    let s ← s.checkedWrite (a + o) bs
    State.writePieces s a r

/-- Write one record in the vaults of a list; memory that refuses it gives its code. -/
def State.writeIn (s : State) (g : Region) (off : Nat) (pieces : List (Nat × List Byte)) : List Nat → Except Code State
  | [] => .ok s
  | v :: r => do
    let s ← s.writePieces (g.localAddr v off) pieces
    State.writeIn s g off pieces r

/-- Write one record: in every vault of a VAULT_RANGE or VAULT_HASH region, once in any other (R101). -/
def State.writeRecord (s : State) (g : Region) (off : Nat) (pieces : List (Nat × List Byte)) : Except Code State :=
  s.writeIn g off pieces (if g.kind = .vaultRange ∨ g.kind = .vaultHash then List.range 192 else [0])

/-- KIND of a column in the chunks that enter a stage. -/
def State.columnKind (s : State) (slot stage : Nat) (col : Nat) : Nat :=
  ((scolAt (s.colsIn slot stage) col).map (fun c => statKind c.typ)).getD 0

/-- Merge the partials of a STATS stage and write its records (R101, R102); the merge order is open (R103);
a record that memory refuses fails the run (R30, log entry 176). -/
def State.mergeStats (s : State) (slot stage : Nat) : State :=
  match s.stage? slot stage with
  | none => s
  | some st =>
    let measures := u8 st.param 8
    let bins := u16 st.param 10
    let s := match s.region? (u16 st.param 12) with
      | none => s
      | some g =>
        (statCols st.param).foldl (fun (s : State) (e : Nat × Nat) =>
          let kind := s.columnKind slot stage e.2
          let parts := (s.workOf slot).parts.filter (fun (p : StatPart) => p.stage == stage && p.col == e.2)
          let (d, s) := s.draw
          let s := { s with free := s.free + parts.length + 4 }
          let keyed := (parts.zip (List.range parts.length)).map (fun (x : StatPart × Nat) => (Config.choice (d + 4 + x.2), x.1))
          let ordered := (sortBy (fun (a b : Nat × StatPart) => decide (a.1 ≤ b.1)) keyed).map (fun (x : Nat × StatPart) => x.2)
          let all := ordered.foldl (mergeParts kind) (StatPart.empty stage e.2 0)
          let sketch := if bitAt measures 2 then sketchOf d kind all.values else []
          let off := u64 st.param 16 + e.1 * recordBytes bins
          let hist := if bitAt measures 3 then
              [(64 + 8192, (List.range (bins + 1)).flatMap (fun i => natLe 8 (all.bins.getD i 0)))] else []
          let put := s.writeRecord g off ([(0, statHeader d all kind bins measures sketch.length),
            (64, sketch.flatMap (fun (x : W64 × Nat) => natLe 8 x.1.toNat ++ natLe 8 x.2))] ++ hist)
          match put with
          | .ok s => s
          | .error c => s.failRun slot c) s
    s.modWork slot (fun w => { w with
      parts := w.parts.filter (·.stage != stage), statsDone := w.statsDone ++ [stage] })

/-! ### Reading a record (R102, R106, R107) -/

/-- A record as read. -/
structure StatRec where
  count : Nat
  min : W64
  max : W64
  mean : W64
  m2 : W64
  kind : Nat
  measures : Nat
  sketch : List (W64 × Nat)

def statRecOf (bs : List Byte) : StatRec :=
  let n := min (u32 bs 60) 512
  ⟨u64 bs 0, BitVec.ofNat 64 (u64 bs 24), BitVec.ofNat 64 (u64 bs 32), BitVec.ofNat 64 (u64 bs 40),
    BitVec.ofNat 64 (u64 bs 48), u8 bs 58, u8 bs 59,
    (List.range n).map (fun i => (BitVec.ofNat 64 (u64 bs (64 + 16 * i)), u64 bs (72 + 16 * i)))⟩

/-- Read record `rec` of the records at `off` of a region, for a task in vault `v`. A stage without a STATS stage of
its own reads once in the run. -/
def State.readStat (s : State) (slot stage key region off rec v : Nat) (own : Bool) :
    Except Code (StatRec × State) :=
  match (s.workOf slot).statsRead.find? (fun e => !own && e.1 == stage * 8 + key) with
  | some e => .ok (statRecOf e.2, s)
  | none =>
    match s.region? region with
    | none => .error C.STATS_MISSING
    | some g =>
      match s.checkedRead (g.localAddr v off) 64 with
      | .error c => .error c
      | .ok (h, s) =>
        let rb := recordBytes (u16 (h.map (·.1)) 56)
        match s.checkedRead (g.localAddr v (off + rec * rb)) (64 + 8192) with
        | .error c => .error c
        | .ok (b, s) =>
          if h.any (·.2) || b.any (·.2) then .error C.OPERAND_POISON
          else
            let bs := b.map (·.1)
            let s := if own then s
              else s.modWork slot (fun w => { w with statsRead := w.statsRead ++ [(stage * 8 + key, bs)] })
            .ok (statRecOf bs, s)

/-- The sketch quantile at num / den (R104): the first entry whose rank is at least φ × COUNT. -/
def StatRec.quantile (q : StatRec) (num den : Nat) : Option Val :=
  ((q.sketch.find? (fun e => decide (num * q.count ≤ e.2 * den))).or q.sketch.getLast?).map
    (fun e => statVal q.kind e.1)

/-! ### NORMALISE (R108 to R110) -/

def fp32Of (v : FVal) : FVal := fp32.decode (fp32.encode v)

/-- What a method needs of the record. -/
structure NormStats where
  mean : FVal
  sigma : FVal
  min : FVal
  max : FVal
  median : FVal
  iqr : FVal

def zeroF : FVal := .fin false 0 0

def normStats (q : StatRec) : NormStats :=
  let val (w : W64) : FVal := (statVal q.kind w).toF
  let quant (n d : Nat) : FVal := ((q.quantile n d).map Val.toF).getD zeroF
  if q.count = 0 then ⟨zeroF, zeroF, zeroF, zeroF, zeroF, zeroF⟩
  else
    let sigma := match fp64.decode q.m2.toNat with
      | .fin false m e => fp32.decode (fp32.sqrtRat m q.count e)
      | _ => .nan
    ⟨fp32Of (fp64.decode q.mean.toNat), sigma, fp32Of (val q.min), fp32Of (val q.max), fp32Of (quant 1 2),
      fp32Of ((quant 3 4).sub (quant 1 4))⟩

/-- a / b in FP32 within 2 ulp of the exact quotient (R110). -/
def div2 (pick : Nat) (a b : FVal) : FVal :=
  match a, b with
  | .fin na ma ea, .fin nb mb eb =>
    if mb = 0 then fp32.decode (fp32.div a b)
    else fp32.decode (fp32.near2 pick (na != nb) ma mb (ea - eb))
  | _, _ => fp32.decode (fp32.div a b)

def maxF (a b : FVal) : FVal := if a.lt b then b else a
def minF (a b : FVal) : FVal := if b.lt a then b else a

/-- ln(1 + x) in FP32 within 2 ulp of the exact value (R109, R110). -/
def log1pOf (pick : Nat) (x : FVal) : FVal :=
  match x with
  | .fin neg m e =>
    if m = 0 then x
    else
      let l := lnOnePlus neg m e
      fp32.decode (fp32.near2 pick (decide (l < 0)) l.natAbs 1 (-(lnBits : Int)))
  | _ => x

/-- One value through its method (R109); none for a null output. -/
def normMethod (pick method : Nat) (q : NormStats) (lo hi x : FVal) : Option FVal :=
  match method with
  | 1 => some (if q.sigma.isZero then zeroF else div2 pick (x.sub q.mean) q.sigma)
  | 2 =>
    let span := q.max.sub q.min
    some (if span.isZero then zeroF else div2 pick (x.sub q.min) span)
  | 3 => some (log1pOf pick x)
  | 4 => some (minF (maxF x lo) hi)
  | 5 => some (if q.iqr.isZero then zeroF else div2 pick (x.sub q.median) q.iqr)
  | _ => some x

/-- One output value: the method or a null policy, POST_CLIP, and whether the input was outside LOG1P's domain. A μ or a
median at or below -1 that a null policy hands to LOG1P gives a null output, which R109 does not state, and is no input
that DOMAIN counts (log entry 164). -/
def normValue (pick mode : Nat) (q : NormStats) (lo hi fill : FVal) (x : Option FVal) : Option FVal × Bool :=
  let method := mode % 16
  let clip (y : FVal) : FVal := if bitAt mode 6 then minF (maxF y lo) hi else y
  let x := match x with
    | some v => if v.isNan then none else some v
    | none => none
  let outside := method == 3 && (match x with | some v => v.le (FVal.ofInt (-1)) | none => false)
  let x := if outside then none else x
  let apply (v : FVal) : Option FVal :=
    if method = 3 ∧ v.le (FVal.ofInt (-1)) then none else (normMethod pick method q lo hi v).map clip
  let y := match x with
    | some v => apply v
    | none =>
      match bitsOf mode 5 4 with
      | 1 => some fill
      | 2 => apply q.mean
      | 3 => apply q.median
      | _ => none
  (y, outside)

/-- What a column's method and null policy need of MEASURES (R107). -/
def normNeeds (mode : Nat) : List Nat :=
  (match mode % 16 with | 1 => [0] | 2 => [1] | 5 => [2] | _ => []) ++
    (match bitsOf mode 5 4 with | 2 => [0] | 3 => [2] | _ => [])

/-- OUT_TYPE: column type and format. -/
def outFmt (t : Nat) : Nat × Fmt := if t = 1 then (tFloat16, fp16) else if t = 2 then (tBf16, bf16) else (tFloat32, fp32)

/-- One column normalised: the output column, the inputs outside LOG1P's domain, draws used. -/
def normColumn (d mode outType out : Nat) (q : NormStats) (consts : List Byte) (c : Column) : Column × Nat :=
  let k (i : Nat) : FVal := fp32.decode (u32 consts (4 * i))
  let (typ, f) := outFmt outType
  let ys := (c.cells.zip (List.range c.cells.length)).map (fun e =>
    let x := if e.1.valid then some (fp32Of (valOf c.typ e.1.bytes).toF) else none
    normValue (Config.choice (d + e.2)) mode q (k 0) (k 1) (k 2) x)
  (⟨out, typ, 0, 0, ys.map (fun y =>
      match y.1 with
      | some v => ⟨true, natLe (f.width / 8) (f.encode v), false⟩
      | none => ⟨false, zeros (f.width / 8), false⟩)⟩, (ys.filter (·.2)).length)

/-- The columns of a NORMALISE, one after the other. -/
def State.normAll (s : State) (t : Task) (p : List Byte) (rows : Rows) : List Nat → Except Code (Rows × State)
  | [] => .ok (rows, s)
  | i :: rest =>
    let inp := u8 p i
    let mode := u8 p (8 + i)
    match colAt rows.cols inp with
    | none => s.normAll t p rows rest
    | some c =>
      let need := normNeeds mode
      let stat := if need.isEmpty then .ok (⟨0, 0, 0, 0, 0, 0, 0, []⟩, s)
        else s.readStat t.slot t.stage i (u16 p 12) (u64 p 16) (u8 p (24 + i)) t.chunk.vault (u8 p 14 != 0xFF)
      match stat with
      | .error e => .error e
      | .ok (q, s) =>
        if need.any (fun b => !bitAt q.measures b) || q.kind > 2 then .error C.STATS_MISSING
        else
          let consts := slice (u32 p 28 + 16 * i) 16 s.pipeBytes
          let (out, outside) := normColumn s.free mode (u8 p 15) (u8 p (4 + i)) (normStats q) consts c
          let s := { s with free := s.free + c.cells.length }
          let s := s.bump F.VLT_OPS_EXC_DOMAIN t.chunk.vault outside
          State.normAll s t p { rows with cols := putCol rows.cols out } rest

def normalise (task : Nat) (s : State) : State :=
  match s.runningTask task .normalise with
  | none => s
  | some (t, st, _, r) =>
    let slots := (List.range 4).filter (fun i => u8 st.param i != 0xFF)
    s.rowOp t st r (slots.map (u8 st.param)) [] (fun s rows =>
      match s.normAll t st.param rows slots with
      | .error c => .error c
      | .ok (rows, s) => .ok (some rows, s))

end Sys2Proof.Machine
end

