-- ==== Sys2Proof/Machine/Layout.lean ====
section
/-!
DEFINITION. Tensor descriptors (R149 to R164): their fields, the checks at creation, templates and instances, element
addresses with swizzle; and the operators GATHER and SCATTER (R169 to R174).
-/
namespace Sys2Proof.Machine

/-! ### Fields -/

def Desc.writable (d : Desc) : Bool := bitAt d.flags 0
def Desc.swz (d : Desc) : Nat := bitsOf d.flags 2 1
def Desc.rowsFromArg (d : Desc) : Bool := bitAt d.flags 4
def Desc.hasPiece (d : Desc) : Bool := bitAt d.flags 3

/-- The core store as a region number. -/
def coreRegion : Nat := 0xFFFF

/-- A descriptor from its 128 bytes (R152). -/
def descOf (bs : List Byte) : Desc :=
  ⟨u8 bs 0, u8 bs 1, u8 bs 2, u8 bs 3, u16 bs 4, u8 bs 6, u16 bs 8, u64 bs 16,
    (List.range 5).map (fun k => u32 bs (24 + 4 * k)), (List.range 5).map (fun k => toSigned 64 (u64 bs (48 + 8 * k))),
    (List.range 5).map (fun k => u64 bs (88 + 8 * k)), bs⟩

/-- The 128 bytes of a descriptor: those it came from, with the fields that binding changes. -/
def Desc.bytes (d : Desc) : List Byte :=
  fitTo 16 d.raw ++ natLe 8 d.base ++ d.extent.flatMap (natLe 4) ++ zeros 4 ++ slice 48 40 (fitTo 128 d.raw) ++
    d.piece.flatMap (natLe 8)

def Desc.bits (d : Desc) : Nat := elemBits d.typ
def Desc.ext (d : Desc) (k : Nat) : Nat := d.extent.getD k 0
def Desc.str (d : Desc) (k : Nat) : Int := d.stride.getD k 0

/-- S0: bytes of the innermost run (R156). -/
def Desc.run (d : Desc) : Nat := if d.str 0 = 0 then max (d.bits / 8) 1 else (d.ext 0 * d.bits + 7) / 8

/-- S0 as the footprint takes it (R158). -/
def Desc.footRun (d : Desc) : Nat := if d.swz = 0 then d.run else roundUp d.run 128

/-- The footprint [lo, hi) in region offsets (R158). -/
def Desc.footprint (d : Desc) : Int × Int :=
  (List.range d.rank).foldl (fun (f : Int × Int) k =>
    if k = 0 then f
    else
      let t := ((d.ext k : Int) - 1) * d.str k
      if t < 0 then (f.1 + t, f.2) else (f.1, f.2 + t)) ((d.base : Int), (d.base : Int) + d.footRun)

/-- The distinctness test of R159. -/
def Desc.distinct (d : Desc) : Bool :=
  let dims := (List.range d.rank).filter (fun k => decide (0 < k ∧ 1 < d.ext k))
  let sorted := sortBy (fun a b => decide ((d.str a).natAbs ≤ (d.str b).natAbs)) dims
  (sorted.foldl (fun (acc : Bool × Nat) k =>
    let st := (d.str k).natAbs
    (acc.1 && decide (acc.2 ≤ st), acc.2 + (d.ext k - 1) * st)) (true, d.run)).1

/-- The block-scale companion's code (R154), and the types that may name one. -/
def tyE8m0 : Nat := 0x12
def scaledType (t : Nat) : Bool := t == 3 || t == 6 || t == 7

/-- The rules of a companion (R157). -/
def companionOk (n : Nat) (d : Desc) (m : Nat) (c : Desc) : Bool :=
  decide (m < n) && c.typ == tyE8m0 && scaledType d.typ && c.rank == d.rank && c.ext 0 == ceilDiv (d.ext 0) 32 &&
    (List.range d.rank).all (fun k => k == 0 || c.ext k == d.ext k)

/-- The creation checks of R157, in order: the code of the first that fails. `region` is the base and size of the
region named, if it is declared; `argOk` says check 6 holds; `isScale` that another descriptor names this one as its
block-scale companion (R156). -/
def descCheck (n : Nat) (d : Desc) (region : Option (Nat × Nat)) (argOk isScale : Bool) (companion : Option Desc) :
    Option Code :=
  let z := d.bits / 8
  let unused := (List.range 5).filter (fun k => decide (d.rank ≤ k))
  let inner := d.str 0 == 0 || d.str 0 == (if d.bits < 8 then 1 else (z : Int))
  let aligned := d.str 0 == 0 || (isScale && d.typ == tyE8m0) || decide (d.ext 0 * d.bits % 128 = 0)
  let base := (region.map Prod.fst).getD 0 + d.base
  let size := if d.region = coreRegion then 0x100000 else (region.map Prod.snd).getD 0
  let chunk := 8 * 2 ^ d.swz
  if d.bits = 0 then some C.TYPE_INVALID
  else if d.rank = 0 ∨ 5 < d.rank ∨ unused.any (fun k => d.ext k != 0 || d.str k != 0 || d.piece.getD k 0 != 0) ∨
      u8 d.raw 7 ≠ 0 ∨ leNat (slice 10 6 d.raw) ≠ 0 ∨ u32 d.raw 44 ≠ 0 then some C.RANK_INVALID
  else if (List.range d.rank).any (fun k => d.ext k == 0) then some C.EXTENT_INVALID
  else if bitsOf d.policy 3 2 = 3 ∨ 16 ≤ d.policy ∨ 32 ≤ d.flags then some C.POLICY_INVALID
  else if d.region ≠ coreRegion ∧ region.isNone then some C.REGION_UNKNOWN
  else if !argOk ∨ (d.rowsFromArg ∧ d.arg = 0xFF) then some C.DESC_ARG
  else if !inner ∨ !aligned ∨ base % 16 ≠ 0 then some C.INNER_ALIGN
  else if (List.range d.rank).any (fun k => k != 0 && d.str k % 16 != 0) then some C.OUTER_STRIDE
  else if d.writable ∧ (List.range d.rank).any (fun k => d.str k == 0) then some C.ZERO_STRIDE
  else if d.writable ∧ !d.distinct then some C.SELF_OVERLAP
  else if d.swz ≠ 0 ∧ !(d.region == coreRegion && decide (2 ≤ d.rank ∧ 0 < d.str 1 ∧ d.str 1 % 128 = 0 ∧
      ((roundUp d.run 128 : Nat) : Int) ≤ d.str 1 ∧ d.base % 128 = 0 ∧ 0 < chunk)) then some C.SWIZZLE_INVALID
  else if d.footprint.1 < 0 ∨ (size : Int) < d.footprint.2 then some C.OUT_OF_REGION
  else if d.scale ≠ 0xFFFF ∧ !(match companion with | some c => companionOk n d d.scale c | none => false) then
    some C.SCALE_INVALID
  else none

/-! ### Templates and instances (R150, R152) -/

/-- Descriptors that a stage's parameter block names, and those that a MODEL stage's graph names. -/
def stageDescs (graphs : List Graph) (st : StageRec) : List Nat :=
  let p := st.param
  match st.op with
  | .gather | .scatter => [u16 p 0, u16 p 2, u16 p 4]
  | .lookup | .update => [u16 p 2, u16 p 4]
  | .model =>
    match graphs.find? (fun g => g.number == u16 p 0) with
    | some g => g.tensors.flatMap (fun t => [t.scale, t.desc]) ++ g.copies.flatMap (fun c => [c.src, c.dst])
    | none => []
  | _ => []

/-- The templates a pipeline uses, companions included, each once; a companion stands before the descriptor that names
it, so that its instance is there when that one is checked (R150, R157). -/
def templatesOf (im : Image) (p : Pipeline) : List Nat :=
  let desc (n : Nat) : Option Desc := (im.descs.find? (·.1 == n)).map (·.2)
  let all := (p.stages.flatMap (stageDescs im.graphs)).flatMap (fun n =>
    match desc n with
    | some d => if d.scale = 0xFFFF then [n] else [d.scale, n]
    | none => [])
  (all.filter (fun n => (desc n).any (fun d => d.arg != 0xFF))).eraseDups

/-- Whether a descriptor of the image is the block-scale companion of another. -/
def Image.isScale (im : Image) (n : Nat) : Bool := im.descs.any (fun e => e.2.scale == n)

/-- First run-slot entry of the descriptor table (R149). -/
def slotEntry (slot : Nat) : Nat := 32768 + slot * 512

/-- The instance of a template for a run's arguments (R152). -/
def bindDesc (d : Desc) (e : ArgEntry) : Desc :=
  let last := d.rank - 1
  { d with
    base := d.base + e.a.toNat
    extent := if d.rowsFromArg then d.extent.set last (e.b.toNat % 2 ^ 32) else d.extent
    piece := if d.hasPiece then d.piece.set last (d.piece.getD last 0 + e.c.toNat) else d.piece }

def State.imageDesc (s : State) (n : Nat) : Option Desc :=
  s.image.bind (fun im => (im.descs.find? (·.1 == n)).map (·.2))

/-- The descriptor that a stage of a run means by a number: the instance for a template (R150). -/
def State.descFor (s : State) (slot n : Nat) : Option Desc :=
  match s.imageDesc n with
  | none => none
  | some d =>
    if d.arg = 0xFF then some d
    else
      match s.image, s.pipelineOf slot with
      | some im, some p =>
        match findIdxFrom (· == n) 0 (templatesOf im p) with
        | some k => (s.runDescs.find? (·.1 == slotEntry slot + k)).map (·.2)
        | none => none
      | _, _ => none

/-- Base and size of a region for the creation checks. -/
def State.regionSpan (s : State) (n : Nat) : Option (Nat × Nat) := (s.region? n).map (fun r => (r.base, r.size))

/-- Create the instances of a run (R150): the state with them, or the first refusal with its template. -/
def State.bindDescs (s : State) (r : Run) : List (Nat × Nat) → Except (Code × Nat) State
  | [] => .ok s
  | (k, n) :: rest =>
    match s.imageDesc n with
    | none => s.bindDescs r rest
    | some d =>
      match r.args.find? (fun e => e.slot == d.arg) with
      | none => .error (C.DESC_ARG, n)
      | some e =>
        let i := bindDesc d e
        let argOk := e.kind == 1 && e.region == d.region
        let comp := if d.scale = 0xFFFF then none else s.descFor r.slot d.scale
        let isScale := (s.image.map (fun im => im.isScale n)).getD false
        match descCheck n i (s.regionSpan d.region) argOk isScale comp with
        | some c => .error (c, n)
        | none => State.bindDescs { s with runDescs := s.runDescs ++ [(slotEntry r.slot + k, i)] } r rest

/-! ### Elements -/

/-- Bytes of a core's store (R13). -/
def coreStoreBytes : Nat := 0x100000

/-- Key of a core-store word's parity state, beside those of the vaults and channels (R32). -/
def coreWord (a : Nat) : Nat := 2 ^ 44 + a / 8 * 8

/-- Whether the core-store word of a byte is stored with inverted parity. -/
def State.corePoisoned (s : State) (a : Nat) : Bool := decide (4 ≤ SMap.get 0 s.side.flaky (coreWord a))

/-- The element codes packed in a run (R155). -/
def unpack (bits : Nat) (bs : List Byte) : List Nat :=
  if 8 ≤ bits then (chunksOf (bits / 8) (bs.length + 1) bs).map leNat
  else bs.flatMap (fun b => (List.range (8 / bits)).map (fun k => bitsOf b.toNat (bits * k + bits - 1) (bits * k)))

/-- Element codes packed into bytes. -/
def pack (bits : Nat) (cs : List Nat) : List Byte :=
  if 8 ≤ bits then cs.flatMap (natLe (bits / 8))
  else (chunksOf (8 / bits) (cs.length + 1) cs).map (fun g =>
    BitVec.ofNat 8 (((g.zip (List.range g.length)).map (fun e => (e.1 % 2 ^ bits) <<< (bits * e.2))).sum))

/-- Element codes of a run with their poison. -/
def elemsOf (bits : Nat) (bs : List (Byte × Bool)) : List (Nat × Bool) :=
  let per := if 8 ≤ bits then 1 else 8 / bits
  let flags := if 8 ≤ bits then (chunksOf (bits / 8) (bs.length + 1) bs).map (fun g => g.any (·.2))
    else bs.flatMap (fun b => List.replicate per b.2)
  (unpack bits (bs.map (·.1))).zip flags

/-- The bytes of element codes, each with the poison of the elements in it. -/
def bytesOfElems (bits : Nat) (es : List (Nat × Bool)) : List (Byte × Bool) :=
  let flags := if 8 ≤ bits then es.flatMap (fun e => List.replicate (bits / 8) e.2)
    else (chunksOf (8 / bits) (es.length + 1) es).map (fun g => g.any (·.2))
  (pack bits (es.map (·.1))).zip flags

/-- Where a descriptor lies for a task whose core is `v`: in that core's vault or store (R153). -/
structure Seat where
  d : Desc
  region : Option Region
  v : Nat

def State.seat (s : State) (slot n v : Nat) : Option Seat :=
  (s.descFor slot n).map (fun d => ⟨d, s.region? d.region, v⟩)

/-- Offset of the run at outer indices, before swizzle (R153): `idx` gives dimensions 1 and up. -/
def Desc.runAt (d : Desc) (idx : List Nat) : Int :=
  (idx.zip (List.range idx.length)).foldl (fun (a : Int) e => a + (e.1 : Int) * d.str (e.2 + 1)) d.base

/-- The swizzled offset of byte `b` of the run of row `row` (R162). -/
def Desc.swizzled (d : Desc) (row b : Nat) : Nat :=
  if d.swz = 0 then b
  else
    let c := 8 * 2 ^ d.swz
    ((b / c) ^^^ (row % (128 / c))) * c + b % c

/-- A read of dimension 0: with a zero stride, element 0 again and again (R153, R160). -/
def Desc.spread (d : Desc) (bs : List (Byte × Bool)) : List (Byte × Bool) :=
  if d.str 0 ≠ 0 then bs
  else if d.bits < 8 then
    let b := bs.headD (0, false)
    (pack d.bits (List.replicate (d.ext 0) (b.1.toNat % 2 ^ d.bits))).map (fun x => (x, b.2))
  else (List.replicate (d.ext 0) bs).flatten

/-- Address of byte `b` of a run in the core stores, after the swizzle (R13, R162). -/
def Seat.coreAddr (t : Seat) (idx : List Nat) (b : Nat) : Nat :=
  t.v * coreStoreBytes + (t.d.runAt idx).toNat + t.d.swizzled (idx.headD 0) b

/-- Read the bytes of a run with their poison; a range that the run may not reach gives its refusal (R30, R224, R257). -/
def State.readRun (s : State) (t : Seat) (idx : List Nat) : Except Code (List (Byte × Bool) × State) :=
  match t.region with
  | some g => (s.checkedRead (g.localAddr t.v (t.d.runAt idx).toNat) t.d.run).map (fun e => (t.d.spread e.1, e.2))
  | none =>
    .ok (t.d.spread ((List.range t.d.run).map (fun b =>
      (SMap.get 0 s.core (t.coreAddr idx b), s.corePoisoned (t.coreAddr idx b)))), s)

/-- Store bytes in a core store from an address on, and the parity of their words: a poisoned word with its parity
inverted, a whole good word with its parity correct (R32, R34). Cells are bytes with poison, by address. -/
def State.writeCore (s : State) (cells : List (Nat × Byte × Bool)) : State :=
  let words := (cells.map (fun e => e.1 / 8)).eraseDups
  let flaky := words.foldl (fun m w =>
    let own := cells.filter (fun e => e.1 / 8 == w)
    if own.any (fun e => e.2.2) then SMap.set 0 m (coreWord (8 * w)) 4
    else if own.length = 8 then SMap.set 0 m (coreWord (8 * w)) 0 else m) s.side.flaky
  { s with
    core := cells.foldl (fun m e => SMap.set 0 m e.1 e.2.1) s.core
    side := { s.side with flaky := flaky } }

/-- Write the bytes of a run with their poison. -/
def State.writeRun (s : State) (t : Seat) (idx : List Nat) (bs : List (Byte × Bool)) : Except Code State :=
  match t.region with
  | some g =>
    s.checkedWrite (g.localAddr t.v (t.d.runAt idx).toNat) (bs.map (·.1)) (fun i => (slice (8 * i) 8 bs).any (·.2))
  | none => .ok (s.writeCore ((bs.zip (List.range bs.length)).map (fun e => (t.coreAddr idx e.2, e.1))))

/-- All index tuples below the extents, the first varying fastest. -/
def tuples : List Nat → List (List Nat)
  | [] => [[]]
  | e :: rest => (tuples rest).flatMap (fun t => (List.range e).map (fun i => i :: t))

/-- The outer extents of a descriptor. -/
def Desc.outer (d : Desc) : List Nat := (List.range (d.rank - 1)).map (fun k => d.ext (k + 1))

/-- Whether the footprints of two seats share a byte (R164). -/
def Seat.overlaps (a b : Seat) : Bool :=
  a.d.region == b.d.region && a.v == b.v && decide (a.d.footprint.1 < b.d.footprint.2) &&
    decide (b.d.footprint.1 < a.d.footprint.2)

/-- Float format of an element type (R154), if it is a floating type. -/
def elemFmt (t : Nat) : Option Fmt :=
  if t = 3 then some fp4e2m1 else if t = 6 then some fp8e4m3 else if t = 7 then some fp8e5m2
  else if t = 9 then some fp16 else if t = 10 then some bf16 else if t = 13 then some fp32
  else if t = 16 then some fp64 else none

/-- Signed integer element types. -/
def elemSigned (t : Nat) : Bool := t == 1 || t == 4 || t == 8 || t == 11 || t == 14

/-- The element type whose codes a column's stored values are (R127, R154); 0 for none. -/
def columnElem (typ : Nat) : Nat :=
  if typ = 1 then 4 else if typ = 2 then 8 else if typ = 3 ∨ typ = tDate32 then 0x0B
  else if typ = 4 ∨ typ = tTimestamp then 0x0E else if typ = 5 then 5 else if typ = 7 then 0x0C else if typ = 8 then 0x0F
  else if typ = tFloat16 then 9 else if typ = tFloat32 then 0x0D else if typ = tFloat64 then 0x10
  else if typ = tBool then 0x11 else if typ = tBf16 then 0x0A else 0

/-- The value of an element code. -/
def elemVal (t code : Nat) : Val :=
  match elemFmt t with
  | some f => .flt (f.decode code)
  | none => if elemSigned t then .int (toSigned (elemBits t) code) else .int code

/-! ### Index policies (R169) -/

/-- What an index becomes: a slice, a zero slice, a fault; and which counter it takes (0 none, 1 ZEROED, 2 CLAMPED,
3 WRAPPED). -/
inductive Pick where
  | slice (i : Nat) (count : Nat)
  | zero
  | fault
deriving DecidableEq, Repr

def resolveIndex (policy e : Nat) (i : Int) : Pick :=
  if 0 ≤ i ∧ i < e then .slice i.toNat 0
  else
    let p := if i < 0 then bitsOf policy 1 0 else bitsOf policy 3 2
    match p with
    | 1 => .fault
    | 2 => .slice (if i < 0 then 0 else e - 1) 2
    | 3 => if 0 ≤ i + e ∧ i + e < e then .slice (i + e).toNat 3 else .zero
    | _ => .zero

/-- Count resolved indices in LAY_IDX of a core. -/
def State.countPicks (s : State) (core : Nat) (ps : List Pick) : State :=
  let n (p : Pick → Bool) : Nat := (ps.filter p).length
  let s := s.bump F.LAY_IDX_ZEROED core (n (fun p => p == .zero))
  let s := s.bump F.LAY_IDX_CLAMPED core (n (fun p => match p with | .slice _ 2 => true | _ => false))
  s.bump F.LAY_IDX_WRAPPED core (n (fun p => match p with | .slice _ 3 => true | _ => false))

/-- Slice fetches avoided in windows of 256 (R171). -/
def savedFetches (ps : List Pick) : Nat :=
  ((chunksOf 256 (ps.length + 1) ps).map (fun w =>
    let is := w.filterMap (fun p => match p with | .slice i _ => some i | _ => none)
    is.length - is.eraseDups.length)).sum

/-- Read the indices of a task (R169): from a descriptor, or from a column of its chunk; a poisoned word among those used
gives INDEX_POISON (R170). -/
def State.readIndices (s : State) (t : Task) (r : Run) (desc col count : Nat) : Except Code (List Int × State) :=
  let settle (l : List (Int × Bool)) (s : State) : Except Code (List Int × State) :=
    let l := if count = 0 then l else l.take count
    if l.any (·.2) then .error C.INDEX_POISON else .ok (l.map (·.1), s)
  if desc ≠ 0xFFFF then
    match s.seat t.slot desc t.home with
    | none => .ok ([], s)
    | some x => do
      let (bs, s) ← s.readRun x []
      settle ((elemsOf x.d.bits bs).map (fun e => (toSigned x.d.bits e.1, e.2))) s
  else do
    let (rows, s) ← s.fetch r t.chunk [col]
    match colAt rows.cols col with
    | none => return ([], s)
    | some c => settle (c.cells.map (fun x => (toSigned (8 * x.bytes.length) (leNat x.bytes), x.poison))) s

/-- Record a refused instance or failed copy (R176). -/
def State.layRefuse (s : State) (code : Code) (desc slot : Nat) : State :=
  let s := (s.fset F.LAY_REFUSE_CODE 0 code.toNat).fset F.LAY_REFUSE_DESC 0 desc
  (s.fset F.LAY_REFUSE_RUN_SLOT 0 slot).fset F.LAY_REFUSE_VALID 0 1

/-- A layout task fails. -/
def State.layFail (s : State) (t : Task) (desc : Nat) (code : Code) : State :=
  (if code = C.OVERLAP ∨ code = C.COPY_SHAPE then s.layRefuse code desc t.slot else s).failTask t code

/-- POLICY of a parameter block, or of the data descriptor. -/
def policyOf (p : List Byte) (d : Desc) : Nat := if u8 p 7 = 0xFF then d.policy else u8 p 7

/-! ### GATHER -/

/-- Outer index tuple with the AXIS entry replaced (axis counts from 1). -/
def atAxis (idx : List Nat) (axis i : Nat) : List Nat := idx.set (axis - 1) i

/-- A slice of a tensor (R169): its runs, at the outer tuples whose AXIS entry is 0. -/
abbrev Slice := List (List (Byte × Bool))

/-- The outer tuples of a slice. -/
def Desc.sliceTuples (d : Desc) (axis : Nat) : List (List Nat) := tuples (d.outer.set (axis - 1) 1)

/-- Bytes of one packed run of elements. -/
def Desc.packed (d : Desc) : Nat := (d.ext 0 * d.bits + 7) / 8

def State.readSlice (s : State) (x : Seat) (axis i : Nat) : List (List Nat) → Except Code (Slice × State)
  | [] => .ok ([], s)
  | idx :: rest => do
    let (bs, s) ← s.readRun x (atAxis idx axis i)
    let (r, s) ← State.readSlice s x axis i rest
    return (bs :: r, s)

def State.writeSlice (s : State) (x : Seat) (axis i : Nat) : List (List Nat × List (Byte × Bool)) → Except Code State
  | [] => .ok s
  | (idx, bs) :: rest => do
    let s ← s.writeRun x (atAxis idx axis i) bs
    State.writeSlice s x axis i rest

/-- The slices of one combining window: a slice that the window names again is not fetched again (R171). -/
def State.gatherWindow (data : Seat) (axis : Nat) :
    List Pick → List (Nat × Slice) → State → Except Code (List Slice × State)
  | [], _, s => .ok ([], s)
  | .slice i _ :: rest, seen, s =>
    match seen.find? (·.1 == i) with
    | some e => do
      let (r, s) ← State.gatherWindow data axis rest seen s
      return (e.2 :: r, s)
    | none => do
      let (x, s) ← s.readSlice data axis i (data.d.sliceTuples axis)
      let (r, s) ← State.gatherWindow data axis rest ((i, x) :: seen) s
      return (x :: r, s)
  | _ :: rest, seen, s => do
    let (r, s) ← State.gatherWindow data axis rest seen s
    return ((data.d.sliceTuples axis).map (fun _ => List.replicate data.d.packed ((0 : Byte), false)) :: r, s)

/-- The slices of all windows of 256 indices, one for each position. -/
def State.gatherAll (data : Seat) (axis : Nat) : List (List Pick) → State → Except Code (List Slice × State)
  | [], s => .ok ([], s)
  | w :: rest, s => do
    let (a, s) ← State.gatherWindow data axis w [] s
    let (b, s) ← State.gatherAll data axis rest s
    return (a ++ b, s)

/-- The combining windows of an index list (R171). -/
def windows {α : Type} (l : List α) : List (List α) := chunksOf 256 (l.length + 1) l

/-- Write the gathered slices to their positions along AXIS. -/
def State.writeSlices (s : State) (out : Seat) (axis : Nat) : List (Slice × Nat) → Except Code State
  | [] => .ok s
  | (x, k) :: rest => do
    let s ← s.writeSlice out axis k ((out.d.sliceTuples axis).zip x)
    State.writeSlices s out axis rest

/-- The bytes of a tensor made of slices along AXIS, dimension 0 innermost. -/
def assemble (d : Desc) (axis : Nat) (slices : List Slice) : List (Byte × Bool) :=
  (tuples (d.outer.set (axis - 1) slices.length)).flatMap (fun idx =>
    ((((d.sliceTuples axis).zip (slices.getD (idx.getD (axis - 1) 0) [])).find? (fun e => e.1 == atAxis idx axis 0)).map
      (fun e => e.2)).getD [])

/-- Whether `n` slices along AXIS fit a tensor of the data's shape and type: what pitching could not see of it (an index
column's length, an extent from an argument) is checked when the task runs (R169, log entry 170). -/
def slicesFit (data x : Desc) (axis n : Nat) : Bool :=
  data.typ == x.typ && data.rank == x.rank &&
    (List.range data.rank).all (fun k => if k = axis then decide (n ≤ x.ext k) else x.ext k == data.ext k)

/-- The whole of a GATHER over its indices: the slices written to OUT or put in a fresh buffer. -/
def State.gatherRun (s : State) (t : Task) (data : Seat) (out : Option Seat) (axis : Nat) (picks : List Pick) :
    Except Code (Option (List (Byte × Bool)) × State) := do
  let (slices, s) ← State.gatherAll data axis (windows picks) s
  let bytes := (slices.map (fun x => (x.map List.length).sum)).sum
  let s := s.bump F.LAY_BYTES_BYTES t.home bytes
  match out with
  | none => return (some (assemble data.d axis slices), s)
  | some o =>
    if !slicesFit data.d o.d axis picks.length then .error C.COPY_SHAPE
    else do
      let s ← s.writeSlices o axis (slices.zip (List.range slices.length))
      return (none, s)

def gather (task : Nat) (s : State) : State :=
  match s.runningTask task .gather with
  | none => s
  | some (t, st, _, r) =>
    let p := st.param
    match s.seat t.slot (u16 p 0) t.home with
    | none => s.endTask t [t.chunk]
    | some data =>
      let out := if u16 p 4 = 0xFFFF then none else s.seat t.slot (u16 p 4) t.home
      if (match out with | some o => data.overlaps o | none => false) then s.layFail t (u16 p 0) C.OVERLAP
      else
        match s.readIndices t r (u16 p 2) (u8 p 12) (u32 p 8) with
        | .error c => s.layFail t (u16 p 2) c
        | .ok (is, s) =>
          let axis := u8 p 6
          let picks := is.map (resolveIndex (policyOf p data.d) (data.d.ext axis))
          if picks.contains .fault then s.layFail t (u16 p 2) C.INDEX_FAULT
          else
            let s := s.countPicks t.home picks
            let s := s.bump F.LAY_COMBINE_SAVED t.home (savedFetches picks)
            let s := s.event 0x401 t.home (savedFetches picks)
            match s.gatherRun t data out axis picks with
            | .error c => s.layFail t (u16 p 0) c
            | .ok (some bs, s) => s.endTask t [{ t.chunk with tensor := some ⟨data.d.typ, bs⟩ }]
            | .ok (none, s) => s.endTask t [t.chunk]

/-! ### SCATTER -/

/-- Maximum and minimum that return NaN for a NaN and rank +0 above −0 (R172). -/
def maxNan (a b : FVal) : FVal :=
  if a.isNan || b.isNan then .nan
  else if a.isZero && b.isZero then (if a.neg then b else a) else if a.lt b then b else a
def minNan (a b : FVal) : FVal :=
  if a.isNan || b.isNan then .nan
  else if a.isZero && b.isZero then (if a.neg then a else b) else if b.lt a then b else a

/-- Combine two element codes held in the accumulator's type (FP32, FP64, or the integer itself). -/
def combineVals (mode : Nat) (typ : Nat) (a b : Val) : Val :=
  match a, b with
  | .flt x, .flt y =>
    let f := if typ = 16 then fp64 else fp32
    .flt (if mode = 1 then f.decode (f.encode (x.add y)) else if mode = 2 then maxNan x y else minNan x y)
  | .int x, .int y =>
    let w := elemBits typ
    let wrap (i : Int) : Int := if elemSigned typ then toSigned w (ofSigned w i) else (ofSigned w i : Int)
    .int (if mode = 1 then wrap (x + y) else if mode = 2 then max x y else min x y)
  | _, _ => a

/-- The code of a value in an element type, with one rounding; integers wrap. -/
def elemCode (t : Nat) (v : Val) : Nat :=
  match v, elemFmt t with
  | .flt x, some f => f.encode x
  | .int i, _ => ofSigned (elemBits t) i
  | _, _ => 0

/-- An element combined with DEST, rounded once (R172). -/
def combineDest (mode typ dest : Nat) (acc : Val) : Nat :=
  match elemVal typ dest, acc, elemFmt typ with
  | .flt d, .flt a, some f =>
    if mode = 1 then f.encode (d.add a) else f.encode (if mode = 2 then maxNan d a else minNan d a)
  | d, a, _ => elemCode typ (combineVals mode typ d a)

/-- What a window has combined for a slice: the runs of its latest value, and the values of its elements with their
poison. -/
structure Combined where
  index : Nat
  latest : Slice
  vals : List (List (Val × Bool))

/-- The element values of a slice. -/
def sliceVals (typ : Nat) (x : Slice) : List (List (Val × Bool)) :=
  x.map (fun run => (elemsOf (elemBits typ) run).map (fun e => (elemVal typ e.1, e.2)))

/-- One window: for each slice it names, its duplicates combined element by element; STORE keeps one of them (R172). -/
def windowSums (mode typ : Nat) (items : List (Nat × Slice)) : List Combined :=
  items.foldl (fun acc e =>
    match acc.find? (fun a => a.index == e.1) with
    | none => acc ++ [⟨e.1, e.2, sliceVals typ e.2⟩]
    | some a =>
      let new : Combined :=
        if mode = 0 then ⟨e.1, e.2, []⟩
        else ⟨e.1, e.2, (a.vals.zip (sliceVals typ e.2)).map (fun r =>
          (r.1.zip r.2).map (fun p => (combineVals mode typ p.1.1 p.2.1, p.1.2 || p.2.2)))⟩
      acc.map (fun b => if b.index == e.1 then new else b)) []

/-- The runs of a slice of DEST with a window's values combined into them (R172). -/
def mergedSlice (mode typ : Nat) (old : Slice) (vals : List (List (Val × Bool))) : Slice :=
  (old.zip vals).map (fun r => bytesOfElems (elemBits typ)
    (((elemsOf (elemBits typ) r.1).zip r.2).map (fun p => (combineDest mode typ p.1.1 p.2.1, p.1.2 || p.2.2))))

/-- Apply what a window combined for one slice to DEST. -/
def State.scatterSlice (s : State) (dest : Seat) (mode axis : Nat) (c : Combined) : Except Code State :=
  let at_ := dest.d.sliceTuples axis
  if mode = 0 then s.writeSlice dest axis c.index (at_.zip c.latest)
  else do
    let (old, s) ← s.readSlice dest axis c.index at_
    s.writeSlice dest axis c.index (at_.zip (mergedSlice mode dest.d.typ old c.vals))

/-- The values for position `k`: a slice of SRC, or of the chunk's tensor, which has DEST's shape with `count` positions. -/
def State.sourceSlice (s : State) (src : Option Seat) (tensor : List (Byte × Bool)) (dest : Desc) (axis count k : Nat) :
    Except Code (Slice × State) :=
  match src with
  | some x => s.readSlice x axis k (dest.sliceTuples axis)
  | none =>
    let exts := dest.outer.set (axis - 1) count
    .ok ((dest.sliceTuples axis).map (fun idx =>
      let pos := ((atAxis idx axis k).zip exts).foldr (fun (e : Nat × Nat) acc => e.1 + e.2 * acc) 0
      slice (pos * dest.packed) dest.packed tensor), s)

/-- The slices that a window's items name, in an order the device is free to choose (R172). -/
def State.windowItems (src : Option Seat) (tensor : List (Byte × Bool)) (dest : Desc) (axis count : Nat) :
    List (Nat × Pick) → State → Except Code (List (Nat × Slice) × State)
  | [], s => .ok ([], s)
  | (k, .slice i _) :: rest, s => do
    let (x, s) ← s.sourceSlice src tensor dest axis count k
    let (r, s) ← State.windowItems src tensor dest axis count rest s
    return ((i, x) :: r, s)
  | _ :: rest, s => State.windowItems src tensor dest axis count rest s

def State.scatterSlices (s : State) (dest : Seat) (mode axis : Nat) : List Combined → Except Code State
  | [] => .ok s
  | c :: rest => do
    let s ← s.scatterSlice dest mode axis c
    State.scatterSlices s dest mode axis rest

/-- The windows of a SCATTER, one after the other; each slice that a window names is written once. -/
def State.scatterWindows (src : Option Seat) (tensor : List (Byte × Bool)) (dest : Seat) (mode axis count core : Nat) :
    List (List (Nat × Pick)) → State → Except Code State
  | [], s => .ok s
  | w :: rest, s => do
    let d := s.free
    let s := { s with free := s.free + w.length }
    let keyed := (w.zip (List.range w.length)).map (fun (e : (Nat × Pick) × Nat) => (Config.choice (d + e.2), e.1))
    let order := (sortBy (fun (a b : Nat × (Nat × Pick)) => decide (a.1 ≤ b.1)) keyed).map (fun e => e.2)
    let (items, s) ← State.windowItems src tensor dest.d axis count order s
    let sums := windowSums mode dest.d.typ items
    let s ← s.scatterSlices dest mode axis sums
    let s := s.bump F.LAY_BYTES_BYTES core (sums.length * (dest.d.sliceTuples axis).length * dest.d.packed)
    State.scatterWindows src tensor dest mode axis count core rest s

def scatter (task : Nat) (s : State) : State :=
  match s.runningTask task .scatter with
  | none => s
  | some (t, st, _, r) =>
    let p := st.param
    match s.seat t.slot (u16 p 0) t.home with
    | none => s.endTask t [t.chunk]
    | some dest =>
      let src := if u16 p 4 = 0xFFFF then none else s.seat t.slot (u16 p 4) t.home
      let ix := if u16 p 2 = 0xFFFF then none else s.seat t.slot (u16 p 2) t.home
      let meets (x : Option Seat) : Bool := match x with | some o => dest.overlaps o | none => false
      if meets src || meets ix then s.layFail t (u16 p 0) C.OVERLAP
      else
        match s.readIndices t r (u16 p 2) (u8 p 12) (u32 p 8) with
        | .error c => s.layFail t (u16 p 2) c
        | .ok (is, s) =>
          let axis := u8 p 6
          let picks := is.map (resolveIndex (policyOf p dest.d) (dest.d.ext axis))
          if (match src with | some x => !slicesFit dest.d x.d axis picks.length | none => false) then
            s.layFail t (u16 p 4) C.COPY_SHAPE
          else
            let s := s.countPicks t.home picks
            let numbered := (List.range picks.length).zip picks
            let faulty := picks.contains .fault
            let d := s.free
            let s := if faulty then { s with free := s.free + picks.length } else s
            let used := if faulty then numbered.filter (fun e => Config.coin (d + e.1)) else numbered
            match State.scatterWindows src ((t.chunk.tensor.map FreshTensor.bytes).getD []) dest (u8 p 13) axis picks.length t.home (windows used) s with
            | .error c => s.layFail t (u16 p 0) c
            | .ok s => if faulty then s.layFail t (u16 p 2) C.INDEX_FAULT else s.endTask t [t.chunk]

/-! ### Copies (R163 to R166) -/

/-- Side of the transpose tile for an element size in bits (R165). -/
def tileSide (bits : Nat) : Nat := if bits ≤ 4 then 64 else if bits = 64 then 16 else 32

/-- Tile passes over a plane of two dimensions (R166). -/
def planePasses (bits e0 ej others : Nat) : Nat := ceilDiv e0 (tileSide bits) * ceilDiv ej (tileSide bits) * others

/-- A copy record from its 8 bytes (R163). -/
def copyRecOf (bs : List Byte) : CopyRec :=
  ⟨u16 bs 0, u16 bs 2, (List.range 5).map (fun i => bitsOf (u16 bs 4) (3 * i + 2) (3 * i)),
    bitAt (u16 bs 4) 15 || u16 bs 6 != 0⟩

/-- Whether a record fits its two descriptors (R163); `known` says which extents are known. -/
def CopyRec.fits (c : CopyRec) (known : Desc → Nat → Bool) (a b : Desc) : Bool :=
  let p := c.perm.take a.rank
  !c.rest && a.rank == b.rank && a.typ == b.typ && b.writable && p.all (fun k => decide (k < a.rank)) &&
    p.eraseDups.length == a.rank && (c.perm.drop a.rank).all (· == 0) &&
    (p.zip (List.range a.rank)).all (fun e => !known b e.2 || !known a e.1 || b.ext e.2 == a.ext e.1)

/-- The checks of a copy at pitching (R160, R163, R166); an extent that an argument gives is not known yet. -/
def copyCheck (im : Image) (c : CopyRec) : Except Code Unit :=
  let known (d : Desc) (k : Nat) : Bool := !(d.rowsFromArg && k + 1 == d.rank)
  match (im.descs.find? (·.1 == c.src)).map (·.2), (im.descs.find? (·.1 == c.dst)).map (·.2) with
  | some a, some b =>
    if !c.fits known a b then .error C.COPY_SHAPE
    else if (List.range a.rank).any (fun k => a.str k == 0) then .error C.BROADCAST_COPY
    else if a.bits = 1 ∧ c.perm.headD 0 ≠ 0 then .error C.TYPE_PATH
    else .ok ()
  | _, _ => .error C.COPY_SHAPE

/-- Read a whole tensor: its runs by outer tuple. -/
def State.readTensor (s : State) (x : Seat) : List (List Nat) → Except Code (List (List Nat × List (Byte × Bool)) × State)
  | [] => .ok ([], s)
  | idx :: rest => do
    let (bs, s) ← s.readRun x idx
    let (r, s) ← State.readTensor s x rest
    return ((idx, bs) :: r, s)

def State.writeTensor (s : State) (x : Seat) : List (List Nat × List (Byte × Bool)) → Except Code State
  | [] => .ok s
  | (idx, bs) :: rest => do
    let s ← s.writeRun x idx bs
    State.writeTensor s x rest

/-- The source tuple of a destination tuple: destination dimension i is source dimension PERM[i]. -/
def CopyRec.source (c : CopyRec) (rank : Nat) (idx : List Nat) : List Nat :=
  (List.range rank).map (fun k => idx.getD (c.perm.idxOf k) 0)

/-- The runs of the destination of a copy: every element from its place in the source, with its poison (R34, R166). -/
def CopyRec.permuted (c : CopyRec) (a b : Desc) (runs : List (List Nat × List (Byte × Bool))) :
    List (List Nat × List (Byte × Bool)) :=
  let elems := runs.map (fun e => (e.1, elemsOf a.bits e.2))
  let elem (src : List Nat) : Nat × Bool :=
    (((elems.find? (fun e => e.1 == src.drop 1)).map (fun e => e.2)).getD []).getD (src.headD 0) (0, false)
  (tuples b.outer).map (fun idx =>
    (idx, bytesOfElems b.bits ((List.range (b.ext 0)).map (fun i => elem (c.source a.rank (i :: idx))))))

/-- Tile passes of a copy: none unless dimension 0 moves (R166). -/
def CopyRec.passes (c : CopyRec) (a : Desc) : Nat :=
  let j := c.perm.headD 0
  if j = 0 then 0
  else planePasses a.bits (a.ext 0) (a.ext j)
    (((List.range a.rank).filter (fun k => k != 0 && k != j)).map a.ext).prod

/-- Carry out a copy on a core (R164, R166): the state after, or the code that fails its task. -/
def State.copyTensor (s : State) (slot core : Nat) (c : CopyRec) : Except Code State :=
  match s.seat slot c.src core, s.seat slot c.dst core with
  | some a, some b =>
    if !c.fits (fun _ _ => true) a.d b.d then .error C.COPY_SHAPE
    else if a.d.region = b.d.region ∧ a.d.footprint = b.d.footprint ∧ a.d.stride = b.d.stride ∧
        c.perm.take a.d.rank = List.range a.d.rank then .ok s
    else if a.overlaps b then .error C.OVERLAP
    else do
      let (runs, s) ← s.readTensor a (tuples a.d.outer)
      let out := c.permuted a.d b.d runs
      let s ← s.writeTensor b out
      let s := s.event 0x400 core (c.passes a.d)
      return s.bump F.LAY_BYTES_BYTES core ((out.map (fun e => e.2.length)).sum)
  | _, _ => .error C.COPY_SHAPE

/-- The copies of a stage graph, one after the other; a copy that fails says which it is. -/
def State.copyAll (s : State) (slot core : Nat) : List CopyRec → Except (Code × CopyRec) State
  | [] => .ok s
  | c :: rest =>
    match s.copyTensor slot core c with
    | .error e => .error (e, c)
    | .ok s => State.copyAll s slot core rest

end Sys2Proof.Machine
end

