-- ==== Sys2Proof/Machine/Links.lean ====
section
/-!
DEFINITION. Tether links: flits with retry and credits (R320 to R324), the packets they carry, reroute and standby
links (R335), fences (R336), retraining, and delivery of whole messages (R329).
-/
namespace Sys2Proof.Machine
open Sys2Proof

/-- Bytes of a DATA field (R320). -/
def dataField : Nat := 242

/-! ### Packets as bytes (R329) -/

/-- The 32 header bytes. -/
def headerBytes (h : PacketHdr) : List Byte :=
  let w0 := h.dest.toNat + (h.source.toNat <<< 20) + (h.cls.toNat <<< 40) + (b2n h.vc <<< 42) +
    (b2n h.sourceRouted <<< 43) + (b2n h.more <<< 44) + (h.hopsLeft <<< 48) + (h.kind <<< 56)
  let w1 := h.length + (h.tag <<< 16) + (h.inject.toNat <<< 32)
  let route := (List.range 8).foldl (fun acc i => acc + (((h.route.getD i 0) % 64) <<< (6 * i))) 0
  natLe 8 w0 ++ natLe 8 w1 ++ natLe 8 (route + (h.pos <<< 48) + (h.routeLen <<< 52)) ++ zeros 8

def packetBytes (p : Packet) : List Byte := headerBytes p.hdr ++ p.body

/-- Flits of a packet: ceil((32 + LENGTH) / 242). -/
def packetFlits (len : Nat) : Nat := ceilDiv (32 + len) dataField

/-- The DATA fields of a packet, the last padded with zeros. -/
def dataFields (p : Packet) : List (List Byte) :=
  (chunksOf dataField (packetFlits p.hdr.length + 1) (packetBytes p)).map (fitTo dataField)

/-! ### Flits as bytes (R320) -/

/-- A credit return as its two bytes: CLASS, VC, VALID, COUNT. -/
def creditBytes (c : Option (BitVec 2 × Bool × Nat)) : List Byte :=
  match c with
  | some (cls, vc, n) => natLe 2 (cls.toNat + (b2n vc <<< 2) + (1 <<< 3) + ((n % 256) <<< 4))
  | none => zeros 2

/-- Bytes 0 to 251 of a flit, which its CRC covers. -/
def flitCovered (f : Flit) : List Byte :=
  natLe 2 (f.seq.toNat + (f.kind.toNat <<< 12)) ++ natLe 2 f.ack.toNat ++ creditBytes f.creditA ++ creditBytes f.creditB ++
    natLe 1 (f.cls.toNat + (b2n f.vc <<< 2) + (b2n f.first <<< 3)) ++ zeros 1 ++ fitTo dataField f.data

/-- The CRC field agrees with the bytes it covers. -/
def flitGood (f : Flit) : Bool := f.crc == crc32c 0 (flitCovered f)

/-- The flit with the CRC its bytes give. -/
def sealFlit (f : Flit) : Flit := { f with crc := crc32c 0 (flitCovered f) }

/-! ### Credits (R323) -/

def creditField (vc : Bool) : FRef := if vc then F.TTH_LINK_CREDIT_VC1 else F.TTH_LINK_CREDIT_VC0

def State.credit (s : State) (l cls : Nat) (vc : Bool) : Nat :=
  bitsOf (s.fget (creditField vc) l) (8 * cls + 7) (8 * cls)

def State.setCredit (s : State) (l cls : Nat) (vc : Bool) (n : Nat) : State :=
  let v := s.fget (creditField vc) l
  s.fset (creditField vc) l (v - (bitsOf v (8 * cls + 7) (8 * cls) <<< (8 * cls)) + (min n 255 <<< (8 * cls)))

/-! ### Sending (R321, R324) -/

/-- An IDLE flit with the current ACK (R321), or a NAK. -/
def LinkX.control (x : LinkX) (kind : BitVec 2) (credit : Option (BitVec 2 × Bool × Nat)) : Flit :=
  sealFlit
    { seq := BitVec.ofNat 12 x.txSeq, kind := kind, ack := BitVec.ofNat 12 (x.rxNext + 4095), creditA := credit,
      creditB := none, cls := 0, vc := false, first := false, data := zeros dataField, crc := 0, fecBad := 0 }

/-- Send an IDLE flit carrying ACK. -/
def State.sendAck (s : State) (l : Nat) (credit : Option (BitVec 2 × Bool × Nat) := none) : State :=
  let x := s.linkx l
  (s.setLinkx { x with rxCount := 0 }).out (.flit l (x.control 1 credit))

/-- One NAK for each error (R321). -/
def State.sendNak (s : State) (l : Nat) : State :=
  let x := s.linkx l
  (s.setLinkx { x with nakSent := true, rxCount := 0 }).out (.flit l (x.control 2 none))

/-- A flit whose SEQ is not the expected one shows an error, unless it follows one already answered by a NAK: then it is
discarded with the flits that follow the error (R321). -/
def State.outOfOrder (s : State) (l : Nat) : State := if (s.linkx l).nakSent then s else s.sendNak l

/-- Whether a queue has something to send: a packet partly sent, or one waiting. -/
def LinkX.hasData (x : LinkX) (k : Nat) : Bool := x.sending.any (·.1 == k) || !(x.queue k).isEmpty

/-- The queue of a class that can send now: VC0, VC1, or when both can, one of them. -/
def State.readyVc (s : State) (l cls : Nat) : Option Nat × State :=
  let x := s.linkx l
  let ok (vc : Bool) := x.hasData (cls * 2 + b2n vc) && s.credit l cls vc > 0
  if ok false && ok true then
    let (d, s) := s.draw
    (some (cls * 2 + b2n (Config.coin d)), s)
  else if ok false then (some (cls * 2), s)
  else if ok true then (some (cls * 2 + 1), s)
  else (none, s)

/-- The class after turn `t` in the weighted round (R324): EXCHANGE, BULK, FRAMES, with their weights. -/
def State.roundClass (s : State) (t : Nat) : Nat × Nat :=
  match t % 3 with
  | 0 => (0, s.fget F.TTH_CTL_W_EXCHANGE)
  | 1 => (1, s.fget F.TTH_CTL_W_BULK)
  | _ => (3, s.fget F.TTH_CTL_W_FRAMES)

/-- What the sender chooses for the next flit (R324): CONTROL first, then the weighted round; a class with no data or
no credit is skipped. -/
def State.chooseQueue (s : State) (l : Nat) : Option Nat × State :=
  match s.readyVc l 2 with
  | (some k, s) => (some k, s)
  | (none, s) =>
    let x := s.linkx l
    let (cls, w) := s.roundClass x.turn
    match (if x.left < w then s.readyVc l cls else (none, s)) with
    | (some k, s) => (some k, s.setLinkx { s.linkx l with left := x.left + 1 })
    | (none, s) =>
      let try1 (s : State) (t : Nat) : Option Nat × State :=
        match s.readyVc l (s.roundClass t).1 with
        | (some k, s) => (some k, s.setLinkx { s.linkx l with turn := t % 3, left := 1 })
        | (none, s) => (none, s)
      match try1 s (x.turn + 1) with
      | (some k, s) => (some k, s)
      | (none, s) =>
        match try1 s (x.turn + 2) with
        | (some k, s) => (some k, s)
        | (none, s) => try1 s x.turn

/-- Take the packet at the head of a queue, or drop it there if it is too old (R330). -/
def State.startPacket (s : State) (l k : Nat) : State :=
  let x := s.linkx l
  if x.sending.any (·.1 == k) then s
  else
    match x.queue k with
    | [] => s
    | p :: r =>
      let x := x.setQueue k r
      if s.tooOld p && p.hdr.dest.toNat != 0xFFFFF then (s.setLinkx x).bump F.TTH_DISCARD_DISCARD_AGE 0 1
      else s.setLinkx { x with sending := x.sending ++ [(k, p, dataFields p)] }

/-- Send one DATA flit of the packet partly sent in a queue. -/
def State.sendFlit (s : State) (l k : Nat) : State :=
  let x := s.linkx l
  match x.sending.find? (·.1 == k) with
  | some (_, p, d :: r) =>
    let cls := k / 2
    let vc := k % 2 == 1
    let first := (d :: r).length == packetFlits p.hdr.length
    let f : Flit := sealFlit
      { seq := BitVec.ofNat 12 x.txSeq, kind := 0, ack := BitVec.ofNat 12 (x.rxNext + 4095), creditA := none,
        creditB := none, cls := BitVec.ofNat 2 cls, vc := vc, first := first, data := d, crc := 0, fecBad := 0 }
    let x := { x with
      txSeq := (x.txSeq + 1) % 4096, rxCount := 0, replay := x.replay ++ [f],
      ackAt := if x.replay.isEmpty then s.now else x.ackAt,
      sending := if r.isEmpty then x.sending.filter (·.1 != k)
        else updWhere (·.1 == k) (fun _ => (k, p, r)) x.sending,
      flights := if r.isEmpty then x.flights ++ [(x.txSeq, p)] else x.flights }
    let s := (s.setLinkx x).setCredit l cls vc (s.credit l cls vc - 1)
    let s := (s.bump F.TTH_LINK_BYTES_TX_BYTES l dataField).meter (224 + l) dataField
    s.out (.flit l f)
  | _ => s

/-- Whether a link's sender may send DATA flits. -/
def State.sends (s : State) (l : Nat) : Bool :=
  let st := s.linkState l
  st == lnkActive || st == lnkMaintenance

/-- Send flits while a queue has data and credit and the replay buffer of 512 flits has room (R321). -/
def State.pump : Nat → State → Nat → State
  | 0, s, _ => s
  | fuel + 1, s, l =>
    if !s.sends l || (s.linkx l).replay.length ≥ 512 then s
    else
      match s.chooseQueue l with
      | (none, s) =>
        let stalled := (List.range 8).any (fun k => (s.linkx l).hasData k && s.credit l (k / 2) (k % 2 == 1) == 0)
        if stalled then s.event 0xA01 l 1 else s
      | (some k, s) => State.pump fuel ((s.startPacket l k).sendFlit l k) l

/-! ### Receiving (R321, R323) -/

/-- Distance from SEQ a to SEQ b. -/
def seqAhead (a b : Nat) : Nat := (b + 4096 - a % 4096) % 4096

/-- ACK releases the flits up to it and the packets that end with them. -/
def LinkX.acked (x : LinkX) (ack now : Nat) : LinkX :=
  match x.replay with
  | [] => x
  | f :: _ =>
    let n := seqAhead f.seq.toNat (ack + 1)
    if n = 0 ∨ n > x.replay.length then x
    else { x with
      replay := x.replay.drop n, ackAt := now, nakCount := 0, nakAck := none,
      flights := x.flights.filter (fun q => seqAhead f.seq.toNat q.1 ≥ n) }

/-- A credit return. -/
def State.takeCredit (s : State) (l : Nat) (c : Option (BitVec 2 × Bool × Nat)) : State :=
  match c with
  | some (cls, vc, n) => s.setCredit l cls.toNat vc (s.credit l cls.toNat vc + n)
  | none => s

/-- The bytes of a packet partly received, and whether it is whole. -/
def packetWhole (bs : List Byte) : Bool := decide (32 ≤ bs.length) && decide (32 + u16 bs 8 ≤ bs.length)

/-- Accept a DATA flit in order: its bytes join the packet of its queue; the flit's place is freed and its credit
returned with the next ACK (R321, R323). -/
def State.acceptFlit (s : State) (l : Nat) (f : Flit) : State :=
  let x := s.linkx l
  let k := vcKey f.cls f.vc
  let bs := (if f.first then [] else lookupD [] x.parts k) ++ f.data
  let whole := packetWhole bs
  let x := { x with
    rxNext := (x.rxNext + 1) % 4096, rxCount := x.rxCount + 1, nakSent := false,
    parts := if whole then x.parts.filter (·.1 != k) else assocSet x.parts k bs,
    lastWhole := if whole then f.seq.toNat else x.lastWhole }
  let s := ((s.setLinkx x).bump F.TTH_LINK_BYTES_RX_BYTES l dataField).meter (288 + l) dataField
  if x.rxCount ≥ 16 then s.sendAck l (some (f.cls, f.vc, 1))
  else s.out (.flit l (x.control 1 (some (f.cls, f.vc, 1))))

/-- A NAK: every flit after its ACK is sent again, in order (R321). -/
def State.takeNak (s : State) (l ack : Nat) : State :=
  let x := s.linkx l
  let x := { x with nakAck := some ack, nakCount := if x.nakAck = some ack then x.nakCount + 1 else 1 }
  let s := ((s.setLinkx x).bump F.TTH_LINK_ERR_RETRIES l 1).event 0xA00 l 1
  x.replay.foldl (fun s f => s.out (.flit l (sealFlit { f with ack := BitVec.ofNat 12 (x.rxNext + 4095) }))) s

/-- A flit is received (R321). -/
def flitReceive (link : Fin 64) (f : Flit) (s : State) : State :=
  let l := link.val
  let st := s.linkState l
  if !(st == lnkActive || st == lnkStandby || st == lnkMaintenance) || (s.linkx l).closed then s
  else
    let s := s.bump F.TTH_LINK_ERR_UNCORRECTED l f.fecBad
    if !flitGood f then s.sendNak l
    else
      let s := s.setLinkx ((s.linkx l).acked f.ack.toNat s.now)
      let s := (s.takeCredit l f.creditA).takeCredit l f.creditB
      let s :=
        if f.kind = 0 then
          if f.seq.toNat = (s.linkx l).rxNext then s.acceptFlit l f else s.outOfOrder l
        else if f.kind = 1 then
          if f.seq.toNat = (s.linkx l).rxNext then s else s.outOfOrder l
        else if f.kind = 2 then s.takeNak l f.ack.toNat
        else s
      s.pump 512 l

/-- An ACK is returned at least every 100 ns (R321). -/
def ackTimer (link : Fin 64) (s : State) : State :=
  if (s.linkx link).rxCount > 0 then s.sendAck link else s

/-- A packet reaches the head of an output queue: its age is tested again (R330), and it leaves as credit allows. -/
def packetDequeue (link : Fin 64) (cls : BitVec 2) (vc : Bool) (s : State) : State :=
  if s.sends link then (s.startPacket link (vcKey cls vc)).pump 512 link else s

/-! ### Delivery -/

/-- A packet delivered here joins its train; a whole message waits for its unit (R329). -/
def State.deliverPacket (s : State) (p : Packet) : State :=
  let sofar := ((s.tth.trains.find? (fun t => t.1 == p.hdr.source && t.2.1 == p.hdr.tag)).map (·.2.2)).getD []
  let rest := s.tth.trains.filter (fun t => !(t.1 == p.hdr.source && t.2.1 == p.hdr.tag))
  if p.hdr.more then
    { s with tth := { s.tth with trains := rest ++ [(p.hdr.source, p.hdr.tag, sofar ++ p.body)] } }
  else
    { s with tth := { s.tth with trains := rest, inbox := s.tth.inbox ++ [{ p with body := sofar ++ p.body }] } }

/-- The unit of a kind takes a delivered message. -/
def State.takeInbox (s : State) (kind : Nat) (source : BitVec 20) : State :=
  let rec go : List Packet → List Packet
    | [] => []
    | p :: r => if p.hdr.kind == kind && p.hdr.source == source then r else p :: go r
  { s with tth := { s.tth with inbox := go s.tth.inbox } }

/-- Whether a packet may arrive on a link: any on an ACTIVE or STANDBY link; LINK_INIT, LINK_RESET and RELAY on a
MAINTENANCE link (R327). -/
def State.mayArrive (s : State) (l kind : Nat) : Bool :=
  let st := s.linkState l
  st == lnkActive || st == lnkStandby || (st == lnkMaintenance && (kind == 0x0B || kind == 0x0C || kind == 0x0E))

/-- A packet injected or received (R330): delivered, discarded, or sent on. A received packet that is sent on has
HOPS_LEFT decreased. -/
def packetReceive (arrival : Option (Fin 64)) (p : Packet) (s : State) : State :=
  let may := match arrival with
    | some l => s.mayArrive l p.hdr.kind
    | none => true
  if !may || !s.upAndRunning then s
  else
    match s.route arrival.isNone p with
    | .deliver => s.deliverPacket p
    | .leave l q e =>
      let q := if arrival.isSome then { q with hdr := { q.hdr with hopsLeft := q.hdr.hopsLeft - 1 } } else q
      s.leaveOn l q e
    | r => s.follow r p.hdr.dest.toNat

/-! ### Reroute (R335) and fences (R336) -/

/-- The lowest STANDBY link of a mask. -/
def State.standbyOf (s : State) (mask : List Nat) : Option Nat := mask.find? (fun l => s.linkState l == lnkStandby)

/-- The position a link holds: its own, or that of the link it was engaged for. -/
def positionOf (replacedBy : List (Nat × Nat)) (l : Nat) : Nat :=
  ((replacedBy.find? (fun p => p.2 == l)).map (·.1)).getD l

/-- Engage the standby link of one entry for a link that left and held the position of `owner` (R335). -/
def State.engageFor (s : State) (l owner : Nat) (r : RouteEntry) : State :=
  if !(r.mask.contains l && r.mask.contains owner) ||
      s.tth.replacedBy.any (fun p => p.1 == owner && p.2 != l && r.mask.contains p.2) then s
  else
    match s.standbyOf r.mask with
    | none => s
    | some n =>
      let s := { s with tth := { s.tth with replacedBy :=
        (s.tth.replacedBy.filter (fun (p : Nat × Nat) => !(p.1 == owner && r.mask.contains p.2))) ++ [(owner, n)] } }
      let s := ((s.fset F.TTH_LINK_STATUS_STATE n lnkActive).fset F.TTH_LINK_STATUS_ENGAGED n 1).fset
        F.TTH_LINK_STATUS_RESERVE n 0
      let s := s.setLinkx { s.linkx l with replaced := true }
      s.attn C.STANDBY_ENGAGED [n, l]

/-- The standby links of every entry are engaged for a link that left; it holds no position any more. -/
def State.engageAll (s : State) (l : Nat) : State :=
  let owner := positionOf s.tth.replacedBy l
  let s := s.routeTable.foldl (fun s r => s.engageFor l owner r) s
  { s with tth := { s.tth with replacedBy := s.tth.replacedBy.filter (fun (p : Nat × Nat) => p.2 != l) } }

/-- The packets a link that left had not had acknowledged, those partly sent, and those still queued. -/
def LinkX.stranded (x : LinkX) : List (Nat × Packet) × List Packet :=
  let mine (p : Packet) := p.hdr.dest.toNat != 0xFFFFF
  ((x.flights ++ x.sending.map (fun q => ((x.txSeq + 1000) % 4096, q.2.1))).filter (fun q => mine q.2),
    (x.queues.flatMap (·.2)).filter mine)

/-- Hold the pairs of an entry that had link `l` before its list changed and have another now, until what they have under
way on `l`, which stays in service, is past its lifetime (R336, log entry 56). -/
def State.holdOldList (s : State) (e : Nat) (old : List Nat) (l : Nat) : State :=
  let fs := s.tth.fences
  let f : Fence := (fs.find? (fun g => g.old == l)).getD ⟨l, none, s.now, [], [], []⟩
  let f := { f with startedAt := s.now, lists := f.lists.filter (fun q => q.1 != e) ++ [(e, old)] }
  { s with tth := { s.tth with fences := fs.filter (fun g => g.old != l) ++ [f] } }

/-- The same for every link of the old list but `but`. -/
def State.holdOthers (s : State) (e : Nat) (old : List Nat) (but : Option Nat) : State :=
  (old.filter (fun l => but != some l)).foldl (fun s l => s.holdOldList e old l) s

/-- A link leaves ACTIVE (R335, R336): the traffic lists change in one step, the pairs whose link changed are held,
FENCE goes out on a new link to the same neighbour; with none, what was not acknowledged is discarded. The link's
STATE is set first. -/
def State.reroute (s : State) (l : Nat) (before : List (Nat × List Nat)) : State :=
  let s := s.engageAll l
  let changed := before.filter (fun b =>
    s.routeTable.any (fun r => r.index == b.1 && !r.sourceRoute && s.traffic r != b.2))
  let x := s.linkx l
  let (unacked, queued) := x.stranded
  let peer := s.fget F.TTH_LINK_STATUS_PEER_DEVICE l
  let next := (s.routeTable.filter (fun r => changed.any (·.1 == r.index))).flatMap s.traffic
  let new := next.find? (fun n => s.fget F.TTH_LINK_STATUS_PEER_DEVICE n == peer)
  let s := s.setLinkx { x with flights := [], sending := [], replay := [], queues := [] }
  let lost := if new.isSome then 0 else unacked.length
  let f : Fence := ⟨l, new, s.now, if new.isSome then unacked else [], queued, changed⟩
  let s := { s with tth := { s.tth with fences := s.tth.fences.filter (fun (g : Fence) => g.old != l) ++ [f] } }
  let s := changed.foldl (fun s q => s.holdOthers q.1 q.2 (some l)) s
  let s := match new with
    | some n => s.sendControl n 0x09 (natLe 1 l ++ zeros 7)
    | none => s.bump F.TTH_LINK_ERR_LOST l lost
  s.attn C.ROUTE_CHANGED [l, changed.length]

/-- The traffic lists of all entries. -/
def State.allTraffic (s : State) : List (Nat × List Nat) :=
  (s.routeTable.filter (fun r => !r.sourceRoute)).map (fun r => (r.index, s.traffic r))

/-- A link goes from its state to another that carries no traffic; an ACTIVE one is rerouted. -/
def State.leaveService (s : State) (l newState : Nat) : State :=
  let active := s.linkState l == lnkActive
  let before := s.allTraffic
  let s := s.fset F.TTH_LINK_STATUS_STATE l newState
  let s := s.fset F.TTH_LINK_STATUS_ENGAGED l 0
  if active then s.reroute l before else s

/-- Send held packets by the routing table as it stands. -/
def State.releaseHeld (s : State) (ps : List Packet) : State :=
  ps.foldl (fun s p => s.follow (s.route (p.hdr.source.toNat == s.device) p) p.hdr.dest.toNat) s

/-- FENCE received on a link, naming the sender's old link: this side stops accepting on it, drops a partial packet
and answers with the SEQ of the last flit of the last whole packet (R336). -/
def fence (link old : Fin 64) (s : State) : State :=
  if s.linkState link != lnkActive then s
  else
    let peer := s.fget F.TTH_LINK_STATUS_PEER_DEVICE link
    match (List.range 64).find? (fun l => s.fget F.TTH_LINK_STATUS_PEER_DEVICE l == peer &&
        s.fget F.TTH_LINK_STATUS_PEER_LINK l == old.val) with
    | none => s
    | some l =>
      let x := s.linkx l
      let s := s.setLinkx { x with closed := true, parts := [] }
      s.sendControl link 0x0A (natLe 1 old ++ [0] ++ natLe 2 x.lastWhole ++ zeros 4)

/-- FENCE_ACK: packets after its SEQ are sent again on the new link, ahead of later traffic, then the held pairs are
released (R336). -/
def fenceAck (link old : Fin 64) (seq : BitVec 12) (s : State) : State :=
  match s.tth.fences.find? (fun f => f.old == old.val && f.new == some link.val) with
  | none => s
  | some f =>
    let s := { s with tth := { s.tth with fences := s.tth.fences.filter (·.old != old.val) } }
    let again := (f.unacked.filter (fun q => let d := seqAhead seq.toNat q.1; 0 < d && d < 2048)).map (·.2)
    let s := again.foldl (fun s p => s.enqueue link p) s
    s.releaseHeld f.held

/-- No FENCE_ACK within LIFETIME_US: unacknowledged packets are discarded and counted, the pairs released (R336). -/
def fenceTimeout (old : Fin 64) (s : State) : State :=
  match s.tth.fences.find? (·.old == old.val) with
  | none => s
  | some f =>
    if s.now < f.startedAt + s.fget F.TTH_CTL_LIFETIME_US * 1000 then s
    else
      let s := { s with tth := { s.tth with fences := s.tth.fences.filter (·.old != old.val) } }
      (s.bump F.TTH_LINK_ERR_LOST old f.unacked.length).releaseHeld f.held

/-! ### Meridian time over the links (R339, R340) -/

/-- The ACTIVE neighbour with the lowest stratum below 255; ties to the lower device, then the lower link. -/
def State.parent (s : State) : Option (Nat × Nat) :=
  let c := s.activeLinks.filterMap (fun l =>
    let st := lookupD 255 s.tth.peerStrata l
    if st < 255 then some (st, s.fget F.TTH_LINK_STATUS_PEER_DEVICE l, l) else none)
  (c.foldl (fun best e =>
    match best with
    | none => some e
    | some b => if e.1 < b.1 ∨ (e.1 = b.1 ∧ (e.2.1 < b.2.1 ∨ (e.2.1 = b.2.1 ∧ e.2.2 < b.2.2))) then some e else best)
    none).map (fun e => (e.2.2, e.1))

/-- Choose the parent again: stratum of the parent plus 1, up to 254; with none 255 and unlocked; a parent lost is
reported (R339, R344). -/
def State.chooseParent (s : State) : State :=
  if s.fget F.TTH_TIME_STRATUM = 0 then s
  else
    match s.parent with
    | some (l, st) => (s.fset F.TTH_TIME_STRATUM 0 (min 254 (st + 1))).fset F.TTH_TIME_PARENT_LINK 0 l
    | none =>
      let had := s.fget F.TTH_TIME_STRATUM != 255
      let s := (s.fset F.TTH_TIME_STRATUM 0 255).fset F.TTH_TIME_LOCKED 0 0
      if had then s.attn C.TIME_FAULT [] else s

/-! ### Training (R325, R326) -/

/-- Steps 1 to 5 from the start: what the lanes showed, and a fresh retry state. -/
def LinkX.retrained (x : LinkX) : LinkX :=
  { LinkX.fresh x.link with queues := x.queues, failedOnce := x.failedOnce, downAt := x.downAt, replaced := x.replaced }

/-- Report and log one lane fault: kind 0 OPEN, 1 SHORT. -/
def State.laneFault (s : State) (l lane kind : Nat) : State :=
  let s := s.attn C.LANE_FAULT [l, lane, kind]
  s.unitReport 0x0C outDegraded 0xFF l l

/-- A link trains: the lanes' faults and corrections are recorded, both directions' widths follow (R325). -/
def linkTrain (link : Fin 64) (z : LaneSense) (s : State) : State :=
  let l := link.val
  let st := s.linkState l
  if !(st == lnkTraining || st == lnkRetraining) then s
  else
    let s := s.setLinkx (s.linkx l).retrained
    let s := if z.short0 then s.laneFault l 0 1 else s
    let s := if z.short1 then s.laneFault l 1 1 else s
    let s := if z.open0 then s.laneFault l 0 0 else s
    let s := if z.open1 then s.laneFault l 1 0 else s
    let s := s.fset F.TTH_LINK_STATUS_SHORT l (b2n z.short0 + 2 * b2n z.short1)
    let s := s.fset F.TTH_LINK_STATUS_OPEN l (b2n z.open0 + 2 * b2n z.open1)
    let s := s.fset F.TTH_LINK_STATUS_TX_WIDTH l (2 - b2n z.short0 - b2n z.short1)
    let s := s.fset F.TTH_LINK_STATUS_RX_WIDTH l (2 - b2n z.open0 - b2n z.open1)
    let s := s.fset F.TTH_LINK_STATUS_POLARITY l (b2n z.invert0 + 2 * b2n z.invert1)
    s.fset F.TTH_LINK_STATUS_REVERSED l (b2n z.swapped)

/-- Training fails: DOWN; reported at the first failure after each success or enable (R325). -/
def trainingFailed (link : Fin 64) (step : Fin 7) (s : State) : State :=
  let l := link.val
  let st := s.linkState l
  if !(st == lnkTraining || st == lnkRetraining) then s
  else
    let x := s.linkx l
    let s := (s.fset F.TTH_LINK_STATUS_STATE l lnkDown).setLinkx { x with failedOnce := true, downAt := s.now }
    if x.failedOnce then s else s.attn C.TRAINING_FAILED [l, step]

/-- A DOWN link tries again every 1 s (R325). -/
def trainingRetry (link : Fin 64) (s : State) : State :=
  if s.linkState link = lnkDown ∧ s.flag F.TTH_LINK_CTL_ENABLE link ∧
      s.now ≥ (s.linkx link).downAt + 1000000000 then
    s.fset F.TTH_LINK_STATUS_STATE link lnkTraining
  else s

/-- The LINK_INIT this device sends (R326). -/
def State.ownInit (s : State) (l : Nat) : LinkInitBody :=
  { device := BitVec.ofNat 20 s.device
    link := ⟨l % 64, Nat.mod_lt _ (by decide)⟩
    epoch := BitVec.ofNat 8 (s.fget F.TTH_ID_EPOCH)
    epochMin := BitVec.ofNat 8 (s.fget F.TTH_ID_EPOCH_MIN)
    epochMax := BitVec.ofNat 8 (s.fget F.TTH_ID_EPOCH_MAX)
    credits := [96, 96, 16, 48, 96, 96, 16, 48]
    standby := s.flag F.TTH_LINK_CTL_STANDBY l || (s.linkx l).replaced }

/-- The state both sides decide, in the order of R326. -/
def linkDecision (own peer : LinkInitBody) : Nat :=
  if peer.epoch < own.epochMin ∨ own.epochMax < peer.epoch ∨ own.epoch < peer.epochMin ∨ peer.epochMax < own.epoch then
    lnkMaintenance
  else if peer.device = own.device then lnkMaintenance
  else if own.standby ∨ peer.standby then lnkStandby
  else lnkActive

/-- The report of the decision. -/
def State.initReport (s : State) (l : Nat) (own peer : LinkInitBody) (st : Nat) : State :=
  if st = lnkMaintenance then
    if peer.device = own.device ∧ ¬ (peer.epoch < own.epochMin ∨ own.epochMax < peer.epoch ∨
        own.epoch < peer.epochMin ∨ peer.epochMax < own.epoch) then s.attn C.DUPLICATE_DEVICE []
    else s.attn C.LINK_MAINTENANCE [own.epoch.toNat, peer.epoch.toNat]
  else
    s.attn C.LINK_UP [st, s.fget F.TTH_LINK_STATUS_TX_WIDTH l, s.fget F.TTH_LINK_STATUS_RX_WIDTH l,
      s.fget F.TTH_LINK_STATUS_POLARITY l, s.fget F.TTH_LINK_STATUS_REVERSED l]

/-- LINK_INIT is exchanged: step 6 of R325 and R326. In bivouac mode links are held in MAINTENANCE (R394). -/
def linkInit (link : Fin 64) (b : LinkInitBody) (s : State) : State :=
  let l := link.val
  let st := s.linkState l
  if !(st == lnkTraining || st == lnkRetraining) || s.fget F.TTH_LINK_STATUS_TX_WIDTH l == 0 ||
      s.fget F.TTH_LINK_STATUS_RX_WIDTH l == 0 then s
  else
    let own := s.ownInit l
    let decided := linkDecision own b
    let new := if s.power.state = .bivouac then lnkMaintenance else decided
    let before := s.allTraffic
    let x := s.linkx l
    let s := (s.setLinkx { x with failedOnce := false, closed := false, ackAt := s.now }).out (.linkInit l own)
    let s := s.fset F.TTH_LINK_STATUS_PEER_DEVICE l b.device.toNat
    let s := s.fset F.TTH_LINK_STATUS_PEER_LINK l b.link
    let s := s.fset F.TTH_LINK_STATUS_PEER_EPOCH l b.epoch.toNat
    let s := s.fset F.TTH_LINK_STATUS_RESERVE l (b2n (new == lnkStandby && x.replaced))
    let s := (List.range 8).foldl (fun s i => s.setCredit l (i % 4) (i ≥ 4) (b.credits.getD i 0)) s
    let s := s.fset F.TTH_LINK_STATUS_STATE l new
    let s := s.initReport l own b new
    let changed := before.filter (fun t => !s.allTraffic.contains t)
    let s := changed.foldl (fun s q => s.holdOthers q.1 q.2 none) s
    let s := if changed.isEmpty then s else s.attn C.ROUTE_CHANGED [l, changed.length]
    let s := { s with tth := { s.tth with peerStrata := s.tth.peerStrata.filter (fun (e : Nat × Nat) => e.1 != l) } }
    s.chooseParent.pump 512 l

/-- Retrain a link (R325, R328, R343); a DISABLED link stays so. -/
def State.retrain (s : State) (l : Nat) : State :=
  if s.linkState l = lnkDisabled then s else (s.leaveService l lnkTraining).chooseParent

/-- A received LINK_RESET RETRAIN retrains the link (R328). -/
def linkResetRetrain (link : Fin 64) (s : State) : State :=
  if s.mayArrive link 0x0C then s.retrain link else s

end Sys2Proof.Machine
end

