-- ==== Sys2Proof/WellFormed.lean ====
section
/-!
DEFINITION. Commands whose operands lie in the ranges that their messages, packets and measurements can carry. A
command of the Odren port outside its message's ranges is answered MESSAGE_INVALID (R351).
-/
namespace Sys2Proof

/-- A register message names 1 to 64 registers (R351). -/
def countOk (n : Nat) : Bool := decide (1 ≤ n ∧ n ≤ 64)

/-- A pool message carries 1 to 8,192 bytes (R351). -/
def poolLenOk (n : Nat) : Bool := decide (1 ≤ n ∧ n ≤ 8192)

/-- The fields of an argument entry (R61) fit their bytes. -/
def ArgEntry.fits (e : ArgEntry) : Bool := decide (e.slot < 256 ∧ e.kind < 256 ∧ e.region < 65536)

def RunBlock.fits (b : RunBlock) : Bool :=
  decide (b.pipeline < 65536 ∧ b.priority < 256 ∧ b.entries.length ≤ 255) && b.entries.all ArgEntry.fits

/-- A packet's fields fit its header (R329). -/
def Packet.fits (p : Packet) : Bool :=
  decide (p.hdr.hopsLeft < 256 ∧ p.hdr.kind < 256 ∧ p.hdr.length = p.body.length ∧ p.body.length ≤ 65504 ∧
    p.hdr.tag < 65536 ∧ p.hdr.pos ≤ 8 ∧ p.hdr.routeLen ≤ 8 ∧ p.hdr.route.length ≤ 8) &&
    p.hdr.route.all (fun l => decide (l < 64))

/-- A flit's DATA field has 242 bytes (R320). -/
def Flit.fits (f : Flit) : Bool := decide (f.data.length = 242)

/-- LINK_INIT advertises eight credit counts (R323, R326). -/
def LinkInitBody.fits (b : LinkInitBody) : Bool :=
  decide (b.credits.length = 8) && b.credits.all (fun c => decide (c < 256))

def RelayBody.fits (b : RelayBody) : Bool := decide (b.hops ≤ 8)

/-- A part holds at most 65,536 entries (R231). -/
def entriesOk (es : List Entry) : Bool := decide (es.length ≤ 65536)

def BundleHdr.fits (b : BundleHdr) : Bool :=
  decide (b.table < 64 ∧ b.op < 8 ∧ b.round < 2 ^ 32 ∧ b.part < 65536)

/-- There are 64 thermal sensors (R365). -/
def sensorsOk (ts : List Nat) : Bool := decide (ts.length = 64)

/-- A TAG has 16 bits (R329). -/
def tagOk (n : Nat) : Bool := decide (n < 65536)

/-- A ROW_WRITE names a table and carries one row (R351, R224). -/
def rowOk (table : Nat) (row : List Byte) : Bool := decide (table < 256 ∧ row.length ≤ 4096)

/-- A time is a 64-bit number of ns (R352). -/
def timeOk (t : Nat) : Bool := decide (t < 2 ^ 64)

/-- The fields of a frame header fit their bytes (R139). -/
def FrameHdr.fits (h : FrameHdr) : Bool :=
  decide (h.stream < 65536 ∧ h.format < 256 ∧ h.capture < 2 ^ 64 ∧ h.width < 65536 ∧ h.height < 65536 ∧ h.bytes < 2 ^ 32)

/-- The operands of a command lie in their ranges. -/
def Instr.wellFormed : Instr → Bool
  | .readReg _ _ n => countOk n
  | .writeReg _ _ ws => countOk ws.length
  | .run _ b => b.fits
  | .rowWrite _ t _ _ row => rowOk t row
  | .poolRead _ _ n => poolLenOk n
  | .poolWrite _ _ d => poolLenOk d.length
  | .erase _ _ o n => decide (o < 2 ^ 32 ∧ n < 2 ^ 32)
  | .program _ _ o d => decide (o < 2 ^ 32 ∧ d.length ≤ 8192)
  | .timeQuery _ t => timeOk t
  | .timeSet _ _ t => timeOk t
  | .timeAdjust _ _ d => decide (-(2 ^ 63 : Int) ≤ d ∧ d < (2 ^ 63 : Int))
  | .relay _ b => b.fits
  | .relayed _ b => b.fits
  | .admission f => f.hdr.fits
  | .frameNoRun f => f.hdr.fits
  | .lookupReq b es => b.fits && entriesOk es
  | .lookupResp b es => b.fits && entriesOk es
  | .updateReq b es => b.fits && entriesOk es
  | .updateAck b es => b.fits && entriesOk es
  | .forwardReq b es => b.fits && entriesOk es
  | .forwardResp b es => b.fits && entriesOk es
  | .hotPush b es => b.fits && entriesOk es
  | .hotInvalidate b es => b.fits && entriesOk es
  | .hotAck b => b.fits
  | .migrateRows b es => b.fits && entriesOk es
  | .migrateAck b _ => b.fits
  | .mapUpdate b p _ _ => b.fits && decide (p < 65536)
  | .endOfBuild b => b.fits
  | .partitionRows b stage _ => b.fits && decide (stage < 64)
  | .flitReceive _ f => f.fits
  | .linkInit _ b => b.fits
  | .packetReceive _ p => p.fits
  | .poolReadReq _ tag _ n => tagOk tag && decide (1 ≤ n ∧ n ≤ 1048576)
  | .poolReadResp _ tag _ _ => tagOk tag
  | .poolWritePacket _ tag _ d _ => tagOk tag && decide (1 ≤ d.length ∧ d.length ≤ 65488)
  | .poolWriteAck _ tag _ => tagOk tag
  | .poolTimeout tag => tagOk tag
  | .timeSync _ _ a b c stratum => timeOk a && timeOk b && timeOk c && decide (stratum < 256)
  | .governorCheck _ ts => sensorsOk ts
  | .enrollFirst position digest => decide (position < 4 ∧ digest.length = 64)
  | .modThermN ts => sensorsOk ts
  | .rowWriteForwarded _ tag t _ _ row => tagOk tag && rowOk t row
  | .hello .. | .prove .. | .close .. | .sessionOpenTimeout .. | .sessionIdleTimeout .. | .odrenFrameDiscard ..
  | .cancel .. | .query .. | .watchSet .. | .watchClear .. | .finalResponse .. | .soft .. | .quickRepitch ..
  | .coldRepitch .. | .attnAck .. | .attnFirstSend .. | .attnResend .. | .portDown | .portUp | .crossedFibre
  | .taskDispatch | .scan .. | .filter .. | .project .. | .hash .. | .bucket .. | .normalise .. | .stats ..
  | .statsMerge .. | .partition .. | .joinBuild .. | .joinProbe .. | .dictJoin .. | .gather .. | .scatter ..
  | .lookup .. | .update .. | .decode .. | .parse .. | .pyramid .. | .compress .. | .decompress .. | .model ..
  | .batch .. | .emit .. | .batchTimeout .. | .stragglerDefer .. | .stragglerAbandon .. | .readIndexUpdate ..
  | .cancelApply .. | .taskStop .. | .weightLoad .. | .mstWrite .. | .mstInsert .. | .mstRemove .. | .mstRead ..
  | .mstSearch .. | .mstOpHead .. | .shiftMove .. | .shiftEnd .. | .searchGrant | .mstTempSample ..
  | .mstScrubVisit .. | .blockRetire .. | .spareSwap .. | .shadowRebuilt .. | .streamSuspend .. | .streamResume ..
  | .roundClose .. | .roundTimeout .. | .hotDecay | .migrate .. | .migrateForce .. | .autoMigrateCheck ..
  | .forwardingEnd .. | .migrateFree .. | .migrationTimeout .. | .ackTimer .. | .linkDown .. | .linkTrain ..
  | .trainingFailed .. | .trainingRetry .. | .retrain .. | .sendResetRetrain .. | .sendResetWarm ..
  | .linkResetRetrain .. | .linkResetWarm .. | .packetDequeue .. | .tthRouteWrite .. | .fence .. | .fenceAck ..
  | .fenceTimeout .. | .watchNotify .. | .timeSyncTimer | .departed .. | .joinRequest .. | .joinReply ..
  | .joinWaitExpiry | .scrubRead .. | .scrubForcedTurn .. | .mirrorRebuilt .. | .vaultRefresh .. | .lpddr6Refresh ..
  | .clusterShade .. | .clusterWake .. | .censusWindow | .logEnable .. | .engineRelease .. | .bankRequest ..
  | .douseRequest .. | .alarm | .pwsClusterReset .. | .clusterLit .. | .watchdogExpiry | .warmPin | .powerOn ..
  | .pwrgoodFall | .lossOf48V | .inputSwitchRetry .. | .slotCheck .. | .nextSlot .. | .rollbackCommit ..
  | .enroll .. | .revoke .. | .quoteGo .. | .certificateLoad .. | .quoteReady | .probe .. | .unitFailed ..
  | .coreReplace .. | .vaultReplace .. | .clusterReplace .. | .unitClear .. | .logClear .. | .governorFastCheck ..
  | .clusterHold .. | .clusterHoldRelease .. | .thermalTrip .. | .pmcWindow | .counterOverflow .. | .counterWrite ..
  | .energySample .. | .tdTest .. | .tdOff .. | .mgmtReadReg .. | .wake | .douse | .mgmtStatus | .mgmtStuck
  | .mgmtReconnect | .moduleSample .. | .jtagInstruction .. | .pitchCopyRewrite | .linkDisable ..
  | .messageInvalid .. | .watchRegisteredAtOwner .. | .dynamicAddress => true

end Sys2Proof
end

