-- ==== Sys2Proof/Machine/Pool.lean ====
section
/-!
DEFINITION. Pool accesses (R31, R329, R356), control-node watches (R44, R47), and the memory's own maintenance:
scrub (R39, R40), mirror rebuild (R38), refresh (R41, R42).
-/
namespace Sys2Proof.Machine
open Sys2Proof

/-! ### Pool accesses -/

/-- An Operator's access must lie in regions that allow it; the check is against this device's own declarations,
also for another device's address (R356). -/
def State.mayPool (s : State) (x : Session) (write : Bool) (addr : W64) (n : Nat) : Bool :=
  x.role == .keeper ||
    (match parts (poolLocal addr) n with
     | some ps => s.operatorMay write ps
     | none => false)

/-- An own request is injected and waits under its TAG (R329). -/
def State.request (s : State) (dest kind : Nat) (body : List Byte) : Nat × State :=
  let (tag, s) := s.newTag
  let s := s.injectBody dest 1 kind tag body
  (tag, { s with tth := { s.tth with reqs := s.tth.reqs ++ [⟨tag, BitVec.ofNat 20 dest, s.now⟩] } })

/-- A POOL_READ and a POOL_WRITE of this device's own memory. -/
def State.localRead (s : State) (addr : W64) (len : Nat) : Answer :=
  match s.checkedRead (poolLocal addr) len with
  | .error c => s.refuse c
  | .ok (bs, s) => s.ok (bs.map (·.1))

def State.localWrite (s : State) (addr : W64) (data : List Byte) : Answer :=
  match s.checkedWrite (poolLocal addr) data with
  | .error c => s.refuse c
  | .ok s => s.ok

/-- POOL_READ: locally, or through the owner (R31); it waits while its vault does not serve. -/
def State.doPoolRead (s : State) (x : Session) (seq : Nat) (addr : W64) (len : Nat) : Answer :=
  if !poolLenOk len then s.refuse C.MESSAGE_INVALID
  else if !s.mayPool x false addr len then s.refuse C.ROLE_DENIED
  else if poolDevice addr = s.device then
    let w : VaultWait := .read x.id seq addr len
    if s.queues w (s.accessWaits (poolLocal addr) len) then
      ((s.askVaults (poolLocal addr) len).putWait w).pend x tyPoolRead seq .vault none
    else s.localRead addr len
  else if !s.reachable (poolDevice addr) then s.refuse C.PEER_UNREACHABLE
  else
    let (tag, s) := s.request (poolDevice addr) 0x02 (natLe 8 addr.toNat ++ natLe 4 len ++ zeros 4)
    s.pend x tyPoolRead seq (.poolRead tag) none

def State.doPoolWrite (s : State) (x : Session) (seq : Nat) (addr : W64) (data : List Byte) : Answer :=
  if !poolLenOk data.length then s.refuse C.MESSAGE_INVALID
  else if !s.mayPool x true addr data.length then s.refuse C.ROLE_DENIED
  else if poolDevice addr = s.device then
    let w : VaultWait := .write x.id seq addr data
    if s.queues w (s.accessWaits (poolLocal addr) data.length) then
      ((s.askVaults (poolLocal addr) data.length).putWait w).pend x tyPoolWrite seq .vault none
    else s.localWrite addr data
  else if !s.reachable (poolDevice addr) then s.refuse C.PEER_UNREACHABLE
  else
    let (tag, s) := s.request (poolDevice addr) 0x04 (natLe 8 addr.toNat ++ natLe 4 data.length ++ zeros 4 ++ data)
    s.pend x tyPoolWrite seq (.poolWrite tag) none

/-- An owner performs a pool read, once its vault serves, and returns status and data (R31, R329). The response has no
poison mark. -/
def State.ownerRead (s : State) (source : BitVec 20) (tag : Nat) (addr : W64) (len : Nat) : State :=
  let w : VaultWait := .peerRead source tag addr len
  if s.queues w (s.accessWaits (poolLocal addr) len) then (s.askVaults (poolLocal addr) len).putWait w
  else
    match s.checkedRead (poolLocal addr) len with
    | .error c => s.injectBody source.toNat 1 0x03 tag (natLe 2 c.toNat ++ zeros 6)
    | .ok (bs, s) => s.injectBody source.toNat 1 0x03 tag (zeros 8 ++ bs.map (·.1))

def poolReadReq (source : BitVec 20) (tag : Nat) (addr : W64) (len : Nat) (s : State) : State :=
  if !s.lit then s else (s.takeInbox 0x02 source).ownerRead source tag addr len

/-- An owner performs a pool write, once its vault serves, and acknowledges it; `poison` names the poisoned words by
index. -/
def State.ownerWrite (s : State) (source : BitVec 20) (tag : Nat) (addr : W64) (data : List Byte) (poison : List Nat) :
    State :=
  let w : VaultWait := .peerWrite source tag addr data poison
  if s.queues w (s.accessWaits (poolLocal addr) data.length) then
    (s.askVaults (poolLocal addr) data.length).putWait w
  else
    match s.checkedWrite (poolLocal addr) data (fun i => poison.contains i) with
    | .error c => s.injectBody source.toNat 1 0x05 tag (natLe 2 c.toNat ++ zeros 6)
    | .ok s => s.injectBody source.toNat 1 0x05 tag (zeros 8)

def poolWritePacket (source : BitVec 20) (tag : Nat) (addr : W64) (data : List Byte) (poison : List Nat) (s : State) :
    State :=
  if !s.lit then s else (s.takeInbox 0x04 source).ownerWrite source tag addr data poison

/-- Take an own request off the list: a response that finds none is discarded (R329). -/
def State.takeRequest (s : State) (source : BitVec 20) (tag : Nat) : Option PoolReq × State :=
  match s.tth.reqs.find? (fun r => r.tag == tag && r.dest == source) with
  | none => (none, s)
  | some r => (some r, { s with tth := { s.tth with
      reqs := s.tth.reqs.filter (fun q => !(q.tag == tag && q.dest == source)) } })

def isPoolRead (tag : Nat) : PendWork → Bool
  | .poolRead t => t == tag
  | _ => false

def isPoolWrite (tag : Nat) : PendWork → Bool
  | .poolWrite t => t == tag
  | _ => false

def isRowWrite (tag : Nat) : PendWork → Bool
  | .rowWrite t => t == tag
  | _ => false

/-- A read that a RUN waits for has been answered, or has failed (R62 check 10). -/
def PendWork.indexRead (w : PendWork) (tag : Nat) (v : Option W64) : PendWork :=
  match w with
  | .run b asked known =>
    match asked.find? (fun e => e.1 == tag) with
    | some (_, a) => .run b (asked.filter (fun e => e.1 != tag)) (known ++ [(a, v)])
    | none => w
  | _ => w

def State.indexAnswered (s : State) (tag : Nat) (v : Option W64) : State :=
  { s with odn := { s.odn with sessions := s.odn.sessions.map (fun x =>
      { x with pends := x.pends.map (fun e => { e with work := e.work.indexRead tag v }) }) } }

/-- The response of a pool read: the command that waits has its result (R329, R350). -/
def poolReadResp (source : BitVec 20) (tag : Nat) (status : Code) (data : List Byte) (s : State) : State :=
  let s := s.takeInbox 0x03 source
  match s.takeRequest source tag with
  | (none, s) => s
  | (some _, s) =>
    let s := s.settlePend (isPoolRead tag) status (if status = C.OK then data else [])
    s.indexAnswered tag (if status = C.OK ∧ data.length = 8 then some (BitVec.ofNat 64 (leNat data)) else none)

/-- The answer to a pool write, or to a ROW_WRITE that was passed on to its owner: how that answer carries the new
version is open (log entry 40). -/
def poolWriteAck (source : BitVec 20) (tag : Nat) (status : Code) (s : State) : State :=
  let s := s.takeInbox 0x05 source
  match s.takeRequest source tag with
  | (none, s) => s
  | (some _, s) =>
    let (d, s) := s.draw
    let version := if status = C.OK then natLe 4 (Config.word32 d).toNat else []
    (s.settlePend (isPoolWrite tag) status []).settlePend (isRowWrite tag) status version

/-- Whether a request of this device to `source` awaits its answer under a TAG. -/
def State.awaits (s : State) (source : BitVec 20) (tag : Nat) : Bool :=
  s.tth.reqs.any (fun r => r.tag == tag && r.dest == source)

/-- A request without response for 2 × LIFETIME_US fails with POOL_TIMEOUT (R329). -/
def poolTimeout (tag : Nat) (s : State) : State :=
  match s.tth.reqs.find? (·.tag == tag) with
  | none => s
  | some r =>
    if s.now < r.sentAt + 2 * s.fget F.TTH_CTL_LIFETIME_US * 1000 then s
    else
      let s := { s with tth := { s.tth with reqs := s.tth.reqs.filter (·.tag != tag) } }
      let s := s.settlePend (fun w => isPoolRead tag w || isPoolWrite tag w || isRowWrite tag w) C.POOL_TIMEOUT []
      s.indexAnswered tag none

/-! ### Watches -/

/-- The refusal of a watch word (R44, R224, R196, R369), or its physical address. -/
def State.watchCheck (s : State) (a : Nat) : Except Code Nat :=
  if a % 8 ≠ 0 then .error C.ALIGNMENT
  else
    match physOf a with
    | none => .error C.ADDRESS_UNMAPPED
    | some p =>
      match s.partCheck p 8 with
      | some c => .error c
      | none => .ok p

/-- Enter a watch on a word of this device, or refuse with WATCH_TABLE_FULL (R44); the word's vault hears a request, which
wakes a shaded cluster (R43). -/
def State.enterWatch (s : State) (a : Nat) (addr : W64) (who : Watcher) : Except Code State × State :=
  match s.watchCheck a with
  | .error c => (.error c, s)
  | .ok p =>
    match s.addWatch ⟨p, addr, who⟩ with
    | some t =>
      let t := match bankOf p with
        | .vault v _ => if t.shaded (v / 16) then t.vaultRequest v else t
        | .channel _ _ => t
      (.ok t, t)
    | none => (.error C.WATCH_TABLE_FULL, s.fset F.VLT_WATCH_REFUSED 0 1)

/-- WATCH SET (R44, R47). A word this session already watches takes no second entry. The map of local addresses is the
same on every device, so another device's word that is not mapped is refused here; no message of the manual carries
the owner's answer to a registration, so the command is answered at once (log entry 159). -/
def State.doWatchSet (s : State) (x : Session) (addr : W64) : Answer :=
  let who := Watcher.session x.id
  if !s.mayPool x false addr 8 then s.refuse C.ROLE_DENIED
  else if poolDevice addr = s.device then
    if s.side.watches.any (fun w => w.addr == addr && w.who == who) then s.ok
    else
      match s.enterWatch (poolLocal addr) addr who with
      | (.ok t, _) => t.ok
      | (.error c, t) => t.refuse c
  else if addr.toNat % 8 ≠ 0 then s.refuse C.ALIGNMENT
  else if (physOf (poolLocal addr)).isNone then s.refuse C.ADDRESS_UNMAPPED
  else if !s.reachable (poolDevice addr) then s.refuse C.PEER_UNREACHABLE
  else if s.side.remote.any (fun w => w.addr == addr && w.who == who) then s.ok
  else (s.addRemote addr who).ok

/-- WATCH CLEAR (R47): frees the entry; a word not watched is answered the same. -/
def State.doWatchClear (s : State) (x : Session) (addr : W64) : Answer :=
  let who := Watcher.session x.id
  let mine (w : Watch) := w.addr == addr && w.who == who
  if poolDevice addr = s.device then (s.dropWatches mine).ok
  else (s.dropRemote mine).ok

/-- A notification arrives at the watcher's device (R47). -/
def watchNotify (source : BitVec 20) (addr : W64) (value : W64) (poison : Bool) (s : State) : State :=
  let s := s.takeInbox 0x06 source
  (s.side.remote.filter (fun w => w.addr == addr)).foldl
    (fun s w => match w.who with
      | .session id => s.fireSession id addr value poison
      | who => s.out (.notify who addr value poison)) s

/-- A device registers a watch on a word of this one, or removes it (R47). -/
def watchRegisteredAtOwner (source : BitVec 20) (addr : W64) (remove : Bool) (s : State) : State :=
  if !s.lit then s
  else if remove then s.dropWatches (fun w => w.addr == addr && w.who == .device source)
  else (s.enterWatch (poolLocal addr) addr (.device source)).2

/-! ### Scrub, mirrors, refresh -/

/-- First physical address and size of a unit's memory, its scrub fields, its port and its read event. -/
def unitBase : MemUnit → Nat
  | .vault v => v.val * vaultSize
  | .channel c => lpBase + c.val * channelSize

def unitSize : MemUnit → Nat
  | .vault _ => vaultSize
  | .channel _ => channelSize

def unitIndex : MemUnit → Nat
  | .vault v => v
  | .channel c => c

def scrubPos : MemUnit → FRef
  | .vault _ => F.VLT_SCRUB_POSITION
  | .channel _ => F.LPT_CH_SCRUB_POSITION

def scrubPasses : MemUnit → FRef
  | .vault _ => F.VLT_SCRUB_PASSES
  | .channel _ => F.LPT_CH_SCRUB_PASSES

/-- Whether the patrol scrub visits a unit now: enabled, LIT and in service (R39). That it leaves the vaults of a shaded
cluster, which are in self-refresh, alone and does not wake the cluster is the model's choice (log entry 157). -/
def State.scrubs (s : State) (u : MemUnit) : Bool :=
  s.lit && s.flag F.VLT_SCRUB_CTL_ENABLE && s.bankServes (bankOf (unitBase u)) &&
    (match u with
     | .vault v => !s.shaded (v.val / 16)
     | .channel _ => true)

/-- One scrub access: 64 bytes at the position, word by word under R40; the position moves on, and a pass ends at
the unit's end. -/
def State.scrubAccess (s : State) (u : MemUnit) : State :=
  let i := unitIndex u
  let pos := s.fget (scrubPos u) i
  let base := unitBase u + pos / 64 * 64
  let s := match u with
    | .vault v => (s.meter v 64).event 0x100 v 1
    | .channel c => (s.meter (192 + c) 64).event 0x200 c 1
  let s := (List.range 8).foldl (fun s k => (s.readWord (base + 8 * k) true).2.2) s
  let next := pos / 64 * 64 + 64
  if next < unitSize u then s.fset (scrubPos u) i next
  else (s.fset (scrubPos u) i 0).bump (scrubPasses u) i 1

/-- The key of a unit among idle times: vaults 0–191, channels from 192. -/
def unitKey : MemUnit → Nat
  | .vault v => v
  | .channel c => 192 + c

/-- The scrub's turn has come; it has had an idle cycle, or its forced turn, now (R39). -/
def State.scrubbed (s : State) (u : MemUnit) : State :=
  let s := s.scrubAccess u
  s.setSide { s.side with idleSince := SMap.set 0 s.side.idleSince (unitKey u) s.now }

def scrubRead (u : MemUnit) (s : State) : State := if s.scrubs u then s.scrubbed u else s

/-- After 1 ms without an idle cycle the scrub takes one access (R39). -/
def scrubForcedTurn (u : MemUnit) (s : State) : State :=
  if s.scrubs u && s.now ≥ SMap.get 0 s.side.idleSince (unitKey u) + 1000000 then s.scrubbed u else s

def inUnit (u : MemUnit) (p : Nat) : Bool := decide (unitBase u ≤ p ∧ p < unitBase u + unitSize u)

/-- Words of the surviving copies of a unit whose reads fail: the rebuild reads each of them (R33, R37). -/
def State.rebuildReads (s : State) (u : MemUnit) : State :=
  let bad := (s.side.flaky.map (·.1)).filter (fun w => match s.counterpart w with
    | some q => inUnit u q
    | none => false)
  bad.foldl (fun s w => (s.readWord w).2.2) s

/-- Copy the survivor of every mirrored region into a unit (R38): its bytes, and the poison of its words (R34). -/
def State.copyMirror (s : State) (u : MemUnit) : State :=
  let s := s.rebuildReads u
  let clear := s.mem.foldl (fun m c => if inUnit u c.1 && (s.counterpart c.1).isSome then SMap.set 0 m c.1 0 else m) s.mem
  let copied := s.mem.foldl (fun m c =>
    match s.counterpart c.1 with
    | some q => if inUnit u q then SMap.set 0 m q c.2 else m
    | none => m) clear
  let clean (w : Nat) : Bool := !(inUnit u w && (s.counterpart w).isSome)
  let bad := (s.side.poison ++ (s.side.flaky.filter (fun e => decide (4 ≤ e.2))).map (·.1)).filterMap (fun w =>
    match s.counterpart w with
    | some q => if inUnit u q then some q else none
    | none => none)
  let s := { s with mem := copied, side := { s.side with
      poison := s.side.poison.filter clean, flaky := s.side.flaky.filter (fun e => clean e.1) } }
  bad.foldl State.listPoison s

def mirrorRebuilt (u : MemUnit) (s : State) : State :=
  if s.side.rebuilding.contains u then
    let s := s.copyMirror u
    let s := s.setSide { s.side with rebuilding := s.side.rebuilding.filter (· != u) }
    s.attn C.MIRROR_REBUILT [s.device, unitBase u]
  else s

/-- REFRESH_MULT for a tier temperature (R41). -/
def refreshMult (temp : Nat) : Nat := if temp < 85 then 0 else if temp ≤ 95 then 1 else 2

/-- A refresh falls due and takes the port (R41). -/
def vaultRefresh (v : Fin 192) (temp : Nat) (s : State) : State :=
  if s.lit && !s.side.lostVaults.contains v && !s.flag F.VLT_STATUS_SELF_REFRESH v then
    let s := (s.fset F.VLT_STATUS_TEMP v (min temp 255)).fset F.VLT_STATUS_REFRESH_MULT v (refreshMult temp)
    s.event 0x103 v 1
  else s

/-- A refresh at the rate the device reports (R42). -/
def lpddr6Refresh (ch : Fin 32) (rate : BitVec 4) (s : State) : State :=
  if s.lit && bitAt (s.fget F.LPT_AVAIL_CHANNELS) ch then s.fset F.LPT_CH_STATUS_REFRESH_RATE ch rate.toNat else s

end Sys2Proof.Machine
end

