-- ==== Sys2Proof/Machine/Batch.lean ====
section
/-!
DEFINITION. BATCH and EMIT: the slots of an open batch, losses, closing with the stale check and the refill, the bytes
of a batch, and its publication in a ring (R67 to R74, R141 to R143, R146, R387).
-/
namespace Sys2Proof.Machine

/-! ### Layouts -/

def State.layout? (s : State) (n : Nat) : Option Layout := s.image.bind (fun im => im.layouts.find? (·.number == n))

/-- Elements of a payload tensor in one slot. -/
def LayoutTensor.elems (t : LayoutTensor) : Nat := ((t.extents.take (t.rank - 1)).foldl (· * ·) 1)

def LayoutTensor.bits (t : LayoutTensor) : Nat := elemBits t.typ

/-- Bytes of one slot's part of a tensor: its packed run; one element for a tensor of rank 1. -/
def LayoutTensor.slotBytes (t : LayoutTensor) : Nat := ceilDiv (t.elems * t.bits) 8

/-- Element codes as a slot holds them. -/
def LayoutTensor.codes (t : LayoutTensor) (cs : List Nat) : List Byte :=
  if t.rank = 1 then natLe t.slotBytes (cs.headD 0 % 2 ^ t.bits) else pack t.bits cs

/-- The parameter block of BATCH (R146). -/
structure BatchPar where
  layout : Nat
  repeat_ : Bool
  slots : Nat
  timeout : Nat
  fillOff : Nat

def batchPar (p : List Byte) : BatchPar := ⟨u16 p 0, u8 p 2 == 1, u32 p 4, u32 p 12, u32 p 16⟩

/-- An FP32 fill value in an element type. A value that an integer type cannot hold exactly has no stated code. -/
def fillCode (d typ : Nat) (w : W32) : Nat :=
  let v := fp32.decode w.toNat
  if (elemFmt typ).isSome then elemCode typ (.flt v)
  else
    match v with
    | .fin n m e =>
      let i := roundInt n m e
      let code := elemCode typ (.int i)
      if (FVal.ofInt i).eq v && (elemVal typ code).eq (.int i) then code else (Config.word d).toNat % 2 ^ elemBits typ
    | _ => (Config.word d).toNat % 2 ^ elemBits typ

/-- The fill value of payload tensor `k` (R146). -/
def State.fillOf (s : State) (p : BatchPar) (k : Nat) (t : LayoutTensor) : Nat :=
  fillCode s.free t.typ (BitVec.ofNat 32 (u32 s.pipeBytes (p.fillOff + 4 * k)))

/-! ### Slot contents -/

/-- The column that fills DATA tensor `k` of a layout: which one is open (R141). -/
def dataColumn (lay : Layout) (cols : List Column) (k : Nat) : Option Column :=
  if cols.isEmpty then none else cols[Config.batchColumn lay.number k % cols.length]?

/-- The element codes that a cell gives a tensor, where its type and length are the tensor's. -/
def cellCodes (c : Column) (t : LayoutTensor) (x : CellV) : Option (List Nat) :=
  let isList := c.typ == tFsl || c.typ == tList
  let typ := if isList then c.elem else c.typ
  let codes := if isList then (chunksOf (typeBytes c.elem 0) (x.bytes.length + 1) x.bytes).map leNat else [leNat x.bytes]
  if columnElem typ = t.typ ∧ codes.length = t.elems then some codes else none

/-- What one row puts into payload tensor `k`: a value, the fill value for a null, an open value where the column does
not fit the tensor; VALIDITY follows the tensor before it. -/
def State.rowTensor (s : State) (p : BatchPar) (lay : Layout) (cols : List Column) (row : Nat) (k : Nat)
    (t : LayoutTensor) : List Byte :=
  let cell (j : Nat) : Option (Column × CellV) := (dataColumn lay cols j).map (fun c => (c, c.cell row))
  match t.role with
  | 0 =>
    match cell k with
    | some (c, x) =>
      if !x.valid then t.codes (List.replicate t.elems (s.fillOf p k t))
      else
        match cellCodes c t x with
        | some cs => t.codes cs
        | none => fitTo t.slotBytes (Config.bytes (s.free + 64 * row + k) t.slotBytes)
    | none => fitTo t.slotBytes (Config.bytes (s.free + 64 * row + k) t.slotBytes)
  | 2 => t.codes (List.replicate t.elems (match cell (k - 1) with | some (_, x) => b2n x.valid | none => 0))
  | _ => []

/-- What an image sample puts into payload tensor `k`: level l fills the DATA tensor l (R138); a level of another size
than the tensor leaves an open value. -/
def levelTensor (d : Nat) (lay : Layout) (levels : List (List Byte)) (k : Nat) (t : LayoutTensor) : List Byte :=
  match t.role with
  | 0 =>
    let bs := levels.getD ((lay.tensors.take k).filter (·.role == 0)).length []
    if bs.length = t.slotBytes then bs else fitTo t.slotBytes (Config.bytes (d + k) t.slotBytes)
  | 2 => t.codes (List.replicate t.elems 1)
  | _ => []

/-- What a FILL or PAD slot holds: the fill value, and no validity (R387). -/
def State.fillTensor (s : State) (p : BatchPar) (k : Nat) (t : LayoutTensor) : List Byte :=
  match t.role with
  | 0 => t.codes (List.replicate t.elems (s.fillOf p k t))
  | 2 => t.codes (List.replicate t.elems 0)
  | _ => []

def mapTensors (lay : Layout) (f : Nat → LayoutTensor → List Byte) : List (List Byte) :=
  (lay.tensors.zip (List.range lay.tensors.length)).map (fun e => f e.2 e.1)

/-- The columns of a chunk that BATCH writes into the payload; their poison loses the row (R141). -/
def payloadColumns (lay : Layout) (cols : List Column) : List Column :=
  ((lay.tensors.zip (List.range lay.tensors.length)).filter (fun e => e.1.role == 0)).filterMap
    (fun e => dataColumn lay cols e.2)

/-! ### Closing a batch (R142, R143) -/

/-- Whether a live frame in a slot is older than its limit. -/
def Slot.isStale (x : Slot) (now : Nat) : Bool :=
  match x.capture with
  | some (c, l) => decide (c + l < now)
  | none => false

/-- The slot of a one-sample chunk. -/
def State.sampleSlot (s : State) (p : BatchPar) (c : Chunk) : Slot :=
  let data := match s.layout? p.layout, c.payload with
    | some lay, .levels ts => mapTensors lay (levelTensor s.free lay ts)
    | _, _ => []
  ⟨if c.late then .late else .sample, c.sources.headD 0, none, c.capture, data⟩

/-- A sample of the flow that entered the stage's input before the closing cycle and is not placed yet: its task's chunk is
emptied (R143). -/
def State.takeReady (s : State) (slot stage flow : Nat) (self : Nat) : Option (Chunk × State) :=
  match s.disp.tasks.find? (fun u => u.slot == slot && u.stage == stage && u.id != self && u.chunk.flow == flow &&
      decide (u.readyAt < s.now) && (match u.chunk.payload with | .levels _ => true | _ => false)) with
  | none => none
  | some u => some (u.chunk, s.putTask { u with chunk := { u.chunk with payload := .rows [] 0 none } })

/-- The next ready sample that is not stale; stale ones on the way are lost. `fuel` bounds the samples. -/
def State.refill (slot stage flow : Nat) (p : BatchPar) (self : Nat) : Nat → State → Option Slot × State
  | 0, s => (none, s)
  | fuel + 1, s =>
    match s.takeReady slot stage flow self with
    | none => (none, s)
    | some (c, s) =>
      let x := s.sampleSlot p c
      if x.isStale s.meridian then
        State.refill slot stage flow p self fuel (s.loseSample slot stage flow x.source .stale)
      else (some x, let s := { s with free := s.free + 64 }; if c.late then s.bump F.ING_BATCH_LATE 0 1 else s)

/-- A PAD slot: no sample; the bytes of its DATA tensors have no stated value, its validity bits are 0. -/
def State.padSlot (s : State) (lay : Layout) (k : Nat) : Slot :=
  ⟨.pad, 2 ^ 48 - 1, none, none, mapTensors lay (fun j t =>
    match t.role with
    | 0 => fitTo t.slotBytes (Config.bytes (s.free + 64 * k + j) t.slotBytes)
    | 2 => t.codes (List.replicate t.elems 0)
    | _ => [])⟩

/-- The stale check of one slot (R143): in an ORDERED flow a stale frame leaves a place to fill, in a FREE flow the
next ready sample takes it, or it is padding. -/
def State.checkStale (s : State) (slot stage flow : Nat) (p : BatchPar) (lay : Layout) (ordered : Bool) (self : Nat)
    (x : Slot) : Slot × State :=
  if (x.kind == .sample || x.kind == .late) && x.isStale s.meridian then
    let s := s.loseSample slot stage flow x.source .stale
    if ordered then (⟨.fill, x.source, some .stale, none, []⟩, s)
    else
      match s.refill slot stage flow p self s.disp.tasks.length with
      | (some y, s) => (y, s)
      | (none, s) => (s.padSlot lay 0, { s with free := s.free + 64 })
  else (x, s)

/-- Fill the places of lost samples (R141): REPEAT copies the nearest earlier sample, else the fill values. Answers
the slots and the last good slot. -/
def State.resolve (s : State) (p : BatchPar) (lay : Layout) : List Slot → Option Slot → List Slot × Option Slot
  | [], last => ([], last)
  | x :: r, last =>
    match x.kind with
    | .fill =>
      let y : Slot := match p.repeat_, last with
        | true, some g => { x with kind := .repeat_, data := g.data }
        | _, _ => { x with data := mapTensors lay (s.fillTensor p) }
      let (ys, l) := State.resolve s p lay r last
      (y :: ys, l)
    | .pad => let (ys, l) := State.resolve s p lay r last; (x :: ys, l)
    | _ => let (ys, l) := State.resolve s p lay r (some x); (x :: ys, l)

/-- What closes a batch (R142). -/
inductive Closing where
  | full | timeout | end_
deriving DecidableEq, Repr

/-- Close the open batch of a stage and flow: the stale check, the places of lost samples, padding, CLOSE_TIME. The
next batch opens with the losses its tail could not take. -/
def State.closeBatch (s : State) (slot stage flow vault : Nat) (st : StageRec) (why : Closing) (self : Nat) :
    List Chunk × State :=
  let p := batchPar st.param
  match s.layout? p.layout, s.pipelineOf slot with
  | some lay, some pl =>
    let ordered := pl.isOrdered flow
    let (slots, s) := (s.openBatch slot stage flow).slots.foldl (fun (acc : List Slot × State) x =>
      let (y, s) := acc.2.checkStale slot stage flow p lay ordered self x
      (acc.1 ++ [y], s)) (([], s) : List Slot × State)
    let b := s.openBatch slot stage flow
    let (slots, last) := s.resolve p lay slots b.lastGood
    let early := decide (slots.length < p.slots)
    let pads := (List.range (p.slots - slots.length)).map (fun k => s.padSlot lay (slots.length + k))
    let s := { s with free := s.free + 64 * (p.slots + 1) }
    let done := why == .end_ && b.carry.isEmpty
    let buf : BatchBuf := ⟨p.layout, slots ++ pads, b.tail, why == .timeout, early, done, ordered, flow, s.meridian⟩
    let s := s.putOpen slot { b with
      slots := [], tail := b.carry.take p.slots, carry := b.carry.drop p.slots, firstAt := none, lastGood := last
      ended := done, batches := b.batches + 1 }
    let s := if why = .timeout then s.bump F.ING_BATCH_TIMEOUTS 0 1 else s
    ([⟨st.flowOf flow, b.batches, 0, vault, true, false, [], none, .batch buf, none⟩], s)
  | _, _ => ([], s)

/-- When the open batch of a FREE flow times out: TIMEOUT_US after its first slot was filled (R142). -/
def State.timeoutAt (s : State) (slot stage flow : Nat) (st : StageRec) : Option Nat :=
  let n := (batchPar st.param).timeout
  if n = 0 ∨ (s.pipelineOf slot).any (fun p => p.isOrdered flow) then none
  else (s.openBatch slot stage flow).firstAt.map (· + n * 1000)

/-- Put a slot into the open batch; the batch closes when it is full. -/
def State.place1 (s : State) (slot stage flow vault : Nat) (st : StageRec) (self : Nat) (x : Slot) : List Chunk × State :=
  let b := s.openBatch slot stage flow
  let s := s.putOpen slot { b with slots := b.slots ++ [x], firstAt := some (b.firstAt.getD s.now) }
  let s := { s with free := s.free + 64 }
  let s := if x.kind = .late then s.bump F.ING_BATCH_LATE 0 1 else s
  if (batchPar st.param).slots ≤ b.slots.length + 1 then s.closeBatch slot stage flow vault st .full self else ([], s)

/-- A slot is offered: what became ready in the cycle of a timeout, or later, goes to the next batch (R142). -/
def State.offer (s : State) (slot stage flow vault : Nat) (st : StageRec) (self readyAt : Nat) (x : Slot) :
    List Chunk × State :=
  if (s.timeoutAt slot stage flow st).any (fun d => decide (d ≤ s.now ∧ d ≤ readyAt)) then
    let (cs, s) := s.closeBatch slot stage flow vault st .timeout self
    let (ds, s) := s.place1 slot stage flow vault st self x
    (cs ++ ds, s)
  else s.place1 slot stage flow vault st self x

/-- The marker of a lost sample reaches BATCH (R309): in an ORDERED flow its position is a place to fill. The loss was
charged when it happened. -/
def State.offerMarker (s : State) (slot stage flow : Nat) (st : StageRec) (m : Marker) : List Chunk × State :=
  match m, s.pipelineOf slot with
  | .lost source why, some p =>
    if p.isOrdered flow then s.offer slot stage flow 0 st 0 0 ⟨.fill, source, some why, none, []⟩ else ([], s)
  | _, _ => ([], s)

/-- Closed batches go to the output queue without a place reserved for them. -/
def State.putBatches (s : State) (slot : Nat) (st : StageRec) (cs : List Chunk) : State :=
  cs.foldl (fun s c => s.putOut slot st none c.ordinal 0 [.chunk c] false) s

/-- The end of a flow (R70, R142): batches close until one carries LAST. `fuel` bounds the batches. -/
def State.endFlow (slot stage flow : Nat) (st : StageRec) : Nat → State → State
  | 0, s => s
  | fuel + 1, s =>
    if (s.openBatch slot stage flow).ended then s
    else
      let (cs, s) := s.closeBatch slot stage flow 0 st .end_ 0
      State.endFlow slot stage flow st fuel (s.putBatches slot st cs)

/-! ### BATCH -/

/-- Whether no earlier task of the stage is still to run: samples are placed in the order their chunks stood in. -/
def State.firstOfStage (s : State) (t : Task) : Bool :=
  s.disp.tasks.all (fun u => u.slot != t.slot || u.stage != t.stage || decide (t.id ≤ u.id))

/-- The slots of a chunk of rows: a poisoned row is lost (R141). -/
def State.batchRows (s : State) (t : Task) (st : StageRec) (rows : Rows) (lay : Layout) : List Chunk × State :=
  let p := batchPar st.param
  let flow := t.chunk.flow
  let used := payloadColumns lay rows.cols
  let (cs, s) := (List.range rows.n).foldl (fun (acc : List Chunk × State) i =>
    let source := t.chunk.sources.getD i 0
    let s := acc.2
    if used.any (fun c => (c.cell i).poison) then
      let s := s.loseSample t.slot t.stage flow source .poison
      let (cs, s) := s.offerMarker t.slot t.stage flow st (.lost source .poison)
      (acc.1 ++ cs, s)
    else
      let x : Slot := ⟨if t.chunk.late then .late else .sample, source, none, none,
        mapTensors lay (s.rowTensor p lay rows.cols i)⟩
      let (cs, s) := s.offer t.slot t.stage flow t.chunk.vault st t.id t.readyAt x
      (acc.1 ++ cs, s)) (([], s) : List Chunk × State)
  (cs, { s with free := s.free + 64 * (rows.n + 1) })

/-- The batches that a task closes stand at its place. -/
def State.endBatch (s : State) (t : Task) (st : StageRec) (cs : List Chunk) : State :=
  let s := s.logTask 0x03 t t.core 0
  (s.putOut t.slot st none 0 0 (cs.map QItem.chunk) true).dropTask t true

def batch (task : Nat) (s : State) : State :=
  match s.runningTask task .batch with
  | none => s
  | some (t, st, _, r) =>
    if !s.firstOfStage t then s
    else
      match s.layout? (u16 st.param 0), t.chunk.payload with
      | some _, .levels _ =>
        let x := s.sampleSlot (batchPar st.param) t.chunk
        let (cs, s) := s.offer t.slot t.stage t.chunk.flow t.chunk.vault st t.id t.readyAt x
        s.endBatch t st cs
      | some lay, .rows .. =>
        match s.fetch r t.chunk (bitList 64 allColumns) with
        | .error c => s.failTask t c
        | .ok (rows, s) =>
          let (cs, s) := s.batchRows t st rows lay
          s.endBatch t st cs
      | _, _ => s.endBatch t st []

/-- The timeout of the open batches of a FREE flow (R142). -/
def batchTimeout (runSlot stage : Fin 64) (s : State) : State :=
  match s.stage? runSlot.val stage.val, s.pipelineOf runSlot.val with
  | some st, some p =>
    let par := batchPar st.param
    if st.op ≠ .batch ∨ !s.running runSlot.val ∨ par.timeout = 0 then s
    else
      (s.workOf runSlot.val).opens.foldl (fun s b =>
        match b.firstAt with
        | some t0 =>
          if b.stage = stage.val ∧ !p.isOrdered b.flow ∧ t0 + par.timeout * 1000 ≤ s.now then
            let (cs, s) := s.closeBatch runSlot.val stage.val b.flow 0 st .timeout 0
            s.putBatches runSlot.val st cs
          else s
        | none => s) s
  | _, _ => s

/-! ### The bytes of a batch -/

def Loss.code : Loss → Nat
  | .parse => 0 | .checksum => 1 | .decode => 2 | .type => 3 | .size => 4 | .poison => 5 | .stale => 6 | .straggler => 7

def SlotKind.code : SlotKind → Nat
  | .sample => 0 | .late => 1 | .fill => 2 | .repeat_ => 3 | .pad => 4

def SlotKind.masked : SlotKind → Bool
  | .sample | .late | .repeat_ => true
  | _ => false

def BatchBuf.count (b : BatchBuf) (k : SlotKind) : Nat := (b.slots.filter (·.kind == k)).length

/-- Slots whose mask bit is set (R68). -/
def BatchBuf.valid (b : BatchBuf) : Nat := (b.slots.filter (·.kind.masked)).length

/-- REPLACED (R70). -/
def BatchBuf.replaced (b : BatchBuf) : Nat :=
  if b.ordered then b.tail.length else b.tail.length - min b.tail.length (b.count .pad)

/-- PARTIAL (R68). -/
def BatchBuf.partial_ (b : BatchBuf) : Bool :=
  (!b.ordered && decide (b.valid + b.replaced < b.slots.length)) || b.early

def BatchBuf.flags (b : BatchBuf) : Nat :=
  b2n b.partial_ + 2 * b2n b.timeout + 4 * b2n b.last + 8 * b2n b.ordered + 16 * b2n (decide (0 < b.count .repeat_))

/-- A sample-id entry (R69). -/
def sampleId (source kind reason : Nat) : List Byte := natLe 6 source ++ [BitVec.ofNat 8 (kind + 16 * reason), 0]

/-- The sample-id vector: the slots, then the tail (R69). -/
def BatchBuf.ids (b : BatchBuf) : List Byte :=
  b.slots.flatMap (fun x => sampleId x.source x.kind.code (match x.kind, x.reason with
    | .fill, some w => w.code
    | .repeat_, some w => w.code
    | _, _ => 0)) ++ b.tail.flatMap (fun e => sampleId e.1 8 e.2.code)

/-- One payload tensor over all slots (R387); a tensor of rank 1 is padded with zeros to a multiple of 16 bytes. -/
def BatchBuf.tensor (b : BatchBuf) (k : Nat) (t : LayoutTensor) : List Byte :=
  if t.role = 1 then
    let bs := pack 1 (b.slots.map (fun x => b2n x.kind.masked))
    fitTo (roundUp bs.length 16) bs
  else if t.rank = 1 then
    let bs := pack t.bits (b.slots.map (fun x => leNat (x.data.getD k [])))
    fitTo (roundUp bs.length 16) bs
  else b.slots.flatMap (fun x => x.data.getD k [])

/-- The payload: each tensor at its OFFSET. Bytes between tensors have no stated value. -/
def BatchBuf.payload (b : BatchBuf) (lay : Layout) (d : Nat) : List Byte :=
  (lay.tensors.zip (List.range lay.tensors.length)).foldl (fun bs e =>
    let x := b.tensor e.2 e.1
    bs.take e.1.offset ++ x ++ bs.drop (e.1.offset + x.length)) (fitTo lay.payload (Config.bytes d lay.payload))

/-- The batch header (R68). -/
def BatchBuf.header (b : BatchBuf) (seq : Nat) (run : W32) (ids payload : Nat) : List Byte :=
  natLe 8 seq ++ natLe 4 run.toNat ++ natLe 4 b.slots.length ++ natLe 4 b.valid ++ natLe 4 b.replaced ++
    natLe 4 b.tail.length ++ natLe 2 b.flags ++ natLe 2 b.flow ++ natLe 8 b.closeTime ++ natLe 8 ids ++
    natLe 4 b.layout ++ natLe 4 payload ++ natLe 4 (b.count .late) ++ zeros 4

/-- All bytes of a batch for the ring slot at pool address `at_`. -/
def BatchBuf.bytes (b : BatchBuf) (lay : Layout) (d seq : Nat) (run : W32) (at_ : Nat) : List Byte :=
  b.header seq run (at_ + 64 + lay.payload) lay.payload ++ b.payload lay d ++ b.ids

/-! ### Rings (R71 to R73) -/

def Run.ring? (r : Run) (arg : Nat) : Option Ring := r.rings.find? (·.arg == arg)

def State.putRing (s : State) (slot : Nat) (g : Ring) : State :=
  s.modRun slot (fun r => { r with rings := updWhere (·.arg == g.arg) (fun _ => g) r.rings })

/-- Whether the ring has room for the next batch (R72). -/
def Ring.room (g : Ring) : Bool := decide (g.writeIndex - g.readIndex < g.count)

/-- Write to a pool address: locally with the checks of an access, or through the owner (R31), whose acknowledgement will
carry the TAG. -/
def State.poolSend (s : State) (addr : W64) (bs : List Byte) : Except Code (Option Nat × State) :=
  if poolDevice addr = s.device then (s.checkedWrite (poolLocal addr) bs).map (fun s => (none, s))
  else if !s.reachable (poolDevice addr) then .error C.PEER_UNREACHABLE
  else
    let (tag, s) := s.request (poolDevice addr) 0x04 (natLe 8 addr.toNat ++ natLe 4 bs.length ++ zeros 4 ++ bs)
    .ok (some tag, s)

def State.poolStore (s : State) (addr : W64) (bs : List Byte) : Except Code State := (s.poolSend addr bs).map (·.2)

/-- Write one record of a ring. Once the write has completed at its port, WRITE_INDEX is written with SEQ + 1: at once for
a ring slot of this device, and after the acknowledgement for one of another (R72). -/
def State.ringPublish (s : State) (slot : Nat) (g : Ring) (bs : List Byte) (task : Option Nat := none) :
    Except Code (Bool × State) :=
  let at_ := g.slot0 + BitVec.ofNat 64 (g.writeIndex % g.count * g.size)
  match s.poolSend at_ bs with
  | .error c => .error c
  | .ok (some tag, s) =>
    let s := s.putRing slot { g with writeIndex := g.writeIndex + 1 }
    .ok (false, { s with disp := { s.disp with
      publishing := s.disp.publishing ++ [⟨tag, slot, g.arg, g.writeIndex, task, false⟩] } })
  | .ok (none, s) =>
    match s.poolStore g.ctl (natLe 8 (g.writeIndex + 1)) with
    | .error c => .error c
    | .ok s => .ok (true, s.putRing slot { g with writeIndex := g.writeIndex + 1 })

/-- A batch has been published: it is counted (R67), and its EMIT task ends. -/
def State.emitted (s : State) (t : Task) (b : BatchBuf) : State :=
  (s.modRun t.slot (fun r => { r with
    rowsOut := r.rowsOut + b.valid, replaced := r.replaced + b.replaced, batches := r.batches + 1 })).endTask t []

def emit (task : Nat) (s : State) : State :=
  match s.runningTask task .emit with
  | none => s
  | some (t, st, _, r) =>
    if !s.firstOfStage t || r.state != .running || s.disp.publishing.any (fun e => e.task == some task) then s
    else
      match t.chunk.payload, r.ring? (u8 st.param 0) with
      | .batch b, some g =>
        match s.layout? b.layout with
        | none => s.endTask t []
        | some lay =>
          if !g.room then s
          else
            let at_ := g.slot0 + BitVec.ofNat 64 (g.writeIndex % g.count * g.size)
            match s.ringPublish t.slot g (b.bytes lay s.free g.writeIndex r.run at_.toNat) (some task) with
            | .error c => s.failTask t c
            | .ok (stands, s) =>
              let s := { s with free := s.free + 1 }
              if stands then s.emitted t b else s
      | _, _ => s.endTask t []

/-- The EMIT task of a published record ends; one that has been told to stop was dropped before. -/
def State.publishEnd (s : State) (e : Publish) : State :=
  match e.task.bind s.task? with
  | none => s
  | some t =>
    match t.chunk.payload with
    | .batch b => s.emitted t b
    | _ => s

/-- WRITE_INDEX of a ring follows the records that have completed, in SEQ order (R72). `fuel` bounds the records. -/
def State.publishNext (slot arg : Nat) : Nat → State → State
  | 0, s => s
  | fuel + 1, s =>
    match s.disp.publishing.find? (fun e => e.slot == slot && e.arg == arg) with
    | none => s
    | some e =>
      if !e.done then s
      else
        let s := { s with disp := { s.disp with publishing := s.disp.publishing.erase e } }
        match (s.run? slot).bind (fun r => r.ring? arg) with
        | none => s
        | some g =>
          match s.poolStore g.ctl (natLe 8 (e.seq + 1)) with
          | .error c => s.failRun slot c
          | .ok s => State.publishNext slot arg fuel (s.publishEnd e)

/-- The owner of a ring slot has acknowledged a record, or has not: then the write failed, and its task or run fails. -/
def State.published (s : State) (tag : Nat) (status : Code) : State :=
  match s.disp.publishing.find? (fun e => e.tag == tag) with
  | none => s
  | some e =>
    if status = C.OK then
      let s := { s with disp := { s.disp with
        publishing := updWhere (fun x => x.tag == tag) (fun x => { x with done := true }) s.disp.publishing } }
      State.publishNext e.slot e.arg s.disp.publishing.length s
    else
      let s := { s with disp := { s.disp with
        publishing := s.disp.publishing.filter (fun x => x.slot != e.slot || x.arg != e.arg) } }
      match e.task.bind s.task? with
      | some t => s.failTask t status
      | none => s.failRun e.slot status

/-- READ_INDEX has been written (R73): a level that never falls, at most WRITE_INDEX. -/
def readIndexUpdate (runSlot arg : Fin 64) (value : W64) (poison : Bool) (s : State) : State :=
  match (s.run? runSlot.val).bind (fun r => r.ring? arg.val) with
  | none => s
  | some g =>
    if poison ∨ value.toNat < g.readIndex then s
    else
      let s := s.putRing runSlot.val { g with readIndex := min value.toNat g.writeIndex }
      if g.writeIndex < value.toNat then s.attn C.READ_INDEX_AHEAD [g.ctl.toNat, value.toNat, g.writeIndex] else s

end Sys2Proof.Machine
end

