-- ==== Sys2Proof/Machine/Functions.lean ====
section
/-!
DEFINITION. The functions of R284 as exact values: exponential, logistic function, hyperbolic tangent, normal distribution, the
line functions SOFTMAX, LAYERNORM and RMSNORM. Each is known to within a few units of 2^-250 of itself, far finer than the
bounds of R297, inside which a result is free.
-/
namespace Sys2Proof.Machine

/-- Bits after the point of the series below. -/
def fxBits : Nat := 320

def FVal.one : FVal := .fin false 1 0
def FVal.zero : FVal := .fin false 0 0

/-- A magnitude m × 2^e in units of 2^-320. -/
def toFx (m : Nat) (e : Int) : Nat :=
  let k := e + fxBits
  if 0 ≤ k then m * 2 ^ k.toNat else m / 2 ^ (-k).toNat

/-- A quotient to 256 bits; a zero divisor or an operand that is not finite gives NaN. -/
def FVal.quot (a b : FVal) : FVal :=
  match a, b with
  | .fin na ma ea, .fin nb mb eb =>
    if mb = 0 then .nan
    else
      let k := 256 + Nat.log2 mb
      .fin (na != nb) (ma * 2 ^ k / mb) (ea - eb - k)
  | _, _ => .nan

/-- The square root of a / b, both positive, to 256 bits. -/
def FVal.sqrtQuot (a b : FVal) : FVal :=
  match a, b with
  | .fin _ ma ea, .fin _ mb eb =>
    if mb = 0 then .nan
    else
      let k := 2 * (256 + Nat.log2 mb) + ((ea - eb) % 2).toNat
      .fin false (isqrt (ma * 2 ^ k / mb)) ((ea - eb - k) / 2)
  | _, _ => .nan

/-- Σ r^k / k! from a term on, in units of 2^-320; `fuel` bounds the terms. -/
def expSeries (r : Nat) : Nat → Nat → Nat → Nat → Nat
  | 0, _, _, acc => acc
  | fuel + 1, k, term, acc => expSeries r fuel (k + 1) (term * r / 2 ^ fxBits / k) (acc + term)

/-- Σ ± 1 / ((2k + 1) n^(2k + 1)), the arc tangent (`alternate`) or its hyperbolic sister of 1 / n, in units of 2^-320. -/
def atanSeries (alternate : Bool) (n : Nat) : Nat → Nat → Int → Int → Int
  | 0, _, _, acc => acc
  | fuel + 1, k, p, acc => atanSeries alternate n fuel (k + 2) ((if alternate then -p else p) / (n * n : Nat)) (acc + p / k)

/-- ln 2 = 2 artanh(1/3). -/
def ln2Fx : Nat := (2 * atanSeries false 3 110 1 ((2 : Int) ^ fxBits / 3) 0).toNat

/-- π = 16 arctan(1/5) - 4 arctan(1/239). -/
def piFx : Nat :=
  (16 * atanSeries true 5 80 1 ((2 : Int) ^ fxBits / 5) 0 - 4 * atanSeries true 239 30 1 ((2 : Int) ^ fxBits / 239) 0).toNat

/-- e^-x for a magnitude x; 0 where that is below 2^-1400. -/
def expNeg (m : Nat) (e : Int) : FVal :=
  if m ≠ 0 ∧ 10 ≤ (Nat.log2 m : Int) + e then .zero
  else
    let x := toFx m e
    let k := x / ln2Fx
    .fin false (expSeries (ln2Fx - x % ln2Fx) 70 1 (2 ^ fxBits) 0) (-(fxBits : Int) - (k + 1))

/-- 1 / (1 + e^-x). -/
def sigmoidV (n : Bool) (m : Nat) (e : Int) : FVal :=
  let t := expNeg m e
  (if n then t else FVal.one).quot (FVal.one.add t)

def tanhV (n : Bool) (m : Nat) (e : Int) : FVal :=
  let t := expNeg m (e + 1)
  let v := (FVal.one.sub t).quot (FVal.one.add t)
  if n then v.negate else v

/-- Σ x^(2k + 1) / (2k + 1)!! in units of 2^-320. -/
def phiSeries (x2 : Nat) : Nat → Nat → Nat → Nat → Nat
  | 0, _, _, acc => acc
  | fuel + 1, k, term, acc => phiSeries x2 fuel (k + 2) (term * x2 / 2 ^ fxBits / k) (acc + term)

/-- The normal distribution Φ(x); from 16 on it is 0 or 1 to within 2^-180. -/
def phiV (n : Bool) (m : Nat) (e : Int) : FVal :=
  if m ≠ 0 ∧ 4 ≤ (Nat.log2 m : Int) + e then (if n then .zero else .one)
  else
    let sum : FVal := .fin false (phiSeries (toFx (m * m) (2 * e)) 1000 3 (toFx m e) 0) (-(fxBits : Int))
    let root : FVal := .fin false (isqrt (2 * piFx * 2 ^ fxBits)) (-(fxBits : Int))
    let half := (sum.mul (expNeg (m * m) (2 * e - 1))).quot root
    let h : FVal := .fin false 1 (-1)
    if n then h.sub half else h.add half

/-- The exact value of an activation of R284: 2 GELU, 3 SILU, 4 SIGMOID, 5 TANH. At -∞ the products of GELU and SILU are
∞ × 0, for which the manual gives no value: `pick` says NaN or 0 (log entry 128). -/
def exactAct (act : Nat) (pick : Bool) (x : FVal) : FVal :=
  match x with
  | .nan => .nan
  | .inf n =>
    if act = 4 then (if n then .zero else .one)
    else if act = 5 then .fin n 1 0
    else if n then (if pick then .nan else .zero) else .inf false
  | .fin n m e =>
    match act with
    | 2 => x.mul (phiV n m e)
    | 3 => x.mul (sigmoidV n m e)
    | 4 => sigmoidV n m e
    | _ => tanhV n m e

/-- The greatest of a list, NaN if one is NaN. -/
def FVal.maxOf (xs : List FVal) : FVal := xs.foldl (fun a x => if a.isNan || x.isNan then .nan else if a.lt x then x else a) (xs.headD .nan)

def FVal.sum (xs : List FVal) : FVal := xs.foldl FVal.add .zero

/-- e^d of a difference d at or below 0. -/
def expOf (d : FVal) : FVal :=
  match d with
  | .fin _ m e => expNeg m e
  | .inf _ => .zero
  | .nan => .nan

/-- SOFTMAX (R284) at the value `x` of a line: NaN where the line has a NaN or its greatest value is infinite. -/
def exactSoftmax (line : List FVal) (x : FVal) : FVal :=
  let top := FVal.maxOf line
  if !top.isFin then .nan
  else (expOf (x.sub top)).quot (FVal.sum (line.map (fun y => expOf (y.sub top))))

/-- x / sqrt(n) with x² and n given times any common factor; NaN for n at or below 0. -/
def overRoot (neg : Bool) (x2 n : FVal) : FVal :=
  match n with
  | .fin false m _ => if m = 0 then .nan else (let v := x2.sqrtQuot n; if neg then v.negate else v)
  | _ => .nan

/-- The normalised value of LAYERNORM (R284): (x - μ) / sqrt(σ² + ε), with L x - Σ for L (x - μ). -/
def exactLayer (line : List FVal) (x eps : FVal) : FVal :=
  let len := FVal.ofInt line.length
  let total := FVal.sum line
  let off (y : FVal) : FVal := (len.mul y).sub total
  let n := (FVal.sum (line.map (fun y => (off y).mul (off y)))).add ((len.mul (len.mul len)).mul eps)
  match off x with
  | .fin neg m e => overRoot neg ((len.mul (.fin false m e)).mul (.fin false m e)) n
  | _ => .nan

/-- The normalised value of RMSNORM (R284): x / sqrt(mean(x²) + ε). -/
def exactRms (line : List FVal) (x eps : FVal) : FVal :=
  let len := FVal.ofInt line.length
  let n := (FVal.sum (line.map (fun y => y.mul y))).add (len.mul eps)
  match x with
  | .fin neg m e => overRoot neg ((len.mul (.fin false m e)).mul (.fin false m e)) n
  | _ => .nan

end Sys2Proof.Machine
end

