-- ==== Sys2Proof/Machine/Numerics.lean ====
section
/-!
DEFINITION. The numerics of MODEL: conversions with saturation and stochastic rounding (R277 to R280, R293, R294), results
that are free within a bound (R295 to R297), and the operations of a stage graph over lists of values (R284 to R286).
-/
namespace Sys2Proof.Machine

/-! ### Conversions -/

/-- What a converted element counts as (R279): nothing, NaN, infinity, saturated. -/
inductive ExcKind where
  | plain | nan | inf | sat
deriving DecidableEq, Repr

/-- The code of m × 2^e in a format of unbounded range, the last place chosen by `pick` (quotient, remainder, divisor). -/
def Fmt.rawCode (f : Fmt) (pick : Nat → Nat → Nat → Nat) (m : Nat) (e : Int) : Nat :=
  if m = 0 then 0
  else
    let q := max ((Nat.log2 m : Int) + e) f.emin - f.mbits
    let k := e - q
    let r := if 0 ≤ k then m * 2 ^ k.toNat
      else let den := 2 ^ (-k).toNat; pick (m / den) (m % den) den
    (q + f.mbits - f.emin).toNat * 2 ^ f.mbits + r

/-- Nearest, ties to even. -/
def pickNear (q r d : Nat) : Nat := if 2 * r < d then q else if d < 2 * r then q + 1 else q + q % 2

/-- Stochastic rounding (R294): up where the 16-bit fraction below the last place exceeds the number drawn. -/
def pickSr (draw q r d : Nat) : Nat := if draw % 65536 < r * 65536 / d then q + 1 else q

/-- A value in a floating format under R279: saturation where the format has no infinity. `draw` gives the sign that a
NaN's bits would give. -/
def Fmt.convert (f : Fmt) (pick : Nat → Nat → Nat → Nat) (draw : Nat) (v : FVal) : Nat × ExcKind :=
  match v with
  | .nan =>
    match f.nan, f.inf with
    | none, none => (f.signed (Config.coin draw) f.maxCode, .sat)
    | _, _ => (f.nanCode, .nan)
  | .inf n => if f.inf.isNone then (f.signed n f.maxCode, .sat) else (f.signed n (f.overflow false), .inf)
  | .fin n m e =>
    let c := f.rawCode pick m e
    if c ≤ f.maxCode then (f.signed n c, .plain)
    else if f.inf.isNone then (f.signed n f.maxCode, .sat) else (f.signed n (f.overflow false), .inf)

/-- Whether an integer is within the range of an element type. -/
def inRange (typ : Nat) (i : Int) : Bool :=
  let w := elemBits typ
  if elemSigned typ then decide (-(2 ^ (w - 1) : Int) ≤ i ∧ i < 2 ^ (w - 1)) else decide (0 ≤ i ∧ i < 2 ^ w)

/-- Range of a signed integer type. -/
def minInt (typ : Nat) : Int := -(2 ^ (elemBits typ - 1) : Int)
def maxInt (typ : Nat) : Int := 2 ^ (elemBits typ - 1) - 1

/-- A float to an integer type (R279): INT8 and INT4 round to nearest even and saturate; for the others a value out of
range has no stated result. -/
def toIntElem (typ draw : Nat) (v : FVal) : Nat × ExcKind :=
  let w := elemBits typ
  let open_ : Nat := (Config.word draw).toNat % 2 ^ w
  let saturates := typ == 1 || typ == 4
  match v with
  | .nan => if saturates then (0, .nan) else (open_, .nan)
  | .inf n => if saturates then (ofSigned w (if n then minInt typ else maxInt typ), .sat) else (open_, .plain)
  | .fin n m e =>
    let i := roundInt n m e
    if inRange typ i then (ofSigned w i, .plain)
    else if saturates then (ofSigned w (clampInt (minInt typ) (maxInt typ) i), .sat)
    else (open_, .plain)

/-- A result in the output type of a node. An integer sum outside its type has no stated value. -/
def convertElem (typ : Nat) (sr : Bool) (draw : Nat) (v : Val) : Nat × ExcKind :=
  match elemFmt typ, v with
  | some f, .flt x =>
    if sr && typ ≠ 13 && typ ≠ 16 then f.convert (pickSr (Config.choice draw)) draw x else f.convert pickNear draw x
  | some f, .int i => f.convert pickNear draw (FVal.ofInt i)
  | none, .flt x => toIntElem typ draw x
  | none, .int i =>
    if inRange typ i then (ofSigned (elemBits typ) i, .plain) else ((Config.word draw).toNat % 2 ^ elemBits typ, .plain)
  | _, .raw _ => (0, .plain)

/-! ### Results free within a bound -/

def FVal.isNeg : FVal → Bool
  | .fin n m _ => n && m != 0
  | .inf n => n
  | .nan => false

/-- Exponent of the last place at a magnitude. -/
def Fmt.ulpExp (f : Fmt) (s : FVal) : Int :=
  match s with
  | .fin _ m e => if m = 0 then f.emin - f.mbits else max ((Nat.log2 m : Int) + e) f.emin - f.mbits
  | _ => f.emin - f.mbits

/-- Whether a code is within `half` halves of an ulp at magnitude `s` of a value. -/
def Fmt.nearTo (f : Fmt) (half code : Nat) (s exact : FVal) : Bool :=
  match (f.decode code).sub exact with
  | .fin _ m e => let u := f.ulpExp s; let lo := min e u; decide (2 * m * 2 ^ (e - lo).toNat ≤ half * 2 ^ (u - lo).toNat)
  | _ => false

/-- An FP32 result that is free within `half` halves of an ulp at magnitude `s` of its exact value (R295, R296). Where the
sum of magnitudes leaves FP32's range, an intermediate sum may overflow and the result is open. -/
def freeNear (draw half : Nat) (s exact : FVal) : FVal :=
  match exact with
  | .fin .. =>
    let c := (Config.word32 draw).toNat
    if !(fp32.decode (fp32.encode s)).isFin then fp32.decode c
    else if fp32.nearTo half c s exact then fp32.decode c
    else fp32.decode (fp32.encode exact)
  | v => v

/-! ### Tensors of values -/

/-- A tensor read for computing: extents, values with dimension 0 fastest, whether a word of it was poisoned. -/
structure VTen where
  typ : Nat
  ext : List Nat
  vals : List Val
  bad : Bool

def VTen.e (t : VTen) (k : Nat) : Nat := t.ext.getD k 1

def count (ext : List Nat) : Nat := ext.foldl (· * ·) 1

def VTen.at (t : VTen) (i : Nat) : Val := t.vals.getD i (.int 0)

/-- Dimensions 0 and 1 exchanged (R285). -/
def VTen.swap (t : VTen) : VTen :=
  let a := t.e 0
  let b := t.e 1
  { t with
    ext := b :: a :: t.ext.drop 2
    vals := (List.range t.vals.length).map (fun i =>
      let plane := i / (a * b)
      let r := i % (a * b)
      t.at (plane * (a * b) + (r % b) * a + r / b)) }

/-- Element codes as values, with the E8M0 scales of their blocks of 32 along dimension 0 (R278). -/
def scaledVals (typ e0 : Nat) (codes scales : List Nat) : List Val :=
  let blocks := ceilDiv e0 32
  (codes.zip (List.range codes.length)).map (fun p =>
    let v := elemVal typ p.1
    if scales.isEmpty then v
    else
      let sc := scales.getD (p.2 / e0 * blocks + p.2 % e0 / 32) 255
      match v with
      | .flt x => if sc = 255 then .flt .nan else .flt (x.mul (.fin false 1 ((sc : Int) - 127)))
      | v => v)

def Val.f (v : Val) : FVal := v.toF

/-! ### Matrix nodes (R284, R293, R296) -/

/-- Elements of a K group (R293). -/
def groupOf (typ : Nat) : Nat := if elemBits typ ≤ 8 then 32 else 16

/-- floor(log2) of the largest finite magnitude of an MX element (R280). -/
def mxEmax (typ : Nat) : Int := if typ = 3 then 2 else if typ = 6 then 8 else 15

/-- The scale code of a block of values (R280). -/
def mxScale (typ : Nat) (vs : List FVal) : Nat :=
  if vs.any FVal.isNan then 0xFF
  else if typ ≠ 7 ∧ vs.any (fun v => !v.isFin) then 0xFF
  else
    let amax := vs.foldl (fun (a : FVal) v => if v.isFin && a.lt v.abs then v.abs else a) (.fin false 0 0)
    match amax with
    | .fin _ m e => if m = 0 then 0 else (clampInt (-127) 127 ((Nat.log2 m : Int) + e - mxEmax typ) + 127).toNat
    | _ => 0xFF

/-- Activations converted to the weight format on load (R274): block by block with a scale where the weights have one. -/
def convertBlock (typ draw : Nat) (mx : Bool) (vs : List FVal) : List FVal × Nat :=
  match elemFmt typ with
  | none => (vs, 0)
  | some f =>
    let sc := if mx then mxScale typ vs else 127
    let up (k : Int) (x : FVal) : FVal := x.mul (.fin false 1 k)
    if sc = 0xFF then (vs.map (fun _ => .nan), 0)
    else
      let out := (vs.zip (List.range vs.length)).map (fun e =>
        f.convert pickNear (draw + e.2) (up (127 - (sc : Int)) e.1))
      (out.map (fun o => up ((sc : Int) - 127) (f.decode o.1)), (out.filter (fun o => o.2 == .sat)).length)

/-- The rows of an activation operand in the weight format, and the elements of each row that saturated. -/
def convertRows (typ draw : Nat) (mx : Bool) (k : Nat) (vals : List FVal) : List FVal × List Nat :=
  let step := if mx then 32 else max k 1
  let rows := chunksOf (max k 1) (vals.length + 1) vals
  let row (r : List FVal × Nat) : List FVal × Nat :=
    let blocks := chunksOf step (k + 1) r.1
    (blocks.zip (List.range blocks.length)).foldl (fun acc b =>
      let (o, n) := convertBlock typ (draw + r.2 * k + b.2 * step) mx b.1
      (acc.1 ++ o, acc.2 + n)) (([], 0) : List FVal × Nat)
  let done := (rows.zip (List.range rows.length)).map row
  (done.flatMap (·.1), done.map (·.2))

/-- A dot product with a bias as an FP32 value (R293, R296). -/
def dotFloat (draw groups : Nat) (as bs : List FVal) (bias : Option FVal) : FVal :=
  let ps := (as.zip bs).map (fun p => p.1.mul p.2)
  let exact := ps.foldl FVal.add (bias.getD (.fin false 0 0))
  let s := ps.foldl (fun (a : FVal) p => a.add p.abs) ((bias.map FVal.abs).getD (.fin false 0 0))
  freeNear draw (2 * (groups + b2n bias.isSome)) s exact

/-- An integer dot product, converted to FP32 and scaled, with one rounding at each step (R293). -/
def dotInt (as bs : List Val) (scaleA scaleB : FVal) (bias : Option FVal) : FVal :=
  let sum := (as.zip bs).foldl (fun (a : Int) p => match p.1, p.2 with | .int x, .int y => a + x * y | _, _ => a) 0
  let r (v : FVal) : FVal := fp32.decode (fp32.encode v)
  let x := r ((r ((r (FVal.ofInt sum)).mul scaleA)).mul scaleB)
  match bias with
  | some b => r (x.add b)
  | none => x

/-- An activation of R284: exact for RELU, free within the bounds of R297 for the others; where the exact result is below
2^-100 the bound is 2^-120. -/
def actF (draw act : Nat) (x : FVal) : FVal :=
  if act = 0 then x
  else if act = 1 then maxNan x (.fin false 0 0)
  else
    let exact := exactAct act (Config.coin draw) x
    let c := fp32.decode (Config.word32 draw).toNat
    if exact.abs.lt (.fin false 1 (-100)) && (c.sub exact).abs.le (.fin false 1 (-120)) then c
    else freeNear draw (if act ≤ 3 then 8 else 6) exact exact

/-- C [N, rows] of A [K, rows] and B [K, N]; also, row by row, the elements of A that saturated on load. -/
def gemm (draw k : Nat) (a b : VTen) (mx : Bool) (scaleA : FVal) (colScale : List FVal) (bias : Option (List FVal)) (act : Nat) :
    List Val × List Nat :=
  let rows := a.vals.length / max k 1
  let n := b.vals.length / max k 1
  let ints := (elemFmt a.typ).isNone
  let conv := !ints && elemBits b.typ ≤ 8 && 16 ≤ elemBits a.typ
  let (af, sat) : List FVal × List Nat :=
    if conv then convertRows b.typ (draw + 2 * rows * n) mx k (a.vals.map Val.f) else (a.vals.map Val.f, [])
  let typ := if elemBits a.typ < elemBits b.typ ∨ conv then b.typ else a.typ
  let groups := ceilDiv k (groupOf typ)
  let arow (r : Nat) : List FVal := slice (r * k) k af
  let bcol (j : Nat) : List FVal := (slice (j * k) k b.vals).map Val.f
  ((List.range rows).flatMap (fun r => (List.range n).map (fun j =>
    let bi := bias.map (fun l => l.getD j (.fin false 0 0))
    let x := if ints then dotInt (slice (r * k) k a.vals) (slice (j * k) k b.vals) scaleA (colScale.getD j (.fin false 1 0)) bi
      else dotFloat (draw + r * n + j) groups (arow r) (bcol j) bi
    Val.flt (actF (draw + rows * n + r * n + j) act x))), sat)

/-! ### Vector nodes (R284, R297) -/

/-- An elementwise operation of two values: 0 ADD, 1 SUB, 2 MUL, 3 DIV, 4 MAX, 5 MIN. An integer quotient that is not
whole has no stated value. -/
def elementwise (draw op : Nat) (fp64s : Bool) (x y : Val) : Val :=
  match x, y with
  | .int a, .int b =>
    match op with
    | 0 => .int (a + b)
    | 1 => .int (a - b)
    | 2 => .int (a * b)
    | 3 => if b ≠ 0 ∧ a % b = 0 then .int (a / b) else .int (Config.word draw).toNat
    | 4 => .int (max a b)
    | _ => .int (min a b)
  | _, _ =>
    let f := if fp64s then fp64 else fp32
    let a := x.f
    let b := y.f
    let r (v : FVal) : Val := .flt (f.decode (f.encode v))
    match op with
    | 0 => r (a.add b)
    | 1 => r (a.sub b)
    | 2 => r (a.mul b)
    | 3 =>
      let q := f.div a b
      let c := (Config.word draw).toNat % 2 ^ f.width
      match a, b with
      | .fin na ma ea, .fin nb mb eb =>
        if mb ≠ 0 ∧ ma ≠ 0 ∧ f.within 1 c (na != nb) ma mb (ea - eb) then .flt (f.decode c) else .flt (f.decode q)
      | _, _ => .flt (f.decode q)
    | 4 => .flt (maxNan a b)
    | _ => .flt (minNan a b)

def unaryF (draw op : Nat) (x : Val) : Val :=
  match x with
  | .int i => if op = 0 then .int (max i 0) else .flt (actF draw (op + 1) (FVal.ofInt i))
  | v => .flt (actF draw (op + 1) v.f)

/-- The values along an axis through flat index `i`. -/
def axisLine (t : VTen) (axis i : Nat) : List Val × Nat :=
  let stride := count (t.ext.take axis)
  let len := t.e axis
  let k := i / stride % len
  ((List.range len).map (fun j => t.at (i - k * stride + j * stride)), k)

/-- SOFTMAX, LAYERNORM and RMSNORM: free within the bounds of R297, a norm's at the larger of |y| and |γ| + |β|. -/
def lineOp (draw op : Nat) (t : VTen) (axis : Nat) (eps : W32) (gamma beta : Option VTen) : List Val :=
  (List.range t.vals.length).map (fun i =>
    let (vals, k) := axisLine t axis i
    let line := vals.map Val.f
    let x := (t.at i).f
    let per := ceilDiv line.length 128
    let par (p : Option VTen) : FVal := (p.map (fun g => (g.at k).f)).getD .zero
    let e := fp32.decode eps.toNat
    if op = 0x30 then
      let y := exactSoftmax line x
      .flt (freeNear (draw + i) (2 * (8 + per)) y y)
    else
      let norm := if op = 0x31 then exactLayer line x e else exactRms line x e
      let y := (norm.mul (par gamma)).add (par beta)
      let least := (par gamma).abs.add (par beta).abs
      .flt (freeNear (draw + i) (2 * (if op = 0x31 then 8 + 2 * per else 6 + per)) (maxNan y.abs least) y))

/-- Whether bag offsets rise and stay within the rows (R286). -/
def bagsOk (offs : List Int) (rows : Nat) : Bool :=
  (offs.zip (offs.drop 1)).all (fun p => decide (p.1 ≤ p.2)) && offs.all (fun o => decide (0 ≤ o ∧ o ≤ rows))

/-- One bag: 0 SUM, 1 MEAN, 2 MAX over the rows [lo, hi) in column `c`; an empty bag is zero. -/
def bagOp (draw op : Nat) (t : VTen) (lo hi c : Nat) : Val :=
  let xs := (List.range (hi - lo)).map (fun j => (t.at ((lo + j) * t.e 0 + c)).f)
  let m := xs.length
  if m = 0 then .flt (.fin false 0 0)
  else if op = 2 then .flt (xs.foldl maxNan (xs.headD .nan))
  else
    let sum := xs.foldl FVal.add (.fin false 0 0)
    let s := xs.foldl (fun (a : FVal) x => a.add x.abs) (.fin false 0 0)
    if op = 0 then .flt (freeNear draw (m - 1) s sum)
    else
      match sum, s with
      | .fin n mm e, .fin _ sm se =>
        -- the mean is within the bound exactly where m times it is within m times the bound
        let c := (Config.word32 draw).toNat
        let got := (fp32.decode c).mul (FVal.ofInt m)
        let u := fp32.ulpExp (.fin false (sm / m) se)
        let okay := match got.sub (.fin n mm e) with
          | .fin _ dm de => let lo := min de u; decide (2 * dm * 2 ^ (de - lo).toNat ≤ (m + 1) * m * 2 ^ (u - lo).toNat)
          | _ => false
        .flt (fp32.decode (if okay then c else fp32.div (.fin n mm e) (FVal.ofInt m)))
      | _, _ => .flt (fp32.decode (fp32.div sum (FVal.ofInt m)))

/-- The pairs that CROSS emits over F features (R284). -/
def crossPairs (f : Nat) (self : Bool) : List (Nat × Nat) :=
  (List.range f).flatMap (fun i => ((List.range f).filter (fun j => decide (i < j) || (self && i == j))).map (fun j => (i, j)))

/-- Two tensors joined along an axis. -/
def concatVals (a b : VTen) (axis : Nat) : List Val :=
  let inner := count (a.ext.take axis)
  let na := inner * a.e axis
  let nb := inner * b.e axis
  (List.range (a.vals.length / max na 1)).flatMap (fun k => slice (k * na) na a.vals ++ slice (k * nb) nb b.vals)

/-- LENGTH entries from START along an axis. -/
def splitVals (a : VTen) (axis start len : Nat) : List Val :=
  let inner := count (a.ext.take axis)
  let na := inner * a.e axis
  (List.range (a.vals.length / max na 1)).flatMap (fun k => slice (k * na + start * inner) (len * inner) a.vals)

end Sys2Proof.Machine
end

