-- ==== Sys2Proof/Machine/Model.lean ====
section
/-!
DEFINITION. MODEL stages: core sets and groups (R287, R288), residency (R290, R291), and the running of a stage graph on
a batch (R281 to R286, R292).
-/
namespace Sys2Proof.Machine

/-! ### Core sets (R287, R288) -/

structure ModelPar where
  graph : Nat
  residency : Nat
  group : Nat
  clusters : Nat
  slots : Nat

def modelPar (p : List Byte) : ModelPar := ⟨u16 p 0, u8 p 2, u8 p 3, u16 p 4, u16 p 6⟩

/-- The logical cores of the set, ascending. -/
def ModelPar.cores (p : ModelPar) : List Nat :=
  (bitList 12 p.clusters).flatMap (fun c => (bitList 16 p.slots).map (fun k => c * 16 + k))

/-- The groups of the set; cores left over take no task. -/
def ModelPar.groups (p : ModelPar) : List (List Nat) :=
  if p.group = 0 then []
  else (List.range (p.cores.length / p.group)).map (fun i => slice (i * p.group) p.group p.cores)

/-- First slot and count of a group's member `i` (R288). -/
def groupShare (slots n i : Nat) : Nat × Nat :=
  let q := slots / n
  let r := slots % n
  (i * q + min i r, q + (if i < r then 1 else 0))

/-- The member of a group whose range holds a slot. -/
def groupMember (slots n k : Nat) : Nat :=
  ((List.range n).find? (fun i => decide (k < (groupShare slots n i).1 + (groupShare slots n i).2))).getD 0

def Image.graph? (im : Image) (n : Nat) : Option Graph := im.graphs.find? (·.number == n)

def State.graph? (s : State) (n : Nat) : Option Graph := s.image.bind (fun im => im.graph? n)

/-! ### Residency (R290) -/

def isGemm (n : GNode) : Bool := n.op == 1

/-- Bytes of an image's tensor by its descriptor number. -/
def Image.descBytes (im : Image) (n : Nat) : Nat :=
  ((im.descs.find? (·.1 == n)).map (fun d => ceilDiv (count (d.2.extent.take d.2.rank) * d.2.bits) 8)).getD 0

/-- Bytes of weights, biases and scales that the GEMM nodes of a graph use, each tensor once. -/
def Image.weightBytes (im : Image) (g : Graph) : Nat :=
  let used := (g.nodes.filter isGemm).flatMap (fun n => [n.in1, n.in2])
  let ts := used.eraseDups.filterMap (fun i => g.tensors[i]?)
  ((ts.filter (·.kind == 2)).map (fun t => im.descBytes t.desc + (if t.scale = 0xFFFF then 0 else im.descBytes t.scale))).sum

/-- The MODEL stages of an image in pipeline and stage order. -/
def Image.modelStages (im : Image) : List (Nat × Nat × ModelPar) :=
  im.pipelines.flatMap (fun p => ((List.range p.stages.length).zip p.stages).filterMap (fun e =>
    if e.2.op = .model then some (p.number, e.1, modelPar e.2.param) else none))

/-- What the plan of resident weights comes to: per core the bytes held and the graphs, the stages that are resident,
and whether a RESIDENT stage did not fit. -/
structure Plan where
  held : List (Nat × Nat)
  graphs : List (Nat × Nat)
  stages : List (Nat × Nat)
  refused : Bool

/-- Take one stage into the plan. -/
def Plan.add (im : Image) (limit : Nat) (p : Plan) (e : Nat × Nat × ModelPar) : Plan :=
  let m := e.2.2
  if m.residency = 2 then p
  else
    let w := ((im.graph? m.graph).map im.weightBytes).getD 0
    let fresh := m.cores.filter (fun c => !p.graphs.contains (c, m.graph))
    if fresh.all (fun c => decide (lookupD 0 p.held c + w ≤ limit)) then
      { p with
        held := fresh.foldl (fun h c => assocSet h c (lookupD 0 h c + w)) p.held
        graphs := p.graphs ++ fresh.map (fun c => (c, m.graph)), stages := p.stages ++ [(e.1, e.2.1)] }
    else if m.residency = 1 then { p with refused := true }
    else p

def Image.plan (im : Image) (weightKib : Nat) : Plan :=
  im.modelStages.foldl (Plan.add im (weightKib * 1024)) ⟨[], [], [], false⟩

/-- Whether a MODEL stage keeps its weights in the core stores. -/
def State.isResident (s : State) (pipeline stage : Nat) : Bool :=
  match s.image with
  | some im => (im.plan (s.fget F.MTX_CTL_WEIGHT_KIB)).stages.contains (pipeline, stage)
  | none => false

/-- The cores that hold a graph's resident weights. -/
def Image.residentCores (im : Image) (weightKib graph : Nat) : List Nat :=
  ((im.plan weightKib).graphs.filter (·.2 == graph)).map (·.1)

/-- Active runs whose pipeline has a resident stage of a graph. -/
def State.graphUsed (s : State) (graph : Nat) : Bool :=
  s.runs.any (fun r => match s.pipelineOf r.slot with
    | some p => ((List.range p.stages.length).zip p.stages).any (fun e =>
        e.2.op == .model && (modelPar e.2.param).graph == graph && s.isResident p.number e.1)
    | none => false)

def State.loaded (s : State) (graph : Nat) : Bool := s.resident.any (·.graph == graph)

/-- Read a tensor of the image through its descriptor, in the vault of a core (R153): its bytes with poison. -/
def State.readDesc (s : State) (slot core n : Nat) : Except Code (Option (Desc × List (Byte × Bool)) × State) :=
  match s.seat slot n core with
  | none => .ok (none, s)
  | some t => do
    let (runs, s) ← s.readTensor t (tuples t.d.outer)
    return (some (t.d, runs.flatMap (fun e => e.2)), s)

/-- The active run that a graph's resident weights are loaded for: its descriptors give their place (R150, R291). -/
def State.graphRun (s : State) (graph : Nat) : Option Run :=
  s.runs.find? (fun r => match s.pipelineOf r.slot with
    | some p => ((List.range p.stages.length).zip p.stages).any (fun e =>
        e.2.op == .model && (modelPar e.2.param).graph == graph && s.isResident p.number e.1)
    | none => false)

/-- A graph's resident weights are loaded (R291): each weight byte is read once and multicast to the cores. -/
def weightLoad (graph : Fin 256) (s : State) : State :=
  match s.image, s.graph? graph.val with
  | some im, some g =>
    if !s.lit || s.loaded graph.val || !s.graphUsed graph.val then s
    else
      let used := ((g.nodes.filter isGemm).flatMap (fun n => [n.in1, n.in2])).eraseDups
      let descs := (used.filterMap (fun i => g.tensors[i]?)).flatMap (fun t =>
        if t.kind = 2 then (if t.scale = 0xFFFF then [t.desc] else [t.desc, t.scale]) else [])
      let cores := im.residentCores (s.fget F.MTX_CTL_WEIGHT_KIB) graph.val
      let slot := ((s.graphRun graph.val).map Run.slot).getD 0
      let (data, s) := descs.foldl (fun (acc : List (Nat × List (Byte × Bool)) × State) n =>
        match acc.2.readDesc slot (cores.headD 0) n with
        | .ok (some (_, bs), s) => (acc.1 ++ [(n, bs)], s)
        | .ok (none, s) => (acc.1, s)
        | .error _ => acc) ([], s)
      { s with resident := s.resident ++ [⟨graph.val, cores, data⟩] }
  | _, _ => s

/-- When a run ends, the weights that no other active run uses are no longer held. -/
def State.dropWeights (s : State) : State :=
  { s with resident := s.resident.filter (fun e => s.graphUsed e.graph) }

/-! ### Tensors of a graph -/

/-- A tensor of a graph as the nodes have written it so far. -/
abbrev Env := List (Nat × List Nat)

/-- Where a core finds the weights of a stage (R153, R290): the run's descriptors in its own vault, read once a strip, or what
its core store holds. -/
structure Weights where
  slot : Nat
  core : Nat
  held : List (Nat × List (Byte × Bool))
  strips : Nat

/-- The codes of a WEIGHT tensor, and whether a word was poisoned. Of a resident tensor whose region has been written since
it was loaded, each element is free to have the old value or the new one (R291, log entry 194). -/
def State.weightCodes (s : State) (w : Weights) (n : Nat) : Except Code (List Nat × Bool × State) := do
  match w.held.find? (·.1 == n) with
  | some (_, old) =>
    match s.readDesc w.slot w.core n with
    | .ok (some (d, now), _) =>
      let a := unpack d.bits (old.map (·.1))
      let b := unpack d.bits (now.map (·.1))
      let codes := ((a.zip b).zip (List.range a.length)).map (fun e => if Config.coin (s.free + e.2) then e.1.1 else e.1.2)
      return (codes, old.any (·.2), { s with free := s.free + a.length })
    | _ => return ([], false, s)
  | none =>
    let again (r : Except Code State) (_ : Nat) : Except Code State := do
      let s ← r
      let (_, s) ← s.readDesc w.slot w.core n
      return s
    let (x, s) ← s.readDesc w.slot w.core n
    let s ← (List.range (w.strips - 1)).foldl again (.ok s)
    match x with
    | none => return ([], false, s)
    | some (d, bs) => return (unpack d.bits (bs.map (·.1)), bs.any (·.2), s)

/-- The codes of a tensor that is no weight: as the nodes have left it, or open where none has written it yet. -/
def State.tensorCodes (s : State) (env : Env) (i : Nat) (t : GTensor) : List Nat × State :=
  match env.find? (·.1 == i) with
  | some (_, codes) => (codes, s)
  | none =>
    let n := count (t.extent.take t.rank)
    ((List.range n).map (fun k => (Config.word (s.free + k)).toNat % 2 ^ elemBits t.typ), { s with free := s.free + n })

/-- An operand as values; weights are read from memory, with poison. -/
def State.operand (s : State) (w : Weights) (g : Graph) (env : Env) (i : Nat) :
    Except Code (Option (VTen × GTensor) × State) :=
  match g.tensors[i]? with
  | none => .ok (none, s)
  | some t =>
    if t.kind = 2 then do
      let (codes, bad, s) ← s.weightCodes w t.desc
      let mx := t.scale != 0xFFFF && scaledType t.typ
      let (sc, bad2, s) ← if mx then s.weightCodes w t.scale else .ok ([], false, s)
      return (some (⟨t.typ, t.extent.take t.rank, scaledVals t.typ (t.extent.getD 0 1) codes sc, bad || bad2⟩, t), s)
    else
      let (codes, s) := s.tensorCodes env i t
      .ok (some (⟨t.typ, t.extent.take t.rank, codes.map (elemVal t.typ), false⟩, t), s)

/-- The values of an optional operand. -/
def State.optOperand (s : State) (w : Weights) (g : Graph) (env : Env) (i : Nat) : Except Code (Option VTen × State) :=
  if i = 0xFFFF then .ok (none, s) else (s.operand w g env i).map (fun e => (e.1.map (·.1), e.2))

/-- The FP32 column scales of an integer weight tensor. -/
def State.colScales (s : State) (w : Weights) (t : GTensor) : Except Code (List FVal × Bool × State) :=
  if t.kind = 2 ∧ t.scale ≠ 0xFFFF ∧ (elemFmt t.typ).isNone then
    (s.weightCodes w t.scale).map (fun e => (e.1.map fp32.decode, e.2))
  else .ok ([], false, s)

/-! ### Nodes -/

/-- A node's result: values before conversion, elements that saturated on load row by row; or the code that fails the task. -/
abbrev NodeOut := Except Code (List Val × List Nat)

/-- A GEMM, BGEMM or CROSS node over its operands. Integers of CROSS take the activation scale once, and B without column
scales the factor 1 (log entry 195). -/
def matrixNode (n : GNode) (draw : Nat) (a b : VTen) (mx : Bool) (cols : List FVal) (bias : Option VTen) : List Val × List Nat :=
  let a := if bitAt n.flags 0 then a.swap else a
  let b := if bitAt n.flags 1 then b.swap else b
  let k := a.e 0
  let scaleA := fp32.decode n.p0.toNat
  let biasF := bias.map (fun t => t.vals.map Val.f)
  let slots (t : VTen) (size : Nat) (i : Nat) : VTen := { t with ext := t.ext.take 2, vals := slice (i * size) size t.vals }
  if n.op = 1 then gemm draw k a b mx scaleA cols biasF n.act
  else if n.op = 2 then
    let sa := a.e 0 * a.e 1
    let sb := b.e 0 * b.e 1
    let step := 2 * a.e 1 * b.e 1 + sa
    (List.range (a.vals.length / max sa 1)).foldl (fun acc i =>
      let (o, sat) := gemm (draw + i * step) k (slots a sa i) (slots b sb i) mx scaleA cols none n.act
      (acc.1 ++ o, acc.2 ++ sat)) (([], []) : List Val × List Nat)
  else
    let f := a.e 1
    let pairs := crossPairs f (bitAt n.p1.toNat 0)
    let one (s : Nat) (p : (Nat × Nat) × Nat) : Val :=
      let vec (i : Nat) : List Val := slice (s * k * f + i * k) k a.vals
      let at_ := draw + 2 * (s * pairs.length + p.2)
      let x := if (elemFmt a.typ).isNone then dotInt (vec p.1.1) (vec p.1.2) scaleA FVal.one none
        else dotFloat at_ (ceilDiv k (groupOf a.typ)) ((vec p.1.1).map Val.f) ((vec p.1.2).map Val.f) none
      .flt (actF (at_ + 1) n.act x)
    ((List.range (a.vals.length / max (k * f) 1)).flatMap (fun s => (pairs.zip (List.range pairs.length)).map (one s)), [])

/-- A vector or layout node. -/
def vectorNode (n : GNode) (draw outLen slots : Nat) (a : VTen) (b : Option VTen) (c d : Option VTen) : NodeOut :=
  let len := a.vals.length
  let fp64s := a.typ == 16 || (b.map (fun t => t.typ == 16)).getD false
  if 0x10 ≤ n.op ∧ n.op ≤ 0x15 then
    match b with
    | none => .ok ([], [])
    | some b =>
      .ok ((List.range outLen).map (fun i =>
        elementwise (draw + i) (n.op - 0x10) fp64s (a.at (i % max len 1)) (b.at (i % max b.vals.length 1))), [])
  else if 0x20 ≤ n.op ∧ n.op ≤ 0x24 then
    .ok ((a.vals.zip (List.range len)).map (fun e => unaryF (draw + e.2) (n.op - 0x20) e.1), [])
  else if 0x30 ≤ n.op ∧ n.op ≤ 0x32 then .ok (lineOp draw n.op a n.axis n.p0 (if n.op = 0x30 then none else b) (if n.op = 0x31 then (c.or d) else none), [])
  else if 0x40 ≤ n.op ∧ n.op ≤ 0x42 then
    let offs := ((c.map (fun t => t.vals)).getD []).map (fun v => match v with | .int i => i | _ => 0)
    let e0 := max (a.e 0) 1
    if !bagsOk offs (len / e0) then .error C.BAG_OFFSETS
    else .ok ((List.range slots).flatMap (fun s => (List.range e0).map (fun k =>
      bagOp (draw + s * e0 + k) (n.op - 0x40) a (offs.getD s 0).toNat (offs.getD (s + 1) 0).toNat k)), [])
  else if n.op = 0x50 then .ok ((b.map (fun b => concatVals a b n.axis)).getD a.vals, [])
  else if n.op = 0x51 then .ok (splitVals a n.axis n.p0.toNat n.p1.toNat, [])
  else .ok (a.vals, [])

/-- The second operand of a node, the first where it has none: whether it carries MX scales, the column scales of integer
weights, whether any word was poisoned. -/
def State.secondOperand (s : State) (w : Weights) (g : Graph) (env : Env) (i : Nat) (first : VTen) :
    Except Code (VTen × Bool × List FVal × Bool × State) :=
  if i = 0xFFFF then .ok (first, false, [], false, s)
  else do
    let (x, s) ← s.operand w g env i
    match x with
    | none => return (first, false, [], false, s)
    | some (b, t) =>
      let (cols, bad, s) ← s.colScales w t
      return (b, t.kind == 2 && t.scale != 0xFFFF && scaledType t.typ, cols, b.bad || bad, s)

/-- Run a node: the result with its saturations and the state, or the code that fails the task. The operands of a norm are
IN0, γ in IN2 and β in IN3 (R283); an elementwise node takes IN1. -/
def State.runNode (s : State) (w : Weights) (g : Graph) (env : Env) (n : GNode) (outLen slots : Nat) :
    Except Code ((List Val × List Nat) × State) := do
  let (x, s) ← s.operand w g env n.in0
  match x with
  | none => return (([], []), s)
  | some (a, _) =>
    let matrix := n.op ≤ 2 || n.op = 0x60
    let (b, mx, cols, bad, s) ← s.secondOperand w g env n.in1 a
    let (c, s) ← s.optOperand w g env n.in2
    let (d, s) ← s.optOperand w g env n.in3
    let poison (t : Option VTen) : Bool := (t.map VTen.bad).getD false
    if a.bad || bad || poison c || poison d then .error C.MODEL_POISON
    else
      let draw := s.free
      let s := { s with free := s.free + 8 * (outLen + a.vals.length + b.vals.length + 1) }
      if matrix then return (matrixNode n draw a b mx cols c, s)
      else
        let norm := 0x31 ≤ n.op && n.op ≤ 0x32
        let out ← vectorNode n draw outLen slots a (if norm then c else if n.in1 = 0xFFFF then none else some b)
          (if norm then d else c) none
        return (out, s)

/-- What a node adds to its output: ACCUMULATE, TRANS_OUT, conversion, and how each element counts. -/
def finishNode (n : GNode) (t : GTensor) (draw : Nat) (old : List Nat) (vals : List Val) : List (Nat × ExcKind) :=
  let vals := if bitAt n.flags 2 then (VTen.swap ⟨t.typ, (t.extent.getD 1 1) :: (t.extent.getD 0 1) :: t.extent.drop 2, vals, false⟩).vals else vals
  (vals.zip (List.range vals.length)).map (fun e =>
    let v := if bitAt n.flags 4 then elementwise (draw + e.2) 0 (t.typ == 16) (elemVal t.typ (old.getD e.2 0)) e.1 else e.1
    convertElem t.typ (bitAt n.flags 3) (draw + e.2) v)

/-! ### Counting (R279, R289) -/

/-- The task's batch as it is shared over a group, seen by one of its cores. -/
structure Share where
  cores : List Nat
  slots : Nat
  me : Nat

def Share.core (h : Share) (k : Nat) : Nat := h.cores.getD (groupMember h.slots h.cores.length k) 0

/-- Count the exceptions of an output's elements in the slots of one core. -/
def State.countExc (s : State) (h : Share) (out : List (Nat × ExcKind)) (valid : Nat → Bool) : State :=
  let per := max (out.length / max h.slots 1) 1
  (out.zip (List.range out.length)).foldl (fun s e =>
    let k := e.2 / per
    if !valid k || h.core k != h.me then s
    else
      match e.1.2 with
      | .plain => s
      | .nan => s.bump F.MTX_CORE_EXC_NAN (h.core k) 1
      | .inf => s.bump F.MTX_CORE_EXC_INF (h.core k) 1
      | .sat => s.bump F.MTX_CORE_EXC_SATURATED (h.core k) 1) s

/-- Count the elements that saturated on load in the rows of one core's slots. -/
def State.countSats (s : State) (h : Share) (rows : List Nat) (valid : Nat → Bool) : State :=
  let per := max (rows.length / max h.slots 1) 1
  (rows.zip (List.range rows.length)).foldl (fun s e =>
    let k := e.2 / per
    if valid k && h.core k == h.me then s.bump F.MTX_CORE_EXC_SATURATED h.me e.1 else s) s

/-- Engines of a core in service. -/
def State.enginesIn (s : State) (core : Nat) : Nat := popcount 4 (s.fget F.MTX_CORE_STATUS_ENGINES core)

/-- Engine-cycles of a GEMM of `rows` rows, K elements in `t` tiles and `b` column blocks on `e` engines, `w` the least
tile time (R289). -/
def engineCycles (rows t b e w : Nat) : Nat :=
  if e = 0 ∨ rows = 0 then 0
  else if e ≤ b then b * t * max rows w
  else
    let per := e / b
    b * per * (t * max (ceilDiv rows per) w)

/-- Width of the operands as the engines take them: the wider one (R273); an activation operand that the vector unit converts
on load has the width of the weights (R274). -/
def operandBits (a b : Nat) : Nat :=
  if (elemFmt a).isSome && decide (16 ≤ elemBits a) && decide (elemBits b ≤ 8) then elemBits b else max (elemBits a) (elemBits b)

/-- K elements consumed per cycle (R273). -/
def rateG (bits : Nat) : Nat := if bits ≤ 4 then 64 else if bits ≤ 8 then 32 else 16

/-- The strip of a core (R288): the largest whose scratch fits in CORE_CHUNK. -/
def State.strip (s : State) (g : Graph) : Nat :=
  let perSlot := ((g.tensors.filter (·.kind == 3)).map (fun t => count ((t.extent.take t.rank).dropLast) * elemBits t.typ)).sum
  (([256, 128, 64, 32, 16].find? (fun n => decide (n * perSlot ≤ s.fget F.VLT_OPS_CTL_CORE_CHUNK * 8192)))).getD 16

/-- The strips that a core's slots make. -/
def State.stripsOf (s : State) (g : Graph) (slots : Nat) : List Nat :=
  let strip := s.strip g
  List.replicate (slots / strip) strip ++ (if slots % strip = 0 then [] else [slots % strip])

/-- Elements that a tensor has outside dimensions 0 and 1, for `slots` slots. -/
def GTensor.others (t : GTensor) (slots : Nat) : Nat :=
  if t.kind = 2 then ((t.extent.take t.rank).drop 2).prod
  else if t.rank ≤ 2 then 1 else ((t.extent.take (t.rank - 1)).drop 2).prod * slots

/-- Tile passes of a fused transpose of dimensions 0 and 1, by the tensor's own element size (R165, R166, R168). -/
def GTensor.passes (t : GTensor) (slots : Nat) : Nat :=
  let ej := if t.rank = 2 ∧ t.kind ≠ 2 then slots else t.extent.getD 1 1
  planePasses (elemBits t.typ) (t.extent.getD 0 1) ej (t.others slots)

/-- Tile passes of the transposes that a node fuses: operand A, operand B, the output (R285). -/
def tilePasses (n : GNode) (slots : Nat) (a b o : GTensor) : Nat :=
  (if bitAt n.flags 0 then a.passes slots else 0) + (if bitAt n.flags 1 then b.passes slots else 0) +
    (if bitAt n.flags 2 then o.passes slots else 0)

/-- Bytes of a tensor over `slots` slots. -/
def GTensor.bytesFor (t : GTensor) (slots : Nat) : Nat :=
  let dims := t.extent.take t.rank
  ceilDiv (elemBits t.typ * (if t.kind = 2 then dims.prod else (dims.dropLast).prod * slots)) 8

/-- Bytes that a node sends through the layout unit: what it fuses a transpose into, and the output of CONCAT, SPLIT and
RESHAPE (R176, R284, log entry 173). -/
def layoutBytes (n : GNode) (slots : Nat) (a b o : GTensor) : Nat :=
  (if bitAt n.flags 0 then a.bytesFor slots else 0) + (if bitAt n.flags 1 then b.bytesFor slots else 0) +
    (if bitAt n.flags 2 || decide (0x50 ≤ n.op ∧ n.op ≤ 0x52) then o.bytesFor slots else 0)

/-- Count a node's work on one core of a group: engine rows and cycles, vector cycles, tile passes, layout bytes. -/
def State.countNode (s : State) (h : Share) (g : Graph) (n : GNode) (streamed : Bool) : State :=
  match g.tensors[n.in0]?, g.tensors[n.out]? with
  | some a, some o =>
    let bt := (g.tensors[n.in1]?).getD a
    let k := if bitAt n.flags 0 then a.extent.getD 1 1 else a.extent.getD 0 1
    let matrix := n.op ≤ 2 || n.op = 0x60
    let perSlot := count ((o.extent.take o.rank).dropLast)
    ((h.cores.zip (List.range h.cores.length)).filter (fun e => e.1 == h.me)).foldl (fun s e =>
      let slots := (groupShare h.slots h.cores.length e.2).2
      let s := s.bump F.LAY_BYTES_BYTES e.1 (layoutBytes n slots a bt o)
      let s := s.event 0x400 e.1 (tilePasses n slots a bt o)
      if matrix then
        let e4 := s.enginesIn e.1
        let side (t : GTensor) (flag : Nat) : Nat := if bitAt n.flags flag then t.extent.getD 0 1 else t.extent.getD 1 1
        let cols := if n.op = 0x60 then side a 0 else side bt 1
        let b := ceilDiv cols 128
        let t := ceilDiv k (rateG (operandBits a.typ bt.typ))
        let w := if streamed then 64 * max 1 (min e4 b) else 64
        let rowsOf (m : Nat) : Nat := if n.op = 1 then m * max 1 (perSlot / max cols 1) else max 1 (side a 0)
        let jobs := if n.op = 1 then (s.stripsOf g slots).map rowsOf else List.replicate slots (rowsOf 1)
        let cyc := (jobs.map (fun r => engineCycles r t b e4 w)).sum
        let s := s.bump F.MTX_CORE_CYCLES_ENGINE_CYCLES e.1 cyc
        let per := if e4 = 0 then 0 else if e4 ≤ b then 0 else e4 / b
        (bitList 4 (s.fget F.MTX_CORE_STATUS_ENGINES e.1)).foldl (fun s i =>
          let rank := popcount i (s.fget F.MTX_CORE_STATUS_ENGINES e.1)
          let rows := (jobs.map (fun r => if per = 0 then (b / e4 + (if rank < b % e4 then 1 else 0)) * t * r
            else if rank < per * b then t * ceilDiv r per else 0)).sum
          s.event (0x300 + i) e.1 rows) s
      else if n.op < 0x50 then
        let rate := if elemBits o.typ = 64 then (if (elemFmt o.typ).isSome then 32 else 64)
          else if n.op = 0x13 ∨ (0x21 ≤ n.op ∧ n.op ≤ 0x24) ∨ (0x30 ≤ n.op ∧ n.op ≤ 0x32) then 32 else 128
        s.event 0x304 e.1 (ceilDiv (slots * perSlot) rate)
      else s) s
  | _, _ => s

/-! ### A whole graph -/

/-- Run the nodes in order (R283) on one core of the group: the tensors written, or the code and node of a failure. -/
def State.runNodes (s : State) (w : Weights) (streamed : Bool) (g : Graph) (h : Share) (valid : Nat → Bool) :
    List GNode → Nat → Env → Except (Code × Nat) Env × State
  | [], _, env => (.ok env, s)
  | n :: rest, i, env =>
    match g.tensors[n.out]? with
    | none => State.runNodes s w streamed g h valid rest (i + 1) env
    | some t =>
      match s.runNode w g env n (count (t.extent.take t.rank)) h.slots with
      | .error c => (.error (c, i), s)
      | .ok ((vals, sats), s) =>
        let (old, s) := if bitAt n.flags 4 then s.tensorCodes env n.out t else ([], s)
        let out := finishNode n t s.free old vals
        let s := { s with free := s.free + 2 * vals.length }
        let s := ((s.countExc h out valid).countSats h sats valid).countNode h g n streamed
        State.runNodes s w streamed g h valid rest (i + 1) (assocSet env n.out (out.map (·.1)))

/-- Each core of the group runs the whole graph with its own weights; what it writes of its own slots is the batch's (R153,
R288). -/
def State.runGroup (s : State) (slot : Nat) (streamed : Bool) (g : Graph) (cores : List Nat) (slots : Nat)
    (valid : Nat → Bool) (input : Env) : List Nat → Except (Code × Nat × Nat) (List (Nat × Env)) × State
  | [] => (.ok [], s)
  | c :: rest =>
    let held := if streamed then [] else ((s.resident.find? (·.graph == g.number)).map Resident.data).getD []
    let mine := (groupShare slots cores.length ((cores.findIdx? (· == c)).getD 0)).2
    match s.runNodes ⟨slot, c, held, (s.stripsOf g mine).length⟩ streamed g ⟨cores, slots, c⟩ valid g.nodes 0 input with
    | (.error (e, n), s) => (.error (e, n, c), s)
    | (.ok env, s) =>
      match State.runGroup s slot streamed g cores slots valid input rest with
      | (.error e, s) => (.error e, s)
      | (.ok l, s) => (.ok ((c, env) :: l), s)

/-- The INPUT tensors of a batch: the payload tensors of its layout as codes. -/
def inputEnv (g : Graph) (lay : Layout) (b : BatchBuf) : Env :=
  ((List.range g.tensors.length).zip g.tensors).filterMap (fun e =>
    if e.2.kind = 0 then
      (lay.tensors[e.2.payload]?).map (fun t =>
        (e.1, (unpack t.bits (b.tensor e.2.payload t)).take (t.elems * b.slots.length)))
    else none)

/-- A slot's part of a payload tensor of OUT_LAYOUT: zero in every element of a slot whose mask bit is clear; open where
the graph writes no such tensor. -/
def outSlot (g : Graph) (env : Env) (draw k : Nat) (t : LayoutTensor) (slot : Nat) (masked : Bool) : List Byte :=
  match ((List.range g.tensors.length).zip g.tensors).find? (fun e => e.2.kind == 1 && e.2.payload == k) with
  | some e =>
    if masked then t.codes (slice (slot * t.elems) t.elems (lookupD [] env e.1))
    else t.codes (List.replicate t.elems 0)
  | none => fitTo t.slotBytes (Config.bytes (draw + 64 * slot + k) t.slotBytes)

/-- The batch that a graph passes on: slots keep their places, each as the core of its range wrote it (R68, R288). -/
def outBatch (g : Graph) (envs : List (Nat × Env)) (h : Share) (draw : Nat) (lay : Layout) (b : BatchBuf) : BatchBuf :=
  { b with
    layout := lay.number
    slots := (b.slots.zip (List.range b.slots.length)).map (fun e =>
      { e.1 with data := mapTensors lay (fun k t => outSlot g (lookupD [] envs (h.core e.2)) draw k t e.2 e.1.kind.masked) }) }

def State.modelFail (s : State) (t : Task) (core graph node : Nat) (code : Code) : State :=
  let s := ((s.fset F.MTX_FAIL_CODE 0 code.toNat).fset F.MTX_FAIL_GRAPH 0 graph).fset F.MTX_FAIL_NODE 0 node
  ((s.fset F.MTX_FAIL_RUN_SLOT 0 t.slot).fset F.MTX_FAIL_CORE 0 core).failTask t code

/-- A copy of a graph fails the task (R164): recorded in the layout unit and in MTX_FAIL. -/
def State.copyFail (s : State) (t : Task) (graph : Nat) (c : CopyRec) (code : Code) : State :=
  (s.layRefuse code c.src t.slot).modelFail t t.home graph 0 code

def model (task : Nat) (s : State) : State :=
  match s.runningTask task .model with
  | none => s
  | some (t, st, p, _) =>
    let par := modelPar st.param
    match s.graph? par.graph, t.chunk.payload with
    | some g, .batch b =>
      match s.layout? g.inLayout, s.layout? g.outLayout with
      | some lin, some lout =>
        let cores := if t.cores.isEmpty then [t.home] else t.cores
        let valid (k : Nat) : Bool := (b.slots[k]?.map (fun x => x.kind.masked)).getD false
        match s.copyAll t.slot t.home g.copies with
        | .error (e, c) => s.copyFail t par.graph c e
        | .ok s =>
          match s.runGroup t.slot (!s.isResident p.number t.stage) g cores b.slots.length valid (inputEnv g lin b) cores with
          | (.error (e, n, c), s) => s.modelFail t c par.graph n e
          | (.ok envs, s) =>
            let out := outBatch g envs ⟨cores, b.slots.length, t.home⟩ s.free lout b
            { s with free := s.free + 64 * b.slots.length }.endTask t [{ t.chunk with payload := .batch out }]
      | _, _ => s.endTask t []
    | _, _ => s.endTask t [t.chunk]

end Sys2Proof.Machine
end

