-- ==== Sys2Proof/Machine/Match.lean ====
section
/-!
DEFINITION. The match store (R178 to R202): entries and tables, searches and their activations, the operation queues,
the order-keeping shift, the scrub against the shadow, spare blocks, the activation limit.
-/
namespace Sys2Proof.Machine

/-! ### Entries and tables -/

def MstEntry.empty : MstEntry := ⟨0, 0, 0, false, 0, false, 0⟩

/-- Every re-read of an entry fails parity (R33). -/
def MstEntry.bad (e : MstEntry) : Bool := decide (3 < e.flaky)

/-- The record of R181. -/
def MstEntry.record (e : MstEntry) : List Byte :=
  natLe 20 e.key.toNat ++ natLe 20 e.mask.toNat ++ [if e.odd then 0 else e.prio,
    BitVec.ofNat 8 (b2n (e.valid && !e.odd) + 2 * b2n e.odd)] ++ zeros 6 ++ natLe 8 e.result.toNat ++ zeros 8

def entryOfRecord (bs : List Byte) : MstEntry :=
  ⟨BitVec.ofNat 160 (leNat (slice 0 20 bs)), BitVec.ofNat 160 (leNat (slice 20 20 bs)),
    BitVec.ofNat 8 (u8 bs 40), bitAt (u8 bs 41) 0, BitVec.ofNat 64 (u64 bs 48), bitAt (u8 bs 41) 1, 0⟩

/-- Entries of a block. -/
def blockEntries : Nat := 8192

/-- States of a block (R201). -/
def blkActive : Nat := 0
def blkSpare : Nat := 1
def blkRetired : Nat := 2
def blkCopying : Nat := 3

/-- The physical block in service as a logical block (R178). -/
def State.physBlock (s : State) (l : Nat) : Option Nat :=
  (List.range 68).find? (fun b =>
    s.fget F.MST_BLOCK_STATUS_STATE b == blkActive && s.fget F.MST_BLOCK_STATUS_LOGICAL b == l)

/-- A declared table as its registers say. -/
structure MstTab where
  t : Nat
  first : Nat
  blocks : Nat
  wide : Bool

def State.mstTab? (s : State) (t : Nat) : Option MstTab :=
  if t < 16 ∧ s.flag F.MST_TABLE_CFG_DEFINED t then
    some ⟨t, s.fget F.MST_TABLE_CFG_FIRST t, s.fget F.MST_TABLE_CFG_BLOCKS t, s.flag F.MST_TABLE_CFG_WIDTH t⟩
  else none

/-- Entries per block at the table's width, and the table's size S (R183). -/
def MstTab.perBlock (t : MstTab) : Nat := if t.wide then 4096 else 8192
def MstTab.size (t : MstTab) : Nat := t.blocks * t.perBlock

/-- Logical block and index of a table address (the even half of a wide entry). -/
def MstTab.place (t : MstTab) (a : Nat) : Nat × Nat :=
  (t.first + a / t.perBlock, if t.wide then 2 * (a % 4096) else a % 8192)

def State.mstKey (s : State) (t : MstTab) (a : Nat) : Option Nat :=
  (s.physBlock (t.place a).1).map (fun b => b * blockEntries + (t.place a).2)

/-- An entry at full width (R180). -/
structure Wide where
  key : BitVec 320
  mask : BitVec 320
  prio : Byte
  valid : Bool
  result : BitVec 128
  badEven : Bool
  badOdd : Bool

def State.mstAt (s : State) (k : Nat) : MstEntry := SMap.get MstEntry.empty s.mst.entries k

def State.mstRead (s : State) (t : MstTab) (a : Nat) : Wide :=
  match s.mstKey t a with
  | none => ⟨0, 0, 0, false, 0, false, false⟩
  | some k =>
    let e := s.mstAt k
    if t.wide then
      let o := s.mstAt (k + 1)
      ⟨BitVec.ofNat 320 (e.key.toNat + (o.key.toNat <<< 160)), BitVec.ofNat 320 (e.mask.toNat + (o.mask.toNat <<< 160)),
        e.prio, e.valid, BitVec.ofNat 128 (e.result.toNat + (o.result.toNat <<< 64)), e.bad, o.bad⟩
    else ⟨BitVec.ofNat 320 e.key.toNat, BitVec.ofNat 320 e.mask.toNat, e.prio, e.valid,
      BitVec.ofNat 128 e.result.toNat, e.bad, false⟩

/-- The halves of a full-width entry; an entry that was read poisoned is stored so (R34, R35). -/
def Wide.half (w : Wide) (odd : Bool) : MstEntry :=
  if odd then ⟨BitVec.ofNat 160 (w.key.toNat >>> 160), BitVec.ofNat 160 (w.mask.toNat >>> 160), 0, false,
    BitVec.ofNat 64 (w.result.toNat >>> 64), true, 4 * b2n w.badOdd⟩
  else ⟨BitVec.ofNat 160 w.key.toNat, BitVec.ofNat 160 w.mask.toNat, w.prio, w.valid, BitVec.ofNat 64 w.result.toNat,
    false, 4 * b2n w.badEven⟩

/-- Physical address of the shadow of an entry (R196). -/
def shadowAt (logical index : Nat) : Nat := logical * vaultSize + reservedTop + index * 64

def State.mstSet (s : State) (k : Nat) (e : MstEntry) : State :=
  { s with mst := { s.mst with entries := SMap.set MstEntry.empty s.mst.entries k e } }

/-- Store a shadow record through its vault's port, poisoned where the entry is. -/
def State.shadowWrite (s : State) (logical index : Nat) (e : MstEntry) : State :=
  let p := shadowAt logical index
  (s.portUse p 64 true).writeWords 9 p e.record (fun _ => e.bad) 0

/-- A paired write (R191, R194): the shadow first, then the array, both halves of a wide entry together. -/
def State.mstCommit (s : State) (t : MstTab) (a : Nat) (w : Wide) : State :=
  match s.mstKey t a with
  | none => s
  | some k =>
    let (l, i) := t.place a
    let s := s.shadowWrite l i (w.half false)
    let s := if t.wide then s.shadowWrite l (i + 1) (w.half true) else s
    let s := s.mstSet k (w.half false)
    if t.wide then s.mstSet (k + 1) (w.half true) else s

/-- Table address of a physical entry, if it is an (even) entry of the table. -/
def State.mstAddrOf (s : State) (t : MstTab) (k : Nat) : Option Nat :=
  let b := k / blockEntries
  let i := k % blockEntries
  let l := s.fget F.MST_BLOCK_STATUS_LOGICAL b
  if s.fget F.MST_BLOCK_STATUS_STATE b = blkActive ∧ t.first ≤ l ∧ l < t.first + t.blocks then
    if t.wide then (if i % 2 = 0 then some ((l - t.first) * 4096 + i / 2) else none)
    else some ((l - t.first) * 8192 + i)
  else none

/-- Addresses of the entries of a table that the store lists. -/
def State.mstAddrs (s : State) (t : MstTab) : List Nat := s.mst.entries.filterMap (fun e => s.mstAddrOf t e.1)

/-- The used end U (R183). -/
def State.usedEnd (s : State) (t : MstTab) : Nat :=
  (s.mstAddrs t).foldl (fun u a => if (s.mstRead t a).valid then max u (a + 1) else u) 0

def State.setUsedEnd (s : State) (t : MstTab) : State := s.fset F.MST_TABLE_STATE_USED_END t.t (s.usedEnd t)

/-! ### Searching -/

def Hit.miss : Hit := ⟨false, 0, 0, false, false, 0, false⟩

def State.shiftOf (s : State) (t : Nat) : Option Shift := (s.mst.shifts.find? (·.1 == t)).map (·.2)

/-- The address that a running shift suppresses (R195). -/
def State.suppressed (s : State) (t : Nat) : Option Nat := (s.shiftOf t).bind (·.suppress)

def Wide.matchesKey (w : Wide) (k : BitVec 320) : Bool := w.valid && ((k ^^^ w.key) &&& w.mask) == 0

/-- Search a table (R179, R185, R195). -/
def State.mstFind (s : State) (t : MstTab) (key : BitVec 320) : Hit :=
  let key := if t.wide then key else key &&& BitVec.ofNat 320 (2 ^ 160 - 1)
  let found := (s.mstAddrs t).filterMap (fun a =>
    if s.suppressed t.t = some a then none
    else
      let w := s.mstRead t a
      if w.matchesKey key then some (a, w) else none)
  match found with
  | [] => Hit.miss
  | x :: rest =>
    let best := rest.foldl (fun (b : Nat × Wide) (c : Nat × Wide) =>
      if b.2.prio.toNat < c.2.prio.toNat ∨ (b.2.prio = c.2.prio ∧ c.1 < b.1) then c else b) x
    let ties := (found.filter (fun e => e.2.prio == best.2.prio)).length
    ⟨true, best.1, best.2.prio.toNat, decide (1 < found.length), decide (1 < ties), best.2.result, best.2.badEven || best.2.badOdd⟩

/-! ### The scrub (R197) -/

/-- The table a logical block belongs to. -/
def State.tableOfBlock (s : State) (l : Nat) : Option MstTab :=
  ((List.range 16).filterMap s.mstTab?).find? (fun t => decide (t.first ≤ l ∧ l < t.first + t.blocks))

/-- Whether the table of a block has an operation in progress. -/
def State.blockHeld (s : State) (l : Nat) : Bool :=
  match s.tableOfBlock l with
  | some t => (s.shiftOf t.t).isSome
  | none => false

/-- Read the eight words of a shadow record: its bytes, whether any word is poisoned. -/
def State.shadowRead (s : State) (l i : Nat) : List Byte × Bool × State :=
  let (bs, s) := (s.portUse (shadowAt l i) 64 false).readWords 9 (shadowAt l i) 64
  (bs.map (·.1), bs.any (·.2), s)

/-- Whether the scrub may compare the entries of a block now: no operation of the table is in progress, no rebuild of the
shadow runs (R197, R198), and the shadow's vault can answer (log entry 185). -/
def State.scrubbable (s : State) (l : Nat) : Bool :=
  !s.blockHeld l && !s.mst.rebuilding.contains l && s.bankServes (.vault l 0) && !s.vaultWaits l

/-- An array read with its replays (R33): the entry, and the state in which a passing re-read has made it good. -/
def State.mstReplay (s : State) (k : Nat) : MstEntry × State :=
  let e := s.mstAt k
  if e.flaky = 0 ∨ e.bad then (e, s) else ({ e with flaky := 0 }, s.mstSet k { e with flaky := 0 })

/-- A repair is counted in the block, and its time kept for the retire limit (R199). -/
def State.countRepair (s : State) (l b : Nat) : State :=
  let s := (s.bump F.MST_SCRUB_REPAIRED 0 1).bump F.MST_BLOCK_STATUS_REPAIRS b 1
  { s with mst := { s.mst with repairTimes := s.mst.repairTimes ++ [(l, s.now)] } }

/-- U of the table that a block belongs to follows the entries (R183). -/
def State.usedEndOf (s : State) (l : Nat) : State :=
  match s.tableOfBlock l with
  | some t => s.setUsedEnd t
  | none => s

/-- Array and shadow of an entry have both failed: it is made invalid in both, a wide entry with both its halves (R197). -/
def State.loseEntry (s : State) (l b i : Nat) : State :=
  let clear (s : State) (i : Nat) (odd : Bool) : State :=
    let e := { MstEntry.empty with odd := odd }
    (s.shadowWrite l i e).mstSet (b * blockEntries + i) e
  match s.tableOfBlock l with
  | some t =>
    let s := if t.wide then clear (clear s (i / 2 * 2) false) (i / 2 * 2 + 1) true else clear s i false
    let a := (l - t.first) * t.perBlock + (if t.wide then i / 2 else i)
    ((s.bump F.MST_SCRUB_LOST 0 1).setUsedEnd t).attn C.ENTRY_LOST [t.t, a]
  | none => (clear s i (s.mstAt (b * blockEntries + i)).odd).bump F.MST_SCRUB_LOST 0 1

/-- Compare one entry with its shadow and act (R197). -/
def State.scrubEntry (s : State) (l i : Nat) : State :=
  match s.physBlock l with
  | none => s
  | some b =>
    if !s.scrubbable l then s
    else
      let k := b * blockEntries + i
      let (e, s) := s.mstReplay k
      let (bs, poison, s) := s.shadowRead l i
      if !poison then
        if !e.bad && e.record == bs then s else ((s.mstSet k (entryOfRecord bs)).countRepair l b).usedEndOf l
      else if !e.bad then (s.shadowWrite l i e).bump F.MST_SCRUB_SHADOW_REPAIRED 0 1
      else s.loseEntry l b i

/-- The scrubber's visit: an entry it skips counts as visited, and is compared on the next pass (R197). -/
def mstScrubVisit (block : Fin 64) (index : Fin 8192) (s : State) : State :=
  if !s.lit || !s.flag F.MST_CTL_SCRUB_ENABLE then s
  else
    let s := s.scrubEntry block index
    let v := s.mst.visits + 1
    if v < 64 * 8192 then { s with mst := { s.mst with visits := v } }
    else ({ s with mst := { s.mst with visits := 0 } }).bump F.MST_SCRUB_PASSES 0 1

/-! ### Search ports (R186, R187) -/

/-- The result word of a winner is read under R33: an entry that fails every re-read is reported, and a scrub of it is
scheduled at once (R185, log entry 184). -/
def State.readHalf (s : State) (t : MstTab) (a : Nat) (odd : Bool) : State :=
  match s.mstKey t a with
  | none => s
  | some k =>
    let i := (t.place a).2 + b2n odd
    let (e, s) := s.mstReplay (k + b2n odd)
    if e.bad then (s.attn C.POISON_CREATED [s.device, shadowAt (t.place a).1 i + 48, 0]).scrubEntry (t.place a).1 i
    else s

/-- A search has its last activation: it is counted, and its result is read (R185). Ports: 0 to 11 the clusters, 12 the
Keeper registers. -/
def State.mstSearch (s : State) (port : Nat) (t : MstTab) (key : BitVec 320) : Hit × State :=
  let h := s.mstFind t key
  let s := (s.bump F.MST_SEARCHES_COUNT 0 1).event 0x600 port 1
  if !h.hit then (h, s)
  else
    let s := s.readHalf t h.addr false
    (h, if t.wide then s.readHalf t h.addr true else s)

/-- A search of the Keeper port is delivered to MST_RESULT and MST_RESULT_DATA (R189). -/
def State.deliverHit (s : State) (h : Hit) : State :=
  let s := (s.fset F.MST_RESULT_HIT 0 (b2n h.hit)).fset F.MST_RESULT_MULTI 0 (b2n h.multi)
  let s := (s.fset F.MST_RESULT_TIE 0 (b2n h.tie)).fset F.MST_RESULT_PRIORITY 0 h.prio
  let s := (s.fset F.MST_RESULT_ADDR 0 h.addr).fset F.MST_RESULT_DONE 0 1
  let s := s.fset F.MST_RESULT_DATA_WORD 0 (h.result.toNat % 2 ^ 64)
  s.fset F.MST_RESULT_DATA_WORD 1 (h.result.toNat / 2 ^ 64)

def State.portQueue (s : State) (p : Nat) : List Search := lookupD [] s.mst.ports p

def State.setPort (s : State) (p : Nat) (q : List Search) : State :=
  { s with mst := { s.mst with ports := assocSet s.mst.ports p q } }

/-- Searches that a cluster port's queue takes (R186). -/
def portDepth : Nat := 64

/-- A task's keys go to its port while the queue has room; the unit stalls with the rest (R186). -/
def State.issueKeys (s : State) (a : Asking) : State :=
  let n := portDepth - (s.portQueue a.port).length
  if a.keys.isEmpty ∨ n = 0 then s
  else
    let need := ((s.mstTab? a.table).map MstTab.blocks).getD 0
    let now := (a.keys.take n).map (fun k => (⟨a.table, k, need, false, some a.task⟩ : Search))
    let s := s.setPort a.port (s.portQueue a.port ++ now)
    let sent (x : Asking) : Asking := { x with keys := x.keys.drop n, waiting := x.waiting + now.length }
    { s with mst := { s.mst with asking := updWhere (·.task == a.task) sent s.mst.asking } }

/-- The queues of the cluster ports take what they can. -/
def State.feedPorts (s : State) : State := s.mst.asking.foldl State.issueKeys s

def State.askingOf (s : State) (task : Nat) : Option Asking := s.mst.asking.find? (·.task == task)

/-- Every search of a task is answered, or the first hit has ended them (R210). -/
def Asking.done (a : Asking) : Bool := (a.keys.isEmpty && a.waiting == 0) || (a.first && a.hits.any (·.hit))

/-- A task asks: its searches begin to go to its cluster's port. -/
def State.ask (s : State) (a : Asking) : State :=
  ({ s with mst := { s.mst with asking := s.mst.asking ++ [a] } }).feedPorts

def State.dropAsking (s : State) (task : Nat) : State :=
  { s with mst := { s.mst with asking := s.mst.asking.filter (·.task != task) } }

/-- A search is answered: to the Keeper registers, or to the task, if that still waits for it. -/
def State.giveHit (s : State) (owner : Option Nat) (h : Hit) : State :=
  match owner with
  | none => s.deliverHit h
  | some t =>
    let got (x : Asking) : Asking := { x with waiting := x.waiting - 1, hits := x.hits ++ [h] }
    { s with mst := { s.mst with asking := updWhere (·.task == t) got s.mst.asking } }

/-- Ports in the order in which they are served: the one with a search begun, then round-robin (R186). -/
def State.portOrder (s : State) : List Nat :=
  let ring := (List.range 13).map (fun k => (s.mst.lastPort + 1 + k) % 13)
  let begun := ring.filter (fun p => ((s.portQueue p).head?.map Search.started).getD false)
  begun ++ ring.filter (fun p => !begun.contains p)

/-- Give activations to the head searches of the ports in turn. -/
def State.grantPorts (s : State) : Nat → List Nat → State
  | _, [] => s
  | a, p :: rest =>
    match s.portQueue p with
    | [] => s.grantPorts a rest
    | x :: q =>
      if a = 0 then (s.event 0x601 p 1).grantPorts 0 rest
      else
        let s := if x.started then s else { s with mst := { s.mst with lastPort := p } }
        if x.need ≤ a then
          let s := s.setPort p q
          match s.mstTab? x.table with
          | none => (s.giveHit x.owner Hit.miss).grantPorts (a - x.need) rest
          | some t =>
            let (h, s) := s.mstSearch p t x.key
            (s.giveHit x.owner h).grantPorts (a - x.need) rest
        else ((s.setPort p ({ x with need := x.need - a, started := true } :: q)).event 0x601 p 1).grantPorts 0 rest

/-- Whether an access of the maintenance slot can be ready (R187): a move or a commit of a shift, the write at the head
of a queue, a scrub read, a copy to a spare, the rebuild of a shadow. -/
def State.maintains (s : State) : Bool :=
  s.mst.shifts.any (fun e => !e.2.done) || s.mst.queues.any (fun e => (e.2.head?).any (fun q => q.op != .read)) ||
    !s.mst.retiring.isEmpty || !s.mst.rebuilding.isEmpty || s.flag F.MST_CTL_SCRUB_ENABLE

/-- Whether one is ready in this cycle: when it could be, which cycle it takes is open (log entry 187). -/
def State.maintenance (s : State) : Bool × State :=
  if s.maintains then (let (d, s) := s.draw; (Config.coin d, s)) else (false, s)

/-- Activations that the searches at the heads of the ports still need. -/
def State.headNeed (s : State) : Nat := ((List.range 13).map (fun p => ((s.portQueue p).head?.map Search.need).getD 0)).sum

/-- One cycle of the store (R186, R187): the activations go to the ports in turn, and a cycle in which a search at the
head of a queue gets too few is counted (R201). -/
def searchGrant (s : State) : State :=
  if !s.lit then s
  else
    let s := s.feedPorts
    let (m, s) := s.maintenance
    let a := s.fget F.MST_STATUS_ACT_LIMIT - b2n m
    let s := if a < s.headNeed then s.bump F.MST_THROTTLE_WAIT_CYCLES 0 1 else s
    (s.grantPorts a s.portOrder).feedPorts

/-! ### The activation limit (R188) -/

/-- The step for a temperature, and the upper threshold of a step. -/
def tempStep (temp : Nat) : Nat := if temp < 85 then 32 else if temp < 95 then 16 else if temp < 105 then 8 else 4
def stepTop (step : Nat) : Nat := if step = 32 then 85 else if step = 16 then 95 else 105

def State.mstStep (s : State) : Nat := if s.mst.step = 0 then 32 else s.mst.step

/-- A is the lowest of the three limits; a change is reported. -/
def State.setActLimit (s : State) : State :=
  let a := min (min (s.fget F.MST_CTL_ACT_CAP) (s.fget F.FLT_GOV_MST_CAP)) s.mstStep
  if a = s.fget F.MST_STATUS_ACT_LIMIT then s
  else (s.fset F.MST_STATUS_ACT_LIMIT 0 a).attn C.THROTTLE_CHANGED [a, s.fget F.MST_STATUS_TEMP]

def mstTempSample (temp : Nat) (s : State) : State :=
  if !s.lit then s
  else
    let s := s.fset F.MST_STATUS_TEMP 0 (min temp 255)
    let cool := ([32, 16, 8].filter (fun st => decide (temp + 2 ≤ stepTop st))).map
      (fun st => (st, lookupD s.now s.mst.cool st))
    let back := [32, 16, 8].find? (fun st => s.mstStep < st && cool.any (fun e => e.1 == st && decide (e.2 + 1000000 ≤ s.now)))
    let now := if tempStep temp < s.mstStep then tempStep temp else back.getD s.mstStep
    ({ s with mst := { s.mst with step := now, cool := cool } }).setActLimit

/-! ### Commands (R189, R190) -/

/-- The staged entry at full width, from the staging registers. -/
def State.staged (s : State) : Staged :=
  let words (f : FRef) (n : Nat) : Nat := ((List.range n).map (fun i => s.fget f i <<< (64 * i))).sum
  ⟨BitVec.ofNat 320 (words F.MST_STAGE_KEY_KEY 5), BitVec.ofNat 320 (words F.MST_STAGE_MASK_MASK 5),
    BitVec.ofNat 8 (s.fget F.MST_STAGE_META_PRIORITY), s.flag F.MST_STAGE_META_VALID,
    BitVec.ofNat 128 (words F.MST_STAGE_RES_RES 2)⟩

/-- At width 160 the staged bits above must be zero. -/
def Staged.fits (g : Staged) (wide : Bool) : Bool :=
  wide || (decide (g.key.toNat < 2 ^ 160) && decide (g.mask.toNat < 2 ^ 160) && decide (g.result.toNat < 2 ^ 64))

def State.mstQueue (s : State) (t : Nat) : List MstQueued := lookupD [] s.mst.queues t

def State.setQueue (s : State) (t : Nat) (q : List MstQueued) : State :=
  ({ s with mst := { s.mst with queues := assocSet s.mst.queues t q } }).fset F.MST_TABLE_STATE_QUEUED t q.length

/-- Writing MST_CMD: the refusal of the first check that fails, or the operation is queued (R189). -/
def State.mstCommand (s : State) (op table addr : Nat) : Code × State :=
  if op = 0 ∨ 5 < op then (C.OP_INVALID, s)
  else
    match s.mstTab? table with
    | none => (C.TABLE_UNKNOWN, s)
    | some t =>
      if op ≠ 5 ∧ t.size ≤ addr then (C.ENTRY_RANGE, s)
      else if !s.staged.fits t.wide then (C.STAGE_INVALID, s)
      else if op ≠ 5 ∧ 16 ≤ (s.mstQueue table).length then (C.QUEUE_FULL, s)
      else
        let s' := s.fset F.MST_RESULT_DONE 0 0
        if op = 5 then
          (C.OK, s'.setPort 12 (s'.portQueue 12 ++ [⟨table, s.staged.key, t.blocks, false, none⟩]))
        else
          let n := s.fget F.MST_TABLE_OPS_ISSUED table + 1
          let o : MstOp := if op = 1 then .write else if op = 2 then .insert else if op = 3 then .remove else .read
          (C.OK, (s'.bump F.MST_TABLE_OPS_ISSUED table 1).setQueue table
            (s.mstQueue table ++ [⟨o, addr, n, s.staged⟩]))

def Staged.wide (g : Staged) : Wide := ⟨g.key, g.mask, g.prio, g.valid, g.result, false, false⟩

/-- The head operation is done: it leaves the queue. -/
def State.opDone (s : State) (t : Nat) : State :=
  (s.setQueue t ((s.mstQueue t).drop 1)).bump F.MST_TABLE_OPS_DONE t 1

/-- The head operation failed (R190). -/
def State.opFailed (s : State) (t ordinal : Nat) (code : Code) : State :=
  let s := (s.fset F.MST_TABLE_ERR_CODE t code.toNat).fset F.MST_TABLE_ERR_ORDINAL t ordinal
  ((s.fset F.MST_TABLE_ERR_VALID t 1).opDone t).attn C.OP_FAILED [t, ordinal, code.toNat]

/-- READ: the entry goes to the staging registers and MST_RESULT. -/
def State.mstReadOut (s : State) (t : MstTab) (a : Nat) : State :=
  let w := s.mstRead t a
  let put (s : State) (f : FRef) (n v : Nat) : State :=
    (List.range n).foldl (fun s i => s.fset f i (v >>> (64 * i))) s
  let s := put s F.MST_STAGE_KEY_KEY 5 w.key.toNat
  let s := put s F.MST_STAGE_MASK_MASK 5 w.mask.toNat
  let s := put s F.MST_STAGE_RES_RES 2 w.result.toNat
  let s := (s.fset F.MST_STAGE_META_PRIORITY 0 w.prio.toNat).fset F.MST_STAGE_META_VALID 0 (b2n w.valid)
  let s := (s.fset F.MST_RESULT_HIT 0 (b2n w.valid)).fset F.MST_RESULT_MULTI 0 0
  let s := (s.fset F.MST_RESULT_TIE 0 0).fset F.MST_RESULT_PRIORITY 0 w.prio.toNat
  (s.fset F.MST_RESULT_ADDR 0 a).fset F.MST_RESULT_DONE 0 1

def State.setShift (s : State) (t : Nat) (x : Option Shift) : State :=
  let rest := s.mst.shifts.filter (·.1 != t)
  let s := { s with mst := { s.mst with
    shifts := match x with | some x => insertBy (fun a b => a.1 ≤ b.1) (t, x) rest | none => rest } }
  let s := s.fset F.MST_TABLE_STATE_SHIFTING t (b2n x.isSome)
  match x with
  | some x => s.fset F.MST_TABLE_STATE_BOUNDARY t (x.suppress.getD 0)
  | none => s

/-- An entry made invalid. -/
def State.mstInvalidate (s : State) (t : MstTab) (a : Nat) : State := s.mstCommit t a { s.mstRead t a with valid := false }

/-- Whether the shadow of every block of a table can be written, or will be once rebuilt (log entry 186). -/
def State.shadowsServe (s : State) (t : MstTab) : Bool :=
  (List.range t.blocks).all (fun k => s.bankServes (.vault (t.first + k) 0))

/-- The operation at the head of a table's queue is carried out, or its shift begins (R190 to R193). -/
def State.headOp (s : State) (t : MstTab) (q : MstQueued) : State :=
  let u := s.fget F.MST_TABLE_STATE_USED_END t.t
  if q.op ≠ .read ∧ !s.shadowsServe t then s.opFailed t.t q.ordinal C.VAULT_UNAVAILABLE
  else
  match q.op with
  | .write => ((s.mstCommit t q.addr q.staged.wide).setUsedEnd t).opDone t.t
  | .read => (s.mstReadOut t q.addr).opDone t.t
  | .insert =>
    if (s.mstRead t (t.size - 1)).valid then s.opFailed t.t q.ordinal C.TABLE_FULL
    else if u ≤ q.addr then ((s.mstCommit t q.addr q.staged.wide).setUsedEnd t).opDone t.t
    else s.setShift t.t (some ⟨true, q.addr, u - 1, u - q.addr, u, none, q.staged, false⟩)
  | .remove =>
    if u ≤ q.addr + 1 then ((s.mstInvalidate t q.addr).setUsedEnd t).opDone t.t
    else s.setShift t.t (some ⟨false, q.addr, q.addr + 1, u - 1 - q.addr, u, none, q.staged, false⟩)

def MstTab.has (t : MstTab) (l : Nat) : Bool := decide (t.first ≤ l ∧ l < t.first + t.blocks)

/-- Whether a write to a table waits for the rebuild of a shadow (R198). -/
def State.rebuildHeld (s : State) (t : MstTab) : Bool := s.mst.rebuilding.any t.has

/-- Whether an operation at the head of a table's queue waits: every one for a block that is being retired (R199), one
that writes for the rebuild of a shadow (R198). -/
def State.tableHeld (s : State) (t : MstTab) (op : MstOp) : Bool :=
  s.mst.retiring.any (fun e => t.has e.1) || (op != .read && s.rebuildHeld t)

def mstOpHead (table : Fin 16) (s : State) : State :=
  match s.mstTab? table, (s.mstQueue table).head? with
  | some t, some q =>
    if !s.lit || (s.shiftOf table).isSome || s.tableHeld t q.op then s else s.headOp t q
  | _, _ => s

/-- One access of a shift (R192 to R195): a move, which writes the entry at its new place and suppresses the old copy; after
the last move the commit of an INSERT or the final invalidation of a REMOVE. -/
def shiftMove (table : Fin 16) (s : State) : State :=
  match s.mstTab? table, s.shiftOf table with
  | some t, some x =>
    if !s.lit || x.done || s.rebuildHeld t then s
    else if x.left = 0 then
      let s := if x.insert then s.mstCommit t x.addr x.staged.wide else (s.mstInvalidate t (x.usedEnd - 1)).setUsedEnd t
      s.setShift table (some { x with suppress := none, done := true })
    else
      let dst := if x.insert then x.next + 1 else x.next - 1
      let s := s.mstCommit t dst (s.mstRead t x.next)
      s.setShift table (some { x with
        next := if x.insert then x.next - 1 else x.next + 1, left := x.left - 1, suppress := some x.next })
  | _, _ => s

/-- The end of a shift, 8 cycles after its commit: SHIFTING clears, U stands, the operation is done (R194). -/
def shiftEnd (table : Fin 16) (s : State) : State :=
  match s.mstTab? table, s.shiftOf table with
  | some t, some x =>
    if !s.lit || !x.done then s else ((s.setShift table none).setUsedEnd t).opDone table
  | _, _ => s

/-! ### Spare blocks (R198, R199) -/

/-- The retire limit is reached: a spare begins to be loaded, or with none left that is said once. -/
def blockRetire (block : Fin 64) (s : State) : State :=
  let recent := s.mst.repairTimes.filter (fun e => e.1 == block.val && decide (s.now ≤ e.2 + 1000000000))
  if !s.lit || decide (recent.length < s.fget F.MST_CTL_RETIRE_LIMIT) || s.mst.retiring.any (·.1 == block.val) then s
  else
    match (List.range 68).find? (fun b => s.fget F.MST_BLOCK_STATUS_STATE b == blkSpare) with
    | some b =>
      let s := (s.fset F.MST_BLOCK_STATUS_STATE b blkCopying).fset F.MST_BLOCK_STATUS_LOGICAL b block
      let s := s.drop F.MST_STATUS_SPARES 0 1
      { s with mst := { s.mst with retiring := s.mst.retiring ++ [(block.val, b)] } }
    | none =>
      if s.mst.exhausted then s
      else ({ s with mst := { s.mst with exhausted := true } }).attn C.SPARES_EXHAUSTED [block.val]

/-- Load a block from the shadow of a logical number; a poisoned record stays so (R34). -/
def State.loadBlock (s : State) (l b : Nat) : State :=
  (List.range blockEntries).foldl (fun s i =>
    let (bs, poison, s) := s.shadowRead l i
    s.mstSet (b * blockEntries + i) { entryOfRecord bs with flaky := 4 * b2n poison }) s

/-- The spare has been loaded and takes the logical number; the current operation of the table has ended (R199). -/
def spareSwap (block : Fin 64) (s : State) : State :=
  match s.mst.retiring.find? (·.1 == block.val), s.physBlock block with
  | some (_, b), some old =>
    if !s.lit || s.blockHeld block || s.mst.rebuilding.contains block.val || !s.bankServes (.vault block 0) then s
    else
      let s := s.loadBlock block b
      let s := (s.fset F.MST_BLOCK_STATUS_STATE old blkRetired).fset F.MST_BLOCK_STATUS_STATE b blkActive
      let s := { s with mst := { s.mst with
        retiring := s.mst.retiring.filter (·.1 != block.val)
        repairTimes := s.mst.repairTimes.filter (·.1 != block.val) } }
      (s.attn C.BLOCK_RETIRED [old, block.val]).unitLeaves 0x06 outReplaced 0xFF old block
  | _, _ => s

/-- A lost shadow has been rebuilt from the array (R198). -/
def shadowRebuilt (block : Fin 64) (s : State) : State :=
  match s.physBlock block with
  | some b =>
    if !s.lit || !s.mst.rebuilding.contains block.val then s
    else
      let s := (List.range blockEntries).foldl (fun s i =>
        let (e, s) := s.mstReplay (b * blockEntries + i)
        s.shadowWrite block i e) s
      ({ s with mst := { s.mst with rebuilding := s.mst.rebuilding.filter (· != block.val) } }).attn
        C.SHADOW_REBUILT [block.val]
  | none => s

end Sys2Proof.Machine
end

