-- ==== Sys2Proof/Machine/Classes.lean ====
section
/-!
DEFINITION. The operators that sort rows into classes: BUCKET in its four kinds and DICT_JOIN (R96 to R100, R123, R124).
-/
namespace Sys2Proof.Machine

/-! ### BUCKET -/

/-- A cell with a NaN taken as null (R96). -/
def nanNull (c : Column) (x : CellV) : CellV := if x.valid && (valOf c.typ x.bytes).isNan then { x with valid := false } else x

/-- Number of boundaries at or below a value. -/
def boundariesAt (bs : List Val) (x : Val) : Nat := (bs.filter (fun b => b.lt x || b.eq x)).length

/-- The boundaries of a BOUNDARY stage (R97). -/
def boundaryTable (pipe p : List Byte) (c : Column) : List Val :=
  (List.range (u32 p 4)).map (fun i => constVal c (slice (u64 p 8 + 8 * i) 8 pipe))

/-- Search key bytes, zero-extended (R99, R124). -/
def searchKey (bs : List Byte) : BitVec 320 := BitVec.ofNat 320 (leNat (bs.take 20))

/-- The answers of a task's searches, or that they are not all there: a task that has not asked asks (R186). -/
def State.searchAll (s : State) (t : Task) (m : MstTab) (keys : List (BitVec 320)) (c : Chunk) : Option (List Hit) × State :=
  match s.askingOf t.id with
  | some a => if a.done then (some a.hits, s.dropAsking t.id) else (none, s)
  | none => if keys.isEmpty then (some [], s) else (none, s.ask ⟨t.id, t.home / 16, m.t, keys, 0, [], false, c⟩)

/-- An operator that searches the match store for rows: it reads its columns, its searches go to its cluster's port, and
when all are answered `f` goes on with the rows and the answers (R99, R124, R186). A result that arrives poisoned fails the
task (R81). -/
def State.searchOp (s : State) (t : Task) (st : StageRec) (r : Run) (m : MstTab) (reads also : List Nat)
    (keys : Rows → List (BitVec 320)) (f : State → Rows → List Hit → State) : State :=
  let asked := s.askingOf t.id
  match s.fetch r (asked.elim t.chunk Asking.chunk) (reads ++ also) with
  | .error c => s.vaultFail t st.op c
  | .ok (rows, s) =>
    let s := if asked.isSome then s else s.bump F.VLT_OPS_ROWS_ROWS t.chunk.vault rows.n
    if (rows.pick reads).any Column.poisoned then s.vaultFail t st.op C.OPERAND_POISON
    else
      match s.searchAll t m (keys rows) (t.chunk.withRows rows) with
      | (none, s) => s
      | (some hits, s) => if hits.any (·.poison) then s.vaultFail t st.op C.OPERAND_POISON else f s rows hits

/-- Answers dealt out over rows: one for each row that has a key. -/
def dealHits {α : Type} : List (Option α) → List Hit → List (Option Hit)
  | [], _ => []
  | none :: r, hs => none :: dealHits r hs
  | some _ :: r, hs => hs.head? :: dealHits r hs.tail

/-- A bucket column from indices: a null input takes bucket COUNT where NULL_BUCKET says so. -/
def bucketColumn (p : List Byte) (cells : List CellV) (idx : List (Option Nat)) : Column :=
  ⟨u8 p 2, tUint32, 0, 0, (cells.zip idx).map (fun e =>
    match e.2 with
    | some i => ⟨true, natLe 4 i, false⟩
    | none => if !e.1.valid && bitAt (u8 p 3) 0 then ⟨true, natLe 4 (u32 p 4), false⟩ else ⟨false, zeros 4, false⟩)⟩

/-- The bucket indices of a column's cells. -/
def State.bucketIndices (s : State) (t : Task) (p : List Byte) (c : Column) (cells : List CellV) :
    Except Code (List (Option Nat) × State) :=
  let each (f : CellV → Nat) : List (Option Nat) := cells.map (fun x => if x.valid then some (f x) else none)
  match u8 p 0 with
  | 0 =>
    let bs := boundaryTable s.pipeBytes p c
    .ok (each (fun x => boundariesAt bs (valOf c.typ x.bytes) - 1), s)
  | 1 =>
    .ok (cells.map (fun x =>
      (rowKey [{ c with cells := [x] }] (bitAt (u8 p 3) 1) 0).map (fun k =>
        bucketOf (u8 p 27) (hashKey (u8 p 27) (BitVec.ofNat 64 (u64 p 16)) k) (u32 p 4))), s)
  | _ =>
    match s.readStat t.slot t.stage 0 (u16 p 24) (u64 p 8) (u16 p 28) t.chunk.vault (u8 p 26 != 0xFF) with
    | .error e => .error e
    | .ok (q, s) =>
      if !bitAt q.measures 2 ∨ q.kind ≠ statKind c.typ then .error C.STATS_MISSING
      else
        let n := u32 p 4
        let bs := (List.range (n - 1)).filterMap (fun j => q.quantile (j + 1) n)
        .ok (each (fun x => boundariesAt bs (valOf c.typ x.bytes)), s)

/-- BUCKET by range classes (R99): a search for each value that is not null. -/
def State.rangeBucket (s : State) (t : Task) (st : StageRec) (r : Run) (m : MstTab) : State :=
  let col := u8 st.param 1
  let cells (rows : Rows) : List CellV := ((colAt rows.cols col).map (fun c => c.cells.map (nanNull c))).getD []
  let keyed (rows : Rows) : List (Option CellV) := (cells rows).map (fun x => if x.valid then some x else none)
  s.searchOp t st r m [col] [] (fun rows => (keyed rows).filterMap (Option.map (fun x => searchKey x.bytes)))
    (fun s rows hits =>
      let dealt := dealHits (keyed rows) hits
      let missed := dealt.countP (fun h => h.any (fun x => !x.hit))
      let idx := dealt.map (fun h => h.bind (fun x => if x.hit then some (x.result.toNat % 2 ^ 32) else none))
      let s := s.bump F.VLT_OPS_EXC_RANGE_NOMATCH t.chunk.vault missed
      let out := { rows with cols := putCol rows.cols (bucketColumn st.param (cells rows) idx) }
      let (c, s) := s.place (t.chunk.withRows out)
      s.endTask t [c])

def bucket (task : Nat) (s : State) : State :=
  match s.runningTask task .bucket with
  | none => s
  | some (t, st, _, r) =>
    match (if u8 st.param 0 = 2 then s.mstTab? (u64 st.param 8 % 16) else none) with
    | some m => s.rangeBucket t st r m
    | none =>
      s.rowOp t st r [u8 st.param 1] [] (fun s rows =>
        match colAt rows.cols (u8 st.param 1) with
        | none => .ok (some rows, s)
        | some c =>
          let cells := c.cells.map (nanNull c)
          match s.bucketIndices t st.param c cells with
          | .error e => .error e
          | .ok (idx, s) => .ok (some { rows with cols := putCol rows.cols (bucketColumn st.param cells idx) }, s))

/-! ### DICT_JOIN -/

/-- The field that a map entry takes from a result. -/
def fieldBytes (m result : Nat) : List Byte :=
  let w := bitsOf m 11 6 + 1
  let v := bitsOf result (bitsOf m 5 0 + w - 1) (bitsOf m 5 0)
  let size := (fieldType m).2
  if bitsOf m 15 12 = 1 then natLe size (ofSigned (8 * size) (toSigned w v)) else natLe size v

/-- Rows that a join kind keeps: 0 INNER, 1 LEFT_OUTER, 2 SEMI, 3 ANTI (R120). -/
def joinKeeps (kind : Nat) (hit : Bool) : Bool := match kind with | 1 => true | 3 => !hit | _ => hit

/-- The chunk that a DICT_JOIN passes on, of the rows whose answers its kind keeps (R120, R123). -/
def State.joinHits (s : State) (t : Task) (st : StageRec) (rows : Rows) (hits : List (Option Hit)) : State :=
  let p := st.param
  let s := s.bump F.VLT_OPS_EXC_DICT_MULTI t.chunk.vault (hits.countP (fun h => h.any (·.multi)))
  let found (i : Nat) : Option Nat :=
    (hits.getD i none).bind (fun h => if h.hit then some (h.result.toNat % 2 ^ 64) else none)
  let kept := (List.range rows.n).filter (fun i => joinKeeps (u8 p 1) (found i).isSome)
  if kept.isEmpty then s.endTask t []
  else
    let maps := (List.range 4).filter (fun j => u16 p (8 + 2 * j) != 0xFFFF)
    let fields := maps.map (fun j =>
      let m := u16 p (8 + 2 * j)
      (⟨u8 p (16 + j), (fieldType m).1, 0, 0, kept.map (fun i =>
        match found i with
        | some v => ⟨true, fieldBytes m v, false⟩
        | none => ⟨false, zeros (fieldType m).2, false⟩)⟩ : Column))
    let cols := fields.foldl putCol (pickRows kept rows.cols)
    let (c, s) := s.place ({ t.chunk with sources := pickSources kept t.chunk }.withRows ⟨cols, kept.length, none⟩)
    s.endTask t [c]

/-- DICT_JOIN (R123, R124): a search for each key. -/
def dictJoin (task : Nat) (s : State) : State :=
  match s.runningTask task .dictJoin with
  | none => s
  | some (t, st, _, r) =>
    let p := st.param
    let keys := (colList (slice 4 4 p)).take (u8 p 2)
    match s.mstTab? (u8 p 0) with
    | none => s.endTask t []
    | some m =>
      let keyed (rows : Rows) : List (Option (List Byte)) := (List.range rows.n).map (rowKey (rows.pick keys) false)
      s.searchOp t st r m keys t.chunk.rows.present (fun rows => (keyed rows).filterMap (Option.map searchKey))
        (fun s rows hits => s.joinHits t st rows (dealHits (keyed rows) hits))

end Sys2Proof.Machine
end

