-- ==== Sys2Proof/Machine/EmbRows.lean ====
section
/-!
DEFINITION. Embedding rows at their owner: placement (R226), bundles (R232), the row gate and row values (R222, R237,
R239), hot rows (R242, R243).
-/
namespace Sys2Proof.Machine
open Sys2Proof

/-! ### Tables, maps, placement -/

def State.embTable? (s : State) (n : Nat) : Option EmbTable := s.embTables.find? (·.table == n)

def State.map? (s : State) (n : Nat) : Option ShardMap := s.emb.maps.find? (·.map == n)

def State.mapVersion (s : State) (n : Nat) : W32 := ((s.map? n).map ShardMap.version).getD 0

/-- Placement hash of an id (R226 step 2). -/
def EmbTable.hash (t : EmbTable) (id : W64) : W64 := cairn64 t.seed (natLe 8 id.toNat)

/-- Position of an id in the table's map (R226 step 3). -/
def State.position (s : State) (t : EmbTable) (id : W64) : Nat :=
  hashBucket (t.hash id) (((s.map? t.map).map (fun m => m.devices.length)).getD 0)

/-- The owner of a position by this device's copy of the map. -/
def State.ownerAt (s : State) (map pos : Nat) : BitVec 20 :=
  ((s.map? map).map (fun m => m.devices.getD pos 0)).getD 0

def State.ownerOf (s : State) (t : EmbTable) (id : W64) : BitVec 20 := s.ownerAt t.map (s.position t id)

/-- Whole channels of an LPDDR6 region. -/
def channelsOf (r : Region) : Nat := r.size / channelSize

/-- Number of the slice that holds an id, within the table's region (R226 step 4). -/
def sliceOf (t : EmbTable) (r : Region) (id : W64) : Nat :=
  let h := (t.hash id).toNat % 2 ^ 32
  if r.kind == .lpddr6 then (h * channelsOf r) >>> 32 else (h * 192) >>> 32

/-- Physical address at which a slice starts. -/
def sliceBase (t : EmbTable) (r : Region) (n : Nat) : Nat :=
  if r.kind == .lpddr6 then lpBase + r.base + n * channelSize + t.base else r.localAddr n t.base

/-- Accesses of 64 B that one read, or one write, of a row takes (R239). -/
def EmbTable.accesses (t : EmbTable) : Nat := ceilDiv (16 + t.rowBytes) 64

/-- Count the accesses of a row at its vault or channel port: a read, or a gated write that reads and writes. -/
def State.rowTraffic (s : State) (t : EmbTable) (id : W64) (write : Bool) : State :=
  match s.region? t.region with
  | none => s
  | some r =>
    let p := sliceBase t r (sliceOf t r id) / 64 * 64
    let s := s.portUse p (64 * t.accesses) false
    if write then s.portUse p (64 * t.accesses) true else s

/-- Physical address at which the slice of an id's row starts. -/
def State.rowSlice (s : State) (t : EmbTable) (id : W64) : Option Nat :=
  (s.region? t.region).map (fun r => sliceBase t r (sliceOf t r id) / 64 * 64)

/-- A request for an id that cannot be served yet: a shaded cluster begins its wake (R43). -/
def State.askRow (s : State) (t : EmbTable) (id : W64) : State :=
  match (s.rowSlice t id).map bankOf with
  | some (.vault v _) => if s.vaultWaits v then s.vaultRequest v else s
  | _ => s

/-- Whether a request for an id waits for its vault (R43, R425, R426, R431). -/
def State.rowWaits (s : State) (t : EmbTable) (id : W64) : Bool :=
  match s.region? t.region with
  | none => false
  | some r => s.bankWaits (sliceBase t r (sliceOf t r id) / 64 * 64)

/-- Whether the vault or channel of an id serves (R232 status UNAVAILABLE). -/
def State.rowServed (s : State) (t : EmbTable) (id : W64) : Bool :=
  match s.region? t.region with
  | none => false
  | some r => s.served (sliceBase t r (sliceOf t r id))

/-! ### Rows -/

def State.row? (s : State) (table : Nat) (id : W64) : Option Row :=
  s.emb.rows.find? (fun r => r.table == table && r.id == id)

def State.modEmb (s : State) (f : Emb → Emb) : State := { s with emb := f s.emb }

def State.putRow (s : State) (r : Row) : State :=
  s.modEmb (fun e => { e with rows := e.rows.filter (fun q => !(q.table == r.table && q.id == r.id)) ++ [r] })

/-- Rows that a slice holds. -/
def State.sliceCount (s : State) (t : EmbTable) (r : Region) (n : Nat) : Nat :=
  (s.emb.rows.filter (fun q => q.table == t.table && sliceOf t r q.id == n)).length

/-- Whether a new row finds its slice full (R223). -/
def State.sliceFull (s : State) (t : EmbTable) (id : W64) : Bool :=
  match s.region? t.region with
  | none => true
  | some r => decide (t.capacity ≤ s.sliceCount t r (sliceOf t r id))

/-- The rows of a position: those of every table that the map places (R245). -/
def State.rowsAt (s : State) (map pos : Nat) : List Row :=
  s.emb.rows.filter (fun q => match s.embTable? q.table with
    | some t => t.map == map && s.position t q.id == pos
    | none => false)

/-! ### Values (R222, R237) -/

/-- The elements of a stored row. -/
def EmbTable.codes (t : EmbTable) (bs : List Byte) : List Nat := (unpack (elemBits t.format) bs).take t.dim

/-- Scale of a row (R222). -/
def EmbTable.scaleOf (t : EmbTable) (r : Row) : W32 := if t.scaled then r.scale else 0x3F800000

/-- stored × scale, in FP32 (R222, R237 step 1). -/
def EmbTable.value (t : EmbTable) (scale : W32) (code : Nat) : FVal :=
  fp32Of ((elemVal t.format code).toF.mul (fp32.decode scale.toNat))

/-- OP of R237 step 2: 0 ADD, 1 MAX, 2 MIN, 3 STORE. -/
def embOp (op : Nat) (v c : FVal) : FVal :=
  if op = 0 then fp32Of (v.add c)
  else if op = 1 then maxNan v c
  else if op = 2 then minNan v c
  else c

/-- QMAX of the scaled formats (R237 step 3): none for the other formats. -/
def embQmax (format : Nat) : Option Nat :=
  if format = 4 then some 127 else if format = 1 then some 7 else if format = 6 then some 448
  else if format = 7 then some 57344 else none

/-- The new scale (R237 step 3). -/
def EmbTable.newScale (t : EmbTable) (old : W32) (vs : List FVal) : W32 :=
  match (if t.scaled then embQmax t.format else none) with
  | none => old
  | some q =>
    let top := vs.foldl (fun m v => maxF m v.abs) zeroF
    if vs.all FVal.isZero then 0x3F800000 else BitVec.ofNat 32 (fp32.div top (FVal.ofInt q))

/-- Step 4 of R237: v / s rounded once to the format, and saturated. -/
def EmbTable.store (t : EmbTable) (scale : W32) (v : FVal) : Nat :=
  let s := fp32.decode scale.toNat
  match elemFmt t.format with
  | some f => f.divSat v s
  | none =>
    let hi : Int := 2 ^ (elemBits t.format - 1) - 1
    match v, s with
    | .fin n m e, .fin k d x =>
      if d = 0 then (if m = 0 then 0 else ofSigned (elemBits t.format) (if n != k then -hi - 1 else hi))
      else
        let z := e - x
        let q := divRne (m * 2 ^ z.toNat) (d * 2 ^ (-z).toNat)
        ofSigned (elemBits t.format) (clampInt (-hi - 1) hi (if n != k then -(q : Int) else q))
    | .inf n, .fin k _ _ => ofSigned (elemBits t.format) (if n != k then -hi - 1 else hi)
    | .fin _ _ _, .inf _ => 0
    | _, _ => Config.nanInt t.format % 2 ^ elemBits t.format

/-- An update of a row by combined values (R237 steps 1 to 5). -/
def EmbTable.applyUpdate (t : EmbTable) (op : Nat) (r : Row) (values : List W32) : Row :=
  let old := (t.codes r.bytes).map (t.value (t.scaleOf r))
  let vs := (old.zip values).map (fun e => embOp op e.1 (fp32.decode e.2.toNat))
  let scale := t.newScale (t.scaleOf r) vs
  { r with
    version := r.version + 1, scale := scale, bytes := pack (elemBits t.format) (vs.map (t.store scale)),
    poison := false, flaky := 0 }

/-- A row of zeros with scale 1.0 and no version yet (R237). -/
def EmbTable.zeroRow (t : EmbTable) (id : W64) : Row := ⟨t.table, id, 0, 0x3F800000, zeros t.rowBytes, false, 0⟩

/-! ### Bundles (R232) -/

def tyLookupReq : Nat := 0x01
def tyLookupResp : Nat := 0x02
def tyUpdateReq : Nat := 0x03
def tyUpdateAck : Nat := 0x04
def tyForwardReq : Nat := 0x05
def tyForwardResp : Nat := 0x06
def tyHotPush : Nat := 0x07
def tyHotInvalidate : Nat := 0x08
def tyHotAck : Nat := 0x09
def tyMigrateRows : Nat := 0x0A
def tyMigrateAck : Nat := 0x0B
def tyMapUpdate : Nat := 0x0C
def tyEndOfBuild : Nat := 0x0D
def tyPartitionRows : Nat := 0x0E

/-- Entry statuses. -/
def stOk : Nat := 0
def stMissing : Nat := 1
def stForwarded : Nat := 2
def stRedirect : Nat := 3
def stUnavailable : Nat := 4
def stSpace : Nat := 5
def stPoisoned : Nat := 6
def stNoTable : Nat := 7

/-- The 32 bytes of a bundle header. -/
def bundleHeader (type table flags : Nat) (requester : BitVec 20) (round : Nat) (mapVersion : W32)
    (count part run : Nat) : List Byte :=
  natLe 1 type ++ natLe 1 table ++ natLe 2 flags ++ natLe 4 requester.toNat ++ natLe 4 round ++
    natLe 4 mapVersion.toNat ++ natLe 4 count ++ natLe 4 part ++ natLe 4 run ++ zeros 4

/-- Bytes padded to a multiple of 16. -/
def pad16 (bs : List Byte) : List Byte := bs ++ zeros (roundUp bs.length 16 - bs.length)

/-- The 16-byte row header and the row (R232). -/
def rowBytesOf (e : Entry) : List Byte :=
  natLe 4 e.version.toNat ++ natLe 4 e.scale.toNat ++ natLe 8 (b2n e.hot) ++ pad16 e.row

/-- Send a bundle in the exchange class to another device; each bundle is a message with a TAG of its own. -/
def State.sendBundle (s : State) (dest : BitVec 20) (cls type table flags : Nat) (requester : BitVec 20) (round : Nat)
    (count part run : Nat) (body : List Byte) : State :=
  let map := if type = tyMapUpdate then table else ((s.embTable? table).map EmbTable.map).getD 0
  let (tag, s) := s.newTag
  s.injectBody dest.toNat cls 0x01 tag
    (bundleHeader type table flags requester round (s.mapVersion map) count part run ++ body)

def State.self (s : State) : BitVec 20 := BitVec.ofNat 20 s.device

/-- An entry that carries a status only. -/
def statusEntry (id : W64) (index st : Nat) : Entry := ⟨id, st, index, 0, 0, false, [], [], 0, 0⟩

/-- The body of LOOKUP_RESP or UPDATE_ACK. -/
def respBody (es : List Entry) : List Byte :=
  pad16 (es.map (fun e => BitVec.ofNat 8 e.status)) ++ (es.filter (·.status == stOk)).flatMap (fun e =>
    if e.row.isEmpty then [] else rowBytesOf e)

/-- The body of FORWARD_RESP: each entry prefixed by its original index. -/
def forwardBody (es : List Entry) : List Byte :=
  es.flatMap (fun e => natLe 4 e.index ++ zeros 12 ++ respBody [e])

/-! ### Hot rows -/

def State.hotRow? (s : State) (table : Nat) (id : W64) : Option HotRow :=
  s.emb.hot.find? (fun h => h.table == table && h.id == id)

def State.modHot (s : State) (table : Nat) (id : W64) (f : HotRow → HotRow) : State :=
  let hit (h : HotRow) : Bool := h.table == table && h.id == id
  s.modEmb (fun e => { e with hot := updWhere hit f e.hot })

/-- The four counters of a row in the sketch, by key (R242). -/
def sketchKeys (table : Nat) (id : W64) : List Nat :=
  (List.range 4).map (fun k => k * 16384 + Config.sketchSlot k table id % 16384)

/-- The estimate of a row: the least of its counters. -/
def State.estimate (s : State) (table : Nat) (id : W64) : Nat :=
  let cs := (sketchKeys table id).map (SMap.get 0 s.emb.sketch)
  cs.foldl min (cs.headD 0)

/-- Report a change in a table's hot rows, at most once a second for each table (R433). -/
def State.hotReport (s : State) (table : Nat) : State :=
  let last := SMap.get 0 s.emb.hotReport table
  if last ≠ 0 ∧ s.now < last - 1 + 1000000000 then s
  else
    let s := s.modEmb (fun e => { e with hotReport := SMap.set 0 e.hotReport table (s.now + 1) })
    s.attn C.WARDEN_HOT_ROWS [table, (s.emb.hot.filter (·.table == table)).length]

/-- A request entry for an id: the sketch counts it (R242). -/
def State.countRequest (s : State) (t : EmbTable) (id : W64) : State :=
  s.modEmb (fun e => { e with
    sketch := (sketchKeys t.table id).foldl (fun m k => SMap.set 0 m k (SMap.get 0 m k + 1)) e.sketch })

/-- A row that stands at the threshold becomes hot (R242); an id without a row does not. -/
def State.warmRow (s : State) (t : EmbTable) (id : W64) : State :=
  if (s.row? t.table id).isNone ∨ t.hot = 0 ∨ (s.hotRow? t.table id).isSome ∨ s.estimate t.table id < s.fget F.EMB_HOT_CTL_THRESHOLD ∨
      s.emb.hot.length ≥ 16384 then s
  else (s.modEmb (fun e => { e with hot := e.hot ++ [⟨t.table, id, []⟩] })).hotReport t.table

/-- A requester that is sent a hot row becomes its holder; the list has 16 places, a 17th entry says that there are
more (R242, R243). -/
def State.addHolder (s : State) (table : Nat) (id : W64) (d : BitVec 20) : State :=
  s.modHot table id (fun h =>
    if h.holders.contains d || h.holders.length > 16 then h else { h with holders := h.holders ++ [d] })

/-- The devices a write of a hot row must reach: its holders, or every device of the map when there are more than
16. -/
def State.hotTargets (s : State) (t : EmbTable) (h : HotRow) : List (BitVec 20) :=
  if h.holders.length > 16 then
    (((s.map? t.map).map ShardMap.devices).getD []).eraseDups.filter (· != s.self)
  else h.holders

/-- Tell the holders of a hot row: HOT_PUSH with the row, or HOT_INVALIDATE, which leaves it without holders. The
devices told, whose HOT_ACK is awaited. -/
def State.tellHolders (s : State) (t : EmbTable) (id : W64) (push : Option Row) : List (BitVec 20) × State :=
  match s.hotRow? t.table id with
  | none => ([], s)
  | some h =>
    let dst := s.hotTargets t h
    match push with
    | some r =>
      let e : Entry := ⟨id, 0, 0, r.version, t.scaleOf r, true, r.bytes, [], 0, 0⟩
      (dst, dst.foldl (fun s d => s.sendBundle d 0 tyHotPush t.table 0 s.self 0 1 0 0 (natLe 8 id.toNat ++ rowBytesOf e)) s)
    | none =>
      let s := dst.foldl (fun s d => s.sendBundle d 0 tyHotInvalidate t.table 0 s.self 0 1 0 0 (natLe 8 id.toNat)) s
      (dst, s.modHot t.table id (fun x => { x with holders := [] }))

/-- A row has been written at its owner: holders of a hot row are told by the table's policy (R243). -/
def State.hotWritten (s : State) (t : EmbTable) (r : Row) : List (BitVec 20) × State :=
  s.tellHolders t r.id (if t.hot = 2 then some r else none)

/-- A row stops being hot: its holders are told to drop it (R243). -/
def State.coolRow (s : State) (t : EmbTable) (id : W64) : State :=
  let (dst, s) := s.tellHolders t id none
  s.modEmb (fun e => { e with
    hot := e.hot.filter (fun h => !(h.table == t.table && h.id == id))
    waits := if dst.isEmpty then e.waits else e.waits ++ [⟨t.table, dst, 0, [], .nothing⟩] })

/-- Once in DECAY_US the counters are halved; rows below half the threshold stop being hot (R242). -/
def hotDecay (s : State) : State :=
  if !s.lit || decide (s.now < s.emb.decayedAt + s.fget F.EMB_HOT_CTL_DECAY_US * 1000) then s
  else
    let s := s.modEmb (fun e => { e with
      decayedAt := s.now
      sketch := e.sketch.filterMap (fun c => if c.2 / 2 = 0 then none else some (c.1, c.2 / 2)) })
    let cold := s.emb.hot.filter (fun h => 2 * s.estimate h.table h.id < s.fget F.EMB_HOT_CTL_THRESHOLD)
    let s := cold.foldl (fun s h => match s.embTable? h.table with
      | some t => s.coolRow t h.id
      | none => s) s
    (cold.map (·.table)).eraseDups.foldl (fun s n => s.hotReport n) s

/-- Rows a hot-row cache of `size` bytes keeps: the newest (R243: which entries it evicts is its own choice). -/
def cacheFit : List Row → Nat → List Row
  | [], _ => []
  | r :: rest, room => if 16 + r.bytes.length ≤ room then r :: cacheFit rest (room - 16 - r.bytes.length) else []

def State.hotRegion (s : State) : Option Region := s.region? (s.fget F.EMB_CTL_HOT_REGION)

def dropCached (l : List Row) (table : Nat) (id : W64) : List Row := l.filter (fun q => !(q.table == table && q.id == id))

/-- Install a hot row in the cache, newest first. -/
def State.installHot (s : State) (r : Row) : State :=
  match s.hotRegion with
  | none => s
  | some g => s.modEmb (fun e => { e with cache := cacheFit (r :: dropCached e.cache r.table r.id) g.size })

/-- HOT_PUSH: a holder replaces its copy, then answers (R243). -/
def hotPush (b : BundleHdr) (es : List Entry) (s : State) : State :=
  if !s.lit then s
  else
    let s := s.takeInbox 0x01 b.source
    let s := es.foldl (fun s e =>
      if s.emb.cache.any (fun q => q.table == b.table && q.id == e.id) then
        s.installHot ⟨b.table, e.id, e.version, e.scale, e.row, false, 0⟩
      else s) s
    s.sendBundle b.source 0 tyHotAck b.table 0 s.self 0 0 0 0 []

/-- HOT_INVALIDATE: a holder drops its copies, then answers (R243). -/
def hotInvalidate (b : BundleHdr) (es : List Entry) (s : State) : State :=
  if !s.lit then s
  else
    let s := s.takeInbox 0x01 b.source
    let s := s.modEmb (fun e => { e with
      cache := e.cache.filter (fun q => !(q.table == b.table && es.any (fun x => x.id == q.id))) })
    s.sendBundle b.source 0 tyHotAck b.table 0 s.self 0 0 0 0 []

/-! ### Serving requests at the owner (R231 step 5, R234, R237, R239, R245) -/

/-- Who answers an entry: this device, a new owner to which it is passed on, or nobody (REDIRECT). -/
inductive Serves where
  | here
  | forward (dst : BitVec 20)
  | redirect (pos : Nat) (dev : BitVec 20)
deriving DecidableEq, Repr

def State.migAt (s : State) (map pos : Nat) : Option Mig :=
  s.emb.migs.find? (fun m => m.map == map && m.position == pos)

/-- `by_` is the device that passed an entry on, none for a requester's own. What the owner by this device's map passes on
is served here: that owner has cut over to this device, whose map is not changed yet (R245). -/
def State.serves (s : State) (t : EmbTable) (id : W64) (by_ : Option (BitVec 20)) : Serves :=
  let pos := s.position t id
  let own := s.ownerAt t.map pos
  if own = s.self ∨ by_ = some own then .here
  else
    match s.migAt t.map pos with
    | some m => if m.phase = .forwarding then .forward m.peer else .redirect pos own
    | none => .redirect pos own

/-- After a write of a row of a position that is streaming out, the new row is streamed again (R245). -/
def State.restream (s : State) (t : EmbTable) (r : Row) : State :=
  match s.migAt t.map (s.position t r.id) with
  | none => s
  | some m =>
    if m.phase = .streaming then
      let e : Entry := ⟨r.id, 0, 0, r.version, r.scale, false, r.bytes, [], 0, 0⟩
      let s := s.sendBundle m.peer 0 tyMigrateRows t.table 0 s.self 0 1 0 0 (natLe 8 r.id.toNat ++ rowBytesOf e)
      s.modEmb (fun x => { x with migs := updWhere (·.slot == m.slot) (fun m => { m with unacked := m.unacked ++ [(t.table, r.id)] }) x.migs })
    else s

/-- Read the words of a stored row (R33, R37): whether one is poisoned. A read that passes on a retry is counted; one that
fails every retry is repaired from the mirror, or counted, recorded and reported. Its place in the slice is internal
(R223). -/
def State.readStored (s : State) (t : EmbTable) (r : Row) : Bool × State :=
  if r.poison then (true, s)
  else
    match s.region? t.region with
    | none => (false, s)
    | some g =>
      if r.flaky = 0 then (false, s)
      else
        let (d, s) := s.draw
        let p := (s.rowSlice t r.id).getD 0 + 64 * (Config.choice d % (t.sliceBytes / 64))
        let clear (s : State) : State := s.putRow { r with flaky := 0 }
        let s := if p < vaultsEnd then s.event 0x102 (bankNumber p) (min r.flaky 3) else s
        if r.flaky ≤ 3 then (false, (clear s).bankBump p F.VLT_ERR_REPLAY_OK F.LPT_CH_ERR_REPLAY_OK)
        else if g.mirrored then
          let s := (clear s).bankBump p F.VLT_ERR_MIRROR_REPAIR F.LPT_CH_ERR_MIRROR_REPAIR
          (false, (s.errAddr p false true).attn C.MIRROR_REPAIRED [s.device, p])
        else
          let s := s.bankBump p F.VLT_ERR_POISONED F.LPT_CH_ERR_POISONED
          (true, (s.errAddr p false false).attn C.POISON_CREATED [s.device, p, 0])

/-- Serve one LOOKUP entry here: the answer (R232). -/
def State.serveLookup (s : State) (t : EmbTable) (requester : BitVec 20) (id : W64) (index : Nat) : Entry × State :=
  let s := s.bump F.EMB_TABLE_COUNT_SERVED t.table 1
  if !s.rowServed t id then (statusEntry id index stUnavailable, s)
  else
    match s.row? t.table id with
    | none => (statusEntry id index stMissing, s)
    | some r =>
      let (bad, s) := (s.rowTraffic t id false).readStored t r
      if bad then (statusEntry id index stPoisoned, s)
      else
        let hot := requester ≠ s.self ∧ (s.hotRow? t.table id).isSome
        let s := if hot then s.addHolder t.table id requester else s
        (⟨id, stOk, index, r.version, t.scaleOf r, hot, r.bytes, [], 0, 0⟩, s)

/-- Write a row under its gate: its traffic, its holders, its stream (R239, R243, R245). -/
def State.gateWrite (s : State) (t : EmbTable) (r : Row) : List (BitVec 20) × State :=
  let (dst, s) := ((s.putRow r).rowTraffic t r.id true).hotWritten t r
  (dst, s.restream t r)

/-- Serve one UPDATE entry here (R237): the answer and the holders told. -/
def State.serveUpdate (s : State) (t : EmbTable) (op : Nat) (create : Bool) (id : W64) (values : List W32)
    (index : Nat) : Entry × List (BitVec 20) × State :=
  let s := s.bump F.EMB_TABLE_COUNT_SERVED t.table 1
  let answer (st : Nat) (s : State) : Entry × List (BitVec 20) × State := (statusEntry id index st, [], s)
  if !s.rowServed t id then answer stUnavailable s
  else
    let apply (s : State) (r : Row) : Entry × List (BitVec 20) × State :=
      let (dst, s) := s.gateWrite t (t.applyUpdate op r values)
      (statusEntry id index stOk, dst, s)
    match s.row? t.table id with
    | some r =>
      let (bad, s) := s.readStored t r
      if bad ∧ op ≠ 3 then answer stPoisoned s else apply s r
    | none =>
      if !create then answer stMissing s
      else if s.sliceFull t id then answer stSpace s
      else apply s (t.zeroRow id)

/-- What serving a bundle yields: the answers in order, the entries passed on, the holders told. -/
structure Serving where
  answers : List Entry
  onward : List (BitVec 20 × Entry)
  told : List (BitVec 20)

/-- Serve the entries of a bundle in order. -/
def State.serveAll (s : State) (t : EmbTable) (b : BundleHdr) (update taking : Bool) : List Entry → Serving → Serving × State
  | [], acc => (acc, s)
  | e :: rest, acc =>
    match s.serves t e.id (if taking then some b.source else none) with
    | .redirect pos dev =>
      let a := { statusEntry e.id e.index stRedirect with position := pos, device := dev }
      State.serveAll s t b update taking rest { acc with answers := acc.answers ++ [a] }
    | .forward dst =>
      State.serveAll s t b update taking rest
        { acc with answers := acc.answers ++ [statusEntry e.id e.index stForwarded], onward := acc.onward ++ [(dst, e)] }
    | .here =>
      let s := s.countRequest t e.id
      let s := if update then s else s.warmRow t e.id
      if update then
        let (a, dst, s) := s.serveUpdate t b.op b.create e.id e.values e.index
        State.serveAll (s.warmRow t e.id) t b update taking rest { acc with answers := acc.answers ++ [a], told := acc.told ++ dst }
      else
        let (a, s) := s.serveLookup t b.requester e.id e.index
        State.serveAll s t b update taking rest { acc with answers := acc.answers ++ [a] }

/-- FLAGS of a forward of UPDATE entries (R232). -/
def forwardFlags (b : BundleHdr) (update : Bool) : Nat :=
  if update then 4 * b.op + 16 * b2n b.create + 32 else 0

/-- Pass entries on to the new owners, one FORWARD_REQ for each (R245). -/
def State.passOn (s : State) (b : BundleHdr) (update : Bool) (onward : List (BitVec 20 × Entry)) : State :=
  (onward.map (·.1)).eraseDups.foldl (fun s d =>
    let es := (onward.filter (fun (x : BitVec 20 × Entry) => x.1 == d)).map (·.2)
    s.sendBundle d 0 tyForwardReq b.table (forwardFlags b update) b.requester b.round es.length b.part 0
      (es.flatMap (fun e => natLe 8 e.id.toNat ++ natLe 4 e.index ++ zeros 4 ++
        (if update then e.values.flatMap (fun w => natLe 4 w.toNat) else [])))) s

/-- Answer a requester: LOOKUP_RESP or UPDATE_ACK, or FORWARD_RESP for entries passed on to this device. -/
def State.answerBundle (s : State) (requester : BitVec 20) (table round part : Nat) (update forwarded : Bool)
    (es : List Entry) : State :=
  if forwarded then
    s.sendBundle requester 0 tyForwardResp table 2 requester round es.length part 0 (forwardBody es)
  else
    s.sendBundle requester 0 (if update then tyUpdateAck else tyLookupResp) table 1 requester round es.length part 0
      (respBody es)

/-- Serve a request bundle of another device whose vaults serve, and answer it, at once or when the holders of its hot
rows have answered (R243). -/
def State.serveBundleNow (s : State) (b : BundleHdr) (update forwarded : Bool) (es : List Entry) : State :=
  match s.embTable? b.table with
  | none =>
    s.answerBundle b.requester b.table b.round b.part update forwarded (es.map (fun e => statusEntry e.id e.index stNoTable))
  | some t =>
    let (v, s) := s.serveAll t b update forwarded es ⟨[], [], []⟩
    let s := s.passOn b update v.onward
    if v.told.isEmpty then s.answerBundle b.requester b.table b.round b.part update forwarded v.answers
    else s.modEmb (fun e => { e with
      waits := e.waits ++ [⟨b.table, v.told, 0, v.answers, .update b.requester b.table b.round b.part forwarded⟩] })

/-- A request bundle of another device: it waits while the vault of one of its rows does not serve. -/
def State.serveBundle (s : State) (b : BundleHdr) (update forwarded : Bool) (es : List Entry) : State :=
  let w : VaultWait := .bundle b update forwarded es
  let closed := match s.embTable? b.table with
    | none => false
    | some t => es.any (fun e => s.rowWaits t e.id)
  if s.queues w closed then
    let ask (s : State) : State := match s.embTable? b.table with
      | none => s
      | some t => es.foldl (fun s e => s.askRow t e.id) s
    (ask s).putWait w
  else s.serveBundleNow b update forwarded es

/-- Entries numbered by their place in the bundle. -/
def numbered (es : List Entry) : List Entry := (es.zip (List.range es.length)).map (fun x => { x.1 with index := x.2 })

def lookupReq (b : BundleHdr) (ids : List Entry) (s : State) : State :=
  if !s.lit then s else (s.takeInbox 0x01 b.source).serveBundle b false false (numbered ids)

def updateReq (b : BundleHdr) (es : List Entry) (s : State) : State :=
  if !s.lit then s else (s.takeInbox 0x01 b.source).serveBundle b true false (numbered es)

/-- FORWARD_REQ at the new owner: served in arrival order, the requester answered directly (R245). -/
def forwardReq (b : BundleHdr) (es : List Entry) (s : State) : State :=
  if !s.lit then s else (s.takeInbox 0x01 b.source).serveBundle b b.update true es

end Sys2Proof.Machine
end

