-- ==== Sys2Proof/Machine/Exchange.lean ====
section
/-!
DEFINITION. Exchange rounds at the requester: LOOKUP and UPDATE tasks, the close of a round, its answers and its end
(R228 to R238, R241, R246).
-/
namespace Sys2Proof.Machine
open Sys2Proof

/-! ### Parameters (R228, R229) -/

def State.modRound (s : State) (slot : Nat) (f : Round → Round) : State :=
  s.modEmb (fun e => { e with rounds := updWhere (fun r => r.slot == slot) f e.rounds })

def State.dropRound (s : State) (slot : Nat) : State :=
  s.modEmb (fun e => { e with rounds := e.rounds.filter (fun r => r.slot != slot) })

/-- A free round slot, 0 to 15 (R230). -/
def State.freeRoundSlot (s : State) : Option Nat :=
  (List.range 16).find? (fun k => s.emb.rounds.all (fun r => r.slot != k))

/-- The open round of a stage of a run. -/
def State.openRound (s : State) (runSlot stage : Nat) : Option Round :=
  s.emb.rounds.find? (fun r => r.runSlot == runSlot && r.stage == stage && r.closedAt.isNone)

/-- TIMEOUT_US of a stage, or ROUND_DEFAULT. -/
def State.roundTimeoutUs (s : State) (p : List Byte) : Nat :=
  if u32 p 8 = 0 then s.fget F.EMB_CTL_ROUND_DEFAULT else u32 p 8

/-- A dispatched LOOKUP or UPDATE task joins the open round of its stage, or opens one in a free slot (R230). -/
def State.joinRound (s : State) (t : Task) (st : StageRec) : State :=
  match s.openRound t.slot t.stage with
  | some r => s.modRound r.slot (fun r => { r with tasks := r.tasks ++ [⟨t.id, t.home, none, []⟩] })
  | none =>
    match s.freeRoundSlot with
    | none => s
    | some k =>
      let n := s.emb.nextRound % (2 ^ 32 - 1) + 1
      let r : Round :=
        { slot := k, number := n, runSlot := t.slot, stage := t.stage, update := st.op == .update, table := u8 st.param 0,
          openedAt := s.now, closedAt := none, order := 0, tasks := [⟨t.id, t.home, none, []⟩], parts := [],
          timeout := s.roundTimeoutUs st.param, ids := [] }
      s.modEmb (fun e => { e with nextRound := e.nextRound + 1, rounds := insertBy (fun a b => a.slot ≤ b.slot) r e.rounds })

/-! ### A task hands its ids over -/

/-- Ids of a column, widened to 64 bits (R226); none for a null. -/
def columnIds (c : Column) : List (Option W64) :=
  c.cells.map (fun x =>
    if x.valid then
      some (BitVec.ofNat 64 (if isSignedT c.typ then ofSigned 64 (toSigned (8 * x.bytes.length) (leNat x.bytes))
        else leNat x.bytes))
    else none)

/-- The ids of a task: from its id column, or from an index descriptor; a poisoned one fails the task (R81). -/
def State.taskIds (s : State) (t : Task) (r : Run) (p : List Byte) :
    Except Code (List (Option W64) × Rows × State) :=
  if u8 p 1 ≠ 0xFF then do
    let (rows, s) ← s.fetch r t.chunk [u8 p 1]
    match colAt rows.cols (u8 p 1) with
    | none => return ([], rows, s)
    | some c => if c.poisoned then .error C.OPERAND_POISON else return (columnIds c, rows, s)
  else
    match s.seat t.slot (u16 p 2) t.home with
    | none => .ok ([], t.chunk.rows, s)
    | some x => do
      let (bs, s) ← s.readRun x []
      let id (c : Nat) : W64 :=
        BitVec.ofNat 64 (if elemSigned x.d.typ then ofSigned 64 (toSigned x.d.bits c) else c)
      if bs.any (·.2) then .error C.OPERAND_POISON
      else return ((unpack x.d.bits (bs.map (·.1))).map (fun c => some (id c)), t.chunk.rows, s)

/-- An element of VALUES as an FP32 word (R229, R236). -/
def toFp32 (typ code : Nat) : W32 := BitVec.ofNat 32 (fp32.encode (elemVal typ code).toF)

/-- The rows of a VALUES descriptor, one for each id. -/
def State.valueRows (s : State) (x : Seat) (dim : Nat) : List Nat → Except Code (List (List W32) × State)
  | [] => .ok ([], s)
  | k :: rest => do
    let (bs, s) ← s.readRun x [k]
    if bs.any (·.2) then .error C.OPERAND_POISON
    else do
      let (r, s) ← State.valueRows s x dim rest
      return (((unpack x.d.bits (bs.map (·.1))).take dim).map (toFp32 x.d.typ) :: r, s)

/-- The rows of values of an UPDATE task; a poisoned word fails it: the VALUES descriptor, the chunk's tensor, or its
lowest-numbered column of fixed-size lists (R229, log entry 41). -/
def State.taskValues (s : State) (t : Task) (p : List Byte) (dim count : Nat) (rows : Rows) :
    Except Code (List (List W32) × State) :=
  if u16 p 4 ≠ 0xFFFF then
    match s.seat t.slot (u16 p 4) t.home with
    | none => .ok ([], s)
    | some x => s.valueRows x dim (List.range count)
  else
    match t.chunk.tensor with
    | some x =>
      let words := (unpack (elemBits x.typ) (x.bytes.map (·.1))).map (toFp32 x.typ)
      if x.bytes.any (·.2) then .error C.OPERAND_POISON else .ok (chunksOf dim (count + 1) words, s)
    | none =>
      match rows.cols.find? (fun c => c.typ == tFsl) with
      | none => .ok ([], s)
      | some c =>
        let typ := columnElem c.elem
        if c.poisoned then .error C.OPERAND_POISON
        else .ok (c.cells.map (fun x => ((unpack (elemBits typ) x.bytes).take dim).map (toFp32 typ)), s)

/-- The exchange unit takes a task's contribution whole (R238). -/
def State.takeContribution (s : State) (t : Task) (ids : List (Option W64)) (values : List (List W32)) : State :=
  let take (x : RoundTask) : RoundTask := if x.task = t.id then { x with ids := some ids, values := values } else x
  let s := s.modEmb (fun e => { e with rounds := e.rounds.map (fun r => { r with tasks := r.tasks.map take }) })
  s.putTask { t with taken := true }

/-- What a LOOKUP or UPDATE task hands to the exchange unit: its ids, and an UPDATE's values. -/
def State.contribution (s : State) (t : Task) (r : Run) (st : StageRec) (op : Op) :
    Except Code (List (Option W64) × List (List W32) × State) := do
  let (ids, rows, s) ← s.taskIds t r st.param
  if op = .lookup then return (ids, [], s)
  else do
    let dim := ((s.embTable? (u8 st.param 0)).map EmbTable.dim).getD 0
    let (vs, s) ← s.taskValues t st.param dim ids.length rows
    return (ids, vs, s)

def State.handOver (s : State) (task : Nat) (op : Op) : State :=
  match s.runningTask task op with
  | none => s
  | some (t, st, _, r) =>
    if t.taken then s
    else
      match s.contribution t r st op with
      | .error c => s.failTask t c
      | .ok (ids, vs, s) => s.takeContribution t ids vs

/-- LOOKUP: its core hands the task's ids to the exchange unit (R231 step 1). -/
def lookup (task : Nat) (s : State) : State := s.handOver task .lookup

/-- UPDATE: its core hands over ids and values (R236, R238). -/
def update (task : Nat) (s : State) : State := s.handOver task .update

/-! ### Closing a round (R230, R231 steps 2 to 4) -/

/-- The distinct ids of a round, in the order in which they were first named. -/
def Round.distinct (r : Round) : List W64 :=
  (r.tasks.flatMap (fun t => (t.ids.getD []).filterMap (fun i => i))).eraseDups

/-- The values that a round's tasks on one core give an id. -/
def Round.valuesOn (r : Round) (core : Nat) (id : W64) : List (List W32) :=
  (r.tasks.filter (fun t => t.core == core)).flatMap (fun t =>
    (((t.ids.getD []).zip t.values).filter (fun (e : Option W64 × List W32) => e.1 == some id)).map (·.2))

/-- The cores whose tasks a round holds. -/
def Round.coresOf (r : Round) : List Nat := (r.tasks.map RoundTask.core).eraseDups

/-- Combine the values of one id in the order given (R236); STORE keeps the first. -/
def combineWords (op : Nat) : List (List W32) → List W32
  | [] => []
  | v :: r =>
    if op = 3 then v
    else r.foldl (fun acc w => (acc.zip w).map (fun e =>
      BitVec.ofNat 32 (fp32.encode (embOp op (fp32.decode e.1.toNat) (fp32.decode e.2.toNat))))) v

/-- An order of a list that the Slago is free to choose: elements drawn one after another. -/
def drawOrder {α : Type} : Nat → List α → Nat → List α
  | 0, l, _ => l
  | fuel + 1, l, d =>
    let k := Config.choice d % l.length
    match l[k]? with
    | none => l
    | some x => x :: drawOrder fuel (l.eraseIdx k) (d + 1)

/-- Combine values in an order that the Slago is free to choose; two or more draw one (R236). -/
def State.combineFree (s : State) (op : Nat) (vs : List (List W32)) : List W32 × State :=
  (combineWords op (drawOrder vs.length vs s.free), if vs.length > 1 then { s with free := s.free + vs.length } else s)

/-- What each core of a round makes of its own values of an id; a core without one has none. -/
def State.combineCores (s : State) (r : Round) (op : Nat) (id : W64) : List Nat → List (List W32) × State
  | [] => ([], s)
  | c :: rest =>
    let vs := r.valuesOn c id
    if vs.isEmpty then State.combineCores s r op id rest
    else
      let (v, s) := s.combineFree op vs
      let (l, s) := State.combineCores s r op id rest
      (v :: l, s)

/-- Combine the values of every id: first within each core, then across cores (R236). -/
def State.combineAll (s : State) (r : Round) (op : Nat) : List W64 → List RoundId × State
  | [] => ([], s)
  | id :: rest =>
    let (parts, s) := if r.update then s.combineCores r op id r.coresOf else ([], s)
    let (v, s) := s.combineFree op parts
    let x : RoundId :=
      { id := id, owner := 0, part := 0, index := 0, sent := false, values := v,
        answer := none, redirected := false, forwarded := false, deferredSend := false }
    let (r', s) := State.combineAll s r op rest
    (x :: r', s)

/-- A copy in the hot-row cache settles a LOOKUP id, unless the cache has evicted it (R231 step 2, R243). -/
def State.fromCache (s : State) (table : Nat) (x : RoundId) : RoundId × State :=
  match s.emb.cache.find? (fun q => q.table == table && q.id == x.id) with
  | none => (x, s)
  | some q =>
    let (d, s) := s.draw
    if Config.coin d then (x, s.modEmb (fun e => { e with cache := dropCached e.cache table x.id }))
    else ({ x with answer := some ⟨x.id, stOk, 0, q.version, q.scale, true, q.bytes, [], 0, 0⟩ }, s)

def State.fromCacheAll (s : State) (table : Nat) : List RoundId → List RoundId × State
  | [] => ([], s)
  | x :: r =>
    let (y, s) := s.fromCache table x
    let (r', s) := State.fromCacheAll s table r
    (y :: r', s)

/-- Whether an entry for a position must wait (R246): one sent to another device for that position of the map is still
unanswered, be its round in flight or failed. -/
def State.mustWait (s : State) (map pos : Nat) (owner : BitVec 20) : Bool :=
  let placed (table : Nat) (id : W64) : Bool := match s.embTable? table with
    | some t => t.map == map && s.position t id == pos
    | none => false
  s.emb.rounds.any (fun r => r.ids.any (fun x => x.sent && x.answer.isNone && x.owner != owner && placed r.table x.id)) ||
    s.emb.unanswered.any (fun x => x.owner != owner && placed x.table x.id)

/-- FLAGS of a request part: LAST_PART, and for an UPDATE its OP and CREATE (R232). -/
def requestFlags (p : List Byte) (update last : Bool) : Nat :=
  b2n last + if update then 4 * (u8 p 6 % 4) + 16 * (u8 p 7 % 2) else 0

/-- Send one part of a round to an owner and note where its ids stand in it. -/
def State.sendPart (s : State) (slot : Nat) (st : StageRec) (owner : BitVec 20) (last : Bool) (ids : List RoundId) :
    State :=
  match s.emb.rounds.find? (fun r => r.slot == slot) with
  | none => s
  | some r =>
    let part := lookupD 0 r.parts owner.toNat
    let place (x : RoundId) : RoundId :=
      match ids.findIdx? (fun y => y.id == x.id) with
      | some k => { x with owner := owner, part := part, index := k, sent := true, deferredSend := false, forwarded := false }
      | none => x
    let s := s.modRound slot (fun r => { r with parts := assocSet r.parts owner.toNat (part + 1), ids := r.ids.map place })
    let body := ids.flatMap (fun x => natLe 8 x.id.toNat ++
      (if r.update then x.values.flatMap (fun w => natLe 4 w.toNat) else []))
    s.sendBundle owner 0 (if r.update then tyUpdateReq else tyLookupReq) r.table (requestFlags st.param r.update last)
      s.self r.number ids.length part 0 body

/-- Send ids to their owner in parts of at most 65,536 (R231 step 4). -/
def State.sendGroup (s : State) (slot : Nat) (st : StageRec) (owner : BitVec 20) (ids : List RoundId) : State :=
  let parts := chunksOf 65536 (ids.length + 1) ids
  (parts.zip (List.range parts.length)).foldl
    (fun s e => s.sendPart slot st owner (e.2 + 1 == parts.length) e.1) s

/-- What a round's own shard answers: an UPDATE whose hot rows have holders waits for them (R231 step 2, R243). -/
def State.serveOwn (s : State) (slot : Nat) (t : EmbTable) (st : StageRec) (update : Bool) (ids : List RoundId) : State :=
  let b : BundleHdr :=
    { source := s.self, table := t.table, lastPart := true, forwarded := false, op := u8 st.param 6 % 4,
      create := bitAt (u8 st.param 7) 0, update := update, requester := s.self, round := 0, mapVersion := 0, part := 0,
      run := 0 }
  let es : List Entry := ids.map (fun x => { statusEntry x.id 0 0 with values := x.values })
  let step (acc : List Entry × List (BitVec 20) × State) (e : Entry) : List Entry × List (BitVec 20) × State :=
    if update then
      let (a, dst, s) := acc.2.2.serveUpdate t b.op b.create e.id e.values 0
      (acc.1 ++ [a], acc.2.1 ++ dst, s)
    else
      let (a, s) := acc.2.2.serveLookup t s.self e.id 0
      (acc.1 ++ [a], acc.2.1, s)
  let (as, told, s) := es.foldl step ([], [], s)
  let answer (x : RoundId) : RoundId :=
    match as.find? (fun a => a.id == x.id) with
    | some a => if told.isEmpty then { x with answer := some a } else x
    | none => x
  let s := s.modRound slot (fun r => { r with ids := r.ids.map answer })
  if told.isEmpty then s
  else
    let number := ((s.emb.rounds.find? (fun r => r.slot == slot)).map Round.number).getD 0
    s.modEmb (fun e => { e with waits := e.waits ++ [⟨t.table, told, 0, as, .ownUpdate number⟩] })

/-- Send or serve every id of a round that has neither been sent nor answered and need not wait (R231 steps 2 to 4,
R246); an id of this device whose vault does not serve yet waits for it (R431). -/
def State.dispatchIds (s : State) (slot : Nat) : State :=
  match s.emb.rounds.find? (fun r => r.slot == slot) with
  | none => s
  | some r =>
    match s.embTable? r.table, s.stage? r.runSlot r.stage with
    | some t, some st =>
      let due := r.ids.filter (fun x => !x.sent && x.answer.isNone)
      let held (x : RoundId) : Bool :=
        s.mustWait t.map (s.position t x.id) (s.ownerOf t x.id) || (s.ownerOf t x.id == s.self && s.rowWaits t x.id)
      let hold (x : RoundId) : RoundId :=
        if !x.sent && x.answer.isNone && held x then { x with deferredSend := true } else x
      let s := s.modRound slot (fun r => { r with ids := r.ids.map hold })
      let s := due.foldl (fun s x => if s.ownerOf t x.id == s.self then s.askRow t x.id else s) s
      let go := due.filter (fun x => !held x)
      let own := go.filter (fun x => s.ownerOf t x.id == s.self)
      let mark (x : RoundId) : RoundId :=
        if own.any (fun y => y.id == x.id) then { x with sent := true, owner := s.self } else x
      let s := s.modRound slot (fun r => { r with ids := r.ids.map mark })
      let s := if own.isEmpty then s else s.serveOwn slot t st r.update own
      let rest := go.filter (fun x => s.ownerOf t x.id != s.self)
      ((rest.map (fun x => s.ownerOf t x.id)).eraseDups).foldl
        (fun s d => s.sendGroup slot st d (rest.filter (fun x => s.ownerOf t x.id == d))) s
    | _, _ => s

/-! ### The end of a round -/

/-- The run failure that an answer brings to the tasks that named its id (R232, R237). -/
def answerFails (t : EmbTable) (update : Bool) (st : Nat) : Option Code :=
  if st = stSpace then some C.TABLE_SPACE
  else if st = stPoisoned then some C.ROW_POISON
  else if st = stNoTable then some C.EMB_TABLE_UNKNOWN
  else if (st = stMissing ∨ st = stUnavailable) ∧ t.missFault ∧ !update then some C.ROW_MISSING
  else none

/-- A row in the output's element type (R228, R232): the table's own format keeps the stored row; else stored × SCALE
in FP32, rounded once. -/
def EmbTable.outRow (t : EmbTable) (typ : Nat) (e : Entry) : List Byte :=
  if e.status ≠ stOk then zeros ((t.dim * elemBits typ + 7) / 8)
  else if typ = t.format then e.row
  else
    let vs := (t.codes e.row).map (t.value (if t.scaled then e.scale else 0x3F800000))
    pack (elemBits typ) (vs.map (elemCode typ ∘ Val.flt))

/-- Fan a LOOKUP task's rows out to every slot that named them (R235): into the OUT descriptor, or into a fresh
buffer that becomes a column of the chunk. -/
def State.fanOut (s : State) (t : Task) (st : StageRec) (tab : EmbTable) (r : Round) (ids : List (Option W64)) : State :=
  let p := st.param
  let find (i : Option W64) : Option Entry :=
    i.bind (fun id => (r.ids.find? (fun x => x.id == id)).bind RoundId.answer)
  let out := if u16 p 4 = 0xFFFF then none else s.seat t.slot (u16 p 4) t.home
  match out with
  | some o =>
    let row (i : Option W64) : List (Byte × Bool) :=
      (match find i with
       | some a => tab.outRow o.d.typ a
       | none => zeros ((tab.dim * o.d.bits + 7) / 8)).map (fun b => (b, false))
    if o.d.ext 1 < ids.length then s.failTask t C.COPY_SHAPE
    else
      match s.writeTensor o ((ids.zip (List.range ids.length)).map (fun e => ([e.2], row e.1))) with
      | .error c => s.failTask t c
      | .ok s => (s.bump F.LAY_BYTES_BYTES t.home (ids.length * o.d.run)).endTask t [t.chunk]
  | none =>
    let rows := ids.map (fun i => (find i).map (tab.outRow 0x0D))
    let blank := zeros (4 * tab.dim)
    let col : Column :=
      ⟨u8 p 6, tFsl, tFloat32, tab.dim, rows.map (fun x => (⟨x.isSome, x.getD blank, false⟩ : CellV))⟩
    let k := t.chunk.rows
    let c := t.chunk.withRows { k with cols := putCol k.cols col }
    let s := s.bump F.LAY_BYTES_BYTES t.home (ids.length * 4 * tab.dim)
    s.endTask t [{ c with tensor := some ⟨0x0D, rows.flatMap (fun x => (x.getD blank).map (fun b => (b, false)))⟩ }]

/-- A task of a round whose fabric part has ended: stopped (R311), failed by an answer, fanned out, or complete. -/
def State.finishTask (s : State) (tab : EmbTable) (r : Round) (x : RoundTask) : State :=
  match s.task? x.task with
  | none => s
  | some t =>
    if t.stop then s.stopTask t
    else
      let ids := x.ids.getD []
      let fail := ids.findSome? (fun i => i.bind (fun id =>
        ((r.ids.find? (fun y => y.id == id)).bind RoundId.answer).bind (fun a => answerFails tab r.update a.status)))
      match fail with
      | some c => s.failTask t c
      | none =>
        if r.update then s.endTask t [t.chunk]
        else
          match s.stage? t.slot t.stage with
          | some st => s.fanOut t st tab r ids
          | none => s

/-- Time of the fabric part: the mean of the last 64 rounds and the longest (R249). -/
def State.roundTime (s : State) (r : Round) : State :=
  if r.parts.isEmpty then s
  else
    let d := s.now - r.closedAt.getD s.now
    let ts := (d :: s.emb.roundTimes).take 64
    let s := s.modEmb (fun e => { e with roundTimes := ts })
    let s := s.fset F.EMB_ROUND_TIME_MEAN_NS 0 (min (ts.sum / ts.length) F.EMB_ROUND_TIME_MEAN_NS.max)
    s.fset F.EMB_ROUND_TIME_MAX_NS 0
      (max (s.fget F.EMB_ROUND_TIME_MAX_NS) (min d F.EMB_ROUND_TIME_MAX_NS.max))

/-- How often a round's ids repeat: occurrences beyond the distinct ids (R235). -/
def Round.repeats (r : Round) : Nat :=
  (r.tasks.map (fun t => ((t.ids.getD []).filter Option.isSome).length)).sum - r.distinct.length

/-- The gathering time that the Warden sets after a round: longer, within its limit, while rounds are short and find
repeats, shorter while they approach their timeout; how short, and by how much, is open (R230, log entry 174). -/
def State.nextGather (s : State) (r : Round) : Nat × State :=
  let (d, s) := s.draw
  let (e, s) := s.draw
  let old := s.fget F.EMB_GATHER_GATHER_NS
  let top := s.fget F.EMB_GATHER_GATHER_MAX_NS
  let took := s.now - r.closedAt.getD s.now
  let short := took ≤ Config.choice d % (r.timeout * 1000 + 1)
  let ns := if !short then min old (Config.gatherNs e)
    else if r.repeats = 0 then old else max old (min top (Config.gatherNs e))
  (min ns top, s)

/-- The Warden may change the gathering time; a change is reported at most once a second (R230, R433). -/
def State.wardenGather (s : State) (r : Round) : State :=
  let (ns, s) := s.nextGather r
  if ns = s.fget F.EMB_GATHER_GATHER_NS then s
  else
    let s := s.fset F.EMB_GATHER_GATHER_NS 0 ns
    let recent : Bool := match s.emb.gatherReport with
      | some t => decide (s.now < t + 1000000000)
      | none => false
    if recent then s
    else (s.modEmb (fun e => { e with gatherReport := some s.now })).attn C.WARDEN_GATHER [ns]

/-- Every id of a round answered: the round is counted, its tasks end, its slot is free (R231 steps 6 and 7). -/
def State.completeRound (s : State) (r : Round) : State :=
  match s.embTable? r.table with
  | none => s.dropRound r.slot
  | some tab =>
    let missing := (r.ids.filter (fun x => match x.answer with
      | some a => a.status == stMissing || a.status == stUnavailable
      | none => false)).length
    let s := (s.roundTime r).bump F.EMB_ROUND_COUNT_ROUNDS 0 1
    let s := s.bump F.EMB_TABLE_COUNT_MISSING r.table missing
    let s := (s.dropRound r.slot).modEmb (fun e => { e with roundsDone := e.roundsDone + 1 })
    (r.tasks.foldl (fun s x => s.finishTask tab r x) s).wardenGather r

/-- The entries of a round that were sent and are not answered. -/
def Round.unanswered (r : Round) (self : BitVec 20) : List Unanswered :=
  (r.ids.filter (fun x => x.sent && x.answer.isNone && x.owner != self)).map (fun x =>
    ⟨r.update, r.number, r.table, x.id, x.owner, x.part, x.index, x.forwarded⟩)

/-- A round fails: every task in it fails with the code (R233, R234, R248); what it sent may still be answered (R246). -/
def State.failRound (s : State) (r : Round) (code : Code) : State :=
  let s := s.modEmb (fun e => { e with unanswered := e.unanswered ++ r.unanswered s.self })
  r.tasks.foldl (fun s x => match s.task? x.task with
    | some t => if t.stop then s.stopTask t else s.failTask t code
    | none => s) (s.dropRound r.slot)

/-- Send what need wait no longer, in the order in which the rounds closed (R241), and end the rounds whose ids are all
answered. -/
def State.advanceRounds (s : State) : State :=
  let closed := s.emb.rounds.filter (fun r => r.closedAt.isSome)
  let slots := (sortBy (fun (a b : Round) => decide (a.order ≤ b.order)) closed).map Round.slot
  let s := slots.foldl (fun s k =>
    match s.emb.rounds.find? (fun r => r.slot == k) with
    | some r => if r.ids.any (fun x => x.deferredSend) then s.dispatchIds k else s
    | none => s) s
  slots.foldl (fun s k =>
    match s.emb.rounds.find? (fun r => r.slot == k) with
    | some r => if r.ids.all (fun x => x.answer.isSome) then s.completeRound r else s
    | none => s) s

/-- Whether the cause of a close holds (R230). -/
def State.closes (s : State) (r : Round) (cause : CloseCause) : Bool :=
  match cause with
  | .gathered => decide (r.openedAt + s.fget F.EMB_GATHER_GATHER_NS ≤ s.now)
  | .idsReached => decide (s.fget F.EMB_CTL_ROUND_IDS ≤ r.distinct.length)
  | .noFurtherTask =>
    s.disp.tasks.all (fun t => !(t.slot == r.runSlot && t.stage == r.stage && t.state == .ready))

/-- A round closes (R230): its ids are settled from the cache, served here, or sent (R231). A round of which no task
is left is freed. The tasks dispatched into it have handed their ids over first (log entry 42). -/
def roundClose (round : Fin 16) (cause : CloseCause) (s : State) : State :=
  match s.emb.rounds.find? (fun r => r.slot == round.val && r.closedAt.isNone) with
  | none => s
  | some r =>
    if !s.closes r cause || r.tasks.any (fun x => x.ids.isNone) then s
    else
      match s.stage? r.runSlot r.stage with
      | none => s.dropRound round
      | some st =>
        if r.tasks.isEmpty then s.dropRound round
        else
          let (ids, s) := s.combineAll r (u8 st.param 6) r.distinct
          let (ids, s) := if r.update ∨ bitAt (u8 st.param 7) 0 then (ids, s) else s.fromCacheAll r.table ids
          let n := s.emb.closings
          let s := s.modEmb (fun e => { e with closings := n + 1 })
          let s := s.modRound round (fun r => { r with closedAt := some s.now, order := n, ids := ids })
          (s.dispatchIds round).advanceRounds

/-- A round whose fabric part has not ended in time (R233). -/
def roundTimeout (round : Fin 16) (s : State) : State :=
  match s.emb.rounds.find? (fun r => r.slot == round.val) with
  | none => s
  | some r =>
    match r.closedAt with
    | none => s
    | some t =>
      if s.now < t + r.timeout * 1000 then s
      else (s.bump F.EMB_ROUND_COUNT_TIMEOUTS 0 1).failRound r C.ROUND_TIMEOUT

/-! ### Answers (R232, R234) -/

/-- Adopt a version of a map with the change of one position (R227, R234): only a newer one. -/
def State.adopt (s : State) (map pos : Nat) (d : BitVec 20) (version : W32) : State :=
  let change (m : ShardMap) : ShardMap :=
    if pos < m.devices.length ∧ m.version < version then { m with version := version, devices := m.devices.set pos d } else m
  s.modEmb (fun e => { e with maps := updWhere (fun m => m.map == map) change e.maps })

/-- One answer reaches an id: the round after, the code that fails it if any, the state. -/
def State.takeAnswer (s : State) (t : EmbTable) (noCache : Bool) (slot : Nat) (version : W32) (x : RoundId) (e : Entry) :
    Option Code × State :=
  let put (f : RoundId → RoundId) (s : State) : State :=
    s.modRound slot (fun r => { r with ids := updWhere (fun y => y.id == x.id) f r.ids })
  if x.answer.isSome then (none, s)
  else if e.status = stForwarded then (none, put (fun y => { y with forwarded := true }) s)
  else if e.status = stRedirect then
    if x.redirected then (some C.ROUND_TIMEOUT, s)
    else
      let s := (s.adopt t.map e.position e.device version).bump F.EMB_ROUND_COUNT_REDIRECTS 0 1
      (none, put (fun y => { y with redirected := true, sent := false, deferredSend := true }) s)
  else
    let s := put (fun y => { y with answer := some { e with id := x.id } }) s
    if e.status = stOk then
      let s := s.event 0x901 0 (ceilDiv e.row.length 64)
      (none, if e.hot && !noCache then s.installHot ⟨t.table, x.id, e.version, e.scale, e.row, false, 0⟩ else s)
    else (none, s)

/-- The answers of a bundle reach the ids they belong to. -/
def State.takeAnswers (s : State) (t : EmbTable) (noCache : Bool) (slot : Nat) (version : W32) :
    List (RoundId × Entry) → Option Code × State
  | [] => (none, s)
  | (x, e) :: rest =>
    match s.takeAnswer t noCache slot version x e with
    | (some c, s) => (some c, s)
    | (none, s) => State.takeAnswers s t noCache slot version rest

/-- A late answer to a failed round: its entries no longer hold others back (R246). A part's own answer settles what it does
not name as passed on, the new owner's answer what was passed on. -/
def State.lateAnswer (s : State) (b : BundleHdr) (update forwarded : Bool) (es : List Entry) : State :=
  let named (x : Unanswered) : Option Entry :=
    if forwarded then es.find? (fun e => e.index == x.index) else es[x.index]?
  let mine (x : Unanswered) : Bool :=
    x.update == update && x.round == b.round && x.part == b.part && (x.owner == b.source) != forwarded
  let left (x : Unanswered) : Option Unanswered :=
    if !mine x then some x
    else
      match named x with
      | none => some x
      | some e => if !forwarded && e.status == stForwarded then some { x with forwarded := true } else none
  s.modEmb (fun e => { e with unanswered := e.unanswered.filterMap left })

/-- Take the answers of a response for the round it names; a response that names none is discarded (R233). -/
def State.takeResponse (s : State) (b : BundleHdr) (update forwarded : Bool) (es : List Entry)
    (pairs : Round → List (RoundId × Entry)) : State :=
  match s.emb.rounds.find? (fun r => r.number == b.round && r.update == update && r.closedAt.isSome) with
  | none => (s.lateAnswer b update forwarded es).advanceRounds
  | some r =>
    match s.embTable? r.table, s.stage? r.runSlot r.stage with
    | some t, some st =>
      match s.takeAnswers t (!update && bitAt (u8 st.param 7) 0) r.slot b.mapVersion (pairs r) with
      | (some c, s) => (s.failRound r c).advanceRounds
      | (none, s) => s.advanceRounds
    | _, _ => s

/-- Pair the entries of a direct answer with the ids of its part, by index. -/
def partPairs (b : BundleHdr) (es : List Entry) (r : Round) : List (RoundId × Entry) :=
  (es.zip (List.range es.length)).filterMap (fun e =>
    (r.ids.find? (fun x => x.sent && x.owner == b.source && x.part == b.part && x.index == e.2)).map (fun x => (x, e.1)))

/-- Pair the entries of a FORWARD_RESP with the ids that stand at their index in that part of a bundle to another
owner: one already marked FORWARDED first (log entry 43). -/
def forwardPairs (b : BundleHdr) (es : List Entry) (r : Round) : List (RoundId × Entry) :=
  es.filterMap (fun e =>
    let at_ (x : RoundId) : Bool :=
      x.sent && x.answer.isNone && x.owner != b.source && x.part == b.part && x.index == e.index
    let hit := match r.ids.find? (fun x => at_ x && x.forwarded) with
      | some x => some x
      | none => r.ids.find? at_
    hit.map (fun x => (x, e)))

def lookupResp (b : BundleHdr) (es : List Entry) (s : State) : State :=
  if !s.lit then s else (s.takeInbox 0x01 b.source).takeResponse b false false es (partPairs b es)

/-- FORWARD_RESP: the new owner's answers to entries passed on (R245); the round named says of which kind. -/
def forwardResp (b : BundleHdr) (es : List Entry) (s : State) : State :=
  if !s.lit then s
  else
    let s := s.takeInbox 0x01 b.source
    (s.takeResponse b false true es (forwardPairs b es)).takeResponse b true true es (forwardPairs b es)

end Sys2Proof.Machine
end

