-- ==== Sys2Proof/Machine/Migrate.lean ====
section
/-!
DEFINITION. Row writes of the control node (R240), acknowledgements of holders (R243), and migration of ownership
(R244 to R247).
-/
namespace Sys2Proof.Machine
open Sys2Proof

/-! ### ROW_WRITE (R240) -/

/-- Write a whole new row at its owner: its new version and the holders to be awaited, or the refusal. -/
def State.writeRow (s : State) (t : EmbTable) (id : W64) (scale : W32) (row : List Byte) :
    Except Code (W32 × List (BitVec 20)) × State :=
  let lpddr : Bool := match s.region? t.region with
    | some r => r.kind == .lpddr6
    | none => false
  if !s.rowServed t id then (.error (if lpddr then C.CHANNEL_UNAVAILABLE else C.VAULT_UNAVAILABLE), s)
  else
    match s.row? t.table id with
    | some r =>
      let r := { r with version := r.version + 1, scale := if t.scaled then scale else r.scale, bytes := row, poison := false, flaky := 0 }
      let (dst, s) := s.gateWrite t r
      (.ok (r.version, dst), s)
    | none =>
      if s.sliceFull t id then (.error C.TABLE_SPACE, s)
      else
        let r : Row := ⟨t.table, id, 1, if t.scaled then scale else 0x3F800000, row, false, 0⟩
        let (dst, s) := s.gateWrite t r
        (.ok (r.version, dst), s)

/-- The table of a ROW_WRITE, after the refusals of R240 and R356. -/
def State.rowWriteCheck (s : State) (keeper : Bool) (table : Nat) (row : List Byte) : Except Code EmbTable :=
  match s.embTable? table with
  | none => .error C.EMB_TABLE_UNKNOWN
  | some t =>
    let open_ : Bool := match s.region? t.region with
      | some r => r.access == .operatorWrite
      | none => false
    if !keeper ∧ !open_ then .error C.ROLE_DENIED
    else if row.length ≠ t.rowBytes then .error C.ROW_SIZE
    else .ok t

/-- Write a row for a session's command: its final answer, unless holders of the row must be heard first (R243). -/
def State.writeRowFor (s : State) (session : W32) (seq : Nat) (t : EmbTable) (id : W64) (scale : W32) (row : List Byte) :
    Option (Code × List Byte) × State :=
  match s.writeRow t id scale row with
  | (.error c, s) => (some (c, []), s)
  | (.ok (v, dst), s) =>
    if dst.isEmpty then (some (C.OK, natLe 4 v.toNat), s)
    else (none, s.modEmb (fun e => { e with waits := e.waits ++ [⟨t.table, dst, v, [], .rowWrite session seq⟩] }))

/-- ROW_WRITE here, or passed on to the row's owner in the exchange class; how the forwarded message is encoded is open
(log entry 40). -/
def State.doRowWrite (s : State) (x : Session) (seq table : Nat) (id : W64) (scale : W32) (row : List Byte) : Answer :=
  match s.rowWriteCheck (x.role == .keeper) table row with
  | .error c => s.refuse c
  | .ok t =>
    match s.serves t id none with
    | .here =>
      let w : VaultWait := .row x.id seq table id scale row
      if s.queues w (s.rowWaits t id) then ((s.askRow t id).putWait w).pend x tyRowWrite seq .vault none
      else
        match s.writeRowFor x.id seq t id scale row with
        | (some (c, bs), s) => (s, c, bs)
        | (none, s) => s.pend x tyRowWrite seq .hotRow none
    | _ =>
      let owner := (s.ownerOf t id).toNat
      if !s.reachable owner then s.refuse C.PEER_UNREACHABLE
      else
        let (d, s) := s.draw
        let (tag, s) := s.newTag
        let s := s.injectBody owner 0 0x01 tag (Config.bytes d (32 + row.length))
        let req : PoolReq := ⟨tag, BitVec.ofNat 20 owner, s.now⟩
        let s := { s with tth := { s.tth with reqs := s.tth.reqs ++ [req] } }
        s.pend x tyRowWrite seq (.rowWrite tag) none

def rowWrite (h : Hdr) (table : Nat) (id : W64) (scale : W32) (row : List Byte) (s : State) : State :=
  s.litCommand h tyRowWrite (fun x s => s.doRowWrite x h.seq table id scale row)

/-- A ROW_WRITE passed on by another device is written and acknowledged; one for a row this device does not own goes on
to its owner, or is answered EMB_TABLE_UNKNOWN or ROW_SIZE. -/
def State.rowWriteFrom (s : State) (source : BitVec 20) (tag table : Nat) (id : W64) (scale : W32) (row : List Byte) :
    State :=
  let answer (s : State) (c : Code) : State := s.injectBody source.toNat 0 0x05 tag (natLe 2 c.toNat ++ zeros 6)
  match s.rowWriteCheck true table row with
  | .error c => answer s c
  | .ok t =>
    match s.serves t id (some source) with
    | .here =>
      let w : VaultWait := .peerRow source tag table id scale row
      if s.queues w (s.rowWaits t id) then (s.askRow t id).putWait w
      else
        match s.writeRow t id scale row with
        | (.error c, s) => answer s c
        | (.ok (v, dst), s) =>
          if dst.isEmpty then answer s C.OK
          else s.modEmb (fun e => { e with waits := e.waits ++ [⟨table, dst, v, [], .rowForward source tag⟩] })
    | .forward dst =>
      let (d, s) := s.draw
      s.injectBody dst.toNat 0 0x01 tag (Config.bytes d (32 + row.length))
    | .redirect _ own =>
      let (d, s) := s.draw
      s.injectBody own.toNat 0 0x01 tag (Config.bytes d (32 + row.length))

def rowWriteForwarded (source : BitVec 20) (tag table : Nat) (id : W64) (scale : W32) (row : List Byte) (s : State) :
    State :=
  if !s.lit then s else (s.takeInbox 0x01 source).rowWriteFrom source tag table id scale row

/-! ### HOT_ACK (R243) -/

/-- What waited for the holders goes on: the UPDATE is acknowledged, the round has its answers, the command its final
response. -/
def State.acked (s : State) (w : HotWait) : State :=
  match w.then_ with
  | .update requester table round part forwarded => s.answerBundle requester table round part true forwarded w.statuses
  | .ownUpdate round =>
    let answer (x : RoundId) : RoundId :=
      match w.statuses.find? (fun a => a.id == x.id) with
      | some a => if x.answer.isNone ∧ x.owner = s.self then { x with answer := some a } else x
      | none => x
    let fix (r : Round) : Round := if r.number = round then { r with ids := r.ids.map answer } else r
    (s.modEmb (fun e => { e with rounds := e.rounds.map fix })).advanceRounds
  | .rowWrite session seq =>
    match s.session? session with
    | none => s
    | some x =>
      let settle (p : Pend) : Pend := if p.seq = seq then { p with result := some (C.OK, natLe 4 w.version.toNat) } else p
      s.putSession { x with pends := x.pends.map settle }
  | .rowForward source tag => s.injectBody source.toNat 0 0x05 tag (zeros 8)
  | .nothing => s

/-- One acknowledgement is taken off the first wait of the table that names the device. -/
def ackFirst (table : Nat) (d : BitVec 20) : List HotWait → List HotWait × Option HotWait
  | [] => ([], none)
  | w :: r =>
    if w.table = table ∧ w.awaiting.contains d then
      let w := { w with awaiting := w.awaiting.erase d }
      if w.awaiting.isEmpty then (r, some w) else (w :: r, none)
    else
      let (r', hit) := ackFirst table d r
      (w :: r', hit)

def hotAck (b : BundleHdr) (s : State) : State :=
  if !s.lit then s
  else
    let s := s.takeInbox 0x01 b.source
    let (ws, hit) := ackFirst b.table b.source s.emb.waits
    let s := s.modEmb (fun e => { e with waits := ws })
    match hit with
    | some w => s.acked w
    | none => s

/-! ### Migrations (R244, R245) -/

def State.inFabric (s : State) (d : BitVec 20) : Bool :=
  d == s.self || (s.reachable d.toNat && !s.tth.gone.contains d)

/-- Concurrent migrations allowed: 0 in the field means 8 (R249). -/
def State.migrateMax (s : State) : Nat :=
  if s.fget F.EMB_CTL_MIGRATE_MAX = 0 then 8 else s.fget F.EMB_CTL_MIGRATE_MAX

def State.modMig (s : State) (slot : Nat) (f : Mig → Mig) : State :=
  s.modEmb (fun e => { e with migs := updWhere (fun m => m.slot == slot) f e.migs })

def State.dropMig (s : State) (slot : Nat) : State :=
  s.modEmb (fun e => { e with migs := e.migs.filter (fun m => m.slot != slot) })

/-- A map's change of one position is made here and sent to every other device of the map, in the control class
(R245). -/
def State.announceMap (s : State) (map pos : Nat) (d : BitVec 20) : State :=
  let version := s.mapVersion map + 1
  let before := ((s.map? map).map ShardMap.devices).getD []
  let s := s.adopt map pos d version
  let dst := (d :: before).eraseDups.filter (fun x => x != s.self && !s.tth.gone.contains x)
  let body := natLe 4 pos ++ natLe 4 d.toNat ++ natLe 4 version.toNat ++ zeros 4
  let s := dst.foldl (fun s x => s.sendBundle x 2 tyMapUpdate map 0 s.self 0 1 0 0 body) s
  s.attn C.MIGRATION_CUTOVER [map, pos, d.toNat, version.toNat]

/-- The hot rows of a position stop being hot here (R245 phase 2). -/
def State.coolPosition (s : State) (map pos : Nat) : State :=
  s.emb.hot.foldl (fun s h =>
    match s.embTable? h.table with
    | some t => if t.map = map ∧ s.position t h.id = pos then s.coolRow t h.id else s
    | none => s) s

/-- CUTOVER: in one step, once the new owner has acknowledged every row (R245). -/
def State.cutover (s : State) (m : Mig) : State :=
  let s := s.announceMap m.map m.position m.peer
  let s := s.coolPosition m.map m.position
  s.modMig m.slot (fun m => { m with phase := .forwarding, cutoverAt := s.now, roundsAtCutover := s.emb.roundsDone })

/-- Stream the rows of a position to the new owner, one bundle for each table (R245 phase 1). -/
def State.streamRows (s : State) (peer : BitVec 20) (rows : List Row) : State :=
  ((rows.map Row.table).eraseDups).foldl (fun s n =>
    let rs := rows.filter (fun r => r.table == n)
    let body := rs.flatMap (fun r => natLe 8 r.id.toNat ++ rowBytesOf ⟨r.id, 0, 0, r.version, r.scale, false, r.bytes, [], 0, 0⟩)
    s.sendBundle peer 0 tyMigrateRows n 0 s.self 0 rs.length 0 0 body) s

/-- The order in which the rows of a position are streamed: table by table. -/
def streamOrder (rows : List Row) : List (Nat × W64) :=
  ((rows.map Row.table).eraseDups).flatMap (fun n => (rows.filter (fun r => r.table == n)).map (fun r => (r.table, r.id)))

/-- Discard the rows of a position. -/
def State.discardRows (s : State) (map pos : Nat) : State :=
  let rows := s.rowsAt map pos
  s.modEmb (fun e => { e with rows := e.rows.filter (fun r => !rows.any (fun q => q.table == r.table && q.id == r.id)) })

/-- The refusal of a migration, or its slot (R244). -/
def State.migrateCheck (s : State) (pos map : Nat) (new : BitVec 20) (force : Bool) : Except Code Nat :=
  match s.map? map with
  | none => .error C.VALUE_REFUSED
  | some m =>
    if m.devices.length ≤ pos then .error C.VALUE_REFUSED
    else
      let old := s.ownerAt map pos
      if new = old ∨ !s.inFabric new then .error C.MIGRATE_REFUSED
      else if force then (if s.inFabric old then .error C.MIGRATE_REFUSED else .ok 0)
      else if old ≠ s.self then .error C.MIGRATE_REFUSED
      else if (s.migAt map pos).isSome ∨ s.migrateMax ≤ s.emb.migs.length then .error C.MIGRATE_BUSY
      else
        match (List.range 8).find? (fun k => s.emb.migs.all (fun g => g.slot != k)) with
        | some k => .ok k
        | none => .error C.MIGRATE_BUSY

/-- Start a migration, or reassign a position whose owner has left (R244, R245, R247). -/
def State.startMigration (s : State) (pos map : Nat) (new : BitVec 20) (force : Bool) : Code × State :=
  match s.migrateCheck pos map new force with
  | .error c => (c, s)
  | .ok k =>
    if force then
      let s := s.announceMap map pos new
      let s := if new = s.self then s.discardRows map pos else s
      let mine := s.embTables.filter (fun t => t.map == map)
      (C.OK, if new = s.self then mine.foldl (fun s t => s.attn C.SHARD_DEGRADED [map, pos, t.table]) s else s)
    else
      let rows := s.rowsAt map pos
      let m : Mig :=
        { slot := k, map := map, position := pos, peer := new, phase := .streaming, startedAt := s.now, cutoverAt := 0,
          roundsAtCutover := 0, total := rows.length, sent := 0, unacked := streamOrder rows }
      let s := s.modEmb (fun e => { e with migs := insertBy (fun a b => a.slot ≤ b.slot) m e.migs })
      let s := s.attn C.MIGRATION_STARTED [map, pos, s.device, new.toNat]
      (C.OK, if rows.isEmpty then s.cutover m else s.streamRows new rows)

/-- The new owner of an aborted migration is told, behind the rows in the exchange class: a MAP_UPDATE that leaves the
position and the version as they are (log entry 175). -/
def State.tellAborted (s : State) (m : Mig) : State :=
  if s.tth.gone.contains m.peer then s
  else s.sendBundle m.peer 0 tyMapUpdate m.map 0 s.self 0 1 0 0
    (natLe 4 m.position ++ natLe 4 s.device ++ natLe 4 (s.mapVersion m.map).toNat ++ zeros 4)

/-- A migration that has not cut over ends: the position stays here, the rows installed at the new owner are discarded there
(R247). -/
def State.abortMigration (s : State) (m : Mig) (why : Code) : State :=
  ((s.dropMig m.slot).tellAborted m).attn C.MIGRATION_ABORTED [m.map, m.position, why.toNat]

/-- Positions of a map that the Warden may move: owned here, every table of the map MIGRATABLE (R244). -/
def State.movable (s : State) (m : ShardMap) : List Nat :=
  let ts := s.embTables.filter (fun t => t.map == m.map)
  if ts.isEmpty || ts.any (fun t => !t.migratable) then []
  else (List.range m.devices.length).filter (fun p => m.devices.getD p 0 == s.self && (s.migAt m.map p).isNone)

/-- The period of the Warden's balance, in ns (R244). -/
def balancePeriod : Nat := 100000000

/-- The device of a map that served least. -/
def leastServed (served : List (BitVec 20 × Nat)) : Option (BitVec 20) :=
  (served.foldl (fun (b : Option (BitVec 20 × Nat)) e => match b with
    | some x => if e.2 < x.2 then some e else b
    | none => some e) none).map (·.1)

/-- The Warden's balance of one map, once in 100 ms (R244): `served` gives the requests that each device served in that
time. Which of its positions a device moves is open. -/
def autoMigrateCheck (map : BitVec 4) (served : List (BitVec 20 × Nat)) (s : State) : State :=
  match s.map? map.toNat with
  | none => s
  | some m =>
    if !s.lit || !s.flag F.EMB_CTL_AUTO_MIGRATE ||
        decide (s.now < SMap.get 0 s.emb.balancedAt map.toNat + balancePeriod) then s
    else
      let s := s.modEmb (fun e => { e with balancedAt := SMap.set 0 e.balancedAt map.toNat s.now })
      let of_ (d : BitVec 20) : Nat := ((served.find? (fun e => e.1 == d)).map (·.2)).getD 0
      let devices := m.devices.eraseDups
      let total := (devices.map of_).sum
      if of_ s.self * devices.length ≤ total * s.fget F.EMB_CTL_IMBALANCE then s
      else
        let (d, s) := s.draw
        match leastServed (devices.map (fun x => (x, of_ x))), (s.movable m)[Config.choice d % (s.movable m).length]? with
        | some dst, some pos => (s.startMigration pos map.toNat dst false).2
        | _, _ => s

/-- MIGRATE_ROWS at the new owner: each row is installed under its gate, the higher version kept; a full slice is
answered SPACE, in an UPDATE_ACK (R245, R247, log entry 44). -/
def migrateRows (b : BundleHdr) (es : List Entry) (s : State) : State :=
  if !s.lit then s
  else
    let s := s.takeInbox 0x01 b.source
    match s.embTable? b.table with
    | none => s.answerBundle b.source b.table 0 0 true false [statusEntry 0 0 stNoTable]
    | some t =>
      let note (s : State) (e : Entry) : State :=
        let x := (t.map, s.position t e.id, b.source)
        if s.emb.incoming.contains x then s else s.modEmb (fun m => { m with incoming := m.incoming ++ [x] })
      let install (acc : Bool × State) (e : Entry) : Bool × State :=
        let s := note acc.2 e
        match s.row? t.table e.id with
        | some r =>
          if r.version < e.version then (acc.1, (s.putRow ⟨t.table, e.id, e.version, e.scale, e.row, false, 0⟩).rowTraffic t e.id true)
          else (acc.1, s)
        | none =>
          if s.sliceFull t e.id then (true, s)
          else (acc.1, (s.putRow ⟨t.table, e.id, e.version, e.scale, e.row, false, 0⟩).rowTraffic t e.id true)
      let (full, s) := es.foldl install (false, s)
      if full then s.answerBundle b.source b.table 0 0 true false [statusEntry 0 0 stSpace]
      else
        let last := ((es.getLast?).map Entry.id).getD 0
        s.sendBundle b.source 0 tyMigrateAck b.table 0 s.self 0 1 0 0 (natLe 8 last.toNat)

/-- The ids still unacknowledged once the new owner has named the last one installed: those sent before it are
acknowledged with it. -/
def ackThrough (last : Nat × W64) : List (Nat × W64) → List (Nat × W64)
  | [] => []
  | i :: r => if i = last then r else ackThrough last r

/-- MIGRATE_ACK at the old owner: once nothing is unacknowledged, the cutover (R245). -/
def migrateAck (b : BundleHdr) (lastId : W64) (s : State) : State :=
  if !s.lit then s
  else
    let s := s.takeInbox 0x01 b.source
    let last := (b.table, lastId)
    match s.emb.migs.find? (fun m => m.peer == b.source && m.phase == .streaming && m.unacked.contains last) with
    | none => s
    | some m =>
      let left := ackThrough last m.unacked
      let m := { m with unacked := left, sent := min m.total (m.sent + (m.unacked.length - left.length)) }
      let s := s.modMig m.slot (fun _ => m)
      if left.isEmpty then s.cutover m else s

/-- UPDATE_ACK: the answers of an UPDATE round, or the SPACE of a new owner, which ends its migration (R237, R247). -/
def updateAck (b : BundleHdr) (es : List Entry) (s : State) : State :=
  if !s.lit then s
  else
    let s := s.takeInbox 0x01 b.source
    if b.round = 0 then
      match s.emb.migs.find? (fun m => m.peer == b.source && m.phase == .streaming &&
          m.unacked.any (fun x => x.1 == b.table)) with
      | some m => s.abortMigration m (if es.any (fun e => e.status == stSpace) then C.TABLE_SPACE else C.EMB_TABLE_UNKNOWN)
      | none => s
    else s.takeResponse b true false es (partPairs b es)

/-- MAP_UPDATE: the old owner of a migration that has been aborted says so with the version unchanged, and the rows
installed here are discarded (R247, log entry 175). A newer version is adopted; the new owner becomes authoritative (R227, R245). A change that its old owner
did not send was forced: the new owner holds no rows of the position (R247). -/
def mapUpdate (b : BundleHdr) (position : Nat) (device : BitVec 20) (version : W32) (s : State) : State :=
  if !s.lit then s
  else
    let s := s.takeInbox 0x01 b.source
    if version ≤ s.mapVersion b.table then
      if device ≠ s.self ∧ s.emb.incoming.contains (b.table, position, b.source) then
        let s := s.discardRows b.table position
        s.modEmb (fun e => { e with incoming := e.incoming.filter (fun i => i != (b.table, position, b.source)) })
      else s
    else
      let old := s.ownerAt b.table position
      let s := s.adopt b.table position device version
      let s := if device = s.self ∧ b.source ≠ old then
          let s := s.discardRows b.table position
          (s.embTables.filter (fun t => t.map == b.table)).foldl
            (fun s t => s.attn C.SHARD_DEGRADED [b.table, position, t.table]) s
        else s
      let keep (i : Nat × Nat × BitVec 20) : Bool := !(i.1 == b.table && i.2.1 == position)
      (s.modEmb (fun e => { e with incoming := e.incoming.filter keep })).advanceRounds

/-- FORWARDING ends after two own rounds and FORWARD_MIN_US (R245). -/
def forwardingEnd (slot : Fin 8) (s : State) : State :=
  match s.emb.migs.find? (fun m => m.slot == slot.val) with
  | none => s
  | some m =>
    if m.phase = .forwarding ∧ m.roundsAtCutover + 2 ≤ s.emb.roundsDone ∧
        m.cutoverAt + s.fget F.EMB_HOT_CTL_FORWARD_MIN_US * 1000 ≤ s.now then
      (s.modMig slot (fun m => { m with phase := .redirecting })).attn C.MIGRATION_DONE [m.map, m.position]
    else s

/-- The position's rows are freed and the slot returns to FREE (R249). -/
def migrateFree (slot : Fin 8) (s : State) : State :=
  match s.emb.migs.find? (fun m => m.slot == slot.val) with
  | none => s
  | some m => if m.phase = .redirecting then (s.discardRows m.map m.position).dropMig slot else s

/-- A migration not complete within 100 × the round default is aborted (R247). -/
def migrationTimeout (slot : Fin 8) (s : State) : State :=
  match s.emb.migs.find? (fun m => m.slot == slot.val) with
  | none => s
  | some m =>
    if m.phase = .streaming ∧ m.startedAt + 100 * s.fget F.EMB_CTL_ROUND_DEFAULT * 1000 ≤ s.now then
      s.abortMigration m C.ROUND_TIMEOUT
    else s

/-! ### A device leaves the fabric (R247, R248) -/

/-- Acknowledgements of a device that has left are awaited no longer. -/
def State.dropHolder (s : State) (d : BitVec 20) : State :=
  let ws := s.emb.waits.map (fun w => { w with awaiting := w.awaiting.filter (· != d) })
  let s := s.modEmb (fun e => { e with
    waits := ws.filter (fun w => !w.awaiting.isEmpty)
    hot := e.hot.map (fun h => { h with holders := h.holders.filter (· != d) }) })
  (ws.filter (fun w => w.awaiting.isEmpty)).foldl State.acked s

/-- Rounds that await the device fail with PEER_LOST, migrations to it are aborted, rows streamed in from it are
discarded. -/
def State.embDeparted (s : State) (d : BitVec 20) : State :=
  let s := s.dropHolder d
  let s := s.modEmb (fun e => { e with unanswered := e.unanswered.filter (fun x => x.owner != d) })
  let s := (s.emb.rounds.filter (fun r => r.ids.any (fun x => x.sent && x.answer.isNone && x.owner == d))).foldl
    (fun s r => s.failRound r C.PEER_LOST) s
  let s := (s.emb.migs.filter (fun m => m.peer == d && m.phase == .streaming)).foldl
    (fun s m => s.abortMigration m C.PEER_LOST) s
  let s := (s.emb.incoming.filter (fun i => i.2.2 == d)).foldl (fun s i => s.discardRows i.1 i.2.1) s
  (s.modEmb (fun e => { e with
    incoming := e.incoming.filter (fun i => i.2.2 != d)
    unanswered := e.unanswered.filter (fun x => x.owner != d) })).advanceRounds

end Sys2Proof.Machine
end

