-- ==== Sys2Proof/Machine/Joins.lean ====
section
/-!
DEFINITION. PARTITION, JOIN_BUILD, JOIN_PROBE and their traffic between devices (R111 to R122, R248).
-/
namespace Sys2Proof.Machine
open Sys2Proof

/-! ### Destinations (R112) -/

/-- A row's hash under R90 with a Cairn-64 seed; none for a null hash. -/
def rowHash (keys : List Column) (nullKeys : Bool) (seed : W64) (r : Nat) : Option Nat :=
  (rowKey keys nullKeys r).map (fun k => (cairn64 seed k).toNat)

/-- The shard map a run's joins use: the version in force at its first task that partitions rows by the map, of whatever
stage: JOIN_BUILD and JOIN_PROBE partition under R112 too (R112, R248, log entry 169). -/
def State.joinMap (s : State) (slot map : Nat) : Option ShardMap × State :=
  match (s.workOf slot).joinMaps.find? (fun m => m.map == map) with
  | some m => (some m, s)
  | none =>
    match s.map? map with
    | some m =>
      if m.devices.isEmpty then (none, s)
      else (some m, s.modWork slot (fun w => { w with joinMaps := w.joinMaps ++ [m] }))
    | none => (none, s)

/-- Where a row goes: the device, and there the vault. Without a map it stays here, in the vault of R94; a null hash goes
to vault 0 of the sending device. -/
def State.rowPlace (s : State) (map : Option ShardMap) (h : Option Nat) : BitVec 20 × Nat :=
  match h, map with
  | none, _ => (s.self, 0)
  | some h, none => (s.self, bucketOf 2 h 192)
  | some h, some m => (m.devices.getD (bucketOf 2 h m.devices.length) 0, bucketOf 1 (h % 2 ^ 32) 192)

/-- The cells of picked rows, with the columns in order. -/
def rowCells (cols : List Column) (rows : List Nat) : List (List CellV) := rows.map (fun i => cols.map (fun c => c.cell i))

/-- A PARTITION_ROWS bundle for a stage of a run on another device, in the bulk class (R248). PART carries the stage;
the encoding of the rows is open (log entry 45). -/
def State.sendRows (s : State) (r : Run) (stage map : Nat) (dest : BitVec 20) (rows : List (List CellV)) : State :=
  let (d, s) := s.draw
  let size := (rows.map (fun cs => (cs.map (fun c => c.bytes.length)).sum)).sum
  s.sendBundle dest 1 tyPartitionRows map 0 s.self 0 rows.length stage r.run.toNat (Config.bytes d size)

/-- Columns rebuilt from the rows of a bundle, under the columns of the stage. -/
def columnsOf (shape : List SCol) (rows : List (List CellV)) : List Column :=
  (shape.zip (List.range shape.length)).map (fun e =>
    ⟨e.1.num, e.1.typ, e.1.elem, e.1.width, rows.map (fun r => r.getD e.2 ⟨false, [], false⟩)⟩)

/-- Output chunks of picked rows: at most 65,536 rows each (R59, R113). -/
def chunkRows (c : Chunk) (vault : Nat) (cols : List Column) (picks : List Nat) : List Chunk :=
  (chunksOf 65536 (picks.length + 1) picks).map (fun rows =>
    { c with
      vault := vault, inCore := false, sources := pickSources rows c
      payload := .rows (pickRows rows cols) rows.length none, tensor := none })

/-! ### PARTITION -/

/-- The chunks that a stage's rows form here, by vault and sub-partition. Whether rows of several tasks or senders share a
chunk R113 does not say: each task's and each bundle's rows form chunks of their own (log entry 165). -/
def placedChunks (c : Chunk) (cols : List Column) (bits : Nat) (places : List (Nat × Nat × Option Nat)) : List Chunk :=
  let key (e : Nat × Nat × Option Nat) : Nat × Nat := (e.2.1, match e.2.2 with | some h => h % 2 ^ bits | none => 0)
  let keys := sortBy (fun (a b : Nat × Nat) => decide (a.1 < b.1) || (a.1 == b.1 && decide (a.2 ≤ b.2))) (places.map key).eraseDups
  keys.flatMap (fun k => chunkRows c k.1 cols ((places.filter (fun e => key e == k)).map (·.1)))

def partition (task : Nat) (s : State) : State :=
  match s.runningTask task .partition with
  | none => s
  | some (t, st, _, r) =>
    let p := st.param
    let keys := colList (slice 0 8 p)
    match s.fetch r t.chunk (keys ++ t.chunk.rows.present) with
    | .error c => s.vaultFail t st.op c
    | .ok (rows, s) =>
      let s := s.bump F.VLT_OPS_ROWS_ROWS t.chunk.vault rows.n
      if (rows.pick keys).any Column.poisoned then s.vaultFail t st.op C.OPERAND_POISON
      else
        let (map, s) := if u8 p 9 = 1 then s.joinMap t.slot (u16 p 12) else (none, s)
        if u8 p 9 = 1 ∧ map.isNone then s.vaultFail t st.op C.MAP_INVALID
        else
          let hs := (List.range rows.n).map (rowHash (rows.pick keys) (bitAt (u8 p 10) 0) (BitVec.ofNat 64 (u64 p 16)))
          let at_ := (hs.zip (List.range rows.n)).map (fun e => (e.2, s.rowPlace map e.1, e.1))
          let here := (at_.filter (fun e => e.2.1.1 == s.self)).map (fun e => (e.1, e.2.1.2, e.2.2))
          let away := at_.filter (fun e => e.2.1.1 != s.self)
          let s := ((away.map (fun e => e.2.1.1)).eraseDups).foldl (fun s d =>
            s.sendRows r t.stage (u16 p 12) d
              (rowCells rows.cols ((away.filter (fun e => e.2.1.1 == d)).map (·.1)))) s
          let (cs, s) := s.placeAll (placedChunks t.chunk rows.cols (u8 p 8) here)
          s.endTask t cs

/-! ### JOIN_BUILD (R114 to R117, R119) -/

def State.build? (s : State) (slot stage : Nat) : Option JoinBuild :=
  (s.workOf slot).builds.find? (fun b => b.stage == stage)

def JoinBuild.empty (stage : Nat) : JoinBuild := ⟨stage, [], false, []⟩

/-- Change a build, which exists from its first row or marker on. -/
def State.modBuild (s : State) (slot stage : Nat) (f : JoinBuild → JoinBuild) : State :=
  s.modWork slot (fun w =>
    let b := (w.builds.find? (fun b => b.stage == stage)).getD (JoinBuild.empty stage)
    { w with builds := w.builds.filter (fun b => b.stage != stage) ++ [f b] })

/-- k of R115: the hash table of a vault has 2^k buckets for E = EXPECTED / 192 rows. -/
def joinBuckets (expected : Nat) : Nat := max 10 (ceilLog2 (ceilDiv (ceilDiv expected 192) 4))

/-- W of R115: key and payload bytes rounded up to a multiple of 16; a variable key is stored by 20 bytes. -/
def joinRowBytes (shape : List SCol) (keys payload : List Nat) : Nat :=
  let size (n : Nat) : Nat := match scolAt shape n with
    | some c => if isVarT c.typ then 20 else typeBytes c.typ c.width
    | none => 0
  roundUp ((keys.map size).sum + (payload.map size).sum) 16

/-- Whether a vault with `n` rows runs out of its slice (R116): never at the stated size; below it, where the row
store and the `extra` bytes of variable keys still fit, that is open. -/
def State.joinFull (s : State) (size buckets w n extra : Nat) : Bool × State :=
  let least := 64 * 2 ^ buckets + w * n
  if least + 64 * ceilDiv n 8 ≤ size then (false, s)
  else if size < least + extra then (true, s)
  else
    let (d, s) := s.draw
    (Config.coin d, s)

/-- Bytes of the variable keys of a vault, kept whole beside the row store (R115). -/
def varKeyBytes (shape : List SCol) (keys : List Nat) (rows : List BuildRow) : Nat :=
  if keys.any (fun k => match scolAt shape k with | some c => isVarT c.typ | none => false) then
    (rows.map (fun r => r.key.length)).sum
  else 0

/-- The bucket of a row of hash `h` among 2^k (R117). -/
def joinBucket (k h : Nat) : Nat := (h >>> 19) % 2 ^ k

/-- Entries that one bucket of 64 B holds: their layout is internal (R115), and at least eight fit, or the size stated in
R116 could run out (log entry 112). -/
def bucketEntries : Nat := 8 + Config.bucketExtra

/-- Overflow buckets that a vault's rows take beside their own buckets. -/
def overflowBuckets (seed : W64) (k : Nat) (rows : List BuildRow) : Nat :=
  let homes := rows.map (fun r => joinBucket k (cairn64 seed r.key).toNat)
  (homes.eraseDups.map (fun b => ceilDiv (homes.count b - bucketEntries) bucketEntries)).sum

/-- Insert rows into the hash tables of a build; the vault that has run out of space, if one has. The layout of a slice is
internal (R115): the rows stand in the build's own record, and the bytes of the working region stay as they are (log
entry 166). -/
def State.insertBuild (s : State) (slot stage : Nat) (st : StageRec) (new : List BuildRow) : Option Nat × State :=
  let p := st.param
  let shape := s.colsIn slot stage
  let keys := colList (slice 0 4 p)
  let payload := colList (slice 4 8 p)
  let s := s.modBuild slot stage (fun b => { b with rows := b.rows ++ new })
  let size := ((s.region? (u16 p 12)).map Region.size).getD 0
  let w := joinRowBytes shape keys payload
  let k := joinBuckets (u64 p 16)
  ((new.map BuildRow.vault).eraseDups).foldl (fun (acc : Option Nat × State) v =>
    let s := acc.2
    let rows := ((s.build? slot stage).getD (JoinBuild.empty stage)).rows.filter (fun r => r.vault == v)
    let added := (new.filter (fun r => r.vault == v)).length
    let (full, s) := s.joinFull size k w rows.length (varKeyBytes shape keys rows)
    let s := s.fset F.VLT_OPS_JOIN_BUILD_ROWS v (min rows.length F.VLT_OPS_JOIN_BUILD_ROWS.max)
    let spill := overflowBuckets (BitVec.ofNat 64 (u64 p 24)) k rows
    let s := s.fset F.VLT_OPS_JOIN_OVERFLOW v (min spill F.VLT_OPS_JOIN_OVERFLOW.max)
    (acc.1.or (if full then some v else none), (s.meter v (w * added)).event 0x101 v (ceilDiv (w * added) 64))) (none, s)

/-- The build rows of a chunk's rows that belong here; a null key matches nothing and is not entered (R120). -/
def buildRows (keys payload : List Column) (places : List (Nat × Nat)) : List BuildRow :=
  places.filterMap (fun e => (rowKey keys false e.1).map (fun k => ⟨e.2, k, payload.map (fun c => c.cell e.1)⟩))

/-- A vault has run out of its slice: recorded (R125). -/
def State.joinSpace (s : State) (v : Nat) : State :=
  let s := (s.fset F.VLT_OPS_FAIL_CODE 0 C.JOIN_SPACE.toNat).fset F.VLT_OPS_FAIL_OP 0 Op.joinBuild.code
  s.fset F.VLT_OPS_FAIL_VAULT 0 v

def joinBuild (task : Nat) (s : State) : State :=
  match s.runningTask task .joinBuild with
  | none => s
  | some (t, st, _, r) =>
    let p := st.param
    let keys := colList (slice 0 4 p)
    let payload := colList (slice 4 8 p)
    match s.fetch r t.chunk (keys ++ payload) with
    | .error c => s.vaultFail t st.op c
    | .ok (rows, s) =>
      let s := s.bump F.VLT_OPS_ROWS_ROWS t.chunk.vault rows.n
      if (rows.pick keys).any Column.poisoned then s.vaultFail t st.op C.OPERAND_POISON
      else
        let cross := u16 p 14 != 0xFFFF
        let (map, s) := if cross then s.joinMap t.slot (u16 p 14) else (none, s)
        if cross ∧ map.isNone then s.vaultFail t st.op C.MAP_INVALID
        else
          let ks := rows.pick keys
          let seed := BitVec.ofNat 64 (u64 p 24)
          let at_ := (List.range rows.n).filterMap (fun i => (rowHash ks false seed i).map (fun h => (i, s.rowPlace map (some h))))
          let here := (at_.filter (fun e => e.2.1 == s.self)).map (fun e => (e.1, e.2.2))
          let away := at_.filter (fun e => e.2.1 != s.self)
          let s := ((away.map (fun e => e.2.1)).eraseDups).foldl (fun s d =>
            s.sendRows r t.stage (u16 p 14) d
              (rowCells (ks ++ rows.pick payload) ((away.filter (fun e => e.2.1 == d)).map (·.1)))) s
          let (full, s) := s.insertBuild t.slot t.stage st (buildRows ks (rows.pick payload) here)
          match full with
          | some v => (s.joinSpace v).failTask t C.JOIN_SPACE
          | none => s.endTask t []

/-- Every other device of a cross-device build's map. -/
def State.buildPeers (s : State) (slot : Nat) (st : StageRec) : List (BitVec 20) :=
  if u16 st.param 14 = 0xFFFF then []
  else
    match (s.joinMap slot (u16 st.param 14)).1 with
    | some m => m.devices.eraseDups.filter (fun d => d != s.self)
    | none => []

/-- A build is complete here and on every device of its map (R119). -/
def State.buildComplete (s : State) (slot : Nat) (st : StageRec) (stage : Nat) : Bool :=
  match s.build? slot stage with
  | none => false
  | some b => b.complete && (s.buildPeers slot st).all (fun d => b.markersFrom.contains d)

/-- This device's own build completes: its input is exhausted and every task of it has ended. The other devices of the
map are sent END_OF_BUILD (R119); PART carries the stage (log entry 45). -/
def State.finishBuild (s : State) (slot stage : Nat) (st : StageRec) : State :=
  match s.run? slot with
  | none => s
  | some r =>
    let s := s.modBuild slot stage (fun b => { b with complete := true })
    (s.buildPeers slot st).foldl (fun s d =>
      s.sendBundle d 0 tyEndOfBuild (u16 st.param 14) 0 s.self 0 0 stage r.run.toNat []) s

def State.runByNumber (s : State) (n : W32) : Option Run := s.runs.find? (fun r => r.run == n)

/-- END_OF_BUILD of another device. Until the run is active here the message waits. -/
def endOfBuild (b : BundleHdr) (s : State) : State :=
  match s.runByNumber b.run with
  | none => s
  | some r =>
    let s := s.takeInbox 0x01 b.source
    s.modBuild r.slot b.part (fun j =>
      if j.markersFrom.contains b.source then j else { j with markersFrom := j.markersFrom ++ [b.source] })

/-! ### JOIN_PROBE (R118, R120, R121) -/

/-- The build rows that match a probe row's key in its vault, in an order that is open (R121). -/
def State.matchesOf (s : State) (b : JoinBuild) (vault : Nat) (key : List Byte) : List BuildRow × State :=
  let hits := b.rows.filter (fun r => r.vault == vault && r.key == key)
  if hits.length ≤ 1 then (hits, s)
  else (drawOrder hits.length hits s.free, { s with free := s.free + hits.length })

/-- A probe whose tag-filter bit is clear makes no vault access (R117). -/
def State.probeTraffic (s : State) (b : JoinBuild) (seed : W64) (vault h : Nat) : State :=
  let bit := b.rows.any (fun r => r.vault == vault && (cairn64 seed r.key).toNat % 2 ^ 19 == h % 2 ^ 19)
  if s.flag F.VLT_OPS_CTL_TAG_FILTER && !bit then s else (s.meter vault 64).event 0x100 vault 1

/-- One output row: the probe row, and the payload cells of its match. -/
abbrev JoinOut := Nat × Option (List CellV)

/-- Output rows of the probe rows, in chunk order. -/
def State.probeRows (s : State) (b : JoinBuild) (kind : Nat) (seed : W64) (keys : List Column) (map : Option ShardMap) :
    List Nat → List JoinOut × State
  | [] => ([], s)
  | i :: rest =>
    let (out, s) : List JoinOut × State :=
      match rowKey keys false i with
      | none => (if kind = 1 ∨ kind = 3 then [(i, none)] else [], s)
      | some k =>
        let h := (cairn64 seed k).toNat
        let v := (s.rowPlace map (some h)).2
        let s := s.probeTraffic b seed v h
        let (hits, s) := s.matchesOf b v k
        (match kind with
         | 0 => hits.map (fun r => (i, some r.payload))
         | 1 => if hits.isEmpty then [(i, none)] else hits.map (fun r => (i, some r.payload))
         | 2 => if hits.isEmpty then [] else [(i, none)]
         | _ => if hits.isEmpty then [(i, none)] else [], s)
    let (more, s) := State.probeRows s b kind seed keys map rest
    (out ++ more, s)

/-- Build payload columns of the output (R118): null where a row has no match. -/
def buildPayload (shape : List SCol) (p : List Byte) (outs : List JoinOut) : List Column :=
  (shape.zip (List.range shape.length)).filterMap (fun e =>
    if u8 p (8 + e.2) = 0xFF then none
    else some ⟨u8 p (8 + e.2), e.1.typ, e.1.elem, e.1.width, outs.map (fun o =>
      match o.2 with
      | some cells => cells.getD e.2 (nullCell e.1.typ e.1.width)
      | none => nullCell e.1.typ e.1.width)⟩)

def joinProbe (task : Nat) (s : State) : State :=
  match s.runningTask task .joinProbe with
  | none => s
  | some (t, st, pl, r) =>
    let p := st.param
    let keys := colList (slice 4 4 p)
    match s.fetch r t.chunk (keys ++ t.chunk.rows.present) with
    | .error c => s.vaultFail t st.op c
    | .ok (rows, s) =>
      let s := s.bump F.VLT_OPS_ROWS_ROWS t.chunk.vault rows.n
      let ks := rows.pick keys
      if ks.any Column.poisoned then s.vaultFail t st.op C.OPERAND_POISON
      else
        match pl.stages[u8 p 1]? with
        | none => s.endTask t []
        | some bst =>
          let seed := BitVec.ofNat 64 (u64 bst.param 24)
          let cross := u16 bst.param 14 != 0xFFFF
          let (map, s) := if cross then s.joinMap t.slot (u16 bst.param 14) else (none, s)
          if cross ∧ map.isNone then s.vaultFail t st.op C.MAP_INVALID
          else
            let at_ := (List.range rows.n).map (fun i => (i, (s.rowPlace map (rowHash ks false seed i)).1))
            let away := at_.filter (fun e => e.2 != s.self)
            let s := ((away.map (·.2)).eraseDups).foldl (fun s d =>
              s.sendRows r t.stage (u16 bst.param 14) d
                (rowCells rows.cols ((away.filter (fun e => e.2 == d)).map (·.1)))) s
            let b := (s.build? t.slot (u8 p 1)).getD (JoinBuild.empty (u8 p 1))
            let (outs, s) := s.probeRows b (u8 p 0) seed ks map ((at_.filter (fun e => e.2 == s.self)).map (·.1))
            let shape := (colList (slice 4 8 bst.param)).filterMap (scolAt (s.colsIn t.slot (u8 p 1)))
            let kept := rows.pick ((rows.cols.map (·.num)).filter (fun n => bitAt (u64 p 16) n))
            let make (os : List JoinOut) : Chunk :=
              let cols := pickRows (os.map (·.1)) kept
              let cols := if u8 p 0 ≤ 1 then (buildPayload shape p os).foldl putCol cols else cols
              { t.chunk with sources := pickSources (os.map (·.1)) t.chunk, payload := .rows cols os.length none, tensor := none }
            let chunks := (chunksOf 65536 (outs.length + 1) outs).map make
            if chunks.length > 65536 ∧ (pl.isOrdered t.chunk.flow ∨ pl.isOrdered (st.flowOf t.chunk.flow)) then
              s.vaultFail t st.op C.ORDER_SPAN
            else
              let (cs, s) := s.placeAll chunks
              s.endTask t cs

/-! ### Rows of another device (R112, R248) -/

/-- Chunks that arrive from another device enter a queue when it has room. -/
def State.arrive (s : State) (slot q : Nat) (chunks : List Chunk) : State :=
  s.modCtx slot q (fun c =>
    let items := (chunks.zip (List.range chunks.length)).map (fun e =>
      QItem.chunk { e.1 with ordinal := c.nextOrd + e.2, sub := 0 })
    { c with nextOrd := c.nextOrd + chunks.length, rel := c.rel ++ [⟨0, c.nextOrd, 0, items, true, false, false, none⟩] })

/-- The base of a chunk made of received rows; which source indices they carry is open (log entry 45). -/
def receivedChunk (d flow n : Nat) (cols : List Column) : Chunk :=
  { flow := flow, ordinal := 0, sub := 0, vault := 0, inCore := false, late := false,
    sources := (List.range n).map (fun i => Config.choice (d + i)),
    capture := none, payload := .rows cols n none, tensor := none }

/-- PARTITION_ROWS: rows of a PARTITION become output chunks of that stage here, rows of a JOIN_BUILD enter its table,
rows of a JOIN_PROBE become an input chunk of that stage. Until the run is active here the bundle waits. -/
def partitionRows (b : BundleHdr) (stage : Nat) (rows : List (List (List Byte × Bool × Bool))) (s : State) : State :=
  match s.runByNumber b.run with
  | none => s
  | some r =>
    let s := s.takeInbox 0x01 b.source
    match s.stage? r.slot stage with
    | none => s
    | some st =>
      let p := st.param
      let cells : List (List CellV) := rows.map (fun cs => cs.map (fun c => (⟨c.2.1, c.1, c.2.2⟩ : CellV)))
      let shape := s.colsIn r.slot stage
      let d := s.free
      let s := { s with free := s.free + rows.length }
      match st.op with
      | .partition =>
        let cols := columnsOf shape cells
        let keys := (colList (slice 0 8 p)).filterMap (colAt cols)
        let places := (List.range cells.length).map (fun i =>
          let h := rowHash keys (bitAt (u8 p 10) 0) (BitVec.ofNat 64 (u64 p 16)) i
          (i, bucketOf 1 (h.getD 0 % 2 ^ 32) 192, h))
        let chunks := placedChunks (receivedChunk d (st.flowOf 0) cells.length cols) cols (u8 p 8) places
        st.outQ.foldl (fun s q => s.arrive r.slot q chunks) s
      | .joinBuild =>
        let nums := colList (slice 0 4 p) ++ colList (slice 4 8 p)
        let cols := columnsOf (nums.filterMap (scolAt shape)) cells
        let keys := (colList (slice 0 4 p)).filterMap (colAt cols)
        let payload := (colList (slice 4 8 p)).filterMap (colAt cols)
        let seed := BitVec.ofNat 64 (u64 p 24)
        let places := (List.range cells.length).filterMap (fun i =>
          (rowHash keys false seed i).map (fun h => (i, bucketOf 1 (h % 2 ^ 32) 192)))
        let (full, s) := s.insertBuild r.slot stage st (buildRows keys payload places)
        match full with
        | some v => (s.joinSpace v).failRun r.slot C.JOIN_SPACE
        | none => s
      | .joinProbe =>
        let cols := columnsOf shape cells
        st.inQ.head?.elim s (fun q => s.arrive r.slot q [receivedChunk d 0 cells.length cols])
      | _ => s

end Sys2Proof.Machine
end

