-- ==== Sys2Proof/Machine/Codec.lean ====
section
/-!
DEFINITION. What the compression engines and the image decoder read (R253, R254): the check sums, prefix codes, copies
and limits that the formats share, then DEFLATE (RFC 1951), zlib (RFC 1950), gzip (RFC 1952) and the LZ4 raw block. The
formats are those standards' (R9, log entry 6); the readings where a standard leaves one are log entry 177.
-/
namespace Sys2Proof.Machine

/-! ### Check sums -/

/-- CRC-32 of gzip, PNG and Parquet: the polynomial of RFC 1952, reflected. -/
def crc32 (bs : List Byte) : Nat :=
  bs.foldl (fun c b => crcByte 0xEDB88320 8 (c ^^^ b.toNat)) 0xFFFFFFFF ^^^ 0xFFFFFFFF

/-- Adler-32 (RFC 1950). -/
def adler32 (bs : List Byte) : Nat :=
  let p := bs.foldl (fun (p : Nat × Nat) b => let a := (p.1 + b.toNat) % 65521; (a, (p.2 + a) % 65521)) (1, 0)
  p.2 * 65536 + p.1

/-- The number that bytes spell, most significant byte first. -/
def beNat (bs : List Byte) : Nat := bs.foldl (fun n b => 256 * n + b.toNat) 0

/-! ### Bits and prefix codes -/

/-- The bits of bytes, least significant bit of each byte first. -/
def bitsLsb (bs : List Byte) : List Bool := bs.flatMap (fun b => (List.range 8).map (bitAt b.toNat))

/-- The number that bits spell, least significant bit first. -/
def lsbNat : List Bool → Nat
  | [] => 0
  | b :: r => b2n b + 2 * lsbNat r

/-- The number that bits spell, most significant bit first. -/
def msbNat (l : List Bool) : Nat := l.foldl (fun n b => 2 * n + b2n b) 0

/-- `n` bits from the front; none where the stream ends first. -/
def takeBits (n : Nat) (l : List Bool) : Option (List Bool × List Bool) :=
  if l.length < n then none else some (l.take n, l.drop n)

/-- A field of `n` bits, least significant first. -/
def takeLsb (n : Nat) (l : List Bool) : Option (Nat × List Bool) := (takeBits n l).map (fun e => (lsbNat e.1, e.2))

/-- One code of a prefix code: its length, its bits as a number (first bit most significant), its symbol. -/
structure HuffCode where
  len : Nat
  code : Nat
  sym : Nat
deriving DecidableEq, Repr

/-- The canonical codes of the given lengths (RFC 1951, 3.2.2), shortest first: `fuel` lengths from `len` on. -/
def canonical (lens : List Nat) : Nat → Nat → Nat → List HuffCode
  | 0, _, _ => []
  | fuel + 1, len, code =>
    let syms := (List.range lens.length).filter (fun i => lens.getD i 0 == len)
    ((List.range syms.length).zip syms).map (fun e => ⟨len, code + e.1, e.2⟩) ++
      canonical lens fuel (len + 1) (2 * (code + syms.length))

def maxCodeLen : Nat := 15

def huffOf (lens : List Nat) : List HuffCode := canonical lens maxCodeLen 1 0

/-- Read one symbol: bits are added to the code until it is one of the table's. `fuel` bounds its length. -/
def huffRead (t : List HuffCode) : Nat → Nat → Nat → List Bool → Option (Nat × List Bool)
  | 0, _, _, _ => none
  | _, _, _, [] => none
  | fuel + 1, len, code, b :: r =>
    let c := 2 * code + b2n b
    match t.find? (fun k => k.len == len + 1 && k.code == c) with
    | some k => some (k.sym, r)
    | none => huffRead t fuel (len + 1) c r

def huffSym (t : List HuffCode) (l : List Bool) : Option (Nat × List Bool) := huffRead t maxCodeLen 0 0 l

/-- How much of the code space lengths use, in units of 2^-15. -/
def kraft (lens : List Nat) : Nat := ((lens.filter (· != 0)).map (fun n => 2 ^ (maxCodeLen - n))).sum

/-- Code lengths that make a code: a complete one, or for literals and distances one code of one bit, or none. -/
def lensOk (lens : List Nat) (bare : Bool) : Bool :=
  kraft lens == 2 ^ maxCodeLen || (bare && decide ((lens.filter (· != 0)).length ≤ 1) && lens.all (fun n => decide (n ≤ 1)))

/-! ### Tokens and output -/

/-- What a coded stream says: a byte, or a copy of earlier output. -/
inductive Tok where
  | lit (b : Byte)
  | copy (len dist : Nat)
deriving DecidableEq, Repr

/-- Output under a limit (R263): bytes newest first, with the history that precedes them; bytes made; the limit. -/
structure OutBuf where
  rev : List Byte
  made : Nat
  limit : Nat
deriving DecidableEq, Repr

/-- The next output byte; one that would pass the limit ends the job. -/
def OutBuf.put (o : OutBuf) (b : Byte) : Except Code OutBuf :=
  if o.made < o.limit then .ok { o with rev := b :: o.rev, made := o.made + 1 } else .error C.EXPANSION

def OutBuf.copy (dist : Nat) : Nat → OutBuf → Except Code OutBuf
  | 0, o => .ok o
  | n + 1, o =>
    match o.put (o.rev.getD (dist - 1) 0) with
    | .ok o => OutBuf.copy dist n o
    | .error c => .error c

/-- One token; a copy that reaches before the start of the output or of the dictionary is malformed (R254). -/
def OutBuf.tok (o : OutBuf) : Tok → Except Code OutBuf
  | .lit b => o.put b
  | .copy len dist => if dist = 0 ∨ o.rev.length < dist then .error C.CORRUPT else OutBuf.copy dist len o

def OutBuf.toks : List Tok → OutBuf → Except Code OutBuf
  | [], o => .ok o
  | t :: r, o =>
    match o.tok t with
    | .ok o => OutBuf.toks r o
    | .error c => .error c

/-- The bytes made since `o0`. -/
def OutBuf.since (o o0 : OutBuf) : List Byte := (o.rev.take (o.made - o0.made)).reverse

/-- What a parser finds: tokens in order, then the rest of the input, or none where the stream is malformed there. -/
abbrev Parsed := List Tok × Option (List Bool)

def Parsed.after (ts : List Tok) (p : Parsed) : Parsed := (ts ++ p.1, p.2)

/-! ### DEFLATE (RFC 1951) -/

/-- Length codes 257 to 285 and distance codes 0 to 29: base and extra bits. -/
def lengthBase (i : Nat) : Nat × Nat :=
  if i < 8 then (3 + i, 0) else if i = 28 then (258, 0)
  else (3 + (4 + i % 4) * 2 ^ (i / 4 - 1), i / 4 - 1)
def distBase (i : Nat) : Nat × Nat := if i < 4 then (1 + i, 0) else (1 + (2 + i % 2) * 2 ^ (i / 2 - 1), i / 2 - 1)

/-- A length or distance: its base and its extra bits. -/
def withExtra (b : Nat × Nat) (l : List Bool) : Option (Nat × List Bool) := (takeLsb b.2 l).map (fun e => (b.1 + e.1, e.2))

/-- A copy of a DEFLATE block: length code `sym`, then the distance. -/
def deflateCopy (dist : List HuffCode) (sym : Nat) (l : List Bool) : Option (Tok × List Bool) := do
  if 285 < sym then none
  let (len, l) ← withExtra (lengthBase (sym - 257)) l
  let (d, l) ← huffSym dist l
  if 29 < d then none
  let (back, l) ← withExtra (distBase d) l
  return (.copy len back, l)

/-- The symbols of a block up to its end; each takes a bit at least, so `fuel` is the length of the input. -/
def deflateSyms (lit dist : List HuffCode) : Nat → List Bool → Parsed
  | 0, _ => ([], none)
  | fuel + 1, l =>
    match huffSym lit l with
    | none => ([], none)
    | some (s, r) =>
      if s = 256 then ([], some r)
      else if s < 256 then Parsed.after [.lit (BitVec.ofNat 8 s)] (deflateSyms lit dist fuel r)
      else
        match deflateCopy dist s r with
        | none => ([], none)
        | some (t, r) => Parsed.after [t] (deflateSyms lit dist fuel r)

def fixedLit : List HuffCode :=
  huffOf (List.replicate 144 8 ++ List.replicate 112 9 ++ List.replicate 24 7 ++ List.replicate 8 8)
def fixedDist : List HuffCode := huffOf (List.replicate 32 5)

/-- The order in which the lengths of the code length code stand. -/
def clOrder : List Nat := [16, 17, 18, 0, 8, 7, 9, 6, 10, 5, 11, 4, 12, 3, 13, 2, 14, 1, 15]

/-- `n` three-bit lengths of the code length code. -/
def clLens : Nat → List Bool → Option (List Nat × List Bool)
  | 0, l => some ([], l)
  | n + 1, l => do
    let (x, l) ← takeLsb 3 l
    let (xs, l) ← clLens n l
    return (x :: xs, l)

/-- Code lengths under the code length code, until `want` are read. -/
def codeLens (cl : List HuffCode) (want : Nat) : Nat → List Nat → List Bool → Option (List Nat × List Bool)
  | 0, _, _ => none
  | fuel + 1, acc, l =>
    if want ≤ acc.length then (if acc.length = want then some (acc, l) else none)
    else
      match huffSym cl l with
      | none => none
      | some (s, r) =>
        if s < 16 then codeLens cl want fuel (acc ++ [s]) r
        else
          let run : Option (Nat × List Bool) :=
            if s = 16 then (if acc.isEmpty then none else withExtra (3, 2) r)
            else if s = 17 then withExtra (3, 3) r else withExtra (11, 7) r
          match run with
          | none => none
          | some (n, r) => codeLens cl want fuel (acc ++ List.replicate n (if s = 16 then acc.getLastD 0 else 0)) r

/-- The codes of a dynamic block. -/
def dynamicCodes (l : List Bool) : Option ((List HuffCode × List HuffCode) × List Bool) := do
  let (hlit, l) ← takeLsb 5 l
  let (hdist, l) ← takeLsb 5 l
  let (hclen, l) ← takeLsb 4 l
  if 29 < hlit then none
  let (cs, l) ← clLens (hclen + 4) l
  let lens := (List.range 19).map (fun i => lookupD 0 (clOrder.zip cs) i)
  if !lensOk lens false then none
  let (all, l) ← codeLens (huffOf lens) (hlit + 257 + hdist + 1) (hlit + hdist + 259) [] l
  let lit := all.take (hlit + 257)
  let dist := all.drop (hlit + 257)
  if lit.getD 256 0 = 0 ∨ !lensOk lit true ∨ !lensOk dist true then none
  return ((huffOf lit, huffOf dist), l)

/-- A stored block, after the bits up to the next byte are dropped. -/
def storedBlock (l : List Bool) : Parsed :=
  match takeLsb 16 (l.drop (l.length % 8)) with
  | none => ([], none)
  | some (n, r) =>
    match takeLsb 16 r with
    | none => ([], none)
    | some (m, r) =>
      if n + m ≠ 0xFFFF then ([], none)
      else
        let have_ := min n (r.length / 8)
        ((List.range have_).map (fun i => .lit (BitVec.ofNat 8 (lsbNat (slice (8 * i) 8 r)))),
          if have_ = n then some (r.drop (8 * n)) else none)

/-- One block after its BFINAL bit: type, then its content. -/
def deflateBlock (l : List Bool) : Parsed :=
  match takeLsb 2 l with
  | none => ([], none)
  | some (k, r) =>
    if k = 0 then storedBlock r
    else if k = 1 then deflateSyms fixedLit fixedDist (r.length + 1) r
    else if k = 2 then
      match dynamicCodes r with
      | none => ([], none)
      | some (c, r) => deflateSyms c.1 c.2 (r.length + 1) r
    else ([], none)

/-- The blocks of a DEFLATE stream up to the final one. -/
def deflateToks : Nat → List Bool → Parsed
  | 0, _ => ([], none)
  | _, [] => ([], none)
  | fuel + 1, last :: r =>
    let p := deflateBlock r
    match p.2 with
    | none => p
    | some rest => if last then p else Parsed.after p.1 (deflateToks fuel rest)

/-- The bytes that remain after a stream of bits: those not begun. -/
def restBytes (all : List Byte) (l : List Bool) : List Byte := all.drop (all.length - l.length / 8)

/-- A DEFLATE stream at the front of bytes: its output and the bytes after it. -/
def inflateRaw (o : OutBuf) (bs : List Byte) : Except Code (OutBuf × List Byte) :=
  let p := deflateToks (8 * bs.length + 1) (bitsLsb bs)
  match OutBuf.toks p.1 o, p.2 with
  | .error c, _ => .error c
  | .ok _, none => .error C.CORRUPT
  | .ok o, some l => .ok (o, restBytes bs l)

/-- A stream of its own: its copies reach no earlier output. -/
def OutBuf.fresh (o : OutBuf) (history : List Byte) : OutBuf := { o with rev := history.reverse }

/-- Trailing bytes are malformed (R254). -/
def endsHere (out : List Byte) (rest : List Byte) : Except Code (List Byte) :=
  if rest.isEmpty then .ok out else .error C.CORRUPT

def emptyOut (limit : Nat) : OutBuf := ⟨[], 0, limit⟩

def inflateDeflate (limit : Nat) (bs : List Byte) : Except Code (List Byte) := do
  let (o, rest) ← inflateRaw (emptyOut limit) bs
  endsHere (o.since (emptyOut limit)) rest

/-- zlib (RFC 1950): CM 8, CINFO 0 to 7, FDICT 0 (R253). -/
def inflateZlib (limit : Nat) (bs : List Byte) : Except Code (List Byte) := do
  if bs.length < 2 ∨ beNat (bs.take 2) % 31 ≠ 0 then throw C.CORRUPT
  if u8 bs 0 % 16 ≠ 8 ∨ 7 < u8 bs 0 / 16 ∨ bitAt (u8 bs 1) 5 then throw C.UNSUPPORTED
  let (o, rest) ← inflateRaw (emptyOut limit) (bs.drop 2)
  let out := o.since (emptyOut limit)
  if rest.length < 4 then throw C.CORRUPT
  if beNat (rest.take 4) ≠ adler32 out then throw C.CHECKSUM_MISMATCH
  endsHere out (rest.drop 4)

/-- The bytes after a string that a zero byte ends. -/
def skipZero : List Byte → Option (List Byte)
  | [] => none
  | b :: r => if b = 0 then some r else skipZero r

/-- The bytes after a gzip member's header (RFC 1952): FEXTRA, FNAME and FCOMMENT are skipped, FHCRC is checked. -/
def gzipHeader (bs : List Byte) : Except Code (List Byte) := do
  if bs.length < 10 ∨ u16 bs 0 ≠ 0x8B1F then throw C.CORRUPT
  let flg := u8 bs 3
  if u8 bs 2 ≠ 8 ∨ 31 < flg then throw C.UNSUPPORTED
  let r := bs.drop 10
  let r ← if !bitAt flg 2 then pure r
    else if r.length < 2 ∨ r.length < 2 + u16 r 0 then throw C.CORRUPT else pure (r.drop (2 + u16 r 0))
  let r ← if bitAt flg 3 then (match skipZero r with | some r => pure r | none => throw C.CORRUPT) else pure r
  let r ← if bitAt flg 4 then (match skipZero r with | some r => pure r | none => throw C.CORRUPT) else pure r
  if !bitAt flg 1 then return r
  if r.length < 2 then throw C.CORRUPT
  if u16 r 0 ≠ crc32 (bs.take (bs.length - r.length)) % 65536 then throw C.CHECKSUM_MISMATCH
  return r.drop 2

/-- One gzip member: the output after it and the bytes after it. -/
def gzipMember (o : OutBuf) (bs : List Byte) : Except Code (OutBuf × List Byte) := do
  let r ← gzipHeader bs
  let o := o.fresh []
  let (o', rest) ← inflateRaw o r
  let out := o'.since o
  if rest.length < 8 then throw C.CORRUPT
  if u32 rest 0 ≠ crc32 out ∨ u32 rest 4 ≠ out.length % 2 ^ 32 then throw C.CHECKSUM_MISMATCH
  return (o', rest.drop 8)

/-- Concatenated members give one output. -/
def gzipMembers : Nat → OutBuf → List Byte → Except Code (List Byte)
  | 0, _, _ => .error C.CORRUPT
  | fuel + 1, o, bs =>
    match gzipMember o bs with
    | .error c => .error c
    | .ok (o', rest) =>
      let out := o'.since o
      if rest.isEmpty then .ok out
      else
        match gzipMembers fuel o' rest with
        | .ok more => .ok (out ++ more)
        | .error c => .error c

def inflateGzip (limit : Nat) (bs : List Byte) : Except Code (List Byte) :=
  gzipMembers (bs.length + 1) (emptyOut limit) bs

/-! ### LZ4 raw block -/

/-- A length that continues while its bytes are 255. -/
def lz4Len : List Byte → Option (Nat × List Byte)
  | [] => none
  | b :: r => if b.toNat = 255 then (lz4Len r).map (fun e => (255 + e.1, e.2)) else some (b.toNat, r)

def lz4Field (n : Nat) (r : List Byte) : Option (Nat × List Byte) :=
  if n = 15 then (lz4Len r).map (fun e => (15 + e.1, e.2)) else some (n, r)

/-- The sequences of an LZ4 block: literals, then a copy, but for the last, which is literals alone. -/
def lz4Toks : Nat → List Byte → List Tok × Bool
  | 0, _ => ([], false)
  | _, [] => ([], false)
  | fuel + 1, tok :: r =>
    match lz4Field (tok.toNat / 16) r with
    | none => ([], false)
    | some (n, r) =>
      let lits := (r.take n).map Tok.lit
      if r.length < n then (lits, false)
      else
        let r := r.drop n
        if r.isEmpty then (lits, true)
        else if r.length < 2 then (lits, false)
        else
          match lz4Field (tok.toNat % 16) (r.drop 2) with
          | none => (lits, false)
          | some (m, rest) =>
            let p := lz4Toks fuel rest
            (lits ++ .copy (m + 4) (u16 r 0) :: p.1, p.2)

def inflateLz4 (limit : Nat) (bs : List Byte) : Except Code (List Byte) :=
  let p := lz4Toks (bs.length + 1) bs
  match OutBuf.toks p.1 (emptyOut limit) with
  | .error c => .error c
  | .ok o => if p.2 then .ok (o.since (emptyOut limit)) else .error C.CORRUPT

end Sys2Proof.Machine
end

