-- ==== Sys2Proof/Machine/Zstd.lean ====
section
/-!
DEFINITION. Zstandard (RFC 8878) as the engines read it (R253, R254, R256, R258): FSE tables, Huffman-coded literals,
sequences, blocks, frames, dictionaries and the content checksum. The readings are log entry 177.
-/
namespace Sys2Proof.Machine

/-! ### The content checksum: XXH64 with seed 0 -/

def xxP1 : W64 := 0x9E3779B185EBCA87#64
def xxP2 : W64 := 0xC2B2AE3D27D4EB4F#64
def xxP3 : W64 := 0x165667B19E3779F9#64
def xxP4 : W64 := 0x85EBCA77C2B2AE63#64
def xxP5 : W64 := 0x27D4EB2F165667C5#64

def xxRound (acc x : W64) : W64 := (acc + x * xxP2).rotateLeft 31 * xxP1

def xxWord (bs : List Byte) (off : Nat) : W64 := BitVec.ofNat 64 (u64 bs off)

/-- The four lanes over whole 32-byte stripes. -/
def xxLanes (bs : List Byte) : W64 × W64 × W64 × W64 :=
  (chunksOf 32 (bs.length / 32) bs).foldl (fun v g =>
    (xxRound v.1 (xxWord g 0), xxRound v.2.1 (xxWord g 8), xxRound v.2.2.1 (xxWord g 16), xxRound v.2.2.2 (xxWord g 24)))
    (xxP1 + xxP2, xxP2, 0, 0 - xxP1)

def xxMerge (h v : W64) : W64 := (h ^^^ xxRound 0 v) * xxP1 + xxP4

/-- The bytes after the last stripe: words, then a half word, then bytes. -/
def xxTail : Nat → W64 → List Byte → W64
  | 0, h, _ => h
  | fuel + 1, h, bs =>
    if 8 ≤ bs.length then xxTail fuel ((h ^^^ xxRound 0 (xxWord bs 0)).rotateLeft 27 * xxP1 + xxP4) (bs.drop 8)
    else if 4 ≤ bs.length then
      xxTail fuel ((h ^^^ (BitVec.ofNat 64 (u32 bs 0) * xxP1)).rotateLeft 23 * xxP2 + xxP3) (bs.drop 4)
    else if bs.isEmpty then h
    else xxTail fuel ((h ^^^ (BitVec.ofNat 64 (u8 bs 0) * xxP5)).rotateLeft 11 * xxP1) (bs.drop 1)

def xxh64 (bs : List Byte) : W64 :=
  let v := xxLanes bs
  let h := if bs.length < 32 then xxP5
    else
      let h := v.1.rotateLeft 1 + v.2.1.rotateLeft 7 + v.2.2.1.rotateLeft 12 + v.2.2.2.rotateLeft 18
      xxMerge (xxMerge (xxMerge (xxMerge h v.1) v.2.1) v.2.2.1) v.2.2.2
  let h := xxTail 40 (h + BitVec.ofNat 64 bs.length) (bs.drop (32 * (bs.length / 32)))
  let h := (h ^^^ (h >>> 33)) * xxP2
  let h := (h ^^^ (h >>> 29)) * xxP3
  h ^^^ (h >>> 32)

/-! ### FSE -/

/-- One state of an FSE table: its symbol, the bits it reads, the base of the next state. -/
structure FseEnt where
  sym : Nat
  bits : Nat
  base : Nat
deriving DecidableEq, Repr

def takeMsb (n : Nat) (l : List Bool) : Option (Nat × List Bool) := (takeBits n l).map (fun e => (msbNat e.1, e.2))

/-- A bit stream read from its end: the last byte's top set bit only marks the end. -/
def backBits (bs : List Byte) : Option (List Bool) :=
  if bs.getLastD 0 = 0 then none else some (((bitsLsb bs).reverse.dropWhile (fun b => !b)).drop 1)

/-- One probability of a table, −1 for "less than one": `rem` are the states not yet given. -/
def fseProb (rem : Nat) (l : List Bool) : Option (Int × List Bool) := do
  let bits := Nat.log2 (rem + 1) + 1
  let threshold := 2 ^ bits - 1 - (rem + 1)
  let (low, r) ← takeLsb (bits - 1) l
  if low < threshold then return ((low : Int) - 1, r)
  let (top, r) ← takeLsb 1 r
  return ((if top = 1 then low + 2 ^ (bits - 1) - threshold else low : Int) - 1, r)

/-- The repeat flags after a probability of zero. -/
def zeroRuns : Nat → List Bool → Option (Nat × List Bool)
  | 0, _ => none
  | fuel + 1, l =>
    match takeLsb 2 l with
    | none => none
    | some (n, r) => if n = 3 then (zeroRuns fuel r).map (fun e => (3 + e.1, e.2)) else some (n, r)

/-- The probabilities of at most `max` symbols. -/
def fseProbs (max : Nat) : Nat → Nat → List Int → List Bool → Option (List Int × List Bool)
  | 0, _, _, _ => none
  | fuel + 1, rem, acc, l =>
    if max < acc.length then none
    else if rem = 0 then some (acc, l)
    else
      match fseProb rem l with
      | none => none
      | some (p, r) =>
        if rem < p.natAbs then none
        else if p ≠ 0 then fseProbs max fuel (rem - p.natAbs) (acc ++ [p]) r
        else
          match zeroRuns (max + 1) r with
          | none => none
          | some (n, r) => fseProbs max fuel rem (acc ++ List.replicate (n + 1) 0) r

/-- The symbol of each state: symbols of probability −1 from the top down, the others spread by the fixed step. -/
def fseSpread (al : Nat) (probs : List Int) : List Nat :=
  let size := 2 ^ al
  let syms := (List.range probs.length).zip probs
  let rare := (syms.filter (fun e => e.2 == -1)).map (·.1)
  let high := size - rare.length
  let step := size / 2 + size / 8 + 3
  let places := ((List.range size).map (fun k => k * step % size)).filter (fun i => decide (i < high))
  let spread := places.zip (syms.flatMap (fun e => List.replicate e.2.toNat e.1))
  (List.range size).map (fun i => if high ≤ i then rare.getD (size - 1 - i) 0 else lookupD 0 spread i)

/-- Bits and bases: the n-th state of a symbol stands for n more than its probability. -/
def fseEntries (al : Nat) (probs : List Int) : List Nat → List Nat → List FseEnt
  | _, [] => []
  | seen, s :: r =>
    let x := (probs.getD s 0).natAbs + seen.count s
    let bits := al - Nat.log2 x
    ⟨s, bits, x * 2 ^ bits - 2 ^ al⟩ :: fseEntries al probs (s :: seen) r

def fseTable (al : Nat) (probs : List Int) : List FseEnt := fseEntries al probs [] (fseSpread al probs)

/-- A table description at the front of bytes; it ends on a byte. -/
def readFse (maxLog maxSyms : Nat) (bs : List Byte) : Option (List FseEnt × List Byte) := do
  let l := bitsLsb bs
  let (a, r) ← takeLsb 4 l
  if maxLog < a + 5 then none
  let (ps, r) ← fseProbs maxSyms (maxSyms + 2) (2 ^ (a + 5)) [] r
  return (fseTable (a + 5) ps, bs.drop (ceilDiv (l.length - r.length) 8))

/-! ### Huffman-coded literals -/

/-- Two interleaved states give the weights until the bits run out. -/
def fseWeights (t : List FseEnt) : Nat → Nat → Nat → List Bool → Option (List Nat)
  | 0, _, _, _ => none
  | fuel + 1, s1, s2, l =>
    match t[s1]?, t[s2]? with
    | some a, some b =>
      match takeMsb a.bits l with
      | none => some [a.sym, b.sym]
      | some (v, l) => (fseWeights t fuel s2 (a.base + v) l).map (a.sym :: ·)
    | _, _ => none

/-- The codes of the given weights, lowest weight first; `idx` counts code space. -/
def weightCodes (ws : List Nat) (maxBits : Nat) : Nat → Nat → Nat → List HuffCode
  | 0, _, _ => []
  | fuel + 1, w, idx =>
    let syms := (List.range ws.length).filter (fun i => ws.getD i 0 == w)
    ((List.range syms.length).zip syms).map (fun e => ⟨maxBits + 1 - w, (idx >>> (w - 1)) + e.1, e.2⟩) ++
      weightCodes ws maxBits fuel (w + 1) (idx + syms.length * 2 ^ (w - 1))

/-- A code from its weights, the last of which is the one that completes it. -/
def huffOfWeights (ws : List Nat) : Option (List HuffCode) :=
  let sum := ((ws.filter (· != 0)).map (fun w => 2 ^ (w - 1))).sum
  let maxBits := Nat.log2 sum + 1
  let left := 2 ^ maxBits - sum
  if sum = 0 ∨ 11 < maxBits ∨ !isPow2 left ∨ 255 < ws.length then none
  else some (weightCodes (ws ++ [Nat.log2 left + 1]) maxBits maxBits 1 0)

/-- A Huffman tree description at the front of bytes. -/
def readTree (bs : List Byte) : Option (List HuffCode × List Byte) :=
  match bs with
  | [] => none
  | b :: r =>
    let h := b.toNat
    if 128 ≤ h then
      let n := h - 127
      let bytes := (n + 1) / 2
      if r.length < bytes then none
      else
        let ws := (r.take bytes).flatMap (fun b => [b.toNat / 16, b.toNat % 16])
        (huffOfWeights (ws.take n)).map (fun t => (t, r.drop bytes))
    else if r.length < h then none
    else do
      let (t, rest) ← readFse 6 256 (r.take h)
      let l ← backBits rest
      let al := Nat.log2 t.length
      let (s1, l) ← takeMsb al l
      let (s2, l) ← takeMsb al l
      let ws ← fseWeights t 256 s1 s2 l
      let c ← huffOfWeights ws
      return (c, r.drop h)

/-- `n` symbols that use a stream up exactly. -/
def huffAll (t : List HuffCode) : Nat → List Bool → Option (List Byte)
  | 0, l => if l.isEmpty then some [] else none
  | n + 1, l =>
    match huffSym t l with
    | none => none
    | some (s, r) => (huffAll t n r).map (BitVec.ofNat 8 s :: ·)

def huffStream (t : List HuffCode) (n : Nat) (bs : List Byte) : Option (List Byte) := (backBits bs).bind (huffAll t n)

/-- One stream, or four behind a table of the sizes of the first three. -/
def huffStreams (t : List HuffCode) (four : Bool) (n : Nat) (bs : List Byte) : Option (List Byte) :=
  if !four then huffStream t n bs
  else if bs.length < 6 then none
  else
    let a := u16 bs 0
    let b := u16 bs 2
    let c := u16 bs 4
    let d := bs.drop 6
    let q := (n + 3) / 4
    if d.length < a + b + c ∨ n < 3 * q then none
    else do
      let w ← huffStream t q (slice 0 a d)
      let x ← huffStream t q (slice a b d)
      let y ← huffStream t q (slice (a + b) c d)
      let z ← huffStream t (n - 3 * q) (d.drop (a + b + c))
      return w ++ x ++ y ++ z

/-- What one block leaves to the next: codes, tables (empty where there is none yet) and the repeated offsets. -/
structure ZTables where
  huff : List HuffCode
  ll : List FseEnt
  of_ : List FseEnt
  ml : List FseEnt
  rep : Nat × Nat × Nat
deriving DecidableEq, Repr

def ZTables.none : ZTables := ⟨[], [], [], [], (1, 4, 8)⟩

def zBlockMax : Nat := 131072

/-- The literals section: literals, its kind (0 raw, 1 RLE, 2 with a tree, 3 treeless), tables, the rest. -/
def zLiterals (z : ZTables) (bs : List Byte) : Option (List Byte × Nat × ZTables × List Byte) :=
  let b := u8 bs 0
  let kind := b % 4
  let sf := b / 4 % 4
  if bs.isEmpty then none
  else if kind < 2 then
    let h := if sf = 1 then 2 else if sf = 3 then 3 else 1
    let n := if h = 1 then b / 8 else leNat (bs.take h) / 16
    let r := bs.drop h
    if bs.length < h ∨ zBlockMax < n then none
    else if kind = 0 then (if r.length < n then none else some (r.take n, 0, z, r.drop n))
    else match r with
      | [] => none
      | x :: r => some (List.replicate n x, 1, z, r)
  else
    let h := if sf = 3 then 5 else if sf = 2 then 4 else 3
    let w := if sf = 3 then 18 else if sf = 2 then 14 else 10
    let v := leNat (bs.take h) / 16
    let n := v % 2 ^ w
    let size := v / 2 ^ w
    let r := (bs.drop h).take size
    if bs.length < h + size ∨ zBlockMax < n then none
    else do
      let (t, r) ← if kind = 2 then readTree r else if z.huff.isEmpty then Option.none else some (z.huff, r)
      let lits ← huffStreams t (sf != 0) n r
      return (lits, kind, { z with huff := t }, bs.drop (h + size))

/-! ### Sequences -/

/-- Literal length codes: base and extra bits. -/
def llBase (c : Nat) : Nat × Nat :=
  if c < 16 then (c, 0) else if c < 20 then (16 + 2 * (c - 16), 1) else if c < 22 then (24 + 4 * (c - 20), 2)
  else if c < 24 then (32 + 8 * (c - 22), 3) else if c = 24 then (48, 4) else (2 ^ (c - 19), c - 19)
/-- Match length codes. -/
def mlBase (c : Nat) : Nat × Nat :=
  if c < 32 then (3 + c, 0) else if c < 36 then (35 + 2 * (c - 32), 1) else if c < 38 then (43 + 4 * (c - 36), 2)
  else if c < 40 then (51 + 8 * (c - 38), 3) else if c < 42 then (67 + 16 * (c - 40), 4) else if c = 42 then (99, 5)
  else (3 + 2 ^ (c - 36), c - 36)

def llDefault : List FseEnt := fseTable 6
  [4, 3, 2, 2, 2, 2, 2, 2, 2, 2, 2, 2, 2, 1, 1, 1, 2, 2, 2, 2, 2, 2, 2, 2, 2, 3, 2, 1, 1, 1, 1, 1, -1, -1, -1, -1]
def mlDefault : List FseEnt := fseTable 6
  ([1, 4, 3, 2, 2, 2, 2, 2, 2] ++ List.replicate 37 1 ++ List.replicate 7 (-1))
def ofDefault : List FseEnt := fseTable 5
  ([1, 1, 1, 1, 1, 1, 2, 2, 2] ++ List.replicate 15 1 ++ List.replicate 5 (-1))

/-- The table of one kind of code under its mode: 0 predefined, 1 RLE, 2 described here, 3 the last one again. -/
def zTable (mode maxLog maxSym : Nat) (dflt last : List FseEnt) (bs : List Byte) : Option (List FseEnt × List Byte) :=
  if mode = 0 then some (dflt, bs)
  else if mode = 1 then
    match bs with
    | [] => none
    | b :: r => if maxSym < b.toNat then none else some ([⟨b.toNat, 0, 0⟩], r)
  else if mode = 2 then readFse maxLog (maxSym + 1) bs
  else if last.isEmpty then none else some (last, bs)

/-- The offset of a sequence, and the repeated offsets after it. -/
def zOffset (rep : Nat × Nat × Nat) (v ll : Nat) : Nat × (Nat × Nat × Nat) :=
  if 3 < v then (v - 3, (v - 3, rep.1, rep.2.1))
  else
    let k := if ll = 0 then v + 1 else v
    if k = 1 then (rep.1, rep)
    else if k = 2 then (rep.2.1, (rep.2.1, rep.1, rep.2.2))
    else
      let o := if k = 3 then rep.2.2 else rep.1 - 1
      (o, (o, rep.1, rep.2.1))

/-- The three states of the sequences. -/
abbrev SeqAt := Nat × Nat × Nat

/-- The next state of a table. -/
def fseNext (e : FseEnt) (l : List Bool) : Option (Nat × List Bool) := (takeMsb e.bits l).map (fun x => (e.base + x.1, x.2))

/-- The states of the next sequence, read in the order literal length, match length, offset. -/
def seqStep (a b c : FseEnt) (l : List Bool) : Option (SeqAt × List Bool) := do
  let (s1, l) ← fseNext a l
  let (s3, l) ← fseNext c l
  let (s2, l) ← fseNext b l
  return ((s1, s2, s3), l)

/-- The sequences of a block as tokens over its literals; the literals left over end it. -/
def zSeqs (z : ZTables) : Nat → (Nat × Nat × Nat) → SeqAt → List Byte → List Bool → Option (List Tok × (Nat × Nat × Nat))
  | 0, rep, _, lits, l => if l.isEmpty then some (lits.map Tok.lit, rep) else none
  | n + 1, rep, st, lits, l => do
    let a ← z.ll[st.1]?
    let b ← z.of_[st.2.1]?
    let c ← z.ml[st.2.2]?
    let (x, l) ← takeMsb b.sym l
    let (m, l) ← takeMsb (mlBase c.sym).2 l
    let (k, l) ← takeMsb (llBase a.sym).2 l
    let ll := (llBase a.sym).1 + k
    let (off, rep) := zOffset rep (2 ^ b.sym + x) ll
    if lits.length < ll ∨ off = 0 then Option.none
    let (st, l) ← if n = 0 then some (st, l) else seqStep a b c l
    let (ts, rep) ← zSeqs z n rep st (lits.drop ll) l
    return ((lits.take ll).map Tok.lit ++ .copy ((mlBase c.sym).1 + m) off :: ts, rep)

/-- The number of sequences at the front of bytes. -/
def seqCount (bs : List Byte) : Option (Nat × List Byte) :=
  match bs with
  | [] => none
  | b :: r =>
    if b.toNat < 128 then some (b.toNat, r)
    else if b.toNat < 255 then (if r.isEmpty then none else some ((b.toNat - 128) * 256 + u8 r 0, r.drop 1))
    else if r.length < 2 then none else some (u16 r 0 + 0x7F00, r.drop 2)

/-- The sequences section, `n` sequences over the literals: tokens, and what it leaves. -/
def zSequences (z : ZTables) (n : Nat) (lits r : List Byte) : Option (List Tok × ZTables) := do
  if r.isEmpty ∨ u8 r 0 % 4 ≠ 0 then Option.none
  let m := u8 r 0
  let (ll, r) ← zTable (m / 64) 9 35 llDefault z.ll (r.drop 1)
  let (of_, r) ← zTable (m / 16 % 4) 8 31 ofDefault z.of_ r
  let (ml, r) ← zTable (m / 4 % 4) 9 52 mlDefault z.ml r
  let z := { z with ll := ll, of_ := of_, ml := ml }
  let l ← backBits r
  let (s1, l) ← takeMsb (Nat.log2 ll.length) l
  let (s2, l) ← takeMsb (Nat.log2 of_.length) l
  let (s3, l) ← takeMsb (Nat.log2 ml.length) l
  let (ts, rep) ← zSeqs z n z.rep (s1, s2, s3) lits l
  return (ts, { z with rep := rep })

/-- A compressed block's tokens, the kind of its literals section, and what it leaves. -/
def zCompressed (z : ZTables) (bs : List Byte) : Option (List Tok × Nat × ZTables) := do
  let (lits, kind, z, r) ← zLiterals z bs
  let (n, r) ← seqCount r
  let (ts, z) ← if 0 < n then zSequences z n lits r
    else if r.isEmpty then some (lits.map Tok.lit, z) else Option.none
  return (ts, kind, z)

def Tok.size : Tok → Nat
  | .lit _ => 1
  | .copy n _ => n

def toksSize (ts : List Tok) : Nat := (ts.map Tok.size).sum

/-! ### Frames -/

/-- A frame header: window size, Dictionary_ID (0 for none), content size, checksum flag, bytes. -/
structure ZHead where
  window : Nat
  dict : Nat
  content : Option Nat
  check : Bool
  bytes : Nat
deriving DecidableEq, Repr

def zMagic : Nat := 0xFD2FB528
def zDictMagic : Nat := 0xEC30A437

/-- The header of a frame after its magic number. A reserved bit is a part that R253 does not list. -/
def zHead (bs : List Byte) : Except Code ZHead :=
  let d := u8 bs 0
  let single := bitAt d 5
  let w := if single then 0 else 1
  let i := [0, 1, 2, 4].getD (d % 4) 0
  let f := if d / 64 = 0 then (if single then 1 else 0) else 2 ^ (d / 64)
  let n := 1 + w + i + f
  if bs.isEmpty ∨ bs.length < n then .error C.CORRUPT
  else if bitAt d 3 then .error C.UNSUPPORTED
  else
    let size := leNat (slice (1 + w + i) f bs) + (if d / 64 = 1 then 256 else 0)
    let b := u8 bs 1
    let base := 2 ^ (10 + b / 8)
    .ok ⟨if single then size else base + base / 8 * (b % 8), leNat (slice (1 + w) i bs),
      if f = 0 then none else some size, bitAt d 2, n⟩

/-- What a dictionary gives a frame: the bytes before its output and the tables its first block may repeat. -/
structure ZDict where
  history : List Byte
  tables : ZTables
deriving DecidableEq, Repr

def ZDict.none : ZDict := ⟨[], .none⟩
def ZDict.raw (bs : List Byte) : ZDict := ⟨bs, .none⟩

/-- A FORMATTED dictionary; none where it does not parse (R257). -/
def ZDict.formatted (bs : List Byte) : Option ZDict := do
  if bs.length < 8 ∨ u32 bs 0 ≠ zDictMagic then Option.none
  let (t, r) ← readTree (bs.drop 8)
  let (of_, r) ← readFse 8 32 r
  let (ml, r) ← readFse 9 53 r
  let (ll, r) ← readFse 9 36 r
  let content := r.drop 12
  let rep := (u32 r 0, u32 r 4, u32 r 8)
  if r.length < 12 ∨ [rep.1, rep.2.1, rep.2.2].any (fun o => o == 0 || decide (content.length < o)) then Option.none
  return ⟨content, ⟨t, ll, of_, ml, rep⟩⟩

/-- A block header: last, type, size. -/
def zBlockHead (bs : List Byte) : Bool × Nat × Nat := (bitAt (u8 bs 0) 0, u8 bs 0 / 2 % 4, leNat (bs.take 3) / 8)

/-- One block's content: output, tables, the rest. -/
def zBlock (z : ZTables) (o : OutBuf) (kind size : Nat) (bs : List Byte) : Except Code (OutBuf × ZTables × List Byte) :=
  let n := if kind = 1 then 1 else size
  if zBlockMax < size ∨ bs.length < n ∨ kind = 3 then .error C.CORRUPT
  else
    let c := bs.take n
    let r := bs.drop n
    if kind < 2 then
      match OutBuf.toks (if kind = 0 then c.map Tok.lit else List.replicate size (.lit (c.headD 0))) o with
      | .ok o => .ok (o, z, r)
      | .error e => .error e
    else
      match zCompressed z c with
      | none => .error C.CORRUPT
      | some (ts, _, z) =>
        if zBlockMax < toksSize ts then .error C.CORRUPT
        else
          match OutBuf.toks ts o with
          | .ok o => .ok (o, z, r)
          | .error e => .error e

/-- The blocks of a frame up to the last. -/
def zBlocks : Nat → ZTables → OutBuf → List Byte → Except Code (OutBuf × List Byte)
  | 0, _, _, _ => .error C.CORRUPT
  | fuel + 1, z, o, bs =>
    if bs.length < 3 then .error C.CORRUPT
    else
      let (last, kind, size) := zBlockHead bs
      match zBlock z o kind size (bs.drop 3) with
      | .error e => .error e
      | .ok (o, z, r) => if last then .ok (o, r) else zBlocks fuel z o r

def zWindowMax : Nat := 0x4000000

/-- One Zstandard frame after its magic number. A window past 64 MiB fails before any output (R256); `dict` gives what
a Dictionary_ID, or 0, names (R258). -/
def zFrame (dict : Nat → Except Code ZDict) (o : OutBuf) (bs : List Byte) : Except Code (OutBuf × List Byte) := do
  let h ← zHead bs
  if zWindowMax < h.window then throw C.WINDOW
  let d ← dict h.dict
  let (o', r) ← zBlocks (bs.length + 1) d.tables (o.fresh d.history) (bs.drop h.bytes)
  let out := o'.since o
  if h.content.any (fun n => n != out.length) then throw C.CORRUPT
  if !h.check then return (o', r)
  if r.length < 4 then throw C.CORRUPT
  if u32 r 0 ≠ (xxh64 out).toNat % 2 ^ 32 then throw C.CHECKSUM_MISMATCH
  return (o', r.drop 4)

def skippable (m : Nat) : Bool := m / 16 == 0x184D2A5

/-- Concatenated frames give one output; skippable frames are skipped. -/
def zFrames (dict : Nat → Except Code ZDict) : Nat → OutBuf → List Byte → Except Code (List Byte)
  | 0, _, _ => .error C.CORRUPT
  | fuel + 1, o, bs =>
    if bs.isEmpty then .ok []
    else if bs.length < 8 then .error C.CORRUPT
    else if skippable (u32 bs 0) then
      (if bs.length < 8 + u32 bs 4 then .error C.CORRUPT else zFrames dict fuel o (bs.drop (8 + u32 bs 4)))
    else if u32 bs 0 ≠ zMagic then .error C.CORRUPT
    else
      match zFrame dict o (bs.drop 4) with
      | .error e => .error e
      | .ok (o', r) =>
        match zFrames dict fuel o' r with
        | .ok more => .ok (o'.since o ++ more)
        | .error e => .error e

def inflateZstd (dict : Nat → Except Code ZDict) (limit : Nat) (bs : List Byte) : Except Code (List Byte) :=
  zFrames dict (bs.length + 1) (emptyOut limit) bs

/-- The bytes after a frame's last block, found by the block headers alone. -/
def skipBlocks : Nat → List Byte → List Byte
  | 0, _ => []
  | fuel + 1, bs =>
    let (last, kind, size) := zBlockHead bs
    let r := bs.drop (3 + (if kind = 1 then 1 else size))
    if last then r else skipBlocks fuel r

/-- The Dictionary_IDs that the frames of an input carry, 0 for a frame without one: what the engine loads. -/
def frameDicts : Nat → List Byte → List Nat
  | 0, _ => []
  | fuel + 1, bs =>
    if skippable (u32 bs 0) then frameDicts fuel (bs.drop (8 + u32 bs 4))
    else if u32 bs 0 ≠ zMagic then []
    else
      match zHead (bs.drop 4) with
      | .error _ => []
      | .ok h =>
        let r := skipBlocks (bs.length + 1) (bs.drop (4 + h.bytes))
        h.dict :: frameDicts fuel (r.drop (if h.check then 4 else 0))

end Sys2Proof.Machine
end

