-- ==== Sys2Proof/Machine/Encoder.lean ====
section
/-!
DEFINITION. The encoder of the compression engines: the search for matches (R255, R256), the blocks and their stored or
raw fallback (R259), the four formats (R253), and the decoder that verifies them (R260). The bits of a coded block are the
device's own (`Config.dynamicBlock`, `Config.zstdBlock`): they are used only where they say exactly the block's tokens
(log entry 178).
-/
namespace Sys2Proof.Machine

/-! ### Matches (R255) -/

/-- How matches are searched: chain depth, whether the next position is searched too, window, longest match. -/
structure Matcher where
  depth : Nat
  lazy : Bool
  window : Nat
  longest : Nat

def chainDepth (level : Nat) : Nat := if level = 12 then 4096 else 2 ^ (level - 1)

/-- Bytes that two strings share at their front, at most `n`. -/
def sharedLen : Nat → List Byte → List Byte → Nat
  | n + 1, a :: l, b :: r => if a = b then sharedLen n l r + 1 else 0
  | _, _, _ => 0

/-- The string that a copy from distance `d` would give: earlier bytes, then those coming. -/
def copySource (past fut : List Byte) (d : Nat) : List Byte := (past.take d).reverse ++ fut

/-- The chain of a position: the latest earlier positions in the window whose next three bytes have the same hash. -/
def Matcher.chain (m : Matcher) (past fut : List Byte) : List Nat :=
  let h := Config.matchHash (fut.take 3)
  (((List.range (min m.window past.length)).map (· + 1)).filter (fun d =>
    Config.matchHash ((copySource past fut d).take 3) == h)).take m.depth

/-- The longest match of a position, the nearest of several: length and distance; shorter than 3 is none. -/
def Matcher.best (m : Matcher) (past fut : List Byte) : Nat × Nat :=
  if fut.length < 3 then (0, 0)
  else
    (m.chain past fut).foldl (fun b d =>
      let n := sharedLen m.longest (copySource past fut d) fut
      if 3 ≤ n ∧ b.1 < n then (n, d) else b) (0, 0)

/-- The tokens of a block. From level 5 on, the match of the next position is kept where it is the longer. -/
def Matcher.toks (m : Matcher) : Nat → List Byte → List Byte → List Tok
  | 0, _, _ => []
  | _, _, [] => []
  | fuel + 1, past, b :: fut =>
    let (n, d) := m.best past (b :: fut)
    if n = 0 ∨ (m.lazy ∧ n < (m.best (b :: past) fut).1) then .lit b :: m.toks fuel (b :: past) fut
    else .copy n d :: m.toks fuel (((b :: fut).take n).reverse ++ past) ((b :: fut).drop n)

def Tok.pair : Tok → Nat × Nat
  | .lit b => (0, b.toNat)
  | .copy n d => (n, d)

/-- The blocks of an input: at least one, each of at most `size` bytes (R259). -/
def blocksOf (size : Nat) (bs : List Byte) : List (List Byte) :=
  if bs.isEmpty then [[]] else chunksOf size (bs.length + 1) bs

/-- The bytes before each block, newest first. -/
def pastsOf : List Byte → List (List Byte) → List (List Byte)
  | _, [] => []
  | past, b :: r => past :: pastsOf (b.reverse ++ past) r

/-- Each block with its number and its tokens. -/
def tokBlocks (m : Matcher) (size : Nat) (history bs : List Byte) : List (Nat × List Byte × List Tok) :=
  let blocks := blocksOf size bs
  (List.range blocks.length).zip
    ((blocks.zip (pastsOf history.reverse blocks)).map (fun e => (e.1, { m with longest := min m.longest e.1.length }.toks e.1.length e.2 e.1)))

/-! ### DEFLATE, zlib and gzip -/

def lsbBits (n v : Nat) : List Bool := (List.range n).map (bitAt v)

/-- Bytes of bits, the last filled with zeros. -/
def bitBytes (l : List Bool) : List Byte := (chunksOf 8 (l.length + 1) l).map (fun g => BitVec.ofNat 8 (lsbNat g))

/-- The code of a symbol, first bit first. -/
def symBits (t : List HuffCode) (sym : Nat) : List Bool :=
  match t.find? (fun k => k.sym == sym) with
  | some k => (lsbBits k.len k.code).reverse
  | none => []

/-- The last of `n` codes whose base is at most `v`. -/
def codeAt (base : Nat → Nat × Nat) (n v : Nat) : Nat := ((List.range n).filter (fun i => decide ((base i).1 ≤ v))).getLastD 0

/-- A token under the fixed codes. -/
def Tok.fixedBits : Tok → List Bool
  | .lit b => symBits fixedLit b.toNat
  | .copy n d =>
    let i := if n = 258 then 28 else codeAt lengthBase 28 n
    let j := codeAt distBase 30 d
    symBits fixedLit (257 + i) ++ lsbBits (lengthBase i).2 (n - (lengthBase i).1) ++ symBits fixedDist j ++
      lsbBits (distBase j).2 (d - (distBase j).1)

/-- A fixed block after its BFINAL bit. -/
def fixedBlock (ts : List Tok) : List Bool := lsbBits 2 1 ++ ts.flatMap Tok.fixedBits ++ symBits fixedLit 256

/-- Whether bits are a dynamic block of exactly these tokens. -/
def dynamicSays (ts : List Tok) (l : List Bool) : Bool := l.take 2 == lsbBits 2 2 && deflateBlock l == (ts, some [])

/-- The smallest coded form of a block: fixed, or dynamic where that is smaller. -/
def codedBlock (draw i : Nat) (ts : List Tok) : List Bool :=
  let f := fixedBlock ts
  let d := Config.dynamicBlock draw i (ts.map Tok.pair)
  if dynamicSays ts d ∧ d.length < f.length then d else f

/-- A stored block after `pos` bits of output, from its BFINAL bit on. -/
def storedBits (pos : Nat) (last : Bool) (bs : List Byte) : List Bool :=
  last :: lsbBits 2 0 ++ List.replicate ((8 - (pos + 3) % 8) % 8) false ++ lsbBits 16 bs.length ++
    lsbBits 16 (0xFFFF - bs.length) ++ bitsLsb bs

/-- The blocks of a DEFLATE stream after `pos` bits: its bits, and how many blocks are stored. -/
def deflateBlocks (draw : Nat) : Nat → List (Nat × List Byte × List Tok) → List Bool × Nat
  | _, [] => ([], 0)
  | pos, (i, bs, ts) :: r =>
    let coded := codedBlock draw i ts
    let stored := decide (8 * bs.length ≤ coded.length)
    let out := if stored then storedBits pos r.isEmpty bs else r.isEmpty :: coded
    let p := deflateBlocks draw (pos + out.length) r
    (out ++ p.1, b2n stored + p.2)

def zlibHead (windowLog : Nat) : List Byte :=
  let cmf := 8 + 16 * (windowLog - 8)
  let flg := 0x80
  natLe 1 cmf ++ natLe 1 (flg + (31 - (256 * cmf + flg) % 31) % 31)

def gzipHead : List Byte := natLe 4 0x00088B1F ++ zeros 5 ++ natLe 1 255

/-- A stream of DEFLATE, zlib (FLEVEL 2) or gzip (one member, no optional fields, MTIME 0, OS 255). -/
def encodeDeflate (draw format windowLog : Nat) (m : Matcher) (bs : List Byte) : List Byte × Nat :=
  let p := deflateBlocks draw 0 (tokBlocks m 32768 [] bs)
  let body := bitBytes p.1
  (if format = 1 then body
   else if format = 2 then zlibHead windowLog ++ body ++ (natLe 4 (adler32 bs)).reverse
   else gzipHead ++ body ++ natLe 4 (crc32 bs) ++ natLe 4 bs.length, p.2)

/-! ### Zstandard -/

/-- Field widths of a frame header: code and bytes of the Dictionary_ID, code and bytes of the content size. -/
def didField (id : Nat) : Nat × Nat := if id = 0 then (0, 0) else if id < 256 then (1, 1) else if id < 65536 then (2, 2) else (3, 4)
def fcsField (n : Nat) : Nat × Nat :=
  if n < 256 then (0, 1) else if n < 65792 then (1, 2) else if n < 2 ^ 32 then (2, 4) else (3, 8)

/-- A frame's magic number and header: single-segment where the content size is given and fits the window (R256). -/
def zEncodeHead (windowLog flags id n : Nat) : List Byte :=
  let sized := bitAt flags 1
  let single := sized && decide (n ≤ 2 ^ windowLog)
  let d := didField id
  let f := if sized then fcsField n else (0, 0)
  natLe 4 zMagic ++ natLe 1 (64 * f.1 + 32 * b2n single + 4 * (flags % 2) + d.1) ++
    (if single then [] else natLe 1 (8 * (windowLog - 10))) ++ natLe d.2 id ++ natLe f.2 (if f.1 = 1 then n - 256 else n)

def zBlockHeader (last : Bool) (kind size : Nat) : List Byte := natLe 3 (b2n last + 2 * kind + 8 * size)

/-- The compressed form of a block, where the encoder's bytes say exactly its tokens, code its literals with Huffman
codes and are shorter than the block; with the tables it leaves. -/
def zCoded (draw i : Nat) (z : ZTables) (bs : List Byte) (ts : List Tok) : Option (List Byte × ZTables) :=
  let c := Config.zstdBlock draw i (ts.map Tok.pair)
  match zCompressed z c with
  | none => none
  | some (us, kind, z) =>
    let bare := ts.all (fun t => match t with | .copy _ _ => true | .lit _ => false)
    if us = ts ∧ c.length < bs.length ∧ (2 ≤ kind ∨ bare) then some (c, z) else none

/-- The blocks of a frame: their bytes, and how many are raw. -/
def zEncodeBlocks (draw : Nat) : ZTables → List (Nat × List Byte × List Tok) → List Byte × Nat
  | _, [] => ([], 0)
  | z, (i, bs, ts) :: r =>
    match zCoded draw i z bs ts with
    | some (c, z) => let p := zEncodeBlocks draw z r; (zBlockHeader r.isEmpty 2 c.length ++ c ++ p.1, p.2)
    | none => let p := zEncodeBlocks draw z r; (zBlockHeader r.isEmpty 0 bs.length ++ bs ++ p.1, 1 + p.2)

/-- One frame; the dictionary is history alone, its entropy tables are not used (R258). -/
def encodeZstd (draw windowLog flags id : Nat) (dict : ZDict) (m : Matcher) (bs : List Byte) : List Byte × Nat :=
  let p := zEncodeBlocks draw { ZTables.none with rep := dict.tables.rep } (tokBlocks m zBlockMax dict.history bs)
  (zEncodeHead windowLog flags id bs.length ++ p.1 ++ (if bitAt flags 0 then natLe 4 (xxh64 bs).toNat else []), p.2)

/-! ### Jobs -/

def fmtZlib : Nat := 2
def fmtZstd : Nat := 4

/-- The window of a job: WINDOW_LOG, or 15 and 23 for 0 (R256). -/
def windowOf (format log : Nat) : Nat := if log ≠ 0 then log else if format = fmtZstd then 23 else 15

/-- A compressed stream and its stored or raw blocks: format, level, WINDOW_LOG, FLAGS, Dictionary_ID, dictionary. -/
def encodeStream (draw format level log flags id : Nat) (dict : ZDict) (bs : List Byte) : List Byte × Nat :=
  let w := windowOf format log
  let lv := max 1 level
  let m : Matcher := ⟨chainDepth lv, decide (5 ≤ lv), 2 ^ w, if format = fmtZstd then zBlockMax else 258⟩
  if format = fmtZstd then encodeZstd draw w flags id dict m bs else encodeDeflate draw format w m bs

/-- A decompressed stream (R253, R254): format, the dictionary that a Dictionary_ID names, limit, input. -/
def decodeStream (format : Nat) (dict : Nat → Except Code ZDict) (limit : Nat) (bs : List Byte) : Except Code (List Byte) :=
  if bs.isEmpty then .error C.CORRUPT
  else if format = 1 then inflateDeflate limit bs
  else if format = 2 then inflateZlib limit bs
  else if format = 3 then inflateGzip limit bs
  else if format = 5 then inflateLz4 limit bs
  else inflateZstd dict limit bs

/-- Whether a stream decompresses to the input (R260). -/
def verifies (format : Nat) (dict : ZDict) (input out : List Byte) : Bool :=
  match decodeStream format (fun _ => .ok dict) input.length out with
  | .ok bs => bs == input
  | .error _ => false

end Sys2Proof.Machine
end

