-- ==== Sys2Proof/Machine/Compress.lean ====
section
/-!
DEFINITION. The compression engines: which serve (R251, R261), jobs with their limits, verification and quarantine (R258
to R263), COMPRESS and DECOMPRESS (R264 to R267).
-/
namespace Sys2Proof.Machine

/-! ### Engines -/

def State.engineServes (s : State) (c e : Nat) : Bool :=
  !s.units.cmpOut.contains (c, e) && s.fget2 F.CMP_ENG_STATUS_QUARANTINED c e == 0

def State.enginesOf (s : State) (c : Nat) : List Nat := [0, 1].filter (s.engineServes c)

/-- The cluster whose engines take the jobs of cluster `c` (R251). -/
def State.engineCluster (s : State) (c : Nat) : Option Nat :=
  ((List.range 12).map (fun k => (c + k) % 12)).find? (fun d => !(s.enginesOf d).isEmpty)

/-- The engine that takes the next job: either of the cluster's, whichever is free. -/
def State.nextEngine (s : State) (c : Nat) : Option (Nat × Nat) × State :=
  match s.engineCluster c with
  | none => (none, s)
  | some d =>
    let (k, s) := s.draw
    let es := s.enginesOf d
    ((es[Config.choice k % es.length]?).map (fun e => (d, e)), s)

def cmpCompress : Nat := 1
def cmpDecompress : Nat := 2

/-- A job has ended well (R270). -/
def State.jobDone (s : State) (c e inBytes outBytes stored : Nat) : State :=
  let s := s.bump2 F.CMP_ENG_COUNT_JOBS c e 1
  let s := s.bump2 F.CMP_ENG_COUNT_STORED c e stored
  let s := s.bump2 F.CMP_ENG_BYTES_IN_BYTES c e inBytes
  let s := s.bump2 F.CMP_ENG_BYTES_OUT_BYTES c e outBytes
  s.event 0x800 (2 * c + e) (ceilDiv outBytes 32)

/-- A job has failed: recorded; the third verify failure quarantines the engine (R260, R261). -/
def State.jobFailed (s : State) (c e op slot inBytes : Nat) (code : Code) : State :=
  let s := (s.bump2 F.CMP_ENG_COUNT_FAILED c e 1).bump2 F.CMP_ENG_BYTES_IN_BYTES c e inBytes
  let s := ((s.fset F.CMP_FAIL_CODE 0 code.toNat).fset F.CMP_FAIL_OP 0 op).fset F.CMP_FAIL_CLUSTER 0 c
  let s := (s.fset F.CMP_FAIL_ENGINE 0 e).fset F.CMP_FAIL_RUN_SLOT 0 slot
  if code = C.VERIFY then
    let s := s.bump2 F.CMP_ENG_STATUS_VERIFY_FAILS c e 1
    if s.fget2 F.CMP_ENG_STATUS_VERIFY_FAILS c e = 3 then
      ((s.fset2 F.CMP_ENG_STATUS_QUARANTINED c e 1).attn C.ENGINE_QUARANTINED [c, e]).unitLeaves 0x08 outDegraded
        (s.physCluster c) e (2 * c + e)
    else s
  else s

/-! ### Dictionaries (R257, R258) -/

def State.dicts (s : State) : List Dict :=
  match s.image with
  | some im => im.dicts
  | none => []

/-- Where a dictionary's bytes lie in the region: one after another, in the order of the records. -/
def dictOffset (ds : List Dict) (n : Nat) : Nat :=
  ((ds.takeWhile (fun d => d.number != n)).map (fun d => d.bytes.length)).sum

/-- Content of a dictionary as the engine reads it from the region; poison fails the job. -/
def State.dictBytes (s : State) (d : Dict) : Except Code (List Byte × State) :=
  match s.image.bind (fun im => s.region? im.dictRegion) with
  | none => .ok (d.bytes, s)
  | some g =>
    let (bs, s) := s.readLocal (g.localAddr 0 (dictOffset s.dicts d.number)) d.bytes.length
    if bs.any (·.2) then .error C.INPUT_POISON else .ok (bs.map (·.1), s)

/-- A dictionary as a frame uses it: a FORMATTED one with its tables, or raw content. -/
def Dict.asZ (d : Dict) (bs : List Byte) : Except Code ZDict :=
  if d.kind = 1 then .ok (.raw bs)
  else match ZDict.formatted bs with
    | some z => .ok z
    | none => .error C.CORRUPT

/-- A dictionary loaded for a job, or why it is not: none declared, or a poisoned word (R258). -/
def State.loadDict (s : State) (d : Dict) : Except Code ZDict × State :=
  match s.dictBytes d with
  | .error c => (.error c, s)
  | .ok (bs, s) => (d.asZ bs, s)

/-- The dictionary that a frame with this Dictionary_ID is decoded with; 0 is a frame without one, which takes the
stage's, or none (R258). -/
def State.frameDict (s : State) (stageDict id : Nat) : Except Code ZDict × State :=
  if id = 0 then
    match s.dicts.find? (fun d => d.number == stageDict) with
    | none => (.ok .none, s)
    | some d => s.loadDict d
  else
    match s.dicts.find? (fun d => d.id == id) with
    | none => (.error C.DICT_MISSING, s)
    | some d => s.loadDict d

def State.frameDictsOf (s : State) (stageDict : Nat) : List Nat → List (Nat × Except Code ZDict) × State
  | [] => ([], s)
  | id :: r =>
    let (d, s) := s.frameDict stageDict id
    let (l, s) := s.frameDictsOf stageDict r
    ((id, d) :: l, s)

/-- An input decompressed under its limit; each frame of a Zstandard input takes the dictionary it names. -/
def State.inflated (s : State) (format stageDict limit : Nat) (bs : List Byte) : Except Code (List Byte) × State :=
  let ids := if format = fmtZstd then (frameDicts (bs.length + 1) bs).eraseDups else []
  let (ds, s) := s.frameDictsOf stageDict ids
  (decodeStream format (fun id => lookupD (.error C.DICT_MISSING) ds id) limit bs, s)

/-! ### Jobs -/

/-- The output bound B(n) (R259). -/
def outBound (format n : Nat) : Nat :=
  let b32 := max 1 (ceilDiv n 32768)
  let b128 := max 1 (ceilDiv n 131072)
  match format with
  | 1 => n + 5 * b32
  | 2 => n + 5 * b32 + 6
  | 3 => n + 5 * b32 + 18
  | _ => n + 3 * b128 + 22

/-- The output limit of a decompression job (R263). -/
def inflateLimit (outMax ratio inBytes : Nat) (expected : Option Nat) : Nat :=
  let limit := min (if outMax = 0 then 0x4000000 else outMax) (ratio * inBytes)
  match expected with
  | some n => min limit n
  | none => limit

/-- A job given an expected size that ends with fewer bytes is corrupt (R263). -/
def wholeOutput (out : List Byte) (expected : Option Nat) : Except Code (List Byte) :=
  if (match expected with | some n => decide (out.length < n) | none => false) then .error C.CORRUPT else .ok out

/-- What a compression gives: a mismatch ends it, else it must fit its space (R260, R262). `full` says that the space
was found exhausted in an earlier cycle than the mismatch; B(n) is never exhausted by a stream that verifies. -/
def deflateOutcome (out : List Byte) (outMax bound : Nat) (ok full : Bool) : Except Code (List Byte) :=
  let past := decide ((if outMax = 0 then bound else outMax) < out.length)
  if outMax ≠ 0 ∧ past ∧ (ok ∨ full) then .error C.OUTPUT_FULL
  else if !ok ∨ past then .error C.VERIFY
  else .ok out

/-- The dictionary of a COMPRESS stage, with the Dictionary_ID its frames carry (R258). -/
def State.stageDict (s : State) (p : List Byte) : Except Code (Nat × ZDict) × State :=
  match s.dicts.find? (fun d => u8 p 0 == fmtZstd && d.number == u16 p 6) with
  | none => (.ok (0, .none), s)
  | some d =>
    match s.loadDict d with
    | (.error c, s) => (.error c, s)
    | (.ok z, s) => (.ok (d.id, z), s)

/-- One value of a COMPRESS stage: the stream the encoder makes, as the engine emits it, verified. -/
def State.compressJob (s : State) (p : List Byte) (slot cluster : Nat) (x : CellV) : Except Code (List Byte) × State :=
  match s.nextEngine cluster with
  | (none, s) => (.error C.NO_ENGINE, s)
  | (some (c, e), s) =>
    let fail (s : State) (code : Code) : Except Code (List Byte) × State :=
      (.error code, s.jobFailed c e cmpCompress slot x.bytes.length code)
    if x.poison then fail s C.INPUT_POISON
    else
      match s.stageDict p with
      | (.error code, s) => fail s code
      | (.ok (id, z), s) =>
        let f := u8 p 0
        let (d, s) := s.draw
        let (k, s) := s.draw
        let (out, stored) := encodeStream d f (u8 p 1) (u8 p 4) (u8 p 5) id z x.bytes
        let out := if Config.engineErrs d then Config.engineEmits d out else out
        match deflateOutcome out (u32 p 8) (outBound f x.bytes.length) (verifies f z x.bytes out) (Config.coin k) with
        | .error code => fail s code
        | .ok out => (.ok out, s.jobDone c e x.bytes.length out.length stored)

/-- A decompression job on an engine of a cluster; what keeps it from starting is a failure of the job. -/
def State.inflateJob (s : State) (cluster slot format stageDict limit : Nat) (input : List Byte) (stop : Option Code)
    (expected : Option Nat) : Except Code (List Byte) × State :=
  match s.nextEngine cluster with
  | (none, s) => (.error C.NO_ENGINE, s)
  | (some (c, e), s) =>
    let fail (s : State) (code : Code) : Except Code (List Byte) × State :=
      (.error code, s.jobFailed c e cmpDecompress slot input.length code)
    match stop with
    | some code => fail s code
    | none =>
      match s.inflated format stageDict limit input with
      | (.error code, s) => fail s code
      | (.ok out, s) =>
        match wholeOutput out expected with
        | .error code => fail s code
        | .ok out => (.ok out, s.jobDone c e input.length out.length 0)

/-- The ratio limit of a stage: RATIO, or CMP_CTL.RATIO_DEFAULT. -/
def State.ratioOf (s : State) (ratio : Nat) : Nat := if ratio = 0 then s.fget F.CMP_CTL_RATIO_DEFAULT else ratio

/-- One value of a DECOMPRESS stage; a poisoned word of it or of its expected size fails the job (R267). -/
def State.decompressJob (s : State) (p : List Byte) (slot cluster : Nat) (x : CellV) (expected : Except Code (Option Nat)) :
    Except Code (List Byte) × State :=
  let n := match expected with | .ok n => n | .error _ => none
  let stop := if x.poison then some C.INPUT_POISON else match expected with | .error c => some c | .ok _ => none
  s.inflateJob cluster slot (u8 p 0) (u16 p 4) (inflateLimit (u32 p 8) (s.ratioOf (u16 p 6)) x.bytes.length n) x.bytes stop n

/-- The jobs of a column in row order: a null gives a null and no job; the first failure ends the task. -/
def State.jobs (job : State → Nat → CellV → Except Code (List Byte) × State) :
    State → Nat → List CellV → Except Code (List CellV) × State
  | s, _, [] => (.ok [], s)
  | s, row, x :: rest =>
    let (r, s) : Except Code CellV × State := if !x.valid then (.ok ⟨false, [], false⟩, s)
      else
        match job s row x with
        | (.error c, s) => (.error c, s)
        | (.ok bs, s) => (.ok ⟨true, bs, false⟩, s)
    match r with
    | .error c => (.error c, s)
    | .ok y =>
      match State.jobs job s (row + 1) rest with
      | (.ok ys, s) => (.ok (y :: ys), s)
      | (.error c, s) => (.error c, s)

/-! ### Output chunks (R266) -/

def maxValueBytes : Nat := 0x40000000

/-- Row counts of the output chunks: each holds at most 1 GiB of value bytes. -/
def cutSizes : List Nat → Nat → Nat → List Nat
  | [], _, 0 => []
  | [], _, n => [n]
  | x :: r, sum, n =>
    if n ≠ 0 ∧ maxValueBytes < sum + x then n :: cutSizes r x 1 else cutSizes r (sum + x) (n + 1)

/-- Rows [a, a + n) of a chunk. -/
def Chunk.part (c : Chunk) (a n : Nat) : Chunk :=
  let rows := c.rows
  { c with sources := slice a n c.sources }.withRows
    ⟨rows.cols.map (fun (k : Column) => { k with cells := slice a n k.cells }), n, rows.rest.map (fun (q : RowRange) => { q with first := q.first + a })⟩

def Chunk.cut (c : Chunk) : List Nat → Nat → List Chunk
  | [], _ => []
  | n :: r, a => c.part a n :: Chunk.cut c r (a + n)

/-- A compression stage: the jobs of the input column, then the output column in the same rows. -/
def State.codeColumn (s : State) (t : Task) (r : Run) (inCol outCol : Nat) (also : List Nat)
    (job : Rows → State → Nat → CellV → Except Code (List Byte) × State) : State :=
  match s.fetch r t.chunk (inCol :: also) with
  | .error c => s.failTask t c
  | .ok (rows, s) =>
    match colAt rows.cols inCol with
    | none => s.endTask t [t.chunk]
    | some c =>
      match State.jobs (job rows) s 0 c.cells with
      | (.error code, s) => s.failTask t code
      | (.ok cells, s) =>
        let out := t.chunk.withRows { rows with cols := putCol rows.cols ⟨outCol, tBinary, 0, 0, cells⟩ }
        s.endTask t (out.cut (cutSizes (cells.map (fun x => x.bytes.length)) 0 0) 0)

def compress (task : Nat) (s : State) : State :=
  match s.runningTask task .compress with
  | none => s
  | some (t, st, _, r) =>
    let p := st.param
    s.codeColumn t r (u8 p 2) (u8 p 3) [] (fun _ s _ x => s.compressJob p t.slot (t.chunk.vault / 16) x)

/-- The expected size of a row; a poisoned one is an input word of its job (R267). -/
def expectedSize (rows : Rows) (col row : Nat) : Except Code (Option Nat) :=
  if col = 0xFF then .ok none
  else
    match colAt rows.cols col with
    | none => .ok none
    | some c =>
      let x := c.cell row
      if x.poison then .error C.INPUT_POISON else .ok (if x.valid then some (leNat x.bytes) else none)

def decompress (task : Nat) (s : State) : State :=
  match s.runningTask task .decompress with
  | none => s
  | some (t, st, _, r) =>
    let p := st.param
    s.codeColumn t r (u8 p 1) (u8 p 2) (if u8 p 3 = 0xFF then [] else [u8 p 3]) (fun rows s row x =>
      s.decompressJob p t.slot (t.chunk.vault / 16) x (expectedSize rows (u8 p 3) row))

/-- A job inside DECODE (R251, R268), under the limit that its page or image gives. -/
def State.decodeJob (s : State) (cluster slot format limit : Nat) (input : List Byte) : Except Code (List Byte) × State :=
  s.inflateJob cluster slot format 0xFFFF (min limit (s.ratioOf 0 * input.length)) input none none

end Sys2Proof.Machine
end

