-- ==== Sys2Proof/Machine/Images.lean ====
section
/-!
DEFINITION. Encoded images (R132): the header of a JPEG, whose scans are `Config.jpegSample` (log entry 6), and a PNG whole:
chunks, filters, Adam7, palettes. Readings of the two standards are log entry 179.
-/
namespace Sys2Proof.Machine

/-! ### JPEG (ISO/IEC 10918-1) -/

/-- A frame header: SOF code, precision, height, width, and each component's sampling factors. -/
structure JpegHead where
  sof : Nat
  precision : Nat
  h : Nat
  w : Nat
  sampling : List (Nat × Nat)
deriving DecidableEq, Repr

/-- A frame header's segment, after its length. -/
def jpegFrame (sof : Nat) (d : List Byte) : Option JpegHead :=
  let n := u8 d 5
  let h := beNat (slice 1 2 d)
  let w := beNat (slice 3 2 d)
  if d.length ≠ 6 + 3 * n ∨ h = 0 ∨ w = 0 then none
  else some ⟨sof, u8 d 0, h, w, (List.range n).map (fun i => (u8 d (7 + 3 * i) / 16, u8 d (7 + 3 * i) % 16))⟩

/-- The frame header of the segments that follow SOI; none at a bad marker, or where a scan or the end comes first. -/
def jpegSegments : Nat → List Byte → Option JpegHead
  | 0, _ => none
  | fuel + 1, bs =>
    if u8 bs 0 ≠ 0xFF ∨ bs.length < 4 then none
    else
      let k := u8 bs 1
      let n := beNat (slice 2 2 bs)
      if k = 0xFF then jpegSegments fuel (bs.drop 1)
      else if k = 1 ∨ (0xD0 ≤ k ∧ k ≤ 0xD7) then jpegSegments fuel (bs.drop 2)
      else if k < 0xC0 ∨ (0xD8 ≤ k ∧ k ≤ 0xDA) ∨ n < 2 ∨ bs.length < 2 + n then none
      else if k < 0xD0 ∧ k ≠ 0xC4 ∧ k ≠ 0xC8 ∧ k ≠ 0xCC then jpegFrame k (slice 4 (n - 2) bs)
      else jpegSegments fuel (bs.drop (2 + n))

def jpegHead (bs : List Byte) : Option JpegHead :=
  if beNat (bs.take 2) = 0xFFD8 then jpegSegments (bs.length + 1) (bs.drop 2) else none

/-- The accepted scope: SOF0 and SOF2, 8-bit, 1 component, or 3 in 4:4:4, 4:2:2 or 4:2:0. -/
def JpegHead.accepted (h : JpegHead) : Bool :=
  (h.sof == 0xC0 || h.sof == 0xC2) && h.precision == 8 && match h.sampling with
    | [_] => true
    | [y, b, r] => (y == (1, 1) || y == (2, 1) || y == (2, 2)) && b == (1, 1) && r == (1, 1)
    | _ => false

/-- A decoded JPEG: SIZE from its header, then TYPE, then its scans. -/
def decodeJpeg (maxW maxH : Nat) (bs : List Byte) : Except Loss Pix :=
  match jpegHead bs with
  | none => .error .decode
  | some h =>
    if maxW < h.w ∨ maxH < h.h then .error .size
    else if !h.accepted then .error .type
    else if Config.jpegGood bs then
      .ok ⟨h.w, h.h, h.sampling.length, 8,
        (List.range (h.w * h.h * h.sampling.length)).map (fun i => (Config.jpegSample bs i).toNat)⟩
    else .error .decode

/-! ### PNG (ISO/IEC 15948) -/

/-- An image before its data are inflated: size, colour type, bit depth, whether interlaced, palette, IDAT data. -/
structure Png where
  w : Nat
  h : Nat
  colour : Nat
  depth : Nat
  adam7 : Bool
  palette : List Byte
  idat : List Byte
deriving DecidableEq, Repr

/-- Chunk types as numbers, first letter most significant. -/
def pngIHDR : Nat := 0x49484452
def pngPLTE : Nat := 0x504C5445
def pngIDAT : Nat := 0x49444154
def pngIEND : Nat := 0x49454E44

/-- One chunk: type, data, the rest. A wrong CRC-32 loses the image as CHECKSUM. -/
def pngChunk (bs : List Byte) : Except Loss (Nat × List Byte × List Byte) :=
  let n := beNat (bs.take 4)
  if bs.length < 12 + n ∨ 0x7FFFFFFF < n then .error .decode
  else if beNat (slice (8 + n) 4 bs) ≠ crc32 (slice 4 (4 + n) bs) then .error .checksum
  else .ok (beNat (slice 4 4 bs), slice 8 n bs, bs.drop (12 + n))

/-- The chunks after IHDR up to IEND: palette and image data. A critical chunk of another type is refused; tRNS and every
other ancillary chunk are discarded. -/
def pngChunks : Nat → Png → List Byte → Except Loss Png
  | 0, _, _ => .error .decode
  | fuel + 1, p, bs =>
    match pngChunk bs with
    | .error e => .error e
    | .ok (k, d, r) =>
      if k = pngIEND then .ok p
      else if k = pngIDAT then pngChunks fuel { p with idat := p.idat ++ d } r
      else if k = pngPLTE then
        (if d.length % 3 ≠ 0 ∨ d.isEmpty ∨ 768 < d.length then .error .decode else pngChunks fuel { p with palette := d } r)
      else if bitAt k 29 then pngChunks fuel p r
      else .error .decode

/-- Bytes of a pixel before its palette is applied. -/
def Png.bpp (p : Png) : Nat := (if p.colour = 2 then 3 else if p.colour = 4 then 2 else if p.colour = 6 then 4 else 1) * p.depth / 8

/-- A PNG up to its image data: SIZE from IHDR, then TYPE, then the other chunks. -/
def readPng (maxW maxH : Nat) (bs : List Byte) : Except Loss Png := do
  if beNat (bs.take 8) ≠ 0x89504E470D0A1A0A then throw .decode
  let (k, d, r) ← pngChunk (bs.drop 8)
  let p : Png := ⟨beNat (d.take 4), beNat (slice 4 4 d), u8 d 9, u8 d 8, u8 d 12 == 1, [], []⟩
  if k ≠ pngIHDR ∨ d.length ≠ 13 ∨ p.w = 0 ∨ p.h = 0 then throw .decode
  if maxW < p.w ∨ maxH < p.h then throw .size
  if [1, 2, 4].contains p.depth then throw .type
  if !([8, 16].contains p.depth) ∨ !([0, 2, 3, 4, 6].contains p.colour) ∨ (p.colour = 3 ∧ p.depth = 16) ∨ u16 d 10 ≠ 0 ∨
    1 < u8 d 12 then throw .decode
  let p ← pngChunks (bs.length + 1) p r
  if p.idat.isEmpty ∨ (p.colour = 3 ∧ p.palette.isEmpty) then throw .decode
  return p

/-- The passes of an image, each the first column and row and their steps: Adam7's seven, or one. -/
def Png.passes (p : Png) : List (Nat × Nat × Nat × Nat) :=
  if p.adam7 then [(0, 0, 8, 8), (4, 0, 8, 8), (0, 4, 4, 8), (2, 0, 4, 4), (0, 2, 2, 4), (1, 0, 2, 2), (0, 1, 1, 2)]
  else [(0, 0, 1, 1)]

/-- Columns and rows of a pass; a pass without one has no rows at all. -/
def Png.passSize (p : Png) (q : Nat × Nat × Nat × Nat) : Nat × Nat :=
  let w := ceilDiv (p.w - q.1) q.2.2.1
  let h := ceilDiv (p.h - q.2.1) q.2.2.2
  if w = 0 then (0, 0) else (w, h)

/-- Bytes of the filtered rows that IHDR implies (R268). -/
def Png.filtered (p : Png) : Nat := (p.passes.map (fun q => let n := p.passSize q; n.2 * (1 + n.1 * p.bpp))).sum

def paeth (a b c : Nat) : Nat :=
  let d (x : Nat) : Nat := ((a + b - c : Int) - x).natAbs
  if d a ≤ d b ∧ d a ≤ d c then a else if d b ≤ d c then b else c

/-- One row unfiltered: filter 0 to 4, the row above; `acc` holds the bytes done, newest first. -/
def unfilterRow (ft bpp : Nat) (above : List Byte) : List Byte → List Byte → List Byte
  | [], acc => acc.reverse
  | x :: r, acc =>
    let i := acc.length
    let a := (acc.getD (bpp - 1) 0).toNat
    let b := (above.getD i 0).toNat
    let c := if i < bpp then 0 else (above.getD (i - bpp) 0).toNat
    let add := if ft = 0 then 0 else if ft = 1 then a else if ft = 2 then b else if ft = 3 then (a + b) / 2 else paeth a b c
    unfilterRow ft bpp above r ((x + BitVec.ofNat 8 add) :: acc)

/-- The rows of a pass, and the bytes after it; a filter type above 4 is refused. -/
def unfilterRows (bpp w : Nat) : Nat → List Byte → List Byte → Option (List (List Byte) × List Byte)
  | 0, _, bs => some ([], bs)
  | n + 1, above, bs =>
    match bs with
    | [] => none
    | ft :: r =>
      if 4 < ft.toNat then none
      else
        let row := unfilterRow ft.toNat bpp above (r.take (w * bpp)) []
        (unfilterRows bpp w n row (r.drop (w * bpp))).map (fun e => (row :: e.1, e.2))

def Png.unfilter (p : Png) : List (Nat × Nat × Nat × Nat) → List Byte → Option (List (List (List Byte)))
  | [], _ => some []
  | q :: r, bs =>
    match unfilterRows p.bpp (p.passSize q).1 (p.passSize q).2 [] bs with
    | none => none
    | some (rows, bs) => (p.unfilter r bs).map (rows :: ·)

/-- The samples of a pixel: palettes are expanded to RGB, alpha is discarded. -/
def Png.samples (p : Png) (px : List Byte) : Option (List Nat) :=
  if p.colour = 3 then
    (if p.palette.length ≤ 3 * u8 px 0 then none
     else some ((slice (3 * u8 px 0) 3 p.palette).map BitVec.toNat))
  else
    let n := p.depth / 8
    some ((List.range (if p.colour = 2 ∨ p.colour = 6 then 3 else 1)).map (fun i => beNat (slice (i * n) n px)))

/-- The pass that holds a pixel, and the pixel's bytes there. -/
def Png.pixel (p : Png) (rows : List (List (List Byte))) (x y : Nat) : List Byte :=
  match (p.passes.zip rows).find? (fun e =>
    decide (e.1.1 ≤ x ∧ e.1.2.1 ≤ y) && (x - e.1.1) % e.1.2.2.1 == 0 && (y - e.1.2.1) % e.1.2.2.2 == 0) with
  | none => []
  | some (q, rows) => slice ((x - q.1) / q.2.2.1 * p.bpp) p.bpp (rows.getD ((y - q.2.1) / q.2.2.2) [])

/-- The image of inflated rows. -/
def Png.image (p : Png) (bs : List Byte) : Except Loss Pix :=
  if bs.length ≠ p.filtered then .error .decode
  else
    match p.unfilter p.passes bs with
    | none => .error .decode
    | some rows =>
      match ((List.range p.h).flatMap (fun y => (List.range p.w).map (fun x => p.pixel rows x y))).mapM p.samples with
      | none => .error .decode
      | some px => .ok ⟨p.w, p.h, if p.colour = 0 ∨ p.colour = 4 then 1 else 3, p.depth, px.flatten⟩

end Sys2Proof.Machine
end

