-- ==== Sys2Proof/Machine/Parquet.lean ====
section
/-!
DEFINITION. Parquet pages (R129, R130): the Thrift compact PageHeader, the scope of R130, levels and the encodings PLAIN,
RLE_DICTIONARY, RLE/bit-packed hybrid and DELTA_BINARY_PACKED. Readings of the standard are log entry 180.
-/
namespace Sys2Proof.Machine

/-! ### Thrift compact protocol -/

/-- A variable-length number: seven bits a byte, least significant first. -/
def varint : List Byte → Option (Nat × List Byte)
  | [] => none
  | b :: r => if b.toNat < 128 then some (b.toNat, r) else (varint r).map (fun e => (b.toNat - 128 + 128 * e.1, e.2))

def zigzag (n : Nat) : Int := if n % 2 = 0 then (n / 2 : Nat) else -((n / 2 : Nat) : Int) - 1

/-- What is still to be read: a value of a type under a path of field numbers, or the fields that follow one. -/
inductive TItem where
  | val (typ : Nat) (path : List Nat)
  | fields (path : List Nat) (last : Nat)
deriving DecidableEq, Repr

/-- The integers and Booleans of a structure by path, and the bytes after it; other values are skipped. -/
def thrift : Nat → List TItem → List (List Nat × Int) → List Byte → Option (List (List Nat × Int) × List Byte)
  | 0, _, _, _ => none
  | _, [], acc, bs => some (acc, bs)
  | fuel + 1, .fields path last :: st, acc, bs =>
    match bs with
    | [] => none
    | b :: r =>
      let typ := b.toNat % 16
      if typ = 0 then thrift fuel st acc r
      else
        let id := if b.toNat / 16 ≠ 0 then some (last + b.toNat / 16, r) else (varint r).map (fun e => ((zigzag e.1).toNat, e.2))
        match id with
        | none => none
        | some (id, r) => thrift fuel (.val typ (path ++ [id]) :: .fields path id :: st) acc r
  | fuel + 1, .val typ path :: st, acc, bs =>
    if typ = 1 ∨ typ = 2 then thrift fuel st (acc ++ [(path, 2 - (typ : Int))]) bs
    else if typ = 3 ∨ typ = 16 then (if bs.isEmpty then none else thrift fuel st acc (bs.drop 1))
    else if typ ≤ 6 then
      match varint bs with
      | none => none
      | some (n, r) => thrift fuel st (acc ++ [(path, zigzag n)]) r
    else if typ = 7 then (if bs.length < 8 then none else thrift fuel st acc (bs.drop 8))
    else if typ = 8 then
      match varint bs with
      | none => none
      | some (n, r) => if r.length < n then none else thrift fuel st acc (r.drop n)
    else if typ = 9 ∨ typ = 10 then
      match bs with
      | [] => none
      | b :: r =>
        let elem := if b.toNat % 16 ≤ 2 then 16 else b.toNat % 16
        match (if b.toNat / 16 < 15 then some (b.toNat / 16, r) else varint r) with
        | none => none
        | some (n, r) =>
          if r.length < n then none else thrift fuel (List.replicate n (.val elem (path ++ [0])) ++ st) acc r
    else if typ = 11 then
      match varint bs with
      | none => none
      | some (n, r) =>
        if n = 0 then thrift fuel st acc r
        else
          let side (k : Nat) : Nat := if k ≤ 2 then 16 else k
          if r.length < n then none
          else thrift fuel ((List.replicate n
            [TItem.val (side (u8 r 0 / 16)) (path ++ [0]), .val (side (u8 r 0 % 16)) (path ++ [0])]).flatten ++ st) acc (r.drop 1)
    else if typ = 12 then thrift fuel (.fields path 0 :: st) acc bs
    else none

/-! ### The page header -/

/-- What a PageHeader says: kind (0 data, 2 dictionary, 3 data version 2), sizes, CRC, values, encodings, the level bytes of
version 2 and whether its values are compressed; bytes of the header. -/
structure PageHead where
  kind : Nat
  full : Nat
  comp : Nat
  crc : Option Nat
  values : Nat
  encoding : Nat
  defEnc : Nat
  repEnc : Nat
  defLen : Nat
  repLen : Nat
  packed : Bool
  bytes : Nat
deriving DecidableEq, Repr

/-- A PageHeader at the front of bytes; none where it is malformed or not whole. -/
def pageHead (bs : List Byte) : Option PageHead := do
  let (fs, rest) ← thrift (4 * bs.length + 4) [.fields [] 0] [] bs
  let get (p : List Nat) : Option Int := (fs.find? (fun e => e.1 == p)).map (·.2)
  let nat (p : List Nat) : Option Nat := (get p).bind (fun i => if 0 ≤ i then some i.toNat else none)
  let kind ← nat [1]
  let full ← nat [2]
  let comp ← nat [3]
  let crc := (get [4]).map (ofSigned 32)
  let n := bs.length - rest.length
  if kind = 0 then
    return ⟨0, full, comp, crc, ← nat [5, 1], ← nat [5, 2], ← nat [5, 3], ← nat [5, 4], 0, 0, true, n⟩
  else if kind = 2 then return ⟨2, full, comp, crc, ← nat [7, 1], ← nat [7, 2], 3, 3, 0, 0, true, n⟩
  else if kind = 3 then
    let _ ← nat [8, 2]
    let _ ← nat [8, 3]
    return ⟨3, full, comp, crc, ← nat [8, 1], ← nat [8, 4], 3, 3, ← nat [8, 5], ← nat [8, 6], (get [8, 7]).getD 1 != 0, n⟩
  else return ⟨kind, full, comp, crc, 0, 0, 0, 0, 0, 0, true, n⟩

/-! ### Types -/

/-- A physical type: BOOLEAN, INT32 and INT64, FLOAT and DOUBLE, BYTE_ARRAY, FIXED_LEN_BYTE_ARRAY of a length. -/
inductive Phys where
  | boolean
  | int (bytes : Nat)
  | float (bytes : Nat)
  | array
  | fixed (n : Nat)
deriving DecidableEq, Repr

/-- The physical type that a schema's column type is stored as; lists are nested, outside R130's scope. -/
def pagePhys (typ width : Nat) : Option Phys :=
  if typ = tBool then some .boolean
  else if [1, 2, 3, 5, 6, 7, 0x10].contains typ then some (.int 4)
  else if [4, 8, 0x11].contains typ then some (.int 8)
  else if typ = 0x0A then some (.float 4)
  else if typ = 0x0B then some (.float 8)
  else if typ = tUtf8 ∨ typ = tBinary then some .array
  else if typ = 0x0F then some (.fixed width)
  else if typ = 0x09 then some (.fixed 2)
  else none

def encPlain : Nat := 0
def encRle : Nat := 3
def encDelta : Nat := 5
def encDict : Nat := 8

/-- Whether a page falls inside the scope of R130: a data page of version 1 or 2, or a dictionary page; definition levels
as RLE; no repetition; an accepted encoding of the physical type. -/
def PageHead.accepted (h : PageHead) (phys : Option Phys) (nullable : Bool) : Bool :=
  match phys with
  | none => false
  | some p =>
    let levels := h.repLen == 0 && (!nullable || h.defEnc == encRle)
    (h.kind == 2 && h.encoding == encPlain) ||
      ((h.kind == 0 || h.kind == 3) && levels &&
        (h.encoding == encPlain || h.encoding == encDict || (h.encoding == encRle && p == .boolean) ||
          (h.encoding == encDelta && (p == .int 4 || p == .int 8))))

/-! ### Encodings -/

/-- Numbers of `w` bits each, packed least significant bit first: the first `n`. -/
def unpackBits (w n : Nat) (bs : List Byte) : List Nat :=
  let l := bitsLsb (bs.take (ceilDiv (w * n) 8))
  (List.range n).map (fun i => lsbNat (slice (w * i) w l))

/-- The RLE/bit-packed hybrid of width `w`: `n` numbers, or none where the data end first. -/
def hybrid (w : Nat) : Nat → Nat → List Byte → Option (List Nat)
  | 0, _, _ => none
  | fuel + 1, n, bs =>
    if n = 0 then some []
    else
      match varint bs with
      | none => none
      | some (h, r) =>
        if h % 2 = 1 then
          let m := min n (min (h / 2 * 8) (8 * r.length / w))
          if m = 0 then none else (hybrid w fuel (n - m) (r.drop (h / 2 * w))).map (unpackBits w m r ++ ·)
        else
          let k := ceilDiv w 8
          let m := min n (h / 2)
          if r.length < k then none else (hybrid w fuel (n - m) (r.drop k)).map (List.replicate m (leNat (r.take k)) ++ ·)

def readHybrid (w n : Nat) (bs : List Byte) : Option (List Nat) := hybrid w (bs.length + 1) n bs

/-- Byte arrays, each behind its length. -/
def plainArrays : Nat → List Byte → Option (List (List Byte))
  | 0, _ => some []
  | n + 1, bs =>
    if bs.length < 4 + u32 bs 0 then none
    else (plainArrays n (bs.drop (4 + u32 bs 0))).map (slice 4 (u32 bs 0) bs :: ·)

/-- `n` PLAIN values. -/
def plainValues (p : Phys) (n : Nat) (bs : List Byte) : Option (List (List Byte)) :=
  let fixed (k : Nat) := if bs.length < k * n then none else some ((List.range n).map (fun i => slice (k * i) k bs))
  match p with
  | .boolean => if 8 * bs.length < n then none else some ((unpackBits 1 n bs).map (natLe 1))
  | .int k => fixed k
  | .float k => fixed k
  | .array => plainArrays n bs
  | .fixed k => fixed k

/-- The deltas of one block's miniblocks; a miniblock with no value left is not stored. -/
def miniblocks (each : Nat) (low : Int) : List Nat → Nat → List Byte → Option (List Int × List Byte)
  | [], _, bs => some ([], bs)
  | w :: ws, n, bs =>
    if n = 0 then some ([], bs)
    else
      let size := each * w / 8
      if bs.length < size ∨ 64 < w then none
      else
        let ds := (unpackBits w (min n each) bs).map (fun (v : Nat) => low + (v : Int))
        (miniblocks each low ws (n - min n each) (bs.drop size)).map (fun e => (ds ++ e.1, e.2))

/-- The deltas of the blocks: `n` of them. -/
def deltaBlocks (each mini : Nat) : Nat → Nat → List Byte → Option (List Int)
  | 0, _, _ => none
  | fuel + 1, n, bs =>
    if n = 0 then some []
    else
      match varint bs with
      | none => none
      | some (low, r) =>
        if r.length < mini then none
        else
          match miniblocks each (zigzag low) ((r.take mini).map BitVec.toNat) n (r.drop mini) with
          | none => none
          | some (ds, r) => if ds.isEmpty then none else (deltaBlocks each mini fuel (n - ds.length) r).map (ds ++ ·)

/-- Running sums from a first value. -/
def sumsFrom (x : Int) : List Int → List Int
  | [] => [x]
  | d :: r => x :: sumsFrom (x + d) r

/-- `n` DELTA_BINARY_PACKED integers of `k` bytes. -/
def deltaValues (k n : Nat) (bs : List Byte) : Option (List (List Byte)) := do
  let (block, r) ← varint bs
  let (mini, r) ← varint r
  let (total, r) ← varint r
  let (first, r) ← varint r
  if mini = 0 ∨ block % 128 ≠ 0 ∨ block = 0 ∨ block % mini ≠ 0 ∨ block / mini % 32 ≠ 0 ∨ total < n then none
  if n = 0 then return []
  let ds ← deltaBlocks (block / mini) mini (bs.length + 1) (n - 1) r
  return (sumsFrom (zigzag first) ds).map (fun i => natLe k (ofSigned (8 * k) i))

/-- Why a page's values are not read: outside the scope (R130), or corrupt. -/
abbrev PageRead (α : Type) := Except Code α

/-- `n` values of a page's encoding; `dict` holds the dictionary page's values. -/
def pageValues (p : Phys) (encoding n : Nat) (dict : List (List Byte)) (bs : List Byte) : PageRead (List (List Byte)) :=
  let some? (x : Option (List (List Byte))) : PageRead (List (List Byte)) :=
    match x with | some v => .ok v | none => .error C.PAGE_CORRUPT
  if encoding = encPlain then some? (plainValues p n bs)
  else if encoding = encRle then
    some? (if bs.length < 4 then none else (readHybrid 1 n ((bs.drop 4).take (u32 bs 0))).map (fun l => l.map (natLe 1)))
  else if encoding = encDelta then some? (deltaValues (match p with | .int k => k | _ => 8) n bs)
  else if n = 0 then .ok []
  else if bs.isEmpty then .error C.PAGE_CORRUPT
  else if u8 bs 0 = 0 ∨ 32 < u8 bs 0 then .error C.CODEC_UNSUPPORTED
  else some? ((readHybrid (u8 bs 0) n (bs.drop 1)).bind (fun ix => ix.mapM (fun i => dict[i]?)))

/-- Values put where their rows are present. -/
def spreadValues : List Nat → List (List Byte) → List (Option (List Byte))
  | [], _ => []
  | d :: ds, vs => if d = 1 then vs.head? :: spreadValues ds (vs.drop 1) else none :: spreadValues ds vs

/-- Definition levels of a page's rows (1 present) and the bytes after them. -/
def pageLevels (h : PageHead) (nullable : Bool) (rows : Nat) (levels body : List Byte) : Option (List Nat × List Byte) :=
  if !nullable then some (List.replicate rows 1, body)
  else if h.kind = 3 then (readHybrid 1 rows levels).map (fun l => (l, body))
  else if body.length < 4 + u32 body 0 then none
  else (readHybrid 1 rows (slice 4 (u32 body 0) body)).map (fun l => (l, body.drop (4 + u32 body 0)))

/-- The rows of a data page: `levels` are version 2's level bytes, `body` the decompressed data. -/
def dataPage (h : PageHead) (p : Phys) (nullable : Bool) (keep rows : Nat) (dict : List (List Byte)) (levels body : List Byte) :
    PageRead (List (Option (List Byte))) :=
  if h.values < rows then .error C.PAGE_CORRUPT
  else
    match pageLevels h nullable rows levels body with
    | none => .error C.PAGE_CORRUPT
    | some (ds, body) =>
      match pageValues p h.encoding (ds.count 1) dict body with
      | .error c => .error c
      | .ok vs => .ok ((spreadValues ds vs).map (fun v => v.map (fun b => if keep = 0 then b else b.take keep)))

/-- The values of a dictionary page. -/
def dictPage (h : PageHead) (p : Phys) (body : List Byte) : PageRead (List (List Byte)) := pageValues p encPlain h.values [] body

/-- The engine's format for a page codec: none where the page is not compressed; others are outside R130. -/
def codecFormat (codec : Nat) : Option (Option Nat) :=
  if codec = 0 then some none else if codec = 2 then some (some 3) else if codec = 6 then some (some 4)
  else if codec = 7 then some (some 5) else none

/-- How a page job's failure ends the run (R268). -/
def pageFailure (c : Code) : Code :=
  if c = C.CHECKSUM_MISMATCH ∨ c = C.CORRUPT ∨ c = C.EXPANSION then C.PAGE_CORRUPT else c

end Sys2Proof.Machine
end

