-- ==== Sys2Proof/Machine/Straggle.lean ====
section
/-!
DEFINITION. The mean task time of the stages that produce samples, and the limits at which a task is deferred or
abandoned (R144, R145).
-/
namespace Sys2Proof.Machine

/-- Whether a stage produces samples: DECODE, but of Parquet pages, PARSE and PYRAMID (R144, R130). -/
def StageRec.makesSamples (st : StageRec) : Bool :=
  (st.op == .decode && u8 st.param 0 != 1) || st.op == .parse || st.op == .pyramid

/-- The parameter block of the BATCH stage that a stage feeds. -/
def State.batchFed (s : State) (slot stage flow : Nat) : Option (List Byte) :=
  match s.pipelineOf slot with
  | none => none
  | some p => ((p.batchesFrom 64 stage flow).head?).bind (fun e => (p.stages[e.1]?).map (·.param))

def deferMult (p : List Byte) : Nat := if u8 p 3 = 0 then 8 else u8 p 3
def abandonMult (p : List Byte) : Nat := if u16 p 8 = 0 then 64 else u16 p 8
def meanInit (p : List Byte) : Nat := if u32 p 20 = 0 then 1000 else u32 p 20

/-- m of a stage in ns, as a fraction: MEAN_INIT before the first completion. -/
def State.mean (s : State) (slot stage : Nat) (block : List Byte) : Nat × Nat :=
  match (s.workOf slot).means.find? (·.stage == stage) with
  | some m => if m.n = 0 then (meanInit block * 1000, 1) else (m.num, m.den)
  | none => (meanInit block * 1000, 1)

/-- m after one more completion with time `t` (R144): the arithmetic mean of the first 64, then m + (t − m) / 64. -/
def MeanTime.add (m : MeanTime) (t : Nat) : MeanTime :=
  let (num, den) := if m.n < 64 then (m.num * m.n + t * m.den, m.den * (m.n + 1)) else (63 * m.num + t * m.den, 64 * m.den)
  let g := max 1 (Nat.gcd num den)
  { m with n := m.n + 1, num := num / g, den := den / g }

def State.countMean (s : State) (slot stage t : Nat) : State :=
  s.modWork slot (fun w =>
    let m := (w.means.find? (·.stage == stage)).getD ⟨stage, 0, 0, 1⟩
    { w with means := w.means.filter (·.stage != stage) ++ [m.add t] })

/-- The time of a RUNNING task from its latest dispatch, without the time its stream was blocked (R144, R214); at least
1 ns, since no task takes no time (log entry 64). -/
def State.taskTime (s : State) (t : Task) : Nat :=
  let blocked := match s.pat.find? (·.task == t.id) with
    | some x => x.waited + (match x.blockedAt with | some b => s.now - b | none => 0)
    | none => 0
  max 1 (s.now - t.sentAt - blocked)

/-- What the limits say of a task at this moment (R145). -/
inductive Limit where
  | within | defer | abandon
deriving DecidableEq, Repr

/-- The limit a time has reached, with the limit's length in ns: D = DEFER_MULT × m, A = max(ABANDON_MULT × m, 2 ms). -/
def limitAt (ordered : Bool) (block : List Byte) (mean : Nat × Nat) (time : Nat) : Limit × Nat :=
  let past (mult : Nat) : Bool := decide (mult * mean.1 ≤ time * mean.2)
  let d := ceilDiv (deferMult block * mean.1) mean.2
  let a := max (ceilDiv (abandonMult block * mean.1) mean.2) 2000000
  if ordered then (if past (deferMult block) then (.abandon, d) else (.within, 0))
  else if past (abandonMult block) && decide (2000000 ≤ time) then (.abandon, a)
  else if past (deferMult block) then (.defer, d)
  else (.within, 0)

def State.limit (s : State) (t : Task) (st : StageRec) (p : Pipeline) : Limit × Nat :=
  match s.batchFed t.slot t.stage t.chunk.flow with
  | none => (.within, 0)
  | some b => limitAt (p.isOrdered (st.flowOf t.chunk.flow)) b (s.mean t.slot t.stage b) (s.taskTime t)

/-- A task is abandoned (R145, R311): its sample is lost as STRAGGLER, its position carries the marker, and it counts in
the mean with the limit it reached. -/
def State.abandonTask (s : State) (t : Task) (st : StageRec) (p : Pipeline) (limit source : Nat) : State :=
  let s := s.countMean t.slot t.stage limit
  let s := s.loseSample t.slot t.stage t.chunk.flow source .straggler
  let s := (s.logTask 0x05 t t.core 0x0B02).bump F.DSP_CANCEL_AFTER 0 1
  (s.deliverCancelled t st p (some (.lost source .straggler))).dropTask t false

/-- A task that produces a sample completes: unless it has reached a limit, which then holds (R145). A deferred task's
sample is LATE. -/
def State.endSample (s : State) (t : Task) (st : StageRec) (p : Pipeline) (outs : List Chunk) : State :=
  match s.limit t st p with
  | (.abandon, l) => s.abandonTask t st p l (t.chunk.sources.headD 0)
  | (x, _) =>
    let late := t.deferred || t.chunk.late || x == .defer
    (s.countMean t.slot t.stage (s.taskTime t)).endTask t (outs.map (fun c => { c with late := late }))

end Sys2Proof.Machine
end

