-- ==== Sys2Proof/Machine/Text.lean ====
section
/-!
DEFINITION. Text: the pre-scan that finds records (R131, R216), delimited fields (R216), JSON records (R217), and the
conversion of a field to its column's type (R218).
-/
namespace Sys2Proof.Machine

/-! ### Records (R131, R216) -/

/-- Where the pre-scan stands: at the start of a field, in an unquoted field, in a quoted one, after a QUOTE in a quoted
one, or past the limit of a record that is too long. -/
inductive ScanAt where
  | start | plain | quoted | quote | past
deriving DecidableEq, Repr

/-- A byte of text with its poison. -/
abbrev TByte := Byte × Bool

def isByte (n : Nat) (b : Byte) : Bool := b.toNat == n

/-- The state after a byte that ends no record. -/
def ScanAt.next (delim quote : Nat) (a : ScanAt) (b : Byte) : ScanAt :=
  let open_ := if isByte delim b then ScanAt.start else .plain
  match a with
  | .start => if isByte quote b then .quoted else open_
  | .plain => open_
  | .quoted => if isByte quote b then .quote else .quoted
  | .quote => if isByte quote b then .quoted else open_
  | .past => .past

/-- A record without its line end: one LF, or CR LF. -/
def dropCr (r : List TByte) : List TByte :=
  match r with
  | b :: rest => if isByte 13 b.1 then rest else r
  | [] => []

/-- Cut text into records, each with the offset of its first byte; `pos` is the offset of the next byte, `cur` holds the record
so far, last byte first. Empty lines are no records. A quoted text has a DELIM and a QUOTE; JSON Lines have neither (256
matches no byte). A record past MAX_BYTES ends at the first LF after the limit, quoted or not. -/
def cutRecords (delim quote max : Nat) : List TByte → Nat → ScanAt → List TByte → List (Nat × List TByte)
  | [], pos, _, cur => if cur.isEmpty then [] else [(pos - cur.length, cur.reverse)]
  | b :: r, pos, a, cur =>
    if isByte 10 b.1 && a != .quoted then
      let line := (dropCr cur).reverse
      if line.isEmpty then cutRecords delim quote max r (pos + 1) .start []
      else (pos - cur.length, line) :: cutRecords delim quote max r (pos + 1) .start []
    else if isByte 10 b.1 && max ≤ cur.length then
      (pos - cur.length, (b :: cur).reverse) :: cutRecords delim quote max r (pos + 1) .start []
    else
      let crEnd := isByte 13 b.1 && (match r with | c :: _ => isByte 10 c.1 | [] => false)
      let a := if max ≤ cur.length && !crEnd then .past else a.next delim quote b.1
      cutRecords delim quote max r (pos + 1) a (b :: cur)

def cutPlaced (delim quote max : Nat) (bs : List TByte) : List (Nat × List TByte) := cutRecords delim quote max bs 0 .start []

/-! ### Delimited fields (R216) -/

/-- The fields of a record: none where a QUOTE stands inside a field, bytes follow a closing QUOTE, or a quote stays
open. `cur` holds the field so far, last byte first. -/
def cutFields (delim quote : Nat) : List Byte → ScanAt → List Byte → Option (List (List Byte))
  | [], a, cur => if a == .quoted then none else some [cur.reverse]
  | b :: r, a, cur =>
    match a with
    | .quoted => if isByte quote b then cutFields delim quote r .quote cur else cutFields delim quote r .quoted (b :: cur)
    | .quote =>
      if isByte quote b then cutFields delim quote r .quoted (b :: cur)
      else if isByte delim b then (cutFields delim quote r .start []).map (cur.reverse :: ·)
      else none
    | .start =>
      if isByte quote b then cutFields delim quote r .quoted []
      else if isByte delim b then (cutFields delim quote r .start []).map ([] :: ·)
      else cutFields delim quote r .plain [b]
    | _ =>
      if isByte quote b then none
      else if isByte delim b then (cutFields delim quote r .start []).map (cur.reverse :: ·)
      else cutFields delim quote r .plain (b :: cur)

/-! ### UTF-8 -/

def isTail (b : Byte) : Bool := decide (0x80 ≤ b.toNat ∧ b.toNat ≤ 0xBF)

/-- Whether bytes are valid UTF-8: no overlong form, no surrogate, nothing above U+10FFFF. `fuel` bounds the
characters. -/
def validUtf8 : Nat → List Byte → Bool
  | 0, l => l.isEmpty
  | _ + 1, [] => true
  | fuel + 1, b :: r =>
    let x := b.toNat
    if x < 0x80 then validUtf8 fuel r
    else
      match r with
      | c :: r1 =>
        let y := c.toNat
        if 0xC2 ≤ x ∧ x ≤ 0xDF then isTail c && validUtf8 fuel r1
        else
          match r1 with
          | d :: r2 =>
            if 0xE0 ≤ x ∧ x ≤ 0xEF then
              isTail c && isTail d && (x != 0xE0 || decide (0xA0 ≤ y)) && (x != 0xED || decide (y ≤ 0x9F)) &&
                validUtf8 fuel r2
            else
              match r2 with
              | e :: r3 =>
                decide (0xF0 ≤ x ∧ x ≤ 0xF4) && isTail c && isTail d && isTail e && (x != 0xF0 || decide (0x90 ≤ y)) &&
                  (x != 0xF4 || decide (y ≤ 0x8F)) && validUtf8 fuel r3
              | [] => false
          | [] => false
      | [] => false

def isUtf8 (bs : List Byte) : Bool := validUtf8 (bs.length + 1) bs

/-- The UTF-8 bytes of a code point. -/
def utf8Of (c : Nat) : List Byte :=
  let t (k : Nat) : Nat := 0x80 + (c >>> k) % 64
  (if c < 0x80 then [c] else if c < 0x800 then [0xC0 + c / 64, t 0]
   else if c < 0x10000 then [0xE0 + c / 4096, t 6, t 0] else [0xF0 + c / 262144, t 12, t 6, t 0]).map (BitVec.ofNat 8)

/-! ### JSON (R217) -/

/-- A JSON value as far as a column needs it: decoded string, text of a number or a boolean, null, anything nested. -/
inductive JVal where
  | text (bs : List Byte)
  | null
  | nested
deriving DecidableEq, Repr

def isWs (b : Byte) : Bool := [9, 10, 13, 32].contains b.toNat

def skipWs : List Byte → List Byte
  | [] => []
  | b :: r => if isWs b then skipWs r else b :: r

def isDigit (b : Byte) : Bool := decide (48 ≤ b.toNat ∧ b.toNat ≤ 57)

def hexDigit (b : Byte) : Option Nat :=
  let x := b.toNat
  if 48 ≤ x ∧ x ≤ 57 then some (x - 48) else if 65 ≤ x ∧ x ≤ 70 then some (x - 55)
  else if 97 ≤ x ∧ x ≤ 102 then some (x - 87) else none

/-- Four hexadecimal digits. -/
def hex4 (bs : List Byte) : Option Nat :=
  if bs.length < 4 then none
  else (bs.take 4).foldl (fun acc b => match acc, hexDigit b with
    | some n, some d => some (16 * n + d)
    | _, _ => none) (some 0)

/-- The character of a one-letter escape. -/
def escapeChar (x : Nat) : Option Nat :=
  match x with
  | 34 => some 34 | 92 => some 92 | 47 => some 47 | 98 => some 8 | 102 => some 12 | 110 => some 10 | 114 => some 13
  | 116 => some 9 | _ => none

/-- The rest of a string after its opening quote: decoded bytes and what follows. -/
def jsonString : Nat → List Byte → List Byte → Option (List Byte × List Byte)
  | 0, _, _ => none
  | _ + 1, [], _ => none
  | fuel + 1, b :: r, acc =>
    if isByte 34 b then some (acc.reverse, r)
    else if isByte 92 b then
      match r with
      | c :: r1 =>
        if isByte 117 c then
          match hex4 r1 with
          | none => none
          | some u =>
            let r2 := r1.drop 4
            if 0xD800 ≤ u ∧ u ≤ 0xDBFF then
              match r2.map BitVec.toNat, hex4 (r2.drop 2) with
              | 92 :: 117 :: _, some v =>
                if 0xDC00 ≤ v ∧ v ≤ 0xDFFF then
                  jsonString fuel (r2.drop 6) ((utf8Of (0x10000 + (u - 0xD800) * 1024 + (v - 0xDC00))).reverse ++ acc)
                else none
              | _, _ => none
            else if 0xDC00 ≤ u ∧ u ≤ 0xDFFF then none
            else jsonString fuel r2 ((utf8Of u).reverse ++ acc)
        else
          match escapeChar c.toNat with
          | some x => jsonString fuel r1 (BitVec.ofNat 8 x :: acc)
          | none => none
      | [] => none
    else if b.toNat < 32 then none
    else jsonString fuel r (b :: acc)

/-- Leading digits and the rest. -/
def digits (bs : List Byte) : List Byte × List Byte := (bs.takeWhile isDigit, bs.dropWhile isDigit)

/-- A number of JSON: its text and what follows. -/
def jsonNumber (bs : List Byte) : Option (List Byte × List Byte) :=
  let (sign, r) := match bs with
    | b :: r => if isByte 45 b then ([b], r) else ([], bs)
    | [] => ([], bs)
  let (int, r) := digits r
  if int.isEmpty || (1 < int.length && isByte 48 (int.headD 0)) then none
  else
    let (frac, r) := match r with
      | b :: q => if isByte 46 b then (b :: (digits q).1, (digits q).2) else ([], r)
      | [] => ([], r)
    if frac.length = 1 then none
    else
      let (exp, r) := match r with
        | b :: q =>
          if isByte 101 b || isByte 69 b then
            match q with
            | c :: q' => if isByte 43 c || isByte 45 c then ([b, c] ++ (digits q').1, (digits q').2)
                else (b :: (digits q).1, (digits q).2)
            | [] => ([b], q)
          else ([], r)
        | [] => ([], r)
      if !exp.isEmpty && !isDigit (exp.getLastD 0) then none else some (sign ++ int ++ frac ++ exp, r)

def ascii (s : List Nat) : List Byte := s.map (BitVec.ofNat 8)
def txtTrue : List Byte := ascii [116, 114, 117, 101]
def txtFalse : List Byte := ascii [102, 97, 108, 115, 101]
def txtNull : List Byte := ascii [110, 117, 108, 108]

def stripPrefix (p bs : List Byte) : Option (List Byte) := if bs.take p.length = p then some (bs.drop p.length) else none

mutual

/-- A JSON value and what follows. `fuel` bounds the steps. -/
def jsonValue : Nat → List Byte → Option (JVal × List Byte)
  | 0, _ => none
  | fuel + 1, bs =>
    match skipWs bs with
    | [] => none
    | b :: r =>
      if isByte 34 b then (jsonString (r.length + 1) r []).map (fun e => (.text e.1, e.2))
      else if isByte 123 b then (jsonMembers fuel true r).map (fun e => (.nested, e.2))
      else if isByte 91 b then (jsonMembers fuel false r).map (fun e => (.nested, e.2))
      else
        match stripPrefix txtTrue (b :: r), stripPrefix txtFalse (b :: r), stripPrefix txtNull (b :: r) with
        | some q, _, _ => some (.text txtTrue, q)
        | _, some q, _ => some (.text txtFalse, q)
        | _, _, some q => some (.null, q)
        | _, _, _ => (jsonNumber (b :: r)).map (fun e => (.text e.1, e.2))

/-- The members of an object, or the elements of an array (their keys are empty), up to the closing bracket. -/
def jsonMembers : Nat → Bool → List Byte → Option (List (List Byte × JVal) × List Byte)
  | 0, _, _ => none
  | fuel + 1, object, bs =>
    let close := if object then 125 else 93
    match skipWs bs with
    | [] => none
    | b :: r => if isByte close b then some ([], r) else jsonMore fuel object (b :: r)

/-- One member or more. -/
def jsonMore : Nat → Bool → List Byte → Option (List (List Byte × JVal) × List Byte)
  | 0, _, _ => none
  | fuel + 1, object, bs =>
    let close := if object then 125 else 93
    let key : Option (List Byte × List Byte) :=
      if !object then some ([], bs)
      else
        match skipWs bs with
        | b :: r =>
          if isByte 34 b then
            match jsonString (r.length + 1) r [] with
            | some (k, r) => (match skipWs r with
                | c :: r => if isByte 58 c then some (k, r) else none
                | [] => none)
            | none => none
          else none
        | [] => none
    match key with
    | none => none
    | some (k, r) =>
      match jsonValue fuel r with
      | none => none
      | some (v, r) =>
        match skipWs r with
        | c :: r =>
          if isByte close c then some ([(k, v)], r)
          else if isByte 44 c then (jsonMore fuel object r).map (fun e => ((k, v) :: e.1, e.2))
          else none
        | [] => none

end

/-- The members of the one object of a JSON Lines record; none where the record is not one object. -/
def jsonRecord (bs : List Byte) : Option (List (List Byte × JVal)) :=
  match skipWs bs with
  | b :: r =>
    if isByte 123 b then
      match jsonMembers (2 * r.length + 4) true r with
      | some (ms, rest) => if (skipWs rest).isEmpty then some ms else none
      | none => none
    else none
  | [] => none

/-! ### Conversions (R218) -/

def decNat (ds : List Byte) : Nat := ds.foldl (fun n b => 10 * n + (b.toNat - 48)) 0

/-- A sign, if there is one: whether it is minus, and the rest. -/
def takeSign (bs : List Byte) : Bool × List Byte :=
  match bs with
  | b :: r => if isByte 45 b then (true, r) else if isByte 43 b then (false, r) else (false, bs)
  | [] => (false, [])

/-- An integer within the range of its type. -/
def textInt (signed : Bool) (bits : Nat) (bs : List Byte) : Option (List Byte) :=
  let (neg, ds) := takeSign bs
  if ds.isEmpty || ds.any (fun b => !isDigit b) then none
  else
    let v : Int := if neg then -(decNat ds : Int) else decNat ds
    let lo : Int := if signed then -(2 ^ (bits - 1) : Int) else 0
    let hi : Int := if signed then 2 ^ (bits - 1) else 2 ^ bits
    if lo ≤ v ∧ v < hi then some (natLe (bits / 8) (ofSigned bits v)) else none

/-- A decimal as sign, numerator and power of ten. -/
def textDecimal (bs : List Byte) : Option (Bool × Nat × Int) :=
  let (neg, r) := takeSign bs
  let (int, r) := digits r
  let (frac, r) := match r with
    | b :: q => if isByte 46 b then digits q else ([], r)
    | [] => ([], r)
  if int.isEmpty then none
  else
    let m := decNat (int ++ frac)
    match r with
    | [] => some (neg, m, -(frac.length : Int))
    | b :: q =>
      let (eneg, ds) := takeSign q
      if !(isByte 101 b || isByte 69 b) || ds.isEmpty || ds.any (fun b => !isDigit b) then none
      else some (neg, m, (if eneg then -(decNat ds : Int) else decNat ds) - frac.length)

/-- A float rounded to nearest even; one beyond the format's range is no value of it. -/
def textFloat (f : Fmt) (bs : List Byte) : Option (List Byte) :=
  let out (c : Nat) : Option (List Byte) := some (natLe (f.width / 8) c)
  if bs = ascii [110, 97, 110] then out f.nanCode
  else if bs = ascii [105, 110, 102] then out (f.encode (.inf false))
  else if bs = ascii [45, 105, 110, 102] then out (f.encode (.inf true))
  else
    match textDecimal bs with
    | none => none
    | some (neg, m, e) =>
      let c := if 0 ≤ e then f.roundRat false neg (m * 10 ^ e.toNat) 1 0 else f.roundRat false neg m (10 ^ (-e).toNat) 0
      if (f.decode c).isFin then out c else none

def lower (b : Byte) : Byte := if 65 ≤ b.toNat ∧ b.toNat ≤ 90 then b + 32 else b

def textBool (bs : List Byte) : Option (List Byte) :=
  let l := bs.map lower
  if l = txtTrue ∨ l = [49] then some [1] else if l = txtFalse ∨ l = [48] then some [0] else none

/-- Days from 1970-01-01 to a date of the Gregorian calendar. -/
def daysOf (y m d : Nat) : Int :=
  let y' : Int := if m ≤ 2 then (y : Int) - 1 else y
  let era : Int := y' / 400
  let yoe := y' - era * 400
  let doy : Int := ((153 * (if m > 2 then m - 3 else m + 9) + 2) / 5 : Nat) + (d : Int) - 1
  era * 146097 + (yoe * 365 + yoe / 4 - yoe / 100 + doy) - 719468

def leapYear (y : Nat) : Bool := (y % 4 == 0 && y % 100 != 0) || y % 400 == 0

def monthDays (y m : Nat) : Nat :=
  if m = 2 then (if leapYear y then 29 else 28) else if m = 4 ∨ m = 6 ∨ m = 9 ∨ m = 11 then 30 else 31

/-- A number of exactly `n` digits at an offset. -/
def fixedNum (bs : List Byte) (off n : Nat) : Option Nat :=
  let ds := slice off n bs
  if ds.length = n ∧ ds.all isDigit then some (decNat ds) else none

def byteIs (bs : List Byte) (off c : Nat) : Bool := match bs[off]? with | some b => isByte c b | none => false

/-- YYYY-MM-DD at the head of a text. -/
def textDay (bs : List Byte) : Option Int :=
  match fixedNum bs 0 4, fixedNum bs 5 2, fixedNum bs 8 2 with
  | some y, some m, some d =>
    if byteIs bs 4 45 && byteIs bs 7 45 && decide (1 ≤ m ∧ m ≤ 12 ∧ 1 ≤ d ∧ d ≤ monthDays y m) then some (daysOf y m d)
    else none
  | _, _, _ => none

def textDate (bs : List Byte) : Option (List Byte) :=
  if bs.length = 10 then (textDay bs).map (fun d => natLe 4 (ofSigned 32 d)) else none

/-- YYYY-MM-DDThh:mm:ss with a fraction of up to `places` digits and an optional Z. -/
def textTime (places : Nat) (bs : List Byte) : Option (List Byte) :=
  match textDay bs, fixedNum bs 11 2, fixedNum bs 14 2, fixedNum bs 17 2 with
  | some day, some h, some m, some sec =>
    if !(byteIs bs 10 84 && byteIs bs 13 58 && byteIs bs 16 58 && decide (h < 24 ∧ m < 60 ∧ sec < 60)) then none
    else
      let rest := bs.drop 19
      let rest := if rest.getLast? = some 90 then rest.dropLast else rest
      let frac : Option (List Byte) := match rest with
        | [] => some []
        | b :: ds => if isByte 46 b && !ds.isEmpty && ds.all isDigit && decide (ds.length ≤ places) then some ds else none
      match frac with
      | none => none
      | some ds =>
        let secs : Int := day * 86400 + (h * 3600 + m * 60 + sec : Nat)
        let v := secs * (10 ^ places : Nat) + (decNat ds * 10 ^ (places - ds.length) : Nat)
        if -(2 ^ 63 : Int) ≤ v ∧ v < 2 ^ 63 then some (natLe 8 (ofSigned 64 v)) else none
  | _, _, _, _ => none

/-- The stored bytes that a field's text gives a column; none loses the record as TYPE. -/
def textValue (k : SchemaCol) (bs : List Byte) : Option (List Byte) :=
  let typ := k.typ
  if typ = tBool then textBool bs
  else if typ = tDate32 then textDate bs
  else if typ = tTimestamp then textTime (if k.unit = 1 then 6 else 9) bs
  else if isIntT typ then textInt (isSignedT typ) (8 * typeBytes typ 0) bs
  else if isFloatT typ then textFloat (floatFmt typ) bs
  else some bs

/-- A field as a cell: null only where the column allows it. -/
def fieldCell (k : SchemaCol) (v : Option (List Byte)) : Option CellV :=
  match v with
  | none => if k.nullable then some (nullCell k.typ k.width) else none
  | some bs => (textValue k bs).map (fun x => ⟨true, x, false⟩)

end Sys2Proof.Machine
end

