-- ==== Sys2Proof/Machine/Patterns.lean ====
section
/-!
DEFINITION. The pattern engines: the tagged automaton (R205 to R207), match records and their ring (R211 to R214), the
prefilter (R210), PARSE (R215) and the suspension of streams (R213).
-/
namespace Sys2Proof.Machine

/-! ### Automata (R206, R207) -/

def Automaton.word (a : Automaton) (off : Nat) : Nat := u32 a.bytes off
def Automaton.classes (a : Automaton) : Nat := u16 a.bytes 4
def Automaton.patterns (a : Automaton) : Nat := u16 a.bytes 6
def Automaton.states (a : Automaton) : Nat := u32 a.bytes 8
def Automaton.prefilter (a : Automaton) : Nat := u8 a.bytes 35

/-- The class of a symbol; 256 is the end of the input. -/
def Automaton.classOf (a : Automaton) (sym : Nat) : Nat := u8 a.bytes (a.word 16 + sym)

/-- The transition entry of a state and a class. -/
def Automaton.entry (a : Automaton) (st cls : Nat) : Nat := a.word (a.word 20 + 4 * (st * a.classes + cls))

/-- One tag operation (R206): SET, SET_AFTER or COPY. -/
def applyTag (i : Nat) (tags : List W32) (op : Nat) : List W32 :=
  if !bitAt op 15 then tags
  else
    let v : W32 := match bitsOf op 14 13 with
      | 0 => BitVec.ofNat 32 i
      | 1 => BitVec.ofNat 32 (i + 1)
      | _ => tags.getD (bitsOf op 3 0) 0
    tags.set (bitsOf op 11 8) v

/-- The four operations of a tag-op entry, in order; entry 0 stands for none. -/
def Automaton.tagOps (a : Automaton) (k i : Nat) (tags : List W32) : List W32 :=
  if k = 0 then tags
  else (List.range 4).foldl (fun ts j => applyTag i ts (u16 a.bytes (a.word 24 + 8 * k + 2 * j))) tags

/-- A match: pattern, start, end, and the two captures. -/
structure PMatch where
  pat : Nat
  start : W32
  stop : W32
  cap0 : W32 × W32
  cap1 : W32 × W32
deriving DecidableEq, Repr

def absent : W32 := 0xFFFFFFFF

/-- The match of an accept entry; none where its start is its end. -/
def acceptMatch (tags : List W32) (e : Nat) : Option PMatch :=
  let tag (hi lo : Nat) : W32 := tags.getD (bitsOf e hi lo) 0
  let cap (there : Bool) (s t : W32) : W32 × W32 := if there then (s, t) else (absent, absent)
  if tag 19 16 = tag 23 20 then none
  else some ⟨bitsOf e 11 0, tag 19 16, tag 23 20, cap (bitAt e 40) (tag 27 24) (tag 31 28),
    cap (bitAt e 41) (tag 35 32) (tag 39 36)⟩

/-- The accept list from an entry on, up to its LAST. `fuel` bounds the entries. -/
def Automaton.acceptFrom (a : Automaton) (tags : List W32) : Nat → Nat → List PMatch
  | 0, _ => []
  | fuel + 1, off =>
    let e := u64 a.bytes off
    (acceptMatch tags e).toList ++ (if bitAt e 15 then [] else Automaton.acceptFrom a tags fuel (off + 8))

def Automaton.accepts (a : Automaton) (st : Nat) (tags : List W32) : List PMatch :=
  let idx := a.word (a.word 28 + 4 * st)
  if idx = 0xFFFFFFFF then [] else a.acceptFrom tags (a.bytes.length / 8 + 1) (a.word 28 + 4 * a.states + idx)

/-- One symbol at offset `i`: next state, tags, matches. -/
def Automaton.step (a : Automaton) (st : Nat) (tags : List W32) (sym i : Nat) : Nat × List W32 × List PMatch :=
  let e := a.entry st (a.classOf sym)
  let tags := a.tagOps (bitsOf e 27 16) i tags
  (bitsOf e 15 0, tags, a.accepts (bitsOf e 15 0) tags)

def noTags : List W32 := List.replicate 16 0

/-- Every match in an input, from a state and offset on. -/
def Automaton.scanFrom (a : Automaton) : List Byte → Nat → Nat → List W32 → List PMatch
  | [], i, st, tags => (a.step st tags 256 i).2.2
  | b :: r, i, st, tags =>
    let (n, ts, ms) := a.step st tags b.toNat i
    ms ++ Automaton.scanFrom a r (i + 1) n ts

/-- Whether pattern `p` matches a whole text (R217). -/
def Automaton.matchesAll (a : Automaton) (bs : List Byte) (p : Nat) : Bool :=
  (a.scanFrom bs 0 0 noTags).any (fun m => m.pat == p && m.start == 0 && m.stop.toNat == bs.length)

def State.automaton? (s : State) (n : Nat) : Option Automaton := s.image.bind (fun im => im.automata.find? (·.number == n))

/-! ### Records (R211) -/

def recordBytesOf (head stream cluster source : Nat) (ws : List W32) : List Byte :=
  natLe 2 head ++ [BitVec.ofNat 8 (stream + 16 * cluster)] ++ natLe 5 source ++ ws.flatMap (fun w => natLe 4 w.toNat)

def matchRecord (stream cluster source : Nat) (m : PMatch) : List Byte :=
  recordBytesOf m.pat stream cluster source [m.start, m.stop, m.cap0.1, m.cap0.2, m.cap1.1, m.cap1.2]

/-- A marker record: kind 0 END, 1 LOST with its reason in START; its other fields are zero. -/
def markerRecord (kind reason : Nat) : List Byte := recordBytesOf (kind + 4096) 0 0 0 [BitVec.ofNat 32 reason, 0, 0, 0, 0, 0]

/-! ### PARSE -/

structure ParsePar where
  automaton : Nat
  format : Nat
  endMarkers : Bool
  header : Bool
  prefilter : Bool
  column : Nat
  ring : Nat
  out : Nat
  delim : Nat
  quote : Nat
  maxBytes : Nat
  suspend : Nat

def parsePar (p : List Byte) : ParsePar :=
  let format := u8 p 2
  ⟨u16 p 0, format, bitAt (u8 p 3) 0, bitAt (u8 p 3) 1, bitAt (u8 p 3) 2, u8 p 5, u8 p 6, u8 p 7, u8 p 8, u8 p 9,
    if u32 p 12 = 0 then (if format = 0 then 0x4000000 else 0x100000) else u32 p 12, u32 p 16⟩

/-- The checks of the table that a chunk's rows still stand in, at the read by a source stage (R128). -/
def State.tableChecked (s : State) (r : Run) (c : Chunk) : Except Code State :=
  match c.rows.rest with
  | none => .ok s
  | some q =>
    match s.tableOf r q.arg, s.schema? q.schema with
    | some tab, some sch =>
      let (n, s) := s.sliceRows tab c.vault
      if tableFits tab sch n then .ok s else .error C.SCHEMA_MISMATCH
    | _, _ => .error C.SCHEMA_MISMATCH

/-- The input of a sample task: bytes of the value or record with poison, none for a null, and the state after. -/
def State.inputOf (s : State) (t : Task) (r : Run) (col : Nat) : Except Code (Option (List Byte) × Bool × State) :=
  match t.chunk.payload with
  | .raw bytes poison => .ok (bytes, poison, s)
  | _ =>
    match s.tableChecked r t.chunk with
    | .error c => .error c
    | .ok s =>
    match s.fetch r t.chunk [col] with
    | .error c => .error c
    | .ok (rows, s) =>
      match colAt rows.cols col with
      | none => .ok (none, false, s)
      | some c =>
        let x := c.cell 0
        .ok (if x.valid then some x.bytes else none, x.poison, s)

/-- The loss of an input before it is scanned (R131, R216): none where it can be scanned. -/
def inputLoss (quoted : Bool) (p : ParsePar) (bytes : Option (List Byte)) (poison : Bool) : Option Loss :=
  match bytes with
  | none => some .size
  | some bs =>
    if p.maxBytes < bs.length then some .size
    else if poison then some .poison
    else if quoted && (cutFields p.delim p.quote bs .start []).isNone then some .parse
    else none

/-- The context of a task. -/
def State.patOf (s : State) (task : Nat) : Option PatCtx := s.pat.find? (·.task == task)

def State.putPat (s : State) (x : PatCtx) : State :=
  { s with pat := s.pat.filter (fun y => y.task != x.task) ++ [x] }

/-- The stream among a task's units, as engine and stream. -/
def Task.stream (t : Task) : Option (Nat × Nat) :=
  (t.units.find? (fun u => decide (608 ≤ u ∧ u < 832))).map (fun u => ((u - 608) / 16, (u - 608) % 16))

/-- Write the records that wait, while the ring has room (R212). Answers the records left. `fuel` bounds them. -/
def State.flushRecords (s : State) (slot arg cluster : Nat) : List (List Byte) → Except Code (List (List Byte) × State)
  | [] => .ok ([], s)
  | rec :: rest =>
    match (s.run? slot).bind (fun r => r.ring? arg) with
    | none => .ok ([], s)
    | some g =>
      if !g.room then .ok (rec :: rest, s)
      else
        match s.ringPublish slot g rec with
        | .error c => .error c
        | .ok (_, s) => State.flushRecords (s.bump F.PAT_ENG_COUNT_RECORDS cluster 1) slot arg cluster rest

/-- A stream consumes its input until the end, or until a record finds no room in the ring (R207, R213). -/
def State.scanStream (s : State) (slot source : Nat) (p : ParsePar) (a : Automaton) :
    List Byte → PatCtx → Except Code (PatCtx × State)
  | [], x =>
    match s.flushRecords slot p.ring x.cluster x.queue with
    | .error c => .error c
    | .ok (q :: qs, s) => .ok ({ x with queue := q :: qs }, s)
    | .ok ([], s) =>
      let (n, ts, ms) := a.step x.state x.tags 256 x.offset
      let endMark := if p.endMarkers then [markerRecord 0 0] else []
      let x := { x with
        state := n, tags := ts, records := x.records + ms.length, scanned := true
        firstPat := if x.records = 0 then (ms.head?.map PMatch.pat).getD x.firstPat else x.firstPat
        queue := ms.map (matchRecord (x.stream.getD 0) x.cluster source) ++ endMark }
      match s.flushRecords slot p.ring x.cluster x.queue with
      | .error c => .error c
      | .ok (q, s) => .ok ({ x with queue := q }, s)
  | b :: r, x =>
    match s.flushRecords slot p.ring x.cluster x.queue with
    | .error c => .error c
    | .ok (q :: qs, s) => .ok ({ x with queue := q :: qs }, s)
    | .ok ([], s) =>
      let (n, ts, ms) := a.step x.state x.tags b.toNat x.offset
      let x := { x with
        state := n, tags := ts, offset := x.offset + 1, records := x.records + ms.length
        firstPat := if x.records = 0 then (ms.head?.map PMatch.pat).getD x.firstPat else x.firstPat
        queue := ms.map (matchRecord (x.stream.getD 0) x.cluster source) }
      State.scanStream (s.bump F.PAT_ENG_BYTES_BYTES x.cluster 1) slot source p a r x

/-- The keys of the prefilter's searches (R210): every eighth offset, 8 or 16 bytes, zero-extended. -/
def prefilterKeys (m : MstTab) (bs : List Byte) : List (BitVec 320) :=
  (List.range (ceilDiv bs.length 8)).map (fun k =>
    BitVec.ofNat 320 (leNat (slice (8 * k) (if m.wide then 16 else 8) bs)))

/-- The one-row chunk that PARSE passes on (R215). -/
def parseRow (t : Task) (p : ParsePar) (source records first : Nat) : Chunk :=
  let col (k typ w v : Nat) : Column := ⟨p.out + k, typ, 0, 0, [⟨true, natLe w v, false⟩]⟩
  { t.chunk with payload := .rows [col 0 tUint64 8 source, col 1 tUint32 4 records, col 2 6 2 first] 1 none }

/-- The input is done and every record is written: the task ends, or its input is lost. -/
def State.parseEnd (s : State) (t : Task) (st : StageRec) (pl : Pipeline) (p : ParsePar) (x : PatCtx) : State :=
  let source := t.chunk.sources.headD 0
  let outs := if p.out = 0xFF ∨ st.outQ.isEmpty then [] else [parseRow t p source x.records x.firstPat]
  match x.lost with
  | none => s.endSample t st pl outs
  | some .straggler =>
    let s := s.countMean t.slot t.stage (s.limit t st pl).2
    let s := s.loseSample t.slot t.stage t.chunk.flow source .straggler
    let s := (s.logTask 0x05 t t.core 0x0B02).bump F.DSP_CANCEL_AFTER 0 1
    (s.deliverOuts t st pl outs []).dropTask t false
  | some w => (s.loseSample t.slot t.stage t.chunk.flow source w).endTask t outs

/-- Go on from a context: records first, then the rest of the input; the task ends when all is written, and its stream
is blocked otherwise, since before if nothing could move (R213). -/
def State.parseGo (s : State) (t : Task) (st : StageRec) (pl : Pipeline) (p : ParsePar) (a : Automaton)
    (bytes : List Byte) (x : PatCtx) : State :=
  let source := t.chunk.sources.headD 0
  let x0 := x
  let x := match x.blockedAt with
    | some b => { x with blockedAt := none, waited := x.waited + (s.now - b) }
    | none => x
  let s := s.putPat x
  let res := if x.scanned then
      (match s.flushRecords t.slot p.ring x.cluster x.queue with
       | .error c => .error c
       | .ok (q, s) => .ok ({ x with queue := q }, s))
    else s.scanStream t.slot source p a (bytes.drop x.offset) x
  match res with
  | .error c => s.failTask t c
  | .ok (x, s) =>
    if x.queue.isEmpty && x.scanned then (s.putPat x).parseEnd t st pl p x
    else if x0.blockedAt.isSome ∧ x.offset = x0.offset ∧ x.queue.length = x0.queue.length then s.putPat x0
    else s.putPat { x with blockedAt := some s.now }

/-- A context at the start of an input. -/
def PatCtx.start (cluster stream task : Nat) : PatCtx :=
  ⟨cluster, some stream, task, 0, noTags, 0, none, 0, 0, 0xFFFF, [], false, none⟩

/-- An input is lost: what remains is its LOST marker (R214). -/
def PatCtx.lose (x : PatCtx) (w : Loss) : PatCtx :=
  { x with scanned := true, lost := some w, queue := x.queue ++ [markerRecord 1 w.code] }

/-- A PARSE task is abandoned (R145, R214): its context is discarded, and what is left to do is its LOST marker. The marker
of a suspended task, too, is written by the engine that held it. -/
def State.abandonParse (s : State) (t : Task) (st : StageRec) (pl : Pipeline) : State :=
  let p := parsePar st.param
  let held : Option PatCtx := match s.patOf t.id, t.stream with
    | some x, _ => some x
    | none, some (c, i) => some (PatCtx.start c i t.id)
    | none, none => none
  match s.automaton? p.automaton, held with
  | some a, some x =>
    if x.lost.isSome then s.parseGo t st pl p a [] x
    else (s.dropAsking t.id).parseGo t st pl p a [] ({ x with queue := [] }.lose .straggler)
  | _, _ => s

/-- A stream takes an input and reads it (R207): lost before it is scanned, or from offset 0. -/
def State.parseInput (s : State) (t : Task) (st : StageRec) (pl : Pipeline) (p : ParsePar) (a : Automaton)
    (bytes : Option (List Byte)) (poison : Bool) (x : PatCtx) : State :=
  match inputLoss (p.format == 1) p bytes poison with
  | some w => s.parseGo t st pl p a (bytes.getD []) (x.lose w)
  | none => s.parseGo t st pl p a (bytes.getD []) x

/-- The front end's searches are answered: an input with a hit goes to its stream, which reads it again; one without is
complete with no matches (R210). `s1` is the state after that second read. -/
def State.prefiltered (s s1 : State) (t : Task) (st : StageRec) (pl : Pipeline) (p : ParsePar) (a : Automaton)
    (bytes : Option (List Byte)) (poison : Bool) (x : PatCtx) (q : Asking) : State :=
  if !q.done then s
  else if q.hits.any (·.hit) then (s1.dropAsking t.id).parseInput t st pl p a bytes poison x
  else
    let mark := if p.endMarkers then [markerRecord 0 0] else []
    ((s.dropAsking t.id).bump F.PAT_ENG_COUNT_SKIPPED x.cluster 1).parseGo t st pl p a (bytes.getD [])
      { x with scanned := true, queue := mark }

def parse (task : Nat) (s : State) : State :=
  match s.runningTask task .parse with
  | none => s
  | some (t, st, pl, r) =>
    let p := parsePar st.param
    if (s.limit t st pl).1 = .abandon then s.abandonParse t st pl
    else
    match s.automaton? p.automaton, t.stream with
    | some a, some (c, i) =>
      match s.inputOf t r p.column with
      | .error e => s.failTask t e
      | .ok (bytes, poison, s1) =>
        match s.patOf task, s.askingOf task with
        | some x, _ => if x.stream.isNone then s else s.parseGo t st pl p a (bytes.getD []) x
        | none, some q => s.prefiltered s1 t st pl p a bytes poison (PatCtx.start c i task) q
        | none, none =>
          let s := s1.modRun t.slot (fun r => { r with rowsIn := r.rowsIn + 1 })
          let x := PatCtx.start c i task
          match (if p.prefilter && (inputLoss (p.format == 1) p bytes poison).isNone then s.mstTab? a.prefilter else none) with
          | none => s.parseInput t st pl p a bytes poison x
          | some m =>
            let keys := prefilterKeys m (bytes.getD [])
            let q : Asking := ⟨task, c, m.t, keys, 0, [], true, t.chunk⟩
            if keys.isEmpty then s.prefiltered s t st pl p a bytes poison x q else s.ask q
    | _, _ => s

/-! ### Suspension (R213) -/

/-- Contexts that an engine holds in its store. -/
def State.suspended (s : State) (c : Nat) : Nat := (s.pat.filter (fun x => x.cluster == c && x.stream.isNone)).length

/-- The run, parameter block and ring of a context. -/
def State.patRing (s : State) (x : PatCtx) : Option (Task × Run × ParsePar × Ring) :=
  match s.task? x.task with
  | none => none
  | some t =>
    match s.run? t.slot, s.stage? t.slot t.stage with
    | some r, some st => (r.ring? (parsePar st.param).ring).map (fun g => (t, r, parsePar st.param, g))
    | _, _ => none

def State.suspendNs (s : State) (p : ParsePar) : Nat :=
  (if p.suspend = 0 then s.fget F.PAT_CTL_SUSPEND_DEFAULT else p.suspend) * 1000

def streamSuspend (cluster : Fin 12) (stream : Fin 16) (s : State) : State :=
  match s.pat.find? (fun x => x.cluster == cluster.val && x.stream == some stream.val) with
  | none => s
  | some x =>
    match s.patRing x, x.blockedAt with
    | some (t, r, p, g), some b =>
      if g.room || decide (s.now < b + s.suspendNs p) || decide (64 ≤ s.suspended cluster.val) then s
      else
        let s := s.putPat { x with stream := none }
        let s := s.putTask { t with units := t.units.filter (· != unitStream cluster.val stream.val) }
        let s := s.bump F.PAT_ENG_COUNT_SUSPENSIONS cluster.val 1
        s.attn C.STREAM_SUSPENDED [cluster.val, stream.val, r.run.toNat, g.ctl.toNat]
    | _, _ => s

/-- The contexts of an engine that wait for a stream while their ring has room (R213). -/
def State.resumable (s : State) (c : Nat) : Nat :=
  s.pat.countP (fun x => x.cluster == c && x.stream.isNone && (s.patRing x).any (fun e => e.2.2.2.room))

/-- The lowest stream of an engine that holds no input. -/
def State.freeStream (s : State) (c : Nat) : Option Nat :=
  if s.units.patOut.contains c then none else (List.range 16).find? (fun i => !s.unitBusy (unitStream c i))

def streamResume (cluster : Fin 12) (task : Nat) (s : State) : State :=
  match s.patOf task with
  | none => s
  | some x =>
    match s.patRing x, s.freeStream cluster.val with
    | some (t, _, _, g), some i =>
      if x.stream.isSome || x.cluster != cluster.val || !g.room then s
      else
        let s := s.putPat { x with stream := some i }
        let s := s.putTask { t with units := t.units ++ [unitStream cluster.val i] }
        parse task s
    | _, _ => s

end Sys2Proof.Machine
end

