-- ==== Sys2Proof/Machine/Pyramid.lean ====
section
/-!
DEFINITION. The pyramid unit's arithmetic: colour, crop, resampling, normalisation, padding and conversion (R135 to
R138).
-/
namespace Sys2Proof.Machine

/-- One channel of an image: FP32 codes, row after row. -/
structure Plane where
  w : Nat
  h : Nat
  px : List Nat
deriving DecidableEq, Repr

def Plane.at (p : Plane) (x y : Nat) : FVal := fp32.decode (p.px.getD (y * p.w + x) 0)

/-- The parameter block of PYRAMID (R135). -/
structure PyrPar where
  levels : Nat
  filter : Nat
  ratio : Nat
  colour : Nat
  outType : Nat
  nhwc : Bool
  resize : Bool
  cropX : Nat
  cropY : Nat
  cropW : Nat
  cropH : Nat
  tileW : Nat
  tileH : Nat
  normOff : Nat
  pad : W32

def pyrPar (p : List Byte) : PyrPar :=
  ⟨u8 p 0, u8 p 1, u16 p 2, u8 p 4, u8 p 5, u8 p 6 == 1, bitAt (u8 p 7) 0, u16 p 8, u16 p 10, u16 p 12, u16 p 14,
    u16 p 16, u16 p 18, u32 p 20, BitVec.ofNat 32 (u32 p 24)⟩

/-- A value divided by a whole number, in FP32; the order of the FP32 steps is open, so the result is any value within
2 ulp of the exact one (log entry 47). -/
def nearQuot (pick : Nat) (v : FVal) (n : Nat) : Nat :=
  match v with
  | .fin neg m e => if m = 0 then 0 else fp32.near2 pick neg m n e
  | v => fp32.encode v

/-- Luminance of a colour pixel (R135): 0.299 R + 0.587 G + 0.114 B. -/
def luminance (pick r g b : Nat) : Nat :=
  if r + g + b = 0 then 0 else fp32.near2 pick false (299 * r + 587 * g + 114 * b) 1000 0

/-- The channels after colour conversion, as lists of FP32 codes: KEEP, TO_RGB, TO_Y, TO_BGR. -/
def colourPlanes (d colour : Nat) (p : Pix) : List Plane :=
  let raw (c : Nat) : List Nat := (List.range (p.w * p.h)).map (fun i => p.px.getD (i * p.ch + c) 0)
  let fp (l : List Nat) : Plane := ⟨p.w, p.h, l.map (fun (v : Nat) => fp32.encode (FVal.ofInt (v : Int)))⟩
  if p.ch = 1 then
    match colour with
    | 1 | 3 => [fp (raw 0), fp (raw 0), fp (raw 0)]
    | _ => [fp (raw 0)]
  else
    let planes := (List.range p.ch).map (fun c => fp (raw c))
    match colour with
    | 2 => [⟨p.w, p.h, (List.range (p.w * p.h)).map (fun i =>
        luminance (Config.choice (d + i)) (p.px.getD (i * p.ch) 0) (p.px.getD (i * p.ch + 1) 0) (p.px.getD (i * p.ch + 2) 0))⟩]
    | 3 => planes.reverse
    | _ => planes

/-- The part of a plane that a rectangle covers. -/
def Plane.crop (p : Plane) (x y w h : Nat) : Plane :=
  ⟨w, h, (List.range h).flatMap (fun j => (List.range w).map (fun i => p.px.getD ((y + j) * p.w + x + i) 0))⟩

/-- The crop rectangle clipped to the image (R136): W = 0 means the whole image. -/
def cropRect (par : PyrPar) (w h : Nat) : Nat × Nat × Nat × Nat :=
  if par.cropW = 0 then (0, 0, w, h)
  else (par.cropX, par.cropY, min par.cropW (w - par.cropX), min par.cropH (h - par.cropY))

/-- The source pixels of output pixel `x` of `w` from `n`, with whole weights (R137): AREA by overlap. -/
def areaTaps (n w x : Nat) : List (Nat × Nat) :=
  let lo := x * n / w
  let hi := ((x + 1) * n - 1) / w
  (List.range (hi + 1 - lo)).map (fun k =>
    let i := lo + k
    (i, min ((x + 1) * n) ((i + 1) * w) - max (x * n) (i * w)))

/-- BILINEAR at s = (x + 0.5) × n / w − 0.5, clamped to the edge. -/
def bilinearTaps (n w x : Nat) : List (Nat × Nat) :=
  let num : Int := ((2 * x + 1) * n : Nat) - (w : Int)
  if num ≤ 0 then [(0, 2 * w)]
  else
    let i := num.toNat / (2 * w)
    let f := num.toNat % (2 * w)
    if n ≤ i + 1 then [(n - 1, 2 * w)] else [(i, 2 * w - f), (i + 1, f)]

/-- The five taps of GAUSS5 at a pixel, edges replicated. -/
def gaussTaps (n x : Nat) : List (Nat × Nat) :=
  [(x - 2, 1), (x - 1, 4), (x, 6), (min (x + 1) (n - 1), 4), (min (x + 2) (n - 1), 1)]

def tapSum (ts : List (Nat × Nat)) : Nat := (ts.map (·.2)).sum

/-- One plane sampled with taps in x and y. -/
def Plane.sample (p : Plane) (d w h : Nat) (tx ty : Nat → List (Nat × Nat)) : Plane :=
  ⟨w, h, (List.range (w * h)).map (fun k =>
    let xs := tx (k % w)
    let ys := ty (k / w)
    let sum := ys.foldl (fun acc y => xs.foldl (fun (acc : FVal) x =>
      acc.add ((FVal.ofInt (x.2 * y.2 : Nat)).mul (p.at x.1 y.1))) acc) (FVal.fin false 0 0)
    nearQuot (Config.choice (d + k)) sum (tapSum xs * tapSum ys))⟩

/-- A plane resampled to another size with FILTER: 0 AREA, 1 BILINEAR, 2 GAUSS5. -/
def Plane.resample (p : Plane) (d filter w h : Nat) : Plane :=
  match filter with
  | 0 => p.sample d w h (areaTaps p.w w) (areaTaps p.h h)
  | 2 =>
    let q := p.sample d p.w p.h (gaussTaps p.w) (gaussTaps p.h)
    q.sample (d + p.w * p.h) w h (bilinearTaps p.w w) (bilinearTaps p.h h)
  | _ => p.sample d w h (bilinearTaps p.w w) (bilinearTaps p.h h)

def nextSize (ratio n : Nat) : Nat := max 1 ((n * ratio) >>> 16)

/-- Level sizes from a first size (R136). -/
def levelSizes (ratio : Nat) : Nat → Nat → Nat → List (Nat × Nat)
  | 0, _, _ => []
  | n + 1, w, h => (w, h) :: levelSizes ratio n (nextSize ratio w) (nextSize ratio h)

/-- The levels of one plane, each built from the one before. -/
def planeLevels (d filter : Nat) : List (Nat × Nat) → Plane → List Plane
  | [], p => [p]
  | (w, h) :: r, p => p :: planeLevels (d + 2 * (p.w * p.h + w * h)) filter r (p.resample d filter w h)

/-- One normalised value (R138): (x / S − mean) / std in FP32. -/
def normPixel (scale mean std x : Nat) : Nat := fp32.divC (fp32.subC (fp32.divC x scale) mean) std

/-- An element of the output type: FP16, BF16, FP8 E4M3 saturating, FP8 E5M2, INT8 by QSCALE; a NaN becomes 0. -/
def outElem (outType qscale x : Nat) : Nat :=
  match fp32.decode x with
  | .nan => 0
  | v =>
    match outType with
    | 0 => fp16.encode v
    | 1 => bf16.encode v
    | 2 => fp8e4m3.encode v true
    | 3 => fp8e5m2.encode v
    | _ =>
      match fp32.decode (fp32.divC x qscale) with
      | .fin n m e => ofSigned 8 (clampInt (-128) 127 (roundInt n m e))
      | .inf n => ofSigned 8 (if n then -128 else 127)
      | .nan => 0

def outBytes (outType : Nat) : Nat := if outType ≤ 1 then 2 else 1

/-- A level of all channels as a payload tensor: normalised, padded to w × h, converted, in NCHW or NHWC order. -/
def levelTensorOf (par : PyrPar) (norm : List Nat) (scale w h : Nat) (planes : List Plane) : List Byte :=
  let elem (c x y : Nat) : List Byte :=
    match planes[c]? with
    | none => []
    | some p =>
      let k := if planes.length = 1 then 0 else c
      let v := if x < p.w ∧ y < p.h then normPixel scale (norm.getD k 0) (norm.getD (3 + k) 0) (p.px.getD (y * p.w + x) 0)
        else par.pad.toNat
      natLe (outBytes par.outType) (outElem par.outType (norm.getD 6 0) v)
  if par.nhwc then
    (List.range h).flatMap (fun y => (List.range w).flatMap (fun x =>
      (List.range planes.length).flatMap (fun c => elem c x y)))
  else
    (List.range planes.length).flatMap (fun c => (List.range h).flatMap (fun y =>
      (List.range w).flatMap (fun x => elem c x y)))

/-- Draws that one image may use. -/
def pyramidDraws (par : PyrPar) (p : Pix) : Nat := 64 * (p.w * p.h + par.tileW * par.tileH + 1) * (par.levels + 2)

/-- All levels of an image (R135 to R138); none where the sample is lost as SIZE. `norm` holds the 7 FP32 values at
NORM_OFF, `d` the first draw. -/
def pyramidOf (d : Nat) (par : PyrPar) (norm : List Nat) (p : Pix) : Option (List (List Byte)) :=
  let (x, y, w, h) := cropRect par p.w p.h
  if w = 0 ∨ h = 0 then none
  else if !par.resize && (decide (par.tileW < w) || decide (par.tileH < h)) then none
  else
    let step := pyramidDraws par p / 8
    let planes := (colourPlanes d par.colour p).map (·.crop x y w h)
    let base := (planes.zip (List.range planes.length)).map (fun e =>
      if par.resize then e.1.resample (d + (e.2 + 1) * step) par.filter par.tileW par.tileH else e.1)
    let (w0, h0) := if par.resize then (par.tileW, par.tileH) else (w, h)
    let sizes := (levelSizes par.ratio par.levels w0 h0).drop 1
    let levels := (base.zip (List.range base.length)).map (fun e =>
      planeLevels (d + (e.2 + 4) * step) par.filter sizes e.1)
    let tile := levelSizes par.ratio par.levels par.tileW par.tileH
    let scale := fp32.encode (FVal.ofInt (if p.depth = 16 then 65535 else 255))
    some ((tile.zip (List.range par.levels)).map (fun e =>
      levelTensorOf par norm scale e.1.1 e.1.2 (levels.filterMap (fun ls => ls[e.2]?))))

end Sys2Proof.Machine
end

