-- ==== Sys2Proof/Machine/Samples.lean ====
section
/-!
DEFINITION. DECODE and PYRAMID (R129 to R138), the admission of live frames (R139, R140), and the commands that defer
and abandon stragglers (R145).
-/
namespace Sys2Proof.Machine
open Sys2Proof

/-! ### The DECODE block (R133) -/

structure DecPar where
  format : Nat
  source : Nat
  column : Nat
  header : Bool
  schema : Nat
  maxW : Nat
  maxH : Nat
  maxBytes : Nat
  automaton : Nat
  delim : Nat
  quote : Nat
  rawW : Nat
  rawH : Nat
  pixel : Nat

def decPar (p : List Byte) : DecPar :=
  let f := u8 p 0
  let lim (n : Nat) : Nat := if n = 0 then 16384 else min n 16384
  ⟨f, u8 p 1, u8 p 2, bitAt (u8 p 3) 0, u16 p 4, lim (u16 p 6), lim (u16 p 8),
    if u32 p 12 = 0 then (if f = 2 ∨ f = 3 then 0x100000 else 0x4000000) else u32 p 12,
    u16 p 16, u8 p 18, u8 p 19, u16 p 16, u16 p 18, u8 p 20⟩

/-! ### Images (R132) -/

/-- Bytes of a RAW pixel format: 0 RGB8, 1 Y8, 2 Y16. -/
def pixelBytes (f : Nat) : Nat := if f = 0 then 3 else if f = 1 then 1 else 2

def decodeRaw (w h f maxW maxH : Nat) (bs : List Byte) : Except Loss Pix :=
  if maxW < w ∨ maxH < h ∨ bs.length ≠ w * h * pixelBytes f then .error .size
  else if f = 2 then .ok ⟨w, h, 1, 16, (chunksOf 2 (bs.length + 1) bs).map leNat⟩
  else .ok ⟨w, h, pixelBytes f, 8, bs.map BitVec.toNat⟩

/-- An image of a PNG, whose concatenated IDAT data are one job under the size that IHDR implies (R251, R268). Without an
engine in service the run fails. -/
def State.decodePng (s : State) (t : Task) (maxW maxH : Nat) (bs : List Byte) : Except Code (Except Loss Pix × State) :=
  match readPng maxW maxH bs with
  | .error w => .ok (.error w, s)
  | .ok p =>
    match s.decodeJob (t.chunk.vault / 16) t.slot fmtZlib p.filtered p.idat with
    | (.ok rows, s) => .ok (p.image rows, s)
    | (.error c, s) =>
      if c = C.NO_ENGINE then .error c
      else .ok (.error (if c = C.CHECKSUM_MISMATCH then .checksum else if c = C.INPUT_POISON then .poison else .decode), s)

/-- Decode one encoded sample; `kind` is 4 JPEG, 5 PNG, otherwise RAW with pixel format `f`. One that is longer than
MAX_BYTES is lost before any of it is decoded. -/
def State.decodeImage (s : State) (t : Task) (kind w h f : Nat) (p : DecPar) (bs : List Byte) (poison : Bool) :
    Except Code (Except Loss Pix × State) :=
  if p.maxBytes < bs.length then .ok (.error .size, s)
  else if poison then .ok (.error .poison, s)
  else if kind = 4 then .ok (decodeJpeg p.maxW p.maxH bs, s)
  else if kind = 5 then s.decodePng t p.maxW p.maxH bs
  else .ok (decodeRaw w h f p.maxW p.maxH bs, s)

/-- A decoded image leaves the stage, or its sample is lost. -/
def State.imageEnd (s : State) (t : Task) (st : StageRec) (pl : Pipeline) (r : Except Loss Pix) : State :=
  match r with
  | .error w => s.loseTask t (t.chunk.sources.headD 0) w
  | .ok px =>
    (s.bump F.ING_DEC_STATUS_PIXELS (t.chunk.vault / 16) (px.w * px.h)).endSample t st pl
      [{ t.chunk with payload := .image px }]

/-! ### Text records (R131, R216 to R218) -/

/-- One cell for each column, or the loss of the record. -/
def cellsOf (cols : List (SchemaCol × Option (List Byte))) : Except Loss (List CellV) :=
  cols.foldr (fun e acc =>
    match acc, fieldCell e.1 e.2 with
    | .ok cs, some c => .ok (c :: cs)
    | .error w, _ => .error w
    | _, none => .error .type) (.ok [])

/-- A delimited record's cells. -/
def delimitedCells (sch : Schema) (a : Option Automaton) (p : DecPar) (bs : List Byte) : Except Loss (List CellV) :=
  match cutFields p.delim p.quote bs .start [] with
  | none => .error .parse
  | some fs =>
    if fs.length ≠ sch.cols.length ∨ fs.any (fun f => !isUtf8 f) then .error .parse
    else
      let fits (i : Nat) (f : List Byte) : Bool :=
        f.isEmpty || (match a with | some a => decide (a.patterns ≤ i) || a.matchesAll f i | none => true)
      if ((List.range fs.length).zip fs).any (fun e => !fits e.1 e.2) then .error .type
      else cellsOf (sch.cols.zip (fs.map (fun f => if f.isEmpty then none else some f)))

/-- A JSON record's cells: column i takes the member whose key pattern i matches. -/
def jsonCells (sch : Schema) (a : Option Automaton) (bs : List Byte) : Except Loss (List CellV) :=
  if !isUtf8 bs then .error .parse
  else
    match jsonRecord bs with
    | none => .error .parse
    | some ms =>
      if (ms.map (·.1)).eraseDups.length ≠ ms.length then .error .parse
      else
        let value (i : Nat) : Option JVal :=
          (ms.find? (fun m => match a with | some a => a.matchesAll m.1 i | none => false)).map (·.2)
        let vals := (List.range sch.cols.length).map value
        if vals.any (fun v => v == some .nested) then .error .type
        else cellsOf (sch.cols.zip (vals.map (fun v => match v with | some (.text b) => some b | _ => none)))

/-- A text record as one row of the schema. -/
def textRecord (sch : Schema) (a : Option Automaton) (p : DecPar) (bytes : Option (List Byte)) (poison : Bool) :
    Except Loss (List Column) :=
  let bs := bytes.getD []
  if p.maxBytes < bs.length then .error .size
  else if poison then .error .poison
  else
    match (if p.format = 3 then jsonCells sch a bs else delimitedCells sch a p bs) with
    | .error w => .error w
    | .ok cells => .ok (((List.range sch.cols.length).zip (sch.cols.zip cells)).map (fun e =>
        ⟨e.1, e.2.1.typ, e.2.1.elem, e.2.1.width, [e.2.2]⟩))

/-! ### Parquet (R129, R130) -/

/-- A page index entry (R129). -/
structure PageEnt where
  off : Nat
  col : Nat
  dict : Bool
  rows : Nat

def pageEnt (bs : List Byte) : PageEnt := ⟨u64 bs 0, u8 bs 8, bitAt (u8 bs 9) 0, u32 bs 12⟩

/-- The rules of an entry of a table of `cols` columns. -/
def pageEntOk (cols : Nat) (bs : List Byte) : Bool :=
  decide (u8 bs 8 < cols) && decide (u8 bs 9 < 2) && u16 bs 10 == 0 && (u8 bs 9 == 0 || u32 bs 12 == 0)

/-- The page index that a TABLE argument names; one that breaks the rules of its entries is a table of bad offsets. The
index of a VAULT_RANGE or VAULT_HASH table is read in vault 0: both are choices (log entry 181). -/
def State.pageIndex (s : State) (t : TableAt) (cols : Nat) : Except Code (List PageEnt × State) :=
  if t.b = 0 then .ok ([], s)
  else
    match s.checkedRead (t.addr 0 0) (16 * t.b) with
    | .error c => .error c
    | .ok (bs, s) =>
      let es := chunksOf 16 (t.b + 1) (bs.map (·.1))
      if bs.any (·.2) then .error C.OPERAND_POISON
      else if es.all (pageEntOk cols) then .ok (es.map pageEnt, s)
      else .error C.SCHEMA_MISMATCH

/-- Rows of a column in the index. -/
def pageRows (ix : List PageEnt) (col : Nat) : Nat := ((ix.filter (fun e => e.col == col && !e.dict)).map (·.rows)).sum

/-- The stored bytes at a local address, as far as they have a place. -/
def State.storedAt (s : State) (a n : Nat) : List Byte := ((parts a n).getD []).flatMap (fun e => s.bytesAt e.1 e.2)

/-- The PageHeader at a local address: what stands there is read on until it is whole, at most `left` bytes. -/
def State.pageHeadAt (s : State) (a left : Nat) : Nat → Nat → Option PageHead
  | 0, _ => none
  | fuel + 1, n =>
    match pageHead (s.storedAt a (min n left)) with
    | some h => some h
    | none => if left ≤ n then none else s.pageHeadAt a left fuel (2 * n)

/-- A page as it is read: its header, and the bytes after it. A poisoned word fails the run; a header that is malformed or
does not fit the index and the region, and a CRC that does not hold, are PAGE_CORRUPT; a page outside the scope of R130 is
CODEC_UNSUPPORTED. -/
def State.readPage (s : State) (t : TableAt) (k : SchemaCol) (e : PageEnt) : Except Code (PageHead × List Byte × State) := do
  let a := t.region.localAddr 0 e.off
  let left := t.region.size - e.off
  if left = 0 then throw C.PAGE_CORRUPT
  let h := s.pageHeadAt a left 48 64
  let n := match h with | some h => min left (h.bytes + h.comp) | none => min left 8
  let (bs, s) ← s.checkedRead a n
  if bs.any (·.2) then throw C.INPUT_POISON
  match h with
  | none => throw C.PAGE_CORRUPT
  | some h =>
    let body := (bs.map (·.1)).drop h.bytes
    if !h.accepted (pagePhys k.typ k.width) k.nullable then throw C.CODEC_UNSUPPORTED
    if left < h.bytes + h.comp ∨ (h.kind == 2) ≠ e.dict ∨ h.crc.any (fun c => c != crc32 body) then throw C.PAGE_CORRUPT
    return (h, body, s)

/-- The data of a page, decompressed (R130, R268). A compressed page is one job (R251): the task that holds the page's first
row runs it, `own`, and every other takes its result (log entry 181). -/
def State.pageBody (s : State) (t : Task) (own : Bool) (h : PageHead) (body : List Byte) : Except Code (List Byte × State) :=
  match codecFormat (Config.pageCodec body) with
  | none => .error C.CODEC_UNSUPPORTED
  | some none => .ok (body, s)
  | some (some f) =>
    if h.kind = 3 ∧ !h.packed then .ok (body, s)
    else
      let r := if own then s.decodeJob (t.chunk.vault / 16) t.slot f h.full body
        else s.inflated f 0xFFFF (min h.full (s.ratioOf 0 * body.length)) body
      match r with
      | (.ok out, s) => .ok (out, s)
      | (.error c, _) => .error (pageFailure c)

/-- The data of a page and, of version 2, its level bytes, which are not compressed. -/
def State.pageParts (s : State) (t : Task) (own : Bool) (h : PageHead) (body : List Byte) :
    Except Code (List Byte × List Byte × State) :=
  let n := if h.kind = 3 then h.defLen else 0
  if body.length < n then .error C.PAGE_CORRUPT
  else
    match s.pageBody t own h (body.drop n) with
    | .error c => .error c
    | .ok (data, s) => .ok (body.take n, data, s)

/-- The cells of one column over all its pages that touch rows [first, first + n) of the task's chunk, with the number of the
page's first row; a dictionary page gives the values of the pages that follow it. -/
def State.columnPages (s : State) (t : Task) (tab : TableAt) (k : SchemaCol) (p : Phys) (first n : Nat) :
    List PageEnt → Nat → List (List Byte) → Except Code (List (Option (List Byte)) × State)
  | [], _, _ => .ok ([], s)
  | e :: rest, row, dict =>
    let own := decide (first ≤ row ∧ row < first + n)
    if e.dict then
      match s.readPage tab k e with
      | .error c => .error c
      | .ok (h, body, s) =>
        match s.pageParts t own h body with
        | .error c => .error c
        | .ok (_, data, s) =>
          match dictPage h p data with
          | .error c => .error c
          | .ok vs => State.columnPages s t tab k p first n rest row vs
    else if row + e.rows ≤ first ∨ first + n ≤ row then State.columnPages s t tab k p first n rest (row + e.rows) dict
    else
      match s.readPage tab k e with
      | .error c => .error c
      | .ok (h, body, s) =>
        match s.pageParts t own h body with
        | .error c => .error c
        | .ok (levels, data, s) =>
          match dataPage h p k.nullable (typeBytes k.typ k.width) e.rows dict levels data with
          | .error c => .error c
          | .ok vs =>
            let mine := (vs.drop (first - row)).take (first + n - max row first)
            match State.columnPages s t tab k p first n rest (row + e.rows) dict with
            | .error c => .error c
            | .ok (more, s) => .ok (mine ++ more, s)

/-- The columns of a chunk of pages. -/
def State.parquetColumns (s : State) (t : Task) (tab : TableAt) (ix : List PageEnt) (first n : Nat) :
    List (Nat × SchemaCol) → Except Code (List Column × State)
  | [] => .ok ([], s)
  | (num, k) :: rest =>
    match pagePhys k.typ k.width with
    | none => .error C.CODEC_UNSUPPORTED
    | some p =>
      match s.columnPages t tab k p first n (ix.filter (fun e => e.col == num)) 0 [] with
      | .error c => .error c
      | .ok (vs, s) =>
        if vs.length ≠ n then .error C.PAGE_CORRUPT
        else
          match State.parquetColumns s t tab ix first n rest with
          | .error c => .error c
          | .ok (cols, s) =>
            .ok (⟨num, k.typ, k.elem, k.width, vs.map (fun v => match v with
              | some b => ⟨true, b, false⟩
              | none => nullCell k.typ k.width)⟩ :: cols, s)

def State.decodeParquet (s : State) (t : Task) (r : Run) : State :=
  match t.chunk.rows.rest with
  | none => s.endTask t []
  | some q =>
    match s.tableOf r q.arg, s.schema? q.schema with
    | some tab, some sch =>
      match s.pageIndex tab sch.cols.length with
      | .error c => s.failTask t c
      | .ok (ix, s) =>
        match s.parquetColumns t tab ix q.first t.chunk.rows.n ((List.range sch.cols.length).zip sch.cols) with
        | .error c => s.failTask t c
        | .ok (cols, s) =>
          let s := s.modRun t.slot (fun r => { r with rowsIn := r.rowsIn + t.chunk.rows.n })
          let (c, s) := s.place (t.chunk.withRows ⟨cols, t.chunk.rows.n, none⟩)
          s.endTask t [c]
    | _, _ => s.failTask t C.SCHEMA_MISMATCH

/-! ### DECODE -/

/-- A text record or an encoded image is taken up by the source stage (R67). -/
def State.takeUp (s : State) (t : Task) : State := s.modRun t.slot (fun r => { r with rowsIn := r.rowsIn + 1 })

def State.decodeText (s : State) (t : Task) (st : StageRec) (pl : Pipeline) (p : DecPar) : State :=
  match s.schema? p.schema, t.chunk.payload with
  | some sch, .raw bytes poison =>
    let s := (s.takeUp t).bump F.PAT_ENG_BYTES_BYTES (t.stream.elim (t.chunk.vault / 16) Prod.fst) (bytes.getD []).length
    match textRecord sch (s.automaton? p.automaton) p bytes poison with
    | .error w => s.loseTask t (t.chunk.sources.headD 0) w
    | .ok cols => s.endSample t st pl [t.chunk.withRows ⟨cols, 1, none⟩]
  | _, _ => s.endTask t []

/-- An image of a sample task: decoded, or lost; the run fails where no engine serves. -/
def State.imageTask (s : State) (t : Task) (st : StageRec) (pl : Pipeline) (kind w h f : Nat) (p : DecPar) (bs : List Byte)
    (poison : Bool) : State :=
  match s.decodeImage t kind w h f p bs poison with
  | .error c => s.failTask t c
  | .ok (r, s) => s.imageEnd t st pl r

def State.decodeSample (s : State) (t : Task) (st : StageRec) (pl : Pipeline) (r : Run) (p : DecPar) : State :=
  match t.chunk.payload with
  | .frame f =>
    let kind := if f.hdr.format = 3 then 4 else if f.hdr.format = 4 then 5 else 6
    s.imageTask t st pl kind f.hdr.width f.hdr.height f.hdr.format p f.payload f.poison
  | _ =>
    if t.chunk.rows.rest.isNone then s.endTask t []
    else
      match s.inputOf t r p.column with
      | .error c => s.failTask t c
      | .ok (none, _, s) => (s.takeUp t).imageEnd t st pl (.error .size)
      | .ok (some bs, poison, s) => (s.takeUp t).imageTask t st pl p.format p.rawW p.rawH p.pixel p bs poison

def decode (task : Nat) (s : State) : State :=
  match s.runningTask task .decode with
  | none => s
  | some (t, st, pl, r) =>
    let p := decPar st.param
    if p.format = 1 then s.decodeParquet t r
    else if p.format ≤ 3 then s.decodeText t st pl p
    else s.decodeSample t st pl r p

/-! ### PYRAMID -/

def pyramid (task : Nat) (s : State) : State :=
  match s.runningTask task .pyramid with
  | none => s
  | some (t, st, pl, _) =>
    match t.chunk.payload with
    | .image px =>
      let par := pyrPar st.param
      let norm := (List.range 7).map (fun i => u32 s.pipeBytes (par.normOff + 4 * i))
      let d := s.free
      let s := { s with free := s.free + pyramidDraws par px }
      match pyramidOf d par norm px with
      | none => s.loseTask t (t.chunk.sources.headD 0) .size
      | some ts => s.endSample t st pl [{ t.chunk with payload := .levels ts }]
    | _ => s.endTask t []

/-! ### Live frames (R139, R140) -/

/-- The run that holds a stream, with its sample count and the last FRAME_SEQ. -/
def State.boundTo (s : State) (stream : Nat) : Option (Run × Nat × Option W32) :=
  s.runs.findSome? (fun r => (r.streams.find? (fun e => e.1 == stream)).map (fun e => (r, e.2.1, e.2.2)))

/-- The DECODE stage of a run that takes a stream, and the STREAM argument. -/
def State.streamStage (s : State) (r : Run) (stream : Nat) : Option (Nat × StageRec × ArgEntry) :=
  match s.pipelineOf r.slot with
  | none => none
  | some p =>
    ((List.range p.stages.length).zip p.stages).findSome? (fun e =>
      if e.2.op = .decode ∧ (decPar e.2.param).format = 7 then
        (r.args.find? (fun a => a.slot == (decPar e.2.param).source && a.kind == 4 && a.a.toNat == stream)).map
          (fun a => (e.1, e.2, a))
      else none)

/-- The staleness limit L in ns (R140). -/
def State.staleLimit (s : State) (a : ArgEntry) : Nat :=
  if a.b = 0 then s.fget F.ING_CTL_STALE_DEFAULT * 1000 else a.b.toNat

/-- The checks at admission, in order. -/
def frameLoss (f : Frame) (now limit : Nat) : Option Loss :=
  let h := f.hdr
  let fieldsOk := decide (h.format ≤ 4 ∧ 1 ≤ h.width ∧ h.width ≤ 16384 ∧ 1 ≤ h.height ∧ h.height ≤ 16384 ∧
    h.bytes = f.payload.length) && h.reservedZero
  if !fieldsOk || decide (now + 1000000 < h.capture) then some .parse
  else if crc32c 0 f.payload ≠ h.crc then some .checksum
  else if h.capture + limit < now then some .stale
  else none

/-- FRAME_SEQ values skipped between two frames of a stream. -/
def seqGap (last : Option W32) (seq : W32) : Nat :=
  match last with
  | none => 0
  | some l =>
    let d := (seq - (l + 1)).toNat
    if d < 0x80000000 then d else 0

/-- The vault a frame is placed in (R134): LOST vaults are passed over. -/
def State.frameVault (s : State) (n : Nat) : Nat :=
  (((List.range 192).map (fun k => (n + k) % 192)).find? (fun v => !s.side.lostVaults.contains v)).getD (n % 192)

/-- A frame has left the packets that arrived and were not taken. -/
def State.takeFrame (s : State) (stream : Nat) : State :=
  { s with tth := { s.tth with inbox := s.tth.inbox.eraseP (fun p => p.hdr.kind == 7 && u16 p.body 0 == stream) } }

/-- A frame arrives whole for a bound stream: admitted, numbered, checked, and given a task or lost. -/
def admission (f : Frame) (s : State) : State :=
  match (if s.lit then s.boundTo f.hdr.stream else none) with
  | none => s
  | some (r, n, last) =>
    match s.streamStage r f.hdr.stream with
    | none => s
    | some (stage, st, a) =>
      let s := s.takeFrame f.hdr.stream
      let s := s.bump F.ING_STREAM_COUNT_ADMITTED f.hdr.stream 1
      let s := s.bump F.ING_STREAM_COUNT_GAPS f.hdr.stream (seqGap last f.hdr.frameSeq)
      let s := s.modRun r.slot (fun r => { r with
        rowsIn := r.rowsIn + 1
        streams := updWhere (fun e => e.1 == f.hdr.stream) (fun e => (e.1, n + 1, some f.hdr.frameSeq)) r.streams })
      let limit := s.staleLimit a
      if !s.running r.slot then s
      else
        match frameLoss f s.meridian limit with
        | some w =>
          let s := s.loseSample r.slot stage st.outFlow n w
          s.modWork r.slot (fun k => { k with
            sourcesLeft := k.sourcesLeft ++ [(stage, .hole st.outFlow n 0 (.lost n w))] })
        | none =>
          let v := s.frameVault n
          let s := ((s.meter v f.payload.length).event 0x101 v (ceilDiv f.payload.length 64))
          let c : Chunk := ⟨st.outFlow, n % 2 ^ 32, 0, v, false, false, [n], some (f.hdr.capture, limit), .frame f, none⟩
          s.modWork r.slot (fun w => { w with sourcesLeft := w.sourcesLeft ++ [(stage, .chunk c)] })

/-- A frame arrives for a stream that no run holds. -/
def frameNoRun (f : Frame) (s : State) : State :=
  if !s.lit || (s.boundTo f.hdr.stream).isSome then s
  else (s.takeFrame f.hdr.stream).bump F.ING_STREAM_COUNT_NO_RUN f.hdr.stream 1

/-! ### Stragglers (R145) -/

/-- A RUNNING task of a stage that produces samples; Parquet pages give rows, which are never skipped (R130). -/
def State.sampleTask (s : State) (task : Nat) : Option (Task × StageRec × Pipeline) :=
  match s.task? task with
  | none => none
  | some t =>
    match s.stage? t.slot t.stage, s.pipelineOf t.slot with
    | some st, some p => if t.state = .running ∧ !t.stop ∧ st.makesSamples then some (t, st, p) else none
    | _, _ => none

def stragglerDefer (task : Nat) (s : State) : State :=
  match s.sampleTask task with
  | none => s
  | some (t, st, p) => if (s.limit t st p).1 = .defer then s.putTask { t with deferred := true } else s

def stragglerAbandon (task : Nat) (s : State) : State :=
  match s.sampleTask task with
  | none => s
  | some (t, st, p) =>
    match s.limit t st p with
    | (.abandon, l) =>
      if st.op = .parse then s.abandonParse t st p else s.abandonTask t st p l (t.chunk.sources.headD 0)
    | _ => s

end Sys2Proof.Machine
end

