-- ==== Sys2Proof/Machine/Runs.lean ====
section
/-!
DEFINITION. Runs: the checks of RUN (R62), the chunks that source stages form (R83, R129 to R134), tasks made from chunks
(R301, R302, R306), what passes between stages without a unit (R308, R309), the completion point (R64, R67), CANCEL
(R65) and QUERY (R351).
-/
namespace Sys2Proof.Machine

/-! ### The checks of RUN (R62) -/

def ArgKind.code : ArgKind → Nat
  | .table => 1
  | .scalar => 2
  | .ring => 3
  | .stream => 4

/-- The one region that holds a local range of at least one byte. -/
def State.rangeRegion (s : State) (a len : Nat) : Option Region :=
  match parts a len with
  | none => none
  | some ps =>
    match ps with
    | [] => none
    | e :: _ =>
      match s.regionAt e.1 with
      | none => none
      | some r => if ps.all (fun e => r.holds e.1 && r.holds (e.1 + (e.2 - 1))) then some r else none

def ringSlotBytes (e : ArgEntry) : Nat := e.c.toNat % 2 ^ 32
def ringSlots (e : ArgEntry) : Nat := e.c.toNat / 2 ^ 32

/-- Check 6: every declared slot has exactly one entry, and no entry names another slot. -/
def argsMatch (p : Pipeline) (es : List ArgEntry) : Bool :=
  p.args.all (fun d => (es.filter (fun e => e.slot == d.1)).length == 1) &&
    es.all (fun e => p.args.any (fun d => d.1 == e.slot))

/-- Check 7. -/
def kindsMatch (p : Pipeline) (es : List ArgEntry) : Bool :=
  es.all (fun e => p.args.any (fun d => d.1 == e.slot && d.2.code == e.kind))

/-- The regions that check 8 finds for a ring: of the control block, and of the slots. -/
def State.ringRegions (s : State) (e : ArgEntry) : Option (Region × Region) :=
  match s.rangeRegion (poolLocal e.a) 128, s.rangeRegion (poolLocal e.b) (max 1 (ringSlotBytes e * ringSlots e)) with
  | some c, some d => some (c, d)
  | _, _ => none

/-- Check 8 for one entry. -/
def State.argInRange (s : State) (e : ArgEntry) : Bool :=
  if e.kind = 1 then
    (match s.region? e.region with
     | some r => decide (e.a.toNat < r.size)
     | none => false)
  else if e.kind = 3 then (s.ringRegions e).isSome
  else true

/-- Check 8 for the completion record. -/
def State.completionOk (s : State) (a : W64) : Bool :=
  a == 0 || (a.toNat % 32 == 0 && (s.rangeRegion (poolLocal a) 32).isSome)

/-- Check 9 (R54): what an Operator may name. -/
def State.argOpen (s : State) (e : ArgEntry) : Bool :=
  if e.kind = 1 then
    (match s.region? e.region with
     | some r => r.access != .keeperOnly
     | none => false)
  else if e.kind = 3 then
    (match s.ringRegions e with
     | some (c, d) => c.access == .operatorWrite && d.access == .operatorWrite
     | none => false)
  else true

def State.completionOpen (s : State) (a : W64) : Bool :=
  a == 0 || (match s.rangeRegion (poolLocal a) 32 with
    | some r => r.access == .operatorWrite
    | none => false)

/-- The regions that a stage reaches by its parameters and descriptors (R54). -/
def stageRegions (im : Image) (st : StageRec) : List Nat :=
  let p := st.param
  let ofDesc (n : Nat) : List Nat :=
    match (im.descs.find? (·.1 == n)).map (·.2) with
    | none => []
    | some d => [d.region] ++ (((im.descs.find? (·.1 == d.scale)).map (fun e => e.2.region)).toList)
  let named := match st.op with
    | .bucket => if u8 p 0 = 3 then [u16 p 24] else []
    | .normalise | .stats | .joinBuild => [u16 p 12]
    | _ => []
  named ++ (stageDescs im.graphs st).flatMap ofDesc

/-- Check 9 for what the pipeline itself names: a KEEPER_ONLY region is reached by stages of a Keeper's runs only (R54,
log entry 160). -/
def State.stagesOpen (s : State) (p : Pipeline) : Bool :=
  match s.image with
  | none => true
  | some im => p.stages.all (fun st => (stageRegions im st).all (fun n =>
      match s.region? n with
      | some r => r.access != .keeperOnly
      | none => true))

/-- Whether a stage writes into the ring of an argument slot. -/
def writesRing (st : StageRec) (e : ArgEntry) : Bool :=
  (st.op == .emit && u8 st.param 0 == e.slot) || (st.op == .parse && (parsePar st.param).ring == e.slot)

/-- The slot size and count that a stage needs of a ring it writes: batch rings (R62 check 10) and match rings (R212). -/
def State.ringFits (s : State) (st : StageRec) (e : ArgEntry) : Bool :=
  let size := ringSlotBytes e
  let n := ringSlots e
  if !writesRing st e then true
  else if st.op = .emit then
    match s.layout? (u16 st.param 2) with
    | some l => size % 64 == 0 && decide (64 + l.payload + 16 * l.slots ≤ size ∧ 1 ≤ n ∧ n ≤ 65536)
    | none => true
  else size == 32 && isPow2 n && decide (1024 ≤ n ∧ n ≤ 65536)

/-- Check 10 but for the indexes: alignment, slot size and slot count. A ring that no stage writes has a batch ring's slots
with no payload (log entry 161). -/
def State.ringShaped (s : State) (p : Pipeline) (e : ArgEntry) : Bool :=
  e.a.toNat % 64 == 0 && e.b.toNat % 64 == 0 && decide (1 ≤ ringSlots e ∧ ringSlots e ≤ 65536) &&
    p.stages.all (fun st => s.ringFits st e) &&
    (p.stages.any (fun st => writesRing st e) || (ringSlotBytes e % 64 == 0 && decide (64 ≤ ringSlotBytes e)))

/-- What the reads of indexes on other devices have brought: the value, or that the word could not be read. -/
abbrev KnownIndexes := List (W64 × Option W64)

/-- One index of a ring at run start: it must arrive without poison from memory in service. That of a ring on another
device has been read through its owner (R31). -/
def State.ringIndex (s : State) (known : KnownIndexes) (a : W64) : Option Nat × State :=
  if poolDevice a = s.device then
    match s.checkedRead (poolLocal a) 8 with
    | .error _ => (none, s)
    | .ok (bs, s) => (if bs.any (·.2) then none else some (leNat (bs.map (·.1))), s)
  else (((known.find? (fun e => e.1 == a)).bind (·.2)).map BitVec.toNat, s)

/-- Check 10 for the indexes of one ring; none where it fails. -/
def State.ringOpen (s : State) (known : KnownIndexes) (e : ArgEntry) : Option Ring × State :=
  match s.ringIndex known e.a with
  | (none, s) => (none, s)
  | (some w, s) =>
    match s.ringIndex known (e.a + 64) with
    | (none, s) => (none, s)
    | (some r, s) =>
      let s := if w < r then s.attn C.READ_INDEX_AHEAD [e.a.toNat, r, w] else s
      (some ⟨e.slot, e.a, e.b, ringSlotBytes e, ringSlots e, w, min r w⟩, s)

def State.ringsOpen (s : State) (known : KnownIndexes) : List ArgEntry → Option (List Ring) × State
  | [] => (some [], s)
  | e :: r =>
    match s.ringOpen known e with
    | (none, s) => (none, s)
    | (some g, s) =>
      match State.ringsOpen s known r with
      | (none, s) => (none, s)
      | (some gs, s) => (some (g :: gs), s)

/-- Run slots that may be in use (R61). -/
def State.maxRuns (s : State) : Nat := min 64 (s.fget F.PIP_CTL_MAX_RUNS)

/-- The run slot that an accepted run takes. Which of the free slots it is the manual leaves open: the model takes the
lowest-numbered (log entry 162). -/
def State.freeRunSlot (s : State) : Option Nat :=
  if s.maxRuns ≤ s.runs.length then none
  else (List.range 64).find? (fun k => !s.runs.any (fun r => r.slot == k))

/-- What the checks of R62 yield: the pipeline, the rings with their indexes, the free slot. -/
structure RunGrant where
  pipe : Pipeline
  rings : List Ring
  slot : Nat
  state : State

/-- The RING entries of a block. -/
def ringEntries (b : RunBlock) : List ArgEntry := b.entries.filter (fun e => e.kind == 3)

/-- Checks 1 to 9 of R62 in their order, and check 10 but for the indexes: the code of the first that fails. -/
def State.runFirst (s : State) (role : Role) (b : RunBlock) : Except Code Pipeline :=
  if !s.flag F.PIP_CTL_ACCEPT then .error C.RUNS_HELD
  else if b.run = 0 then .error C.RUN_NUMBER_INVALID
  else if s.runs.any (fun r => r.run == b.run) then .error C.RUN_ACTIVE
  else
    match s.pipelines.find? (fun p => p.number == b.pipeline) with
    | none => .error C.PIPELINE_UNKNOWN
    | some p =>
      if b.priority ≠ 0xFF ∧ p.ceiling < b.priority then .error C.PRIORITY_CEILING
      else if !argsMatch p b.entries then .error C.ARG_MISSING
      else if !kindsMatch p b.entries then .error C.ARG_KIND
      else if !b.entries.all s.argInRange || !s.completionOk b.completion then .error C.ARG_RANGE
      else if role = .operator ∧ (!b.entries.all s.argOpen || !s.completionOpen b.completion || !s.stagesOpen p) then
        .error C.REGION_ACCESS
      else if !(ringEntries b).all (s.ringShaped p) then .error C.RING_INVALID
      else .ok p

/-- The indexes on other devices that check 10 reads. -/
def State.indexReads (s : State) (b : RunBlock) : List W64 :=
  ((ringEntries b).flatMap (fun e => [e.a, e.a + 64])).filter (fun a => poolDevice a != s.device)

/-- The checks of R62 in their order; the code of the first that fails, with the state after it. -/
def State.runCheck (s : State) (role : Role) (b : RunBlock) (known : KnownIndexes := []) :
    Except (Code × State) RunGrant :=
  match s.runFirst role b with
  | .error c => .error (c, s)
  | .ok p =>
    match s.ringsOpen known (ringEntries b) with
    | (none, s) => .error (C.RING_INVALID, s)
    | (some gs, s) =>
      if s.runs.any (fun r => r.rings.any (fun g => gs.any (fun h => h.ctl == g.ctl))) then .error (C.RING_BUSY, s)
      else
        match s.freeRunSlot with
        | none => .error (C.RUN_SLOTS_FULL, s)
        | some k =>
          if watchPlaces < s.side.watches.length + gs.length then
            .error (C.WATCH_TABLE_FULL, s.fset F.VLT_WATCH_REFUSED 0 1)
          else .ok ⟨p, gs, k, s⟩

/-! ### Chunks of source stages -/

/-- Cut `n` rows into pieces of at most `limit`: first row and count of each. `fuel` bounds the pieces. -/
def rowCuts (limit : Nat) : Nat → Nat → Nat → List (Nat × Nat)
  | 0, _, _ => []
  | fuel + 1, first, n =>
    if n = 0 then [] else (first, min limit n) :: rowCuts limit fuel (first + min limit n) (n - min limit n)

/-- Chunks numbered in order within a flow (R59). -/
def numberChunks (cs : List Chunk) : List Chunk :=
  (cs.zip (List.range cs.length)).map (fun e => { e.1 with ordinal := e.2 % 2 ^ 32, sub := 0 })

/-- A chunk of rows still in the table: vault, first row there, rows, number of its first row. -/
def rangeChunk (flow arg schema mask c v first n row : Nat) : Chunk :=
  ⟨flow, 0, 0, v, false, false, (List.range n).map (fun i => c + row + i), none, .rows [] n (some ⟨arg, schema, mask, first⟩), none⟩

/-- The source index of the first row of a TABLE argument: C, or where a template that the pipeline binds to the argument has
PIECE set, the offset that binding leaves in PIECE[RANK − 1] (R152, R175; the lowest-numbered, log entry 182). -/
def State.sourceBase (s : State) (r : Run) (arg : Nat) (t : TableAt) : Nat :=
  match s.image, s.pipelineOf r.slot, r.args.find? (fun e => e.slot == arg && e.kind == 1) with
  | some im, some p, some e =>
    match ((sortBy (fun a b => decide (a ≤ b)) (templatesOf im p)).filterMap s.imageDesc).find?
        (fun d => d.arg == arg && d.hasPiece) with
    | some d => (bindDesc d e).piece.getD (d.rank - 1) 0
    | none => t.c
  | _, _, _ => t.c

/-- The rows of each vault's part of a table: vault, first row of it as the vault counts, its rows, the number of its
first row (R53, R83, R128). A VAULT_HASH table whose slice headers do not sum to B is refused. -/
def State.tableParts (s : State) (t : TableAt) : Except Code (List (Nat × Nat × Nat × Nat) × State) :=
  if t.region.kind = .vaultHash then
    let (ns, s) := s.sliceTable t
    if ns.sum ≠ t.b then .error C.SCHEMA_MISMATCH
    else .ok ((List.range 192).map (fun v => (v, 0, ns.getD v 0, (ns.take v).sum)), s)
  else
    .ok ((List.range 192).map (fun v =>
      (v, if t.sliced then 0 else shareFirst t.b v, shareRows t.b v, shareFirst t.b v)), s)

/-- The chunks of a source over the rows of a table, at most `limit` rows each. -/
def State.rowChunks (s : State) (r : Run) (st : StageRec) (arg schema mask limit : Nat) :
    Except Code (List Chunk × State) :=
  match s.tableOf r arg with
  | none => .error C.SCHEMA_MISMATCH
  | some t =>
    match s.tableParts t with
    | .error c => .error c
    | .ok (ps, s) =>
      let c := s.sourceBase r arg t
      .ok (ps.flatMap (fun e =>
        (rowCuts limit (e.2.2.1 + 1) 0 e.2.2.1).map (fun k =>
          rangeChunk st.outFlow arg schema mask c e.1 (e.2.1 + k.1) k.2 (e.2.2.2 + k.1))), s)

/-- The chunks of a Parquet table: the rows that its page index names, placed as an INTERLEAVED table's (R130). -/
def State.pageChunks (s : State) (r : Run) (st : StageRec) (arg schema : Nat) : Except Code (List Chunk × State) :=
  match s.tableOf r arg with
  | none => .error C.SCHEMA_MISMATCH
  | some t =>
    match s.pageIndex t ((s.schema? schema).elim 0 (fun g => g.cols.length)) with
    | .error c => .error c
    | .ok (ix, s) =>
      let n := pageRows ix 0
      let c := s.sourceBase r arg t
      .ok ((List.range 192).flatMap (fun v =>
        (rowCuts 65536 (shareRows n v + 1) (shareFirst n v) (shareRows n v)).map (fun k =>
          rangeChunk st.outFlow arg schema allColumns c v k.1 k.2 k.1)), s)

/-- The bytes of a text, each with its poison, vault by vault where each vault holds a slice: its share of the bytes, in a
VAULT_HASH region behind the slice header; otherwise B bytes from the table base. R131 gives a length in bytes alone: that a
slice holds bytes of the text as it holds rows of a table is log entry 181. -/
def State.textSlices (s : State) (t : TableAt) : Except Code (List (Nat × List (Byte × Bool)) × State) :=
  let read (acc : Except Code (List (Nat × List (Byte × Bool)) × State)) (v n : Nat) :=
    match acc with
    | .error c => .error c
    | .ok (l, s) =>
      if n = 0 then .ok (l, s)
      else
        match s.checkedRead (t.addr v (if t.region.kind = .vaultHash then 64 else 0)) n with
        | .error c => .error c
        | .ok (bs, s) => .ok (l ++ [(v, bs)], s)
  if !t.sliced then read (.ok ([], s)) 0 t.b
  else
    match s.tableParts t with
    | .error c => .error c
    | .ok (ps, s) => ps.foldl (fun acc e => read acc e.1 e.2.2.1) (.ok ([], s))

/-- The slice that holds byte `at_` of a text. -/
def sliceVault : List (Nat × List (Byte × Bool)) → Nat → Nat
  | [], _ => 0
  | (v, bs) :: r, at_ => if at_ < bs.length ∨ r.isEmpty then v else sliceVault r (at_ - bs.length)

/-- The first line of a text is empty. -/
def emptyLine (bs : List Byte) : Bool := bs.head? == some 10 || bs.take 2 == [13, 10]

/-- Records as chunks of one sample: the vault of each, numbered from C in text order. -/
def recordChunk (flow c i v : Nat) (rec : List (Byte × Bool)) : Chunk :=
  ⟨flow, 0, 0, v, false, false, [c + i], none, .raw (some (rec.map (·.1))) (rec.any (·.2)), none⟩

/-- The chunks of a text source: one for each record that the pre-scan finds (R131). In a sliced table a record lies in the
vault that holds its first byte; otherwise the records are shared among the vaults, and each is copied through the NoC into its
own (R134). HEADER_LINE skips the first line (R133). -/
def State.textChunks (s : State) (r : Run) (st : StageRec) (arg delim quote max : Nat) (header : Bool) :
    Except Code (List Chunk × State) :=
  match s.tableOf r arg with
  | none => .error C.SCHEMA_MISMATCH
  | some t =>
    match s.textSlices t with
    | .error c => .error c
    | .ok (ss, s) =>
      let c := s.sourceBase r arg t
      let bs := ss.flatMap (·.2)
      let recs := cutPlaced delim quote max bs
      let recs := if header ∧ !emptyLine (bs.map (·.1)) then recs.drop 1 else recs
      let n := recs.length
      let cs := (recs.zip (List.range n)).map (fun e =>
        (e.1.1, recordChunk st.outFlow c e.2 (if t.sliced then sliceVault ss e.1.1 else shareVault n e.2) e.1.2))
      let s := if t.sliced then s
        else cs.foldl (fun s e => match e.2.payload with
          | .raw (some b) _ => s.copyIn ((parts (t.addr 0 e.1) b.length).getD []) e.2.vault
          | _ => s) s
      .ok (cs.map (·.2), s)

/-- PARSE names no schema for a RAW table: the schema is the first in which column `k` is BINARY (log entry 49). -/
def State.rawSchema (s : State) (k : Nat) : Nat :=
  match s.image with
  | none => 0
  | some im =>
    ((im.schemas.find? (fun c => match c.cols[k]? with
      | some col => col.typ == tBinary
      | none => false)).map (fun c => c.number)).getD 0

/-- The chunks that a source stage forms when its run is accepted; a stream forms its chunks as frames arrive. -/
def State.sourceChunks (s : State) (r : Run) (st : StageRec) : Except Code (List Chunk × State) :=
  let p := st.param
  match st.op with
  | .scan => s.rowChunks r st (u8 p 0) (u16 p 16) (u64 p 8) (if u32 p 4 = 0 then 65536 else u32 p 4)
  | .decode =>
    let d := decPar p
    if d.format = 1 then s.pageChunks r st d.source d.schema
    else if d.format = 2 then s.textChunks r st d.source d.delim d.quote d.maxBytes d.header
    else if d.format = 3 then s.textChunks r st d.source 256 256 d.maxBytes false
    else if d.format = 7 then .ok ([], s)
    else s.rowChunks r st d.source d.schema (2 ^ d.column) 1
  | .parse =>
    let d := parsePar p
    if d.format = 1 then s.textChunks r st (u8 p 4) d.delim d.quote d.maxBytes d.header
    else if d.format = 2 then s.textChunks r st (u8 p 4) 256 256 d.maxBytes false
    else s.rowChunks r st (u8 p 4) (s.rawSchema d.column) (2 ^ d.column) 1
  | _ => .ok ([], s)

end Sys2Proof.Machine
end

