-- ==== Sys2Proof/Machine/Settle.lean ====
section
/-!
DEFINITION. What the dispatcher's controller does without a unit whenever something changes (R300): it makes tasks from
chunks (R301, R306), opens gates (R302), releases positions in order (R308), passes hole markers on (R309), ends builds
and flows, and takes a run to its completion point (R64, R67).
-/
namespace Sys2Proof.Machine

/-! ### Stages of a pipeline -/

/-- The stages that a stage's outputs go to. -/
def Pipeline.next (p : Pipeline) (i : Nat) : List Nat :=
  match p.stages[i]? with
  | some st => st.outQ.filterMap (fun q => (p.queues[q]?).map QueueRec.consumer)
  | none => []

/-- Stages below those in `l`, gathered over `fuel` rounds. -/
def Pipeline.belowOf (p : Pipeline) : Nat → List Nat → List Nat
  | 0, l => l
  | fuel + 1, l => Pipeline.belowOf p fuel ((l ++ l.flatMap p.next).eraseDups)

/-- Whether stage `j` descends from stage `i`. -/
def Pipeline.descends (p : Pipeline) (j i : Nat) : Bool := (p.belowOf p.stages.length [i]).contains j

def Pipeline.sources (p : Pipeline) : List Nat :=
  (List.range p.stages.length).filter (fun i => match p.stages[i]? with
    | some st => st.source
    | none => false)

/-- The STATS stage of its own pipeline that a stage reads (R106): NORMALISE, and BUCKET of kind QUANTILE. -/
def StageRec.statsStage (st : StageRec) : Option Nat :=
  let k := match st.op with
    | .normalise => u8 st.param 14
    | .bucket => if u8 st.param 0 = 3 then u8 st.param 26 else 0xFF
    | _ => 0xFF
  if k = 0xFF then none else some k

/-- The STATS stages whose records must be written before tasks of stage `i` become ready (R106, R302): those that `i`
reads, and those read below a source `i` from which they do not themselves descend. -/
def Pipeline.statsNeeded (p : Pipeline) (i : Nat) : List Nat :=
  (List.range p.stages.length).filterMap (fun j =>
    match (p.stages[j]?).bind StageRec.statsStage with
    | some x => if j = i ∨ (p.sources.contains i ∧ p.descends j i ∧ !p.descends x i) then some x else none
    | none => none)

/-- The flows whose chunks reach a BATCH stage. -/
def Pipeline.flowsInto (p : Pipeline) (b : Nat) : List Nat :=
  ((p.sources.flatMap (fun i => p.batchesFrom (p.stages.length + 1) i 0)).filter (fun e => e.1 == b)).map (·.2) |>.eraseDups

/-! ### Tasks from chunks -/

/-- Whether the gates of R302 are open for a stage of a run. -/
def State.gateOpen (s : State) (slot stage : Nat) (st : StageRec) (p : Pipeline) : Bool :=
  (p.statsNeeded stage).all (fun x => (s.workOf slot).statsDone.contains x) &&
    (st.op != .joinProbe || (match p.stages[u8 st.param 1]? with
      | some b => s.buildComplete slot b (u8 st.param 1)
      | none => true))

/-- Entries of the shared pool of the task table (R306). -/
def sharedEntries : Nat := 131072 - 16384

def State.stageTasks (s : State) (slot stage : Nat) : Nat :=
  (s.disp.tasks.filter (fun t => t.slot == slot && t.stage == stage)).length

/-- Whether a chunk of a stage can become a task now (R306). -/
def State.entryFree (s : State) (slot stage : Nat) : Bool :=
  decide (s.stageTasks slot stage < 4) || decide ((s.disp.tasks.filter (·.shared)).length < sharedEntries)

/-- A chunk becomes a task, HELD or READY; in an ORDERED flow its position stands in the output contexts from now on. -/
def State.makeTask (s : State) (r : Run) (p : Pipeline) (stage : Nat) (st : StageRec) (c : Chunk)
    (queue : Option Nat) : State :=
  let ready := s.gateOpen r.slot stage st p
  let id := s.disp.nextTask
  let t : Task :=
    { id := id, slot := r.slot, stage := stage, chunk := c, queue := queue, state := if ready then .ready else .held,
      prio := if st.priority = 0xFF then r.priority else st.priority, readyAt := s.now, sentAt := 0, core := 0xFF,
      units := [], taken := false, stop := false, deferred := false, held := none, past := none,
      shared := decide (4 ≤ s.stageTasks r.slot stage) }
  let s := { s with disp := { s.disp with tasks := s.disp.tasks ++ [t], nextTask := id + 1 } }
  let s := if p.positioned st c.flow then
      st.outQ.foldl (fun s q => s.modCtx r.slot q (fun x => { x with
        rel := insertPos ⟨id, c.ordinal, c.sub, [], false, false, false, some (st.flowOf c.flow)⟩ x.rel })) s
    else s
  if ready then s.logTask 0x01 t 0xFF 0 else s

/-- A marker that a stage passes on to its own outputs at the same position: EMPTY and CANCELLED only where the flow is
ORDERED (R309). -/
def State.passMarker (s : State) (r : Run) (p : Pipeline) (st : StageRec) (flow ordinal sub : Nat) (m : Marker) : State :=
  let at_ := p.positioned st flow
  let keep := match m with
    | .lost .. => true
    | _ => at_
  let order := if at_ then some (st.flowOf flow) else none
  if keep then s.putOut r.slot st order ordinal sub [.hole (st.flowOf flow) ordinal sub m] false else s

/-- A marker reaches a stage: EMIT drops it, BATCH keeps it for its turn, any other stage passes it on. -/
def State.takeMarker (s : State) (r : Run) (p : Pipeline) (stage : Nat) (st : StageRec) (flow ordinal sub : Nat)
    (m : Marker) : State :=
  match st.op with
  | .emit => s
  | .batch => s.modWork r.slot (fun w => { w with holes := w.holes ++ [(stage, s.disp.nextTask, flow, m)] })
  | _ => s.passMarker r p st flow ordinal sub m

/-- The consuming stage takes item `k` of a queue; in an ORDERED flow the queue has passed its position. -/
def Ctx.takeItem (c : Ctx) (p : Pipeline) (k : Nat) (x : QItem) : Ctx :=
  { c with
    items := c.items.eraseIdx k
    seen := if p.isOrdered x.flow then (x.flow, x.pos) :: c.seen.filter (fun e => e.1 != x.flow) else c.seen }

/-- Take items from a queue, oldest first, while chunks can become tasks; BATCH takes those of an ORDERED flow in the flow's
order over all its queues (R60). `fuel` bounds the items. -/
def State.intake (r : Run) (p : Pipeline) (q stage : Nat) (st : StageRec) (done : List Nat) : Nat → State → State
  | 0, s => s
  | fuel + 1, s =>
    match s.ctx? r.slot q with
    | none => s
    | some c =>
      match findIdxFrom (fun (x : QItem) => st.op != .batch || !p.isOrdered x.flow ||
          s.nothingBefore r.slot p st done x.flow x.pos) 0 c.items with
      | none => s
      | some k =>
        match c.items[k]? with
        | none => s
        | some x =>
          let t := s.modCtx r.slot q (fun c => c.takeItem p k x)
          (match x with
           | .chunk k =>
             if s.entryFree r.slot stage then State.intake r p q stage st done fuel (t.makeTask r p stage st k (some q))
             else s
           | .hole flow o b m => State.intake r p q stage st done fuel (t.takeMarker r p stage st flow o b m))

/-- Source chunks become tasks in order; a stage whose oldest chunk finds no entry waits. -/
def State.feedSources (r : Run) (p : Pipeline) : List (Nat × QItem) → List Nat → State → List (Nat × QItem) × State
  | [], _, s => ([], s)
  | (i, x) :: rest, blocked, s =>
    match p.stages[i]? with
    | none => State.feedSources r p rest blocked s
    | some st =>
      if blocked.contains i then
        let (left, s) := State.feedSources r p rest blocked s
        ((i, x) :: left, s)
      else
        match x with
        | .chunk c =>
          if s.entryFree r.slot i then State.feedSources r p rest blocked (s.makeTask r p i st c none)
          else
            let (left, s) := State.feedSources r p rest (i :: blocked) s
            ((i, x) :: left, s)
        | .hole flow o b m =>
          let order := if p.positioned st flow then some flow else none
          State.feedSources r p rest blocked (s.putOut r.slot st order o b [.hole flow o b m] false)

/-- HELD tasks whose gates have opened become READY. -/
def State.openGates (s : State) (r : Run) (p : Pipeline) : State :=
  (s.disp.tasks.filter (fun t => t.slot == r.slot && t.state == .held)).foldl (fun s t =>
    match p.stages[t.stage]? with
    | none => s
    | some st =>
      if s.gateOpen r.slot t.stage st p then
        let t := { t with state := .ready, readyAt := s.now }
        (s.putTask t).logTask 0x01 t 0xFF 0
      else s) s

/-- Markers at BATCH whose turn has come: every earlier task of the stage has ended. -/
def State.placeMarkers (r : Run) (p : Pipeline) : List (Nat × Nat × Nat × Marker) → State → List (Nat × Nat × Nat × Marker) × State
  | [], s => ([], s)
  | (i, first, flow, m) :: rest, s =>
    if s.disp.tasks.any (fun t => t.slot == r.slot && t.stage == i && decide (t.id < first)) then
      let (left, s) := State.placeMarkers r p rest s
      ((i, first, flow, m) :: left, s)
    else
      match p.stages[i]? with
      | none => State.placeMarkers r p rest s
      | some st =>
        let (cs, s) := s.offerMarker r.slot i flow st m
        State.placeMarkers r p rest (s.putBatches r.slot st cs)

/-! ### The end of stages -/

/-- Whether a BATCH stage has closed the last batch of every flow. -/
def State.flowsEnded (s : State) (slot : Nat) (p : Pipeline) (stage : Nat) : Bool :=
  (p.flowsInto stage).all (fun f => (s.openBatch slot stage f).ended)

/-- Whether nothing of a stage is left: no task, no source chunk, no marker. -/
def State.stageIdle (s : State) (slot stage : Nat) : Bool :=
  s.stageTasks slot stage == 0 && !(s.workOf slot).sourcesLeft.any (fun e => e.1 == stage) &&
    !(s.workOf slot).holes.any (fun e => e.1 == stage)

/-- Whether a queue is empty and nothing waits for release into it. -/
def State.queueEmpty (s : State) (slot q : Nat) : Bool :=
  match s.ctx? slot q with
  | some c => c.items.isEmpty && c.rel.isEmpty
  | none => true

/-- A source over a stream never ends while its run holds the stream (R139). -/
def StageRec.isStream (st : StageRec) : Bool := st.op == .decode && (decPar st.param).format == 7

/-- Whether a stage's input is exhausted, given the stages that have ended. -/
def State.exhausted (s : State) (slot : Nat) (p : Pipeline) (st : StageRec) (ended : List Nat) : Bool :=
  if st.source then !st.isStream
  else st.inQ.all (fun q => s.queueEmpty slot q && (match p.queues[q]? with
    | some k => ended.contains k.producer
    | none => true))

/-- The stages of a run that have ended, found over `fuel` rounds. -/
def State.endedStages (s : State) (slot : Nat) (p : Pipeline) : Nat → List Nat
  | 0 => []
  | fuel + 1 =>
    let before := State.endedStages s slot p fuel
    (List.range p.stages.length).filter (fun i =>
      match p.stages[i]? with
      | none => true
      | some st => s.stageIdle slot i && s.exhausted slot p st before && (st.op != .batch || s.flowsEnded slot p i))

def State.ended (s : State) (slot : Nat) (p : Pipeline) : List Nat := s.endedStages slot p (p.stages.length + 1)

/-- Builds whose input is exhausted and flows whose samples are all resolved come to their end (R119, R142). -/
def State.endStages (s : State) (r : Run) (p : Pipeline) : State :=
  let done := s.ended r.slot p
  (List.range p.stages.length).foldl (fun s i =>
    match p.stages[i]? with
    | none => s
    | some st =>
      if st.op = .joinBuild ∧ done.contains i ∧ !((s.build? r.slot i).any (·.complete)) then s.finishBuild r.slot i st
      else if st.op = .batch ∧ s.stageIdle r.slot i ∧ s.exhausted r.slot p st done then
        (p.flowsInto i).foldl (fun s f =>
          State.endFlow r.slot i f st ((s.openBatch r.slot i f).carry.length + (s.openBatch r.slot i f).tail.length + 2) s) s
      else s) s

/-- A working region is released when the last JOIN_PROBE of its build has ended (R122). -/
def State.releaseRegions (s : State) (r : Run) (p : Pipeline) : State :=
  let done := s.ended r.slot p
  let finished (g : Nat) : Bool := (List.range p.stages.length).all (fun i =>
    match p.stages[i]? with
    | none => true
    | some st =>
      if st.op = .joinBuild ∧ u16 st.param 12 = g then done.contains i
      else if st.op = .joinProbe ∧ ((p.stages[u8 st.param 1]?).map (fun b => u16 b.param 12)) = some g then done.contains i
      else true)
  { s with heldRegions := s.heldRegions.filter (fun e => e.2 != r.slot || !finished e.1) }

/-! ### The completion point (R64, R67) -/

/-- A count in a field of `bits` bits, saturated. -/
def satField (bits n : Nat) : Nat := min n (2 ^ bits - 1)

/-- The completion record (R67). -/
def Run.record (r : Run) (status : Code) (time : Nat) : Completion :=
  let fits : Bool := decide (r.rowsIn < 2 ^ 36 ∧ r.rowsOut < 2 ^ 36 ∧ r.skipped < 2 ^ 16 ∧ r.replaced < 2 ^ 16 ∧
    r.stale < 2 ^ 16 ∧ r.abandoned < 2 ^ 16)
  let flags := b2n (!fits) + 2 * b2n (status != 0 && r.batches != 0) + 4 * b2n r.poisonSeen
  natLe 4 r.run.toNat ++ natLe 2 status.toNat ++ natLe 1 flags ++
    natLe 9 (satField 36 r.rowsIn + satField 36 r.rowsOut * 2 ^ 36) ++ natLe 2 (satField 16 r.skipped) ++
    natLe 2 (satField 16 r.replaced) ++ natLe 2 (satField 16 r.stale) ++ natLe 2 (satField 16 r.abandoned) ++ natLe 8 time

/-- Everything a run held is freed with its slot. -/
def State.freeRun (s : State) (r : Run) : State :=
  let slot := r.slot
  let mine (w : Watch) : Bool := match w.who with
    | .ring k _ => k == slot
    | _ => false
  let s := (s.dropWatches mine).dropRemote mine
  let s := { s with
    runs := s.runs.filter (fun x => x.slot != slot)
    work := s.work.filter (fun x => x.slot != slot)
    runDescs := s.runDescs.filter (fun e => e.1 < slotEntry slot || slotEntry (slot + 1) ≤ e.1)
    heldRegions := s.heldRegions.filter (fun e => e.2 != slot)
    emb := { s.emb with rounds := s.emb.rounds.filter (fun r => r.runSlot != slot || !r.tasks.isEmpty) }
    disp := { s.disp with
      ctxs := s.disp.ctxs.filter (fun c => c.slot != slot), publishing := s.disp.publishing.filter (fun e => e.slot != slot)
      pairs := s.disp.pairs.filter (fun e => e.slot != slot) } }
  s.dropWeights

/-- The completion point: the record is written, reported and kept, and the slot is freed. -/
def State.completeRun (s : State) (r : Run) : State :=
  let status := r.finalStatus
  let rec_ := r.record status s.meridian
  let s := if r.completion = 0 then s
    else match s.poolStore r.completion rec_ with
      | .ok t => t
      | .error _ => s
  let s := s.report C.RUN_DONE ((List.range 4).map (fun i => BitVec.ofNat 64 (u64 rec_ (8 * i))))
  let s := match r.state with
    | .failing => s.bump F.PIP_COUNT_FAILED 0 1
    | .cancelling => s.bump F.PIP_COUNT_CANCELLED 0 1
    | _ => s
  let s := { s with disp := { s.disp with history := (rec_ :: s.disp.history).take 64 } }
  s.freeRun r

/-- Whether a run has reached its completion point: every stage has ended and the records of STATS are written; a run
that stops has been cancelled in the dispatcher and has no task left. -/
def State.runOver (s : State) (r : Run) (p : Pipeline) : Bool :=
  if r.state = .running then
    let done := s.ended r.slot p
    !s.disp.publishing.any (fun e => e.slot == r.slot) && (List.range p.stages.length).all (fun i => done.contains i &&
      (match p.stages[i]? with
       | some st => st.op != .stats || (s.workOf r.slot).statsDone.contains i
       | none => true))
  else !r.cancelDue && (s.tasksOf r.slot).isEmpty

/-! ### Devices that leave (R119, R248) -/

/-- The shard map by which a stage sends rows to other devices. -/
def Pipeline.mapOf (p : Pipeline) (st : StageRec) : Option Nat :=
  let build (b : StageRec) : Option Nat := if u16 b.param 14 = 0xFFFF then none else some (u16 b.param 14)
  match st.op with
  | .partition => if u8 st.param 9 = 1 then some (u16 st.param 12) else none
  | .joinBuild => build st
  | .joinProbe => (p.stages[u8 st.param 1]?).bind build
  | _ => none

/-- Whether a run still has rows to send to a device, or awaits its end-of-build marker. -/
def State.runAwaits (s : State) (r : Run) (p : Pipeline) (d : BitVec 20) : Bool :=
  let done := s.ended r.slot p
  (List.range p.stages.length).any (fun i =>
    match p.stages[i]? with
    | none => false
    | some st =>
      match p.mapOf st with
      | none => false
      | some m =>
        (((s.joinMap r.slot m).1).any (fun k => k.devices.contains d)) &&
          (!done.contains i || (st.op == .joinBuild && !((s.build? r.slot i).any (fun b => b.markersFrom.contains d)))))

/-- A device leaves before the traffic of a run to it has ended (R119, R248). -/
def State.joinsDeparted (s : State) (d : BitVec 20) : State :=
  s.runs.foldl (fun s r =>
    match s.pipelineOf r.slot with
    | some p => if r.state == .running && s.runAwaits r p d then s.failRun r.slot C.PEER_LOST else s
    | none => s) s

/-! ### Settling -/

/-- One pass over a run's sources, queues, gates and markers. -/
def State.settlePass (s : State) (r : Run) (p : Pipeline) : State :=
  let (left, s) := State.feedSources r p (s.workOf r.slot).sourcesLeft [] s
  let s := s.modWork r.slot (fun w => { w with sourcesLeft := left })
  let done := if p.stages.any (fun st => decide (1 < st.inQ.length)) then s.ended r.slot p else []
  let s := (List.range p.queues.length).foldl (fun s q =>
    match p.queues[q]? with
    | none => s
    | some k =>
      match p.stages[k.producer]?, p.stages[k.consumer]? with
      | some from_, some st =>
        let s := s.releaseCtx r.slot q p from_ done
        (match s.ctx? r.slot q with
         | some c => State.intake r p q k.consumer st done (c.items.length + 1) s
         | none => s)
      | _, _ => s) s
  let (left, s) := State.placeMarkers r p (s.workOf r.slot).holes s
  let s := s.modWork r.slot (fun w => { w with holes := left })
  ((s.heldChunksGo r.slot).openGates r p).endStages r p

/-- Passes until every stage has had its turn. -/
def State.settlePasses (r : Run) (p : Pipeline) : Nat → State → State
  | 0, s => s
  | fuel + 1, s => State.settlePasses r p fuel (s.settlePass r p)

/-- Settle one run: while it takes work, its chunks move on; at its completion point it ends. -/
def State.settle (s : State) (slot : Nat) : State :=
  match s.run? slot, s.pipelineOf slot with
  | some r, some p =>
    let s := if r.state = .running ∨ r.cancelDue then
        (State.settlePasses r p (p.stages.length + 2) s).releaseRegions r p
      else s
    (match s.run? slot with
     | some r => if s.runOver r p then s.completeRun r else s
     | none => s)
  | _, _ => s

/-- Settle every run. -/
def State.settleAll (s : State) : State := (s.runs.map (fun r => r.slot)).foldl State.settle s

/-! ### RUN -/

/-- Bind the streams a run takes (R139): the run with them, or the code that fails it. -/
def State.bindStreams (s : State) (r : Run) : List Nat → Except Code Run
  | [] => .ok r
  | n :: rest =>
    let declared := match s.image with
      | some im => im.streams.any (fun d => d.stream == n)
      | none => false
    if !declared then .error C.STREAM_UNKNOWN
    else if (s.boundTo n).isSome then .error C.STREAM_BOUND
    else if r.streams.any (fun e => e.1 == n) then State.bindStreams s r rest
    else State.bindStreams s { r with streams := r.streams ++ [(n, 0, none)] } rest

/-- The streams that the FRAME sources of a pipeline take. -/
def streamArgs (p : Pipeline) (es : List ArgEntry) : List Nat :=
  (p.stages.filter StageRec.isStream).filterMap (fun st =>
    (es.find? (fun e => e.slot == (decPar st.param).source && e.kind == 4)).map (fun e => e.a.toNat))

/-- The watch on a ring's READ_INDEX (R71). -/
def State.watchRing (s : State) (slot : Nat) (g : Ring) : State :=
  let addr := g.ctl + 64
  let who := Watcher.ring slot g.arg
  if poolDevice addr = s.device then
    match s.enterWatch (poolLocal addr) addr who with
    | (.ok t, _) => t
    | (.error _, _) => s
  else s.addRemote addr who

/-- The chunks of every source of an accepted run, or the code that fails it. -/
def State.formChunks (s : State) (r : Run) (p : Pipeline) : List Nat → Except Code State
  | [] => .ok s
  | i :: rest =>
    match p.stages[i]? with
    | none => State.formChunks s r p rest
    | some st =>
      match s.sourceChunks r st with
      | .error c => .error c
      | .ok (cs, s) =>
        State.formChunks (s.modWork r.slot (fun w => { w with
          sourcesLeft := w.sourcesLeft ++ (numberChunks cs).map (fun c => (i, QItem.chunk c)) })) r p rest

/-- The entries of the descriptor table that a run's templates take (R150). -/
def State.templates (s : State) (p : Pipeline) : List (Nat × Nat) :=
  match s.image with
  | none => []
  | some im =>
    let ts := templatesOf im p
    (List.range ts.length).zip ts

/-- A run is accepted: its slot, contexts, watches, streams and descriptors, and its first tasks. -/
def State.startRun (s : State) (keeper : Bool) (b : RunBlock) (g : RunGrant) : State :=
  let p := g.pipe
  let r : Run :=
    { slot := g.slot, run := b.run, keeper := keeper, pipeline := p.number,
      priority := if b.priority = 0xFF then p.defaultPriority else b.priority, completion := b.completion,
      args := b.entries, state := .running, cancelDue := false, status := 0, failures := 0, rowsIn := 0, rowsOut := 0,
      skipped := 0, replaced := 0, stale := 0, abandoned := 0, poisonSeen := false, batches := 0, startTime := s.meridian,
      stall := 0, rings := g.rings, streams := [] }
  let s := { s with
    runs := insertBy (fun a b => a.slot ≤ b.slot) r s.runs
    work := s.work ++ [RunWork.empty g.slot]
    disp := { s.disp with ctxs := s.disp.ctxs ++ (List.range p.queues.length).map (fun q => (⟨g.slot, q, [], 0, 0, [], []⟩ : Ctx)) } }
  let s := s.bump F.PIP_COUNT_STARTED 0 1
  let s := g.rings.foldl (fun s x => s.watchRing g.slot x) s
  match s.bindStreams r (streamArgs p b.entries) with
  | .error c => s.failRun g.slot c
  | .ok r =>
    let s := s.putRun r
    match s.bindDescs r (s.templates p) with
    | .error (c, n) => (s.layRefuse c n g.slot).failRun g.slot c
    | .ok s =>
      match s.formChunks r p p.sources with
      | .error c => s.failRun g.slot c
      | .ok s => s.settle g.slot

/-- The last part of RUN: the checks of R62 and the start. -/
def State.runNow (s : State) (role : Role) (b : RunBlock) (known : KnownIndexes) : Answer :=
  match s.runCheck role b known with
  | .error (c, s) => s.refuse c
  | .ok g => (g.state.startRun (role == .keeper) b g).ok (natLe 8 g.slot)

/-- RUN is answered PENDING while its owners read the indexes of rings on other devices (R31, R62 check 10, R350). -/
def State.doRun (s : State) (x : Session) (seq : Nat) (b : RunBlock) : Answer :=
  let far := s.indexReads b
  match s.runFirst x.role b with
  | .error c => s.refuse c
  | .ok _ =>
    if far.isEmpty || far.any (fun a => !s.reachable (poolDevice a)) then s.runNow x.role b []
    else
      let (asked, s) := far.foldl (fun (acc : List (Nat × W64) × State) a =>
        let (tag, t) := acc.2.request (poolDevice a) 0x02 (natLe 8 a.toNat ++ natLe 4 8 ++ zeros 4)
        (acc.1 ++ [(tag, a)], t)) (([], s) : List (Nat × W64) × State)
      s.pend x tyRun seq (.run b asked []) none

/-- RUNs whose reads have all been answered are checked and started, or refused. -/
def State.runsReady (s : State) : State :=
  s.odn.sessions.foldl (fun s x => x.pends.foldl (fun s e =>
    match e.work, e.result with
    | .run b [] known, none =>
      let (s, c, body) := s.runNow x.role b known
      s.settlePend (fun w => w == .run b [] known) c body
    | _, _ => s) s) s

def run (h : Hdr) (b : RunBlock) (s : State) : State := s.litCommand h tyRun (fun x s => s.doRun x h.seq b)

/-! ### CANCEL and QUERY -/

/-- The most recent record of a run number in the completion history. -/
def State.historyOf (s : State) (n : W32) : Option Completion := s.disp.history.find? (fun c => u32 c 0 == n.toNat)

/-- CANCEL (R65): a run that is already stopping is left as it is. -/
def State.doCancel (s : State) (x : Session) (n : W32) : Answer :=
  match s.runByNumber n with
  | none => if (s.historyOf n).isSome then s.refuse C.RUN_COMPLETE else s.refuse C.RUN_NOT_ACTIVE
  | some r =>
    if x.role = .operator ∧ r.keeper then s.refuse C.ROLE_DENIED
    else if r.state = .running then (s.putRun { r with state := .cancelling, cancelDue := true }).ok
    else s.ok

def cancel (h : Hdr) (n : W32) (s : State) : State := s.command h tyCancel (fun x s => s.doCancel x n)

/-- State codes (R64). -/
def RunState.code : RunState → Nat
  | .running => 1
  | .cancelling => 2
  | .failing => 3
  | .completing => 4

/-- QUERY (R351): RUN 0 returns only the time. R67 keeps the full counts readable "through QUERY afterwards", and the only
body that R351 gives is the record, whose counts saturate: the record is what QUERY returns (log entry 163). -/
def State.doQuery (s : State) (n : W32) : Answer :=
  let body (st slot : Nat) (rec_ : List Byte) : List Byte :=
    natLe 1 st ++ natLe 1 slot ++ zeros 6 ++ rec_ ++ natLe 8 s.meridian
  if n = 0 then s.ok (body 0 0 (zeros 32))
  else
    match s.runByNumber n with
    | some r => s.ok (body r.state.code r.slot (r.record 0 0))
    | none =>
      match s.historyOf n with
      | some c => s.ok (body 5 0 c)
      | none => s.refuse C.RUN_NOT_ACTIVE

def query (h : Hdr) (n : W32) (s : State) : State := s.command h tyQuery (fun _ s => s.doQuery n)

end Sys2Proof.Machine
end

