-- ==== Sys2Proof/Machine/Dispatcher.lean ====
section
/-!
DEFINITION. The dispatcher: eligible units and the choice of the next task (R303 to R305), cancellation (R310, R311),
re-issue (R312, R313), the merge of statistics (R101), the census window (R314).
-/
namespace Sys2Proof.Machine

/-! ### Eligible units (R303) -/

/-- One way to run a task: the units it takes, the logical core the logbook names, the clusters they lie in. -/
structure Way where
  units : List Nat
  core : Nat
  clusters : List Nat
deriving DecidableEq, Repr

/-- Whether a cluster takes tasks apart from being shaded: not lost, not in a reset or a replacement. -/
def State.clusterWorks (s : State) (c : Nat) : Bool :=
  !s.units.lostClusters.contains c && !s.units.resetting.any (fun e => e.cluster == c) &&
    !s.units.replacing.contains c

/-- Whether a logical core has a core in service. -/
def State.coreWorks (s : State) (n : Nat) : Bool := !s.units.coresOut.contains n && !s.units.lostClusters.contains (n / 16)

/-- The cores that may take a task bound to vault `v`: its own, or for an orphaned vault any of the cluster (R424). -/
def State.hosts (s : State) (v : Nat) : List Nat :=
  if s.units.orphans.contains v then
    ((List.range 16).map (fun k => (v / 16) * 16 + k)).filter (fun n => s.coreWorks n)
  else if s.coreWorks v then [v] else []

/-- Clusters from `c` on, in the order of R251. -/
def clustersFrom (c : Nat) : List Nat := (List.range 12).map (fun k => (c + k) % 12)

/-- The first cluster from `c` on whose unit of a kind serves (R423). -/
def State.firstCluster (s : State) (out : List Nat) (c : Nat) : Option Nat :=
  (clustersFrom c).find? (fun d => !out.contains d && !s.units.lostClusters.contains d)

/-- The groups of a MODEL stage over the cores that are left in its set (R288, R424). -/
def State.modelGroups (s : State) (p : ModelPar) : List (List Nat) :=
  let cores := p.cores.filter (fun n => !s.units.orphans.contains n && !s.units.lostClusters.contains (n / 16))
  if p.group = 0 then []
  else (List.range (cores.length / p.group)).map (fun i => slice (i * p.group) p.group cores)

/-- The format that a DECODE task's sample has: the stage's, or that of its frame (R139). -/
def decodeKind (st : StageRec) (t : Task) : Nat :=
  match t.chunk.payload with
  | .frame f => if f.hdr.format = 3 then 4 else if f.hdr.format = 4 then 5 else 6
  | _ => (decPar st.param).format

/-- The pair that a PROJECT task belongs to (R80). -/
def State.pairOf (s : State) (t : Task) : Option Pair :=
  s.disp.pairs.find? (fun e => e.slot == t.slot && e.stage == t.stage && e.sources == t.chunk.sources)

/-- The cores that may take a row operator's task: a PROJECT that follows its FILTER stays on the FILTER's vault unit. -/
def State.rowHosts (s : State) (t : Task) : List Nat :=
  match s.pairOf t with
  | some e => if s.coreWorks e.unit then [e.unit] else s.hosts t.chunk.vault
  | none => s.hosts t.chunk.vault

/-- The ways in which a task may run. -/
def State.ways (s : State) (t : Task) (st : StageRec) : List Way :=
  let v := t.chunk.vault
  let c := v / 16
  let stream : List Way :=
    match s.firstCluster s.units.patOut c with
    | none => []
    | some d => (List.range 16).map (fun i => ⟨[unitStream d i], 0xFF, [d]⟩)
  if st.op.onVaultUnit then (s.rowHosts t).map (fun n => ⟨[unitVault n], n, [n / 16]⟩)
  else
    match st.op with
    | .decode =>
      let k := decodeKind st t
      if k = 2 ∨ k = 3 then stream
      else if k = 4 then
        ((List.range 4).filter (fun d => !s.units.jpegOut.contains (c, d))).map (fun d => ⟨[unitJpeg c d], 0xFF, [c]⟩)
      else [⟨[unitSample c], 0xFF, [c]⟩]
    | .parse => stream
    | .pyramid =>
      (match s.firstCluster s.units.pyrOut c with
       | some d => [⟨[unitPyramid d], 0xFF, [d]⟩]
       | none => [])
    | .compress | .decompress =>
      (match s.engineCluster c with
       | some d => (s.enginesOf d).map (fun e => ⟨[unitEngine d e], 0xFF, [d]⟩)
       | none => [⟨[], 0xFF, [c]⟩])
    | .model =>
      (s.modelGroups (modelPar st.param)).map (fun g => ⟨g.map unitCore, g.headD 0xFF, (g.map (· / 16)).eraseDups⟩)
    | _ => (s.hosts v).map (fun n => ⟨[unitCore n], n, [n / 16]⟩)

/-- Whether a unit is a stream that a suspended context of its engine resumes on first (R213): the streams of the engine that
are free are no more than the contexts that can go on. -/
def State.streamTaken (s : State) (u : Nat) : Bool :=
  decide (608 ≤ u ∧ u < 832) &&
    (let c := (u - 608) / 16
     decide ((List.range 16).countP (fun i => !s.unitBusy (unitStream c i)) ≤ s.resumable c))

/-- Whether a way is open but for the power of its clusters. -/
def State.wayFree (s : State) (w : Way) : Bool :=
  w.units.all (fun u => !s.unitBusy u && !s.streamTaken u) && w.clusters.all s.clusterWorks &&
    (w.units.filter (fun u => decide (u < 512))).all (fun u => s.coreWorks (u % 256))

/-! ### Conditions of dispatch (R303) -/

/-- Whether the release buffers of a task's output queues let it go: room for its entry, or it is the task of the
oldest position (R308). -/
def State.releaseRoom (s : State) (t : Task) (st : StageRec) (p : Pipeline) : Bool :=
  !p.positioned st t.chunk.flow ||
    st.outQ.all (fun q =>
      match s.ctx? t.slot q with
      | some c =>
        let flow := st.flowOf t.chunk.flow
        decide (c.taken flow < releaseEntries) || c.isOldest flow t.id
      | none => true)

/-- Tasks of one BATCH or EMIT stage go in the order of their chunks (R304). -/
def State.inTurn (s : State) (t : Task) (st : StageRec) : Bool :=
  !(st.op == .batch || st.op == .emit) ||
    s.disp.tasks.all (fun u => u.slot != t.slot || u.stage != t.stage || u.state == .running || decide (t.id ≤ u.id))

/-- Whether the ring of an EMIT stage has room for one more batch beside those being written (R72). -/
def State.emitRoom (s : State) (t : Task) (st : StageRec) (r : Run) : Bool :=
  match r.ring? (u8 st.param 0) with
  | some g =>
    let under := (s.disp.tasks.filter (fun u => u.slot == t.slot && u.stage == t.stage && u.state == .running)).length
    decide (g.writeIndex + under - g.readIndex < g.count)
  | none => true

/-- The further resource of a task: resident weights in place (R291), a round slot (R230), the working region (R122), room
in the ring (R72). Streams and groups are among its units. -/
def State.resourceFree (s : State) (t : Task) (st : StageRec) (r : Run) : Bool :=
  match st.op with
  | .model => !s.isResident r.pipeline t.stage || s.loaded (modelPar st.param).graph
  | .lookup | .update =>
    (match s.openRound t.slot t.stage with
     | some g => t.past != some g.number
     | none => s.freeRoundSlot.isSome)
  | .joinBuild => s.heldRegions.all (fun e => e.1 != u16 st.param 12 || e.2 == t.slot)
  | .emit => s.emitRoom t st r
  | _ => true

/-- Everything but the unit. -/
def State.mayGo (s : State) (t : Task) (st : StageRec) (p : Pipeline) (r : Run) : Bool :=
  st.outQ.all (fun q => s.placeFree t.slot q) && s.releaseRoom t st p && s.inTurn t st && s.resourceFree t st r

/-- The order of the ready lists (R304). -/
def taskBefore (a b : Task) : Bool :=
  let key (t : Task) : List Nat :=
    [7 - t.prio, t.readyAt, t.slot, t.stage, t.chunk.ordinal, t.chunk.sub, t.id]
  let rec le : List Nat → List Nat → Bool
    | x :: xs, y :: ys => decide (x < y) || (x == y && le xs ys)
    | _, _ => true
  le (key a) (key b)

def State.readyTasks (s : State) : List Task := sortBy taskBefore (s.disp.tasks.filter (fun t => t.state == .ready))

/-- A READY task with its stage, pipeline and run, while the run has not passed its cancel cycle. -/
def State.goable (s : State) (t : Task) : Option (StageRec × Pipeline × Run) :=
  match s.stage? t.slot t.stage, s.pipelineOf t.slot, s.run? t.slot with
  | some st, some p, some r => if (r.state == .running || r.cancelDue) && s.mayGo t st p r then some (st, p, r) else none
  | _, _, _ => none

/-- The first way that is free and lit. -/
def State.wayNow (s : State) (t : Task) (st : StageRec) : Option Way :=
  (s.ways t st).find? (fun w => s.wayFree w && w.clusters.all (fun c => !s.shaded c))

/-- A task whose only eligible units lie in SHADED clusters wakes a cluster (R303). -/
def State.wakeFor (s : State) (t : Task) (st : StageRec) : State :=
  let ws := (s.ways t st).filter (fun w => w.clusters.all s.clusterWorks)
  if ws.any (fun w => w.clusters.all (fun c => !s.shaded c)) then s
  else
    match ws with
    | [] => s
    | w :: _ => (w.clusters.filter s.shaded).foldl (fun s c => s.vaultRequest (16 * c)) s

/-! ### Dispatch -/

/-- WAIT of a core after one more wait of `t` ns (R314): the mean moves by a sixteenth of the difference. A quotient that
is not a whole number of ns may stand rounded either way (log entry 50). -/
def waitMean (up : Bool) (wait t : Nat) : Nat :=
  let n := 15 * wait + t
  if up ∧ n % 16 ≠ 0 then n / 16 + 1 else n / 16

/-- The census of the cores that a task goes to (R314). -/
def State.censusDispatch (s : State) (cores : List Nat) (wait : Nat) : State :=
  cores.foldl (fun s n =>
    let (d, s) := s.draw
    let s := s.fset F.DSP_CENSUS_WAIT_WAIT_NS n (min 0xFFFFFFFF (waitMean (Config.coin d) (s.fget F.DSP_CENSUS_WAIT_WAIT_NS n) wait))
    let s := s.fset F.DSP_CENSUS_WAIT_MAX_NS n (min 0xFFFFFFFF (max (s.fget F.DSP_CENSUS_WAIT_MAX_NS n) wait))
    let s := { s with gov := { s.gov with
      censusTasks := assocSet s.gov.censusTasks n (lookupD 0 s.gov.censusTasks n + 1)
      busyFrom := if s.gov.busyFrom.any (fun e => e.1 == n) then s.gov.busyFrom else assocSet s.gov.busyFrom n s.now } }
    s.event 0x500 n 1) s

/-- Reserve a place in every output queue, and in an ORDERED flow an entry of its release buffer. -/
def State.reserve (s : State) (t : Task) (st : StageRec) (p : Pipeline) : State :=
  let pos := p.positioned st t.chunk.flow
  st.outQ.foldl (fun s q => s.modCtx t.slot q (fun c =>
    let room := decide (c.taken (st.flowOf t.chunk.flow) < releaseEntries)
    { c with
      reserved := c.reserved + 1
      rel := if pos then updWhere (fun e => e.task == t.id) (fun e => { e with entry := room, place := true }) c.rel
        else c.rel })) s

/-- A task goes to its units. -/
def State.dispatch (s : State) (t : Task) (st : StageRec) (p : Pipeline) (w : Way) : State :=
  let wait := s.now - t.readyAt
  let u := { t with state := .running, sentAt := s.now, core := w.core, units := w.units }
  let s := (s.reserve t st p).putTask u
  let s := { s with disp := { s.disp with pairs := s.disp.pairs.filter (fun e => !w.units.contains e.unit) } }
  let s := s.bump F.DSP_COUNT_DISPATCHED 0 1
  let s := s.censusDispatch u.cores wait
  let s := w.clusters.foldl (fun s c => { s with power := { s.power with idleSince := assocSet s.power.idleSince c s.now } }) s
  let s := match st.op with
    | .lookup | .update => s.joinRound u st
    | .joinBuild =>
      let g := u16 st.param 12
      if s.heldRegions.any (fun e => e.1 == g) then s else { s with heldRegions := s.heldRegions ++ [(g, t.slot)] }
    | _ => s
  s.logTask 0x02 u w.core (min 0xFFFFFFFF wait)

/-- A task that only a full release buffer holds back is logged with the entries taken (R308, R316). -/
def State.logStall (s : State) (t : Task) : State :=
  match s.stage? t.slot t.stage, s.pipelineOf t.slot with
  | some st, some p => if s.releaseRoom t st p then s else s.logTask 0x08 t 0xFF releaseEntries
  | _, _ => s

/-- Pass over the ready tasks in order until one can go. -/
def State.dispatchFirst : List Task → State → State
  | [], s => s
  | t :: rest, s =>
    match s.goable t with
    | none => State.dispatchFirst rest (s.logStall t)
    | some (st, p, _) =>
      match s.wayNow t st with
      | some w => s.dispatch t st p w
      | none => State.dispatchFirst rest (s.wakeFor t st)

/-- The ready tasks in the order in which they are tried: a PROJECT runs back to back with its FILTER, ahead of any other
task of its unit (R80, log entry 167). -/
def State.triedTasks (s : State) : List Task :=
  let ready := s.readyTasks
  ready.filter (fun t => (s.pairOf t).isSome) ++ ready.filter (fun t => (s.pairOf t).isNone)

/-- TASK_DISPATCH: the first task that can go, by priority and enqueue time. -/
def taskDispatch (s : State) : State := if s.lit then State.dispatchFirst s.settleAll.triedTasks s.settleAll else s

/-! ### Cancellation (R310, R311) -/

/-- The cancel cycle of a run: every task that is not RUNNING ends, PENDING chunks are discarded, RUNNING tasks are told
to stop. -/
def cancelApply (runSlot : Fin 64) (s : State) : State :=
  match s.run? runSlot with
  | none => s
  | some r =>
    if !r.cancelDue then s
    else
      let waiting := s.disp.tasks.filter (fun t => t.slot == r.slot && t.state != .running)
      let s := waiting.foldl (fun s t =>
        ((s.logTask 0x04 t 0xFF 0x0B01).bump F.DSP_CANCEL_BEFORE 0 1).dropTask t false) s
      let s := { s with disp := { s.disp with
        tasks := updWhere (fun (t : Task) => t.slot == r.slot) (fun (t : Task) => { t with stop := true }) s.disp.tasks
        ctxs := updWhere (fun (c : Ctx) => c.slot == r.slot) (fun (c : Ctx) => { c with items := [], rel := [] }) s.disp.ctxs } }
      let s := s.modWork r.slot (fun w => { w with sourcesLeft := [], holes := [] })
      (s.modRun r.slot (fun r => { r with cancelDue := false })).settle r.slot

/-- A cancelled RUNNING task stops at its stop point. A LOOKUP or UPDATE whose contribution has been taken stops only when
the fabric part of its round ends (R311). -/
def taskStop (task : Nat) (s : State) : State :=
  match s.task? task with
  | none => s
  | some t => if t.stop && t.state == .running && !t.taken then (s.stopTask t).settle t.slot else s

/-! ### Re-issue (R312, R313) -/

/-- Give a task's reservations back. -/
def State.unreserve (s : State) (t : Task) (st : StageRec) : State :=
  st.outQ.foldl (fun s q => s.modCtx t.slot q (fun c => { c with
    reserved := c.reserved - 1
    rel := updWhere (fun e => e.task == t.id && !e.ended) (fun e => { e with entry := false, place := false }) c.rel })) s

def Round.without (task : Nat) (r : Round) : Round := { r with tasks := r.tasks.filter (fun x => x.task != task) }

/-- A task whose unit failed returns to READY with its priority and enqueue time; `core` is the failed unit's. -/
def State.reissue (s : State) (t : Task) (st : StageRec) (core : Nat) : State :=
  let s := (s.unreserve t st).logTask 0x06 t t.core core
  let s := s.bump F.DSP_COUNT_REISSUED 0 1
  let s := { s with
    pat := s.pat.filter (fun x => x.task != t.id)
    mst := { s.mst with asking := s.mst.asking.filter (·.task != t.id) }
    emb := { s.emb with rounds := s.emb.rounds.map (Round.without t.id) } }
  let past := if st.op = .lookup then (s.openRound t.slot t.stage).map Round.number else none
  let s := t.cores.foldl State.coreIdle (s.putTask
    { t with past := past, state := .ready, core := 0xFF, units := [], taken := false, deferred := false, held := none })
  s.topDownEnd t false

/-- A RUNNING task loses its unit: it fails its run, goes on, or is issued again. -/
def State.interrupt (s : State) (t : Task) (core : Nat) : State :=
  match s.stage? t.slot t.stage with
  | none => s.dropTask t false
  | some st =>
    if t.stop then s.stopTask t
    else if st.op = .scatter ∧ scatterMode st = 1 then s.failTask t C.SCATTER_INTERRUPTED
    else if st.op = .joinBuild then s.failTask t C.TASK_INTERRUPTED
    else if st.op = .update ∧ t.taken then s
    else s.reissue t st core
where
  /-- MODE of a SCATTER block: 1 is ADD. -/
  scatterMode (st : StageRec) : Nat := u8 st.param 13

/-! ### Statistics and census -/

/-- STATS_MERGE: the last task of a STATS stage has ended; its partials are merged and its records written. -/
def statsMerge (runSlot stage : Fin 64) (s : State) : State :=
  match s.run? runSlot, s.pipelineOf runSlot with
  | some r, some p =>
    if r.state = .running ∧ (s.ended r.slot p).contains stage.val ∧ !(s.workOf r.slot).statsDone.contains stage.val ∧
        ((p.stages[stage.val]?).map StageRec.op) = some .stats then s.mergeStats r.slot stage
    else s
  | _, _ => s

/-- The next meridian time that is a multiple of WINDOW_US (R314). -/
def State.censusEnd (s : State) : Nat :=
  let len := s.fget F.DSP_CTL_WINDOW_US * 1000
  if len = 0 then s.meridian else (s.meridian / len + 1) * len

/-- A load window ends (R314): a complete one gives every core its load and its dispatches; the next ends at a multiple of
its length in meridian time. -/
def State.closeCensus (s : State) (complete : Bool) : State :=
  let from_ := s.gov.windowStart
  let len := s.now - from_
  let s := if !complete ∨ len = 0 then s else
    ((List.range 192).filter (fun n => !s.units.lostClusters.contains (n / 16) && !s.units.orphans.contains n)).foldl (fun s n =>
      let running := match s.gov.busyFrom.find? (fun e => e.1 == n) with
        | some e => s.now - max e.2 from_
        | none => 0
      let busy := lookupD 0 s.gov.busy n + running
      let s := s.fset F.DSP_CENSUS_LOAD_LOAD n (min 1024 (busy * 1024 / len))
      s.fset F.DSP_CENSUS_LOAD_TASKS n (min 0xFFFFFFFF (lookupD 0 s.gov.censusTasks n))) s
  { s with gov := { s.gov with
      busy := [], censusTasks := [], windowStart := s.now, windowEnd := s.censusEnd, windowWaits := !complete } }

/-- CENSUS_WINDOW: a multiple of WINDOW_US has been reached. It ends the window in progress; where there is none, after a
step of meridian time or after LIT, it only starts the next one. -/
def censusWindow (s : State) : State :=
  if !s.lit ∨ s.meridian < s.gov.windowEnd then s
  else
    let s := s.closeCensus (!s.gov.windowWaits)
    { s with gov := { s.gov with windowWaits := false } }

end Sys2Proof.Machine
end

