-- ==== Sys2Proof/Machine/Counters.lean ====
section
/-!
DEFINITION. The measurement windows (R410 to R413), counter settings and counts as they are written (R407, R408),
top-down counting (R414 to R416), and meridian time as it is set (R352).
-/
namespace Sys2Proof.Machine
open Sys2Proof

/-! ### Windows -/

/-- Length in force, in ns. -/
def State.windowNs (s : State) : Nat := s.pmc.length * 1000

/-- The end of the window in progress, or of the wait for the next one: the next multiple of the length (R410). -/
def State.windowEnd (s : State) : Nat := (s.pmc.windowStart / s.windowNs + 1) * s.windowNs

/-- What a port's meter publishes (R411). The NoC ports' traffic beyond the copies that the model counts is open (log entry 55). -/
def State.publishPort (s : State) (p : Nat) : State :=
  let n := SMap.get 0 s.pmc.ports p
  let (extra, s) := if 354 ≤ p then (let (d, s) := s.draw; (Config.choice d, s)) else (0, s)
  s.fset F.PMC_BW_BYTES p ((n + extra) % 2 ^ 48)

/-- Ports that have a meter (R411). -/
def portCount : Nat := 378

/-- The window in progress ends: meters and energy are published (R410, R411, R413). -/
def State.publishWindow (s : State) (short : Bool) : State :=
  let s := (List.range portCount).foldl State.publishPort s
  let s := s.fset F.PMC_ENERGY_WINDOW_UJ 0 (min (2 ^ 40 - 1) s.pmc.energy)
  (s.fset F.PMC_WINDOW_SHORT 0 (b2n short)).bump F.PMC_WINDOW_WINDOWS 0 1

/-- The counter of a settings register's address. -/
def counterAt (a : Nat) : Option CounterRef :=
  match (regDef .PMC_CNT_CTL).instanceAt a, (regDef .PMC_CL_CNT_CTL).instanceAt a with
  | some (i, _), _ => if h : i < 64 then some (.global ⟨i, h⟩) else none
  | none, some (c, i) => if h : c < 12 ∧ i < 16 then some (.cluster ⟨c, h.1⟩ ⟨i, h.2⟩) else none
  | none, none => none

/-- ACTIVE_EVENT shows the event that the settings register names. -/
def State.showActive (s : State) (r : CounterRef) : State :=
  s.fset2 (r.ctlField F.PMC_CNT_CTL_ACTIVE_EVENT) r.i r.j (s.fget2 (r.ctlField F.PMC_CNT_CTL_EVENT) r.i r.j)

/-- Settings that waited for the window boundary take effect (R408). -/
def State.settingsDue (s : State) : State :=
  let waiting := s.pmc.active
  let s := { s with pmc := { s.pmc with active := [] } }
  waiting.foldl (fun s e =>
    match counterAt e.1 with
    | some r => s.showActive r
    | none => s) s

/-- The next window starts, or is waited for: the length set last is in force (R410). -/
def State.nextWindow (s : State) (gap : Bool) : State :=
  { s with pmc := { s.pmc with
    ports := []
    energy := 0
    length := s.fget F.PMC_WINDOW_LENGTH_US
    windowStart := s.meridian
    gap := gap } }

/-- PMC_WINDOW: a window boundary has been reached. At the end of the wait after a time step nothing is published. -/
def pmcWindow (s : State) : State :=
  if !s.lit ∨ s.meridian < s.windowEnd then s
  else
    let s := if s.pmc.gap then s else s.publishWindow false
    s.settingsDue.nextWindow false

/-- A step of meridian time ends the window in progress (R410) and the census window (R314). -/
def State.timeStepped (s : State) : State :=
  let s := if s.pmc.gap ∨ !s.lit then s else s.publishWindow true
  (s.settingsDue.nextWindow true).closeCensus false

/-! ### Counters -/

/-- Whether a counter counts now (R403, R408, R414). -/
def State.counting (s : State) (r : CounterRef) : Bool :=
  s.fget2 (r.ctlField F.PMC_CNT_CTL_ENABLE) r.i r.j == 1 &&
    (match r with
     | .global _ => true
     | .cluster c _ => !s.shaded c && !s.topDown c && !s.units.lostClusters.contains c)

/-- COUNTER_OVERFLOW: an increment comes to a counter at its largest value (R407). -/
def counterOverflow (r : CounterRef) (s : State) : State :=
  if s.lit ∧ s.counting r ∧ s.fget2 (r.cntField F.PMC_CNT_VALUE) r.i r.j = 2 ^ 48 - 1 then s.counterAdd r 1 else s

/-- The settings register of a counter has been written; `old` is what it held (R408): a change of EVENT, MODE or
INSTANCE waits for the window boundary while ENABLE is 1. -/
def State.counterSet (s : State) (r : CounterRef) (old : W64) : State :=
  let a := regAddr r.ctlId r.i r.j
  if bitAt old.toNat 16 then
    let new := s.raw r.ctlId r.i r.j
    let setting (w : W64) : Nat × Nat := (bitsOf w.toNat 12 0, bitsOf w.toNat 31 24)
    if s.pmc.active.any (fun e => e.1 == a) ∨ setting old = setting new then s
    else { s with pmc := { s.pmc with active := assocSet s.pmc.active a old } }
  else
    ({ s with pmc := { s.pmc with active := s.pmc.active.filter (fun e => e.1 != a) } }).showActive r

/-- The count register has been written: an increment in the same cycle, if there was one, is lost and counted (R408). -/
def State.countWritten (s : State) (r : CounterRef) : State :=
  if !s.counting r then s
  else
    let (d, s) := s.draw
    if Config.coin d then
      match r with
      | .global _ => s.bump F.PMC_GLOBAL_LOST_LOST 0 1
      | .cluster c _ => s.bump F.PMC_CL_LOST_LOST c 1
    else s

/-- ENERGY_SAMPLE: the input energy of 1 µs (R413). -/
def energySample (microjoules : Nat) (s : State) : State :=
  if s.lit then
    let s := s.bump F.PMC_ENERGY_TOTAL_UJ 0 microjoules
    { s with pmc := { s.pmc with energy := s.pmc.energy + microjoules } }
  else s

/-! ### Top-down counting (R414 to R416) -/

/-- The registers of a cluster's bank: address and register. -/
def bankRegs (c : Nat) : List (RegId × Nat) :=
  (List.range 16).flatMap (fun i => [(.PMC_CL_CNT_CTL, i), (.PMC_CL_CNT, i)]) |>.map (fun e => (e.1, c * 16 + e.2))

/-- The words of a cluster's bank. -/
def State.bankWords (s : State) (c : Nat) : List (Nat × W64) :=
  (bankRegs c).map (fun e => (regAddr e.1 c (e.2 % 16), s.raw e.1 c (e.2 % 16)))

/-- A cluster's bank with every register at its reset value. -/
def State.clearBank (s : State) (c : Nat) : State :=
  (bankRegs c).foldl (fun s e => s.setRaw e.1 c (e.2 % 16) (regReset e.1)) s

/-- A cluster's 16 counts and OVF bits at zero; settings stand. -/
def State.zeroCounts (s : State) (c : Nat) : State :=
  (List.range 16).foldl (fun s i => s.setRaw .PMC_CL_CNT c i 0) s

/-- Top-down counting takes a cluster's bank: what it holds is saved (R414). A bank already taken is left as it is. -/
def State.takeBank (s : State) (c : Nat) : State :=
  if s.pmc.saved.any (fun e => e.1 == c) then s
  else
    let s := { s with pmc := { s.pmc with saved := assocSet s.pmc.saved c (s.bankWords c) } }
    s.zeroCounts c

/-- Top-down counting gives a cluster's bank back. -/
def State.restoreBank (s : State) (c : Nat) : State :=
  match s.pmc.saved.find? (fun e => e.1 == c) with
  | none => s
  | some e =>
    let s := e.2.foldl (fun s w =>
      match locate w.1 with
      | some (id, i, j) => s.setRaw id i j w.2
      | none => s) s
    { s with pmc := { s.pmc with
      saved := s.pmc.saved.filter (fun e => e.1 != c)
      tdHeld := s.pmc.tdHeld.filter (fun e => e.1 / 2 != c) } }

/-- After a change of PMC_TD_CTL: each bank is taken or given back as the mode now says. -/
def State.banksFollow (s : State) : State :=
  (List.range 12).foldl (fun s c => if s.topDown c then s.takeBank c else s.restoreBank c) s

/-- The Warden holds a cluster in RECOVERY while it tests it (R414). -/
def State.recoveryOn (s : State) (c : Nat) : State :=
  (s.fset F.PMC_TD_CTL_RECOVERY 0 (s.fget F.PMC_TD_CTL_RECOVERY ||| 2 ^ c)).banksFollow

/-- RECOVERY ends: a cluster in TEST starts its counts again from zero (R416). -/
def State.recoveryOff (s : State) (c : Nat) : State :=
  if !bitAt (s.fget F.PMC_TD_CTL_RECOVERY) c then s
  else
    let s := (s.fset F.PMC_TD_CTL_RECOVERY 0 (s.fget F.PMC_TD_CTL_RECOVERY - 2 ^ c)).banksFollow
    if s.topDown c then
      let s := { s with pmc := { s.pmc with tdHeld := s.pmc.tdHeld.filter (fun e => e.1 / 2 != c) } }
      (s.zeroCounts c).fset F.PMC_TD_SEL_INTERRUPTED c 1
    else s

/-- The counters of a cluster that has been reset: its bank is cleared, what was saved of it too (R409). -/
def State.bankReset (s : State) (c : Nat) : State :=
  let s := s.clearBank c
  let mine (a : Nat) : Bool := (bankRegs c).any (fun e => regAddr e.1 c (e.2 % 16) == a)
  let fresh := (bankRegs c).map (fun e => (regAddr e.1 c (e.2 % 16), regReset e.1))
  let s := { s with pmc := { s.pmc with
    active := s.pmc.active.filter (fun e => !mine e.1)
    tdHeld := s.pmc.tdHeld.filter (fun e => e.1 / 2 != c)
    saved := updWhere (fun e => e.1 == c) (fun _ => (c, fresh)) s.pmc.saved } }
  (s.setRaw .PMC_CL_LOST c 0 0).setRaw .PMC_TD_SEL c 0 0

/-! ### Meridian time (R352) -/

/-- Meridian time set at once. -/
def State.stepTime (s : State) (t : Nat) : State :=
  ({ s with clock := { s.clock with meridian := t } }).timeStepped

/-- A signed number of ns added to a 64-bit time. -/
def shiftTime (t : Nat) (d : Int) : Nat := (((t : Int) + d) % (2 ^ 64 : Int)).toNat

/-- The body of a TIME response (R351): T2 when the command arrived, T3 when the response leaves, within 50 µs (R350). -/
def State.timeBody (s : State) (t2 : Nat) : Answer :=
  let (d, s) := s.draw
  s.ok (natLe 8 t2 ++ natLe 8 (s.meridian + Config.choice d % 50001))

/-- Correct the time by `d` ns, by rate or at once. -/
def State.adjustTime (s : State) (d : Int) (step : Bool) : State :=
  if step then s.stepTime (shiftTime s.meridian d)
  else { s with clock := { s.clock with corr := s.clock.corr + d } }

def State.doTimeSet (s : State) (step : Bool) (value : Nat) : Answer :=
  let t2 := s.meridian
  let set := step || !s.clock.wasZero
  if set ∧ value < t2 ∧ !s.runs.isEmpty then s.refuse C.TIME_BACKWARD
  else
    let s := (s.fset F.TTH_TIME_STRATUM 0 0)
    let s := { s with clock := { s.clock with wasZero := true } }
    let s := if set then ({ s with clock := { s.clock with corr := 0 } }).stepTime value
      else s.adjustTime ((value : Int) - t2) false
    s.timeBody t2

def State.doTimeAdjust (s : State) (step : Bool) (value : Int) : Answer :=
  if step ∧ value < 0 ∧ !s.runs.isEmpty then s.refuse C.TIME_BACKWARD
  else (s.adjustTime value step).timeBody s.meridian

def timeQuery (h : Hdr) (_t1 : Nat) (s : State) : State := s.command h tyTime (fun _ s => s.timeBody s.meridian)

def timeSet (h : Hdr) (step : Bool) (value : Nat) (s : State) : State :=
  s.command h tyTime (keeperOnly (fun _ s => s.doTimeSet step (value % 2 ^ 64)))

def timeAdjust (h : Hdr) (step : Bool) (value : Int) (s : State) : State :=
  s.command h tyTime (keeperOnly (fun _ s => s.doTimeAdjust step value))

end Sys2Proof.Machine
end

