-- ==== Sys2Proof/Machine/RegCheck.lean ====
section
/-!
DEFINITION. The values that the field maps refuse (R356, R442): ranges of single fields, and what the maps say of fields
together.
-/
namespace Sys2Proof.Machine

/-- Value of a field in a register word. -/
def FieldDef.value (f : FieldDef) (w : W64) : Nat := bitsOf w.toNat f.msb f.lsb

/-- Whether a field's map refuses the value that the word gives it. -/
def FieldDef.refuses (f : FieldDef) (w : W64) : Bool :=
  match f.range with
  | some (lo, hi) => decide (f.value w < lo) || decide (hi < f.value w)
  | none => false

/-- The bits of a word that belong to no field (R6). -/
def RegDef.reservedBits (d : RegDef) (w : W64) : W64 := w &&& ~~~ (d.clsMask (fun _ => true))

/-- Groups of events that a cluster bank takes, and the instances of each (R405). -/
def clusterInstances (ev : Nat) : Option Nat :=
  match ev / 256 with
  | 0x0 | 0xB => some 1
  | 0x1 | 0x3 | 0x4 | 0x5 | 0x7 => some 16
  | 0x8 => some 2
  | _ => none

/-- Whether a cluster counter refuses its event and instance (R405). -/
def clusterEventBad (w : W64) : Bool :=
  let inst := bitsOf w.toNat 31 24
  match clusterInstances (bitsOf w.toNat 11 0) with
  | none => true
  | some n => decide (inst ≠ 0xFF) && decide (inst ≥ n)

/-- Whether a byte of PMC_TD_SEL names no unit (R415, R419). -/
def topDownBad (b : Nat) : Bool := decide (b % 32 > 16) || decide (b / 32 > 4)

/-- What the maps say of several fields together, or of values that are not a range. -/
def jointRefuses (id : RegId) (w : W64) : Bool :=
  let n := w.toNat
  match id with
  | .FLT_CTL => !(decide (bitsOf n 7 0 < bitsOf n 15 8) && decide (bitsOf n 15 8 < bitsOf n 23 16) &&
      decide (bitsOf n 23 16 ≤ 115))
  | .PMC_CL_CNT_CTL => clusterEventBad w
  | .PMC_TD_CTL => !(bitsOf n 1 0 == 0 || bitsOf n 1 0 == 2)
  | .PMC_TD_SEL => topDownBad (bitsOf n 7 0) || topDownBad (bitsOf n 15 8)
  | .PWS_REQUEST => !(bitsOf n 1 0 == 2 || bitsOf n 1 0 == 3)
  | .TTH_ROUTE0 => decide (bitsOf n 24 20 > 20)
  | _ => false

/-- Whether a whole word is refused for a value, fields of one kind considered (R442 check 3). -/
def RegDef.refuses (d : RegDef) (keep : FieldDef → Bool) (w : W64) : Bool :=
  d.fields.any (fun f => keep f && f.refuses w)

/-! ### Pitch settings (R385) -/

/-- The blocks of the register window by number (R437). -/
def blockOf (a : Nat) : Nat := (a - 0xF0000000000) / 0x1000000

/-- Registers that no SETTINGS entry names. -/
def settingBarred (id : RegId) (a : Nat) : Bool :=
  id == .TTH_ID || blockOf a == 0x0F || blockOf a == 0x12

/-- Whether a SETTINGS entry refuses the image. -/
def settingBad (a : Nat) (w : W64) : Bool :=
  match locate a with
  | none => true
  | some (id, _, _) =>
    let d := regDef id
    let pitch (f : FieldDef) : Bool := f.cls == .pitch
    settingBarred id a || !d.fields.any pitch || d.reservedBits w != 0 || d.refuses pitch w ||
      (d.fields.all pitch && jointRefuses id w)

/-- The Pitch-class bits of a setting put into a stored word. -/
def putPitch (id : RegId) (old new : W64) : W64 :=
  let m := (regDef id).clsMask (fun c => c == .pitch)
  (old &&& ~~~ m) ||| (new &&& m)

/-- The last entry for a register wins (R385); a field that no entry sets has its reset value. -/
def settingWord (settings : List (Nat × W64)) (id : RegId) (i j : Nat) : W64 :=
  settings.foldl (fun w e => if e.1 = regAddr id i j then putPitch id w e.2 else w) (regReset id)

/-- The value that the image gives a Pitch-class field. -/
def settingOf (settings : List (Nat × W64)) (f : FRef) : Nat :=
  bitsOf (settingWord settings f.reg 0 0).toNat f.msb f.lsb

end Sys2Proof.Machine
end

