-- ==== Sys2Proof/Machine/Sections.lean ====
section
/-!
DEFINITION. The sections of a pitch image that stand for themselves, as pitching reads and checks them (R385): settings,
regions, schemas, layouts, automata, the match store, embedding tables and maps, dictionaries, streams, routes, watches.
Each reader answers what the section holds, or the code that refuses the image. What breaks a section's format in a way
that no code names is refused with the section's own code (log entry 58).
-/
namespace Sys2Proof.Machine

/-- Refuse unless `c` holds. -/
def need (c : Bool) (code : Code) : Except Code Unit := if c then .ok () else .error code

/-- All elements of a list read in turn; the first refusal ends it. -/
def readAll {α β : Type} (f : α → Except Code β) : List α → Except Code (List β)
  | [] => .ok []
  | x :: r =>
    match f x with
    | .error c => .error c
    | .ok y =>
      match readAll f r with
      | .error c => .error c
      | .ok ys => .ok (y :: ys)

/-- A section cut into records of `n` bytes: refused when they do not fill it. -/
def recordsOf (n : Nat) (code : Code) (bs : List Byte) : Except Code (List (List Byte)) :=
  if bs.length % n = 0 then .ok (chunksOf n (bs.length + 1) bs) else .error code

def allZero (bs : List Byte) : Bool := bs.all (· == 0)

/-- No value stands twice in the list. -/
def distinct (l : List Nat) : Bool := l.eraseDups.length == l.length

/-! ### Settings (R385) -/

def readSetting (bs : List Byte) : Except Code (Nat × W64) :=
  let a := u64 bs 0
  let w := BitVec.ofNat 64 (u64 bs 8)
  if settingBad a w then .error C.SETTING_INVALID else .ok (a, w)

def readSettings (bs : List Byte) : Except Code (List (Nat × W64)) := do
  readAll readSetting (← recordsOf 16 C.SETTING_INVALID bs)

/-! ### Regions (R52, R36, R386) -/

def regionKind : Nat → Option RegionKind
  | 0 => some .vaultRange
  | 1 => some .vaultHash
  | 2 => some .vaultSingle
  | 3 => some .interleaved
  | 4 => some .lpddr6
  | _ => none

def regionAccess (n : Nat) : Option RegionAccess :=
  match n % 4 with
  | 0 => some .keeperOnly
  | 1 => some .operatorRead
  | 2 => some .operatorWrite
  | _ => none

/-- Whether a region has a range in every vault. -/
def RegionKind.everyVault (k : RegionKind) : Bool := k == .vaultRange || k == .vaultHash

/-- The code of a region that reaches the top of the vault it lies in: shadows in vaults 0 to 63, the pitch copy above. -/
def topCode (vault : Nat) : Code := if vault < 64 then C.SHADOW_OVERLAP else C.PITCH_COPY_OVERLAP

/-- The end of the interleaved offsets that lie below the tops of the vaults. -/
def aliasTop : Nat := 0x17FA000000

/-- Where a region ends too far (R36, R386). -/
def regionLimit (k : RegionKind) (mirrored : Bool) (vault base size : Nat) : Option Code :=
  if k.everyVault then
    if base + size > reservedTop then some C.SHADOW_OVERLAP
    else if mirrored ∧ base + 2 * size > reservedTop then some C.REGION_INVALID
    else none
  else
    match k with
    | .vaultSingle => if base + size > reservedTop then some (topCode vault) else none
    | .interleaved =>
      if base + size ≤ aliasTop then none
      else
        let first := (max base aliasTop) / 4096
        let count := (base + size) / 4096 - first
        if count ≥ 192 ∨ (List.range count).any (fun i => (first + i) % 192 < 64) then some C.SHADOW_OVERLAP
        else some C.PITCH_COPY_OVERLAP
    | _ => if base + size > lpEnd - lpBase then some C.REGION_INVALID else none

def readRegion (bs : List Byte) : Except Code Region :=
  match regionKind (u8 bs 2), regionAccess (u8 bs 3) with
  | some k, some acc => do
    let mirrored := bitAt (u8 bs 3) 2
    let vault := u16 bs 4
    let base := u64 bs 8
    let size := u64 bs 16
    let bad := C.REGION_INVALID
    need (decide (u16 bs 0 < 4096) && decide (u8 bs 3 < 8) && allZero (slice 6 2 bs) && allZero (slice 40 8 bs)) bad
    need (if k = .vaultSingle then decide (vault < 192) else vault == 0) bad
    need (base % 4096 == 0 && size % 4096 == 0 && size != 0) bad
    need (k == .vaultHash || u64 bs 24 == 0) bad
    need (!(k == .interleaved && mirrored)) bad
    let keys := (slice 32 8 bs).map BitVec.toNat
    need (k != .vaultHash || keys.all (fun c => decide (c < 64) || c == 0xFF)) bad
    let r : Region :=
      { number := u16 bs 0, kind := k, access := acc, mirrored := mirrored, vault := vault, base := base, size := size,
        seed := BitVec.ofNat 64 (u64 bs 24), keys := if k = .vaultHash then keys.filter (· != 0xFF) else [] }
    match regionLimit k mirrored vault base size with
    | some c => .error c
    | none => .ok r
  | _, _ => .error C.REGION_INVALID

/-- The physical ranges of a region and its mirror copy (R36, R52): a range of offsets in every vault, ranges in the
vault-linear or LPDDR6 address space, or a range of the interleaved alias. -/
inductive Span where
  | everyVault (lo hi : Nat)
  | linear (lo hi : Nat)
  | alias_ (lo hi : Nat)

/-- The mirror of a range of LPDDR6, channel by channel. -/
def mirrorSpans (lo hi : Nat) : List Span :=
  let first := lo / channelSize
  (List.range ((hi + channelSize - 1) / channelSize - first)).map (fun i =>
    let ch := first + i
    let a := max lo (ch * channelSize)
    let b := min hi ((ch + 1) * channelSize)
    let m := (ch ^^^ 16) * channelSize
    .linear (lpBase + m + (a - ch * channelSize)) (lpBase + m + (b - ch * channelSize)))

def Region.spans (r : Region) : List Span :=
  match r.kind with
  | .vaultRange | .vaultHash => [.everyVault r.base (r.base + r.size * (if r.mirrored then 2 else 1))]
  | .vaultSingle =>
    let at_ (v : Nat) : Span := .linear (v * vaultSize + r.base) (v * vaultSize + r.base + r.size)
    if r.mirrored then [at_ r.vault, at_ ((r.vault + 96) % 192)] else [at_ r.vault]
  | .interleaved => [.alias_ r.base (r.base + r.size)]
  | .lpddr6 =>
    .linear (lpBase + r.base) (lpBase + r.base + r.size) ::
      (if r.mirrored then mirrorSpans r.base (r.base + r.size) else [])

def meets (a b c d : Nat) : Bool := decide (a < d) && decide (c < b)

/-- A range of vault-linear or LPDDR6 addresses against offsets of every vault. -/
def linearMeetsEvery (lo hi a b : Nat) : Bool := decide (lo < vaultsEnd) && meets (lo % vaultSize) (lo % vaultSize + (hi - lo)) a b

/-- Whether two spans share a byte; granules of the alias are looked up one by one (R52). -/
def Span.overlaps : Span → Span → Bool
  | .everyVault a b, .everyVault c d => meets a b c d
  | .linear a b, .linear c d => meets a b c d
  | .alias_ a b, .alias_ c d => meets a b c d
  | .everyVault a b, .linear c d => linearMeetsEvery c d a b
  | .linear c d, .everyVault a b => linearMeetsEvery c d a b
  | .alias_ a b, .everyVault c d => granules a b (fun p => meets (p % vaultSize) (p % vaultSize + 4096) c d)
  | .everyVault c d, .alias_ a b => granules a b (fun p => meets (p % vaultSize) (p % vaultSize + 4096) c d)
  | .alias_ a b, .linear c d => granules a b (fun p => meets p (p + 4096) c d)
  | .linear c d, .alias_ a b => granules a b (fun p => meets p (p + 4096) c d)
where
  /-- Some granule of the range lies where `f` holds. -/
  granules (a b : Nat) (f : Nat → Bool) : Bool :=
    (List.range ((b - a) / 4096)).any (fun i => f (interleave (a + 4096 * i)))

/-- Whether the copies of one region overlap each other, or two regions overlap. -/
def spansClash : List Span → Bool
  | [] => false
  | x :: r => r.any x.overlaps || spansClash r

def readRegions (bs : List Byte) : Except Code (List Region) := do
  let rs ← readAll readRegion (← recordsOf 48 C.REGION_INVALID bs)
  need (distinct (rs.map Region.number) && decide (rs.length ≤ 4096)) C.REGION_INVALID
  need (!spansClash (rs.flatMap Region.spans)) C.REGION_INVALID
  return rs

/-! ### Schemas (R127, R218) -/

def primCode (t : Nat) : Bool := (decide (1 ≤ t) && decide (t ≤ 0x0C)) || t == 0x10 || t == 0x11

/-- A schema entry (R127). DATA_OFF of a column that has no data buffer is not looked at: the manual says it is zero and names
no code for another value (log entry 183). -/
def readColumnEntry (bs : List Byte) : Except Code SchemaCol := do
  let t := u8 bs 0
  let fl := u8 bs 1
  let dict := bitAt fl 1
  let elem := u8 bs 2
  let width := u32 bs 4
  let bad := C.SCHEMA_TYPE
  need (decide (1 ≤ t) && decide (t ≤ 0x13) && decide (fl < 4)) bad
  need (if t = 0x12 ∨ t = 0x13 then primCode elem else true) bad
  need (if dict then decide (1 ≤ elem) && decide (elem ≤ 3) else true) bad
  need (if t = 0x11 then decide (u8 bs 3 ≤ 1) else u8 bs 3 == 0) bad
  need (if t = 0x0F then decide (1 ≤ width) && decide (width ≤ 4096) else if t = 0x13 ∨ dict then true else width == 0) bad
  return { typ := t, nullable := bitAt fl 0, dictionary := dict, elem := elem, unit := u8 bs 3, width := width,
           validityOff := u64 bs 8, valuesOff := u64 bs 16, dataOff := u64 bs 24 }

/-- Whether a text schema may hold a column (R218). -/
def textColumn (c : SchemaCol) : Bool :=
  !(c.dictionary || c.typ == 0x0E || c.typ == 0x0F || c.typ == 0x12 || c.typ == 0x13)

/-- Schemas follow one another; `fuel` bounds them. -/
def readSchemasFrom : Nat → List Byte → Except Code (List Schema)
  | 0, _ => .error C.SCHEMA_TYPE
  | fuel + 1, bs =>
    if bs.isEmpty then .ok []
    else do
      let n := u8 bs 2
      need (decide (16 + 32 * n ≤ bs.length) && decide (n ≤ 64) && decide (u8 bs 3 ≤ 3) && allZero (slice 4 12 bs)) C.SCHEMA_TYPE
      let cols ← readAll readColumnEntry (chunksOf 32 (n + 1) (slice 16 (32 * n) bs))
      need (decide (u8 bs 3 < 2) || cols.all textColumn) C.TEXT_SCHEMA
      let rest ← readSchemasFrom fuel (bs.drop (16 + 32 * n))
      return ⟨u16 bs 0, u8 bs 3, cols⟩ :: rest

def readSchemas (bs : List Byte) : Except Code (List Schema) := do
  let l ← readSchemasFrom (bs.length + 1) bs
  need (distinct (l.map Schema.number)) C.SCHEMA_TYPE
  return l

/-! ### Batch layouts (R387) -/

/-- Elements of one slot. -/
def LayoutTensor.perSlot (t : LayoutTensor) : Nat := (t.extents.take (t.rank - 1)).foldl (· * ·) 1

/-- Bytes that a payload tensor occupies: dense rows, or for rank 1 a run made up to 16 bytes. -/
def LayoutTensor.size (t : LayoutTensor) (slots : Nat) : Nat :=
  let bits := elemBits t.typ
  if t.rank = 1 then roundUp (ceilDiv (slots * bits) 8) 16 else ceilDiv (slots * t.perSlot * bits) 8

/-- BOOL (R154). -/
def elBool : Nat := 0x11

def readLayoutTensor (bs : List Byte) : Except Code LayoutTensor := do
  let rank := u8 bs 1
  let t : LayoutTensor :=
    { typ := u8 bs 0, rank := rank, role := u8 bs 2, offset := u32 bs 4,
      extents := (List.range 4).map (fun i => u32 bs (8 + 4 * i)) }
  let bad := C.LAYOUT_INVALID
  need (elemBits t.typ != 0 && decide (1 ≤ rank) && decide (rank ≤ 5) && decide (t.role ≤ 2) && u8 bs 3 == 0) bad
  need (allZero (slice 24 8 bs) && t.offset % 16 == 0) bad
  need ((t.extents.take (rank - 1)).all (· != 0)) bad
  need (decide (rank < 2) || (t.extents.headD 0 * elemBits t.typ) % 128 == 0) bad
  return t

/-- Whether a VALIDITY tensor follows its DATA tensor with the same rank and extents. -/
def validityOk : Option LayoutTensor → List LayoutTensor → Bool
  | _, [] => true
  | prev, t :: r =>
    (if t.role = 2 then
      match prev with
      | some d => d.role == 0 && d.rank == t.rank && d.extents.take (d.rank - 1) == t.extents.take (t.rank - 1) &&
          t.typ == elBool
      | none => false
    else true) && validityOk (some t) r

def tensorsApart (slots : Nat) : List LayoutTensor → Bool
  | [] => true
  | t :: r => r.all (fun u => !meets t.offset (t.offset + t.size slots) u.offset (u.offset + u.size slots)) && tensorsApart slots r

def readLayoutsFrom : Nat → List Byte → Except Code (List Layout)
  | 0, _ => .error C.LAYOUT_INVALID
  | fuel + 1, bs =>
    if bs.isEmpty then .ok []
    else do
      let n := u16 bs 2
      let slots := u32 bs 4
      let payload := u32 bs 8
      let bad := C.LAYOUT_INVALID
      need (decide (1 ≤ n) && decide (n ≤ 64) && decide (16 + 32 * n ≤ bs.length) && allZero (slice 12 4 bs)) bad
      need (decide (1 ≤ slots) && decide (slots ≤ 65536)) bad
      let ts ← readAll readLayoutTensor (chunksOf 32 (n + 1) (slice 16 (32 * n) bs))
      let masks := ts.filter (fun t => t.role == 1)
      need (masks.length == 1 && masks.all (fun t => t.rank == 1 && t.typ == elBool)) bad
      need (validityOk none ts && tensorsApart slots ts) bad
      need (ts.all (fun t => decide (t.offset + t.size slots ≤ payload))) bad
      let rest ← readLayoutsFrom fuel (bs.drop (16 + 32 * n))
      return ⟨u16 bs 0, slots, payload, ts⟩ :: rest

def readLayouts (bs : List Byte) : Except Code (List Layout) := do
  let l ← readLayoutsFrom (bs.length + 1) bs
  need (distinct (l.map Layout.number)) C.LAYOUT_INVALID
  return l

/-! ### Automata (R206, R208) -/

def transitionMemory : Nat := 0x800000

/-- Whether a tag operation has a kind of the table and names tags in use, valid or not (R206). -/
def tagOpOk (tags w : Nat) : Bool :=
  decide (bitsOf w 14 13 ≤ 2) && decide (bitsOf w 11 8 < tags) && decide (bitsOf w 3 0 < tags)

/-- Whether an accept entry is in range; its six tag numbers are, present or not (R206). -/
def acceptOk (patterns tags e : Nat) : Bool :=
  let tag (hi lo : Nat) : Bool := decide (bitsOf e hi lo < tags)
  decide (bitsOf e 11 0 < patterns) && tag 19 16 && tag 23 20 && tag 27 24 && tag 31 28 && tag 35 32 && tag 39 36 &&
    bitsOf e 63 42 == 0

/-- The accept list from an offset is in range and has a LAST entry; `fuel` bounds its entries. -/
def acceptList (bs : List Byte) (patterns tags : Nat) : Nat → Nat → Bool
  | 0, _ => false
  | fuel + 1, off =>
    decide (off + 8 ≤ bs.length) && acceptOk patterns tags (u64 bs off) &&
      (bitAt (u64 bs off) 15 || acceptList bs patterns tags fuel (off + 8))

/-- Whether an automaton image keeps its tables' ranges. -/
def automatonOk (bs : List Byte) : Bool :=
  let classes := u16 bs 4
  let patterns := u16 bs 6
  let states := u32 bs 8
  let cmap := u32 bs 16
  let trans := u32 bs 20
  let tagTab := u32 bs 24
  let acc := u32 bs 28
  let ops := u16 bs 32
  let tags := u8 bs 34
  let pre := u8 bs 35
  let fits (off len : Nat) : Bool := decide (off + len ≤ bs.length)
  decide (u16 bs 0 < 64) && decide (u8 bs 2 ≤ 2) && u8 bs 3 == 0 &&
  decide (1 ≤ classes) && decide (classes ≤ 256) && decide (patterns ≤ 4096) &&
  decide (1 ≤ states) && decide (states ≤ 65536) && decide (1 ≤ ops) && decide (ops ≤ 4096) && decide (tags ≤ 16) &&
  (decide (pre < 16) || pre == 0xFF) && allZero (slice 36 28 bs) &&
  fits cmap 257 && fits trans (4 * states * classes) && fits tagTab (8 * ops) && fits acc (4 * states) &&
  (List.range 257).all (fun i => decide (u8 bs (cmap + i) < classes)) &&
  (List.range (states * classes)).all (fun i =>
    let e := u32 bs (trans + 4 * i)
    decide (bitsOf e 15 0 < states) && decide (bitsOf e 27 16 < ops) && bitsOf e 31 28 == 0) &&
  (List.range (4 * ops)).all (fun i => decide (i < 4) || tagOpOk tags (u16 bs (tagTab + 2 * i))) &&
  (List.range states).all (fun i =>
    let a := u32 bs (acc + 4 * i)
    a == 0xFFFFFFFF || acceptList bs patterns tags (bs.length + 1) (acc + 4 * states + a))

def readAutomataFrom : Nat → List Byte → Except Code (List Automaton)
  | 0, _ => .error C.AUTOMATON_INVALID
  | fuel + 1, bs =>
    if bs.isEmpty then .ok []
    else do
      let size := u32 bs 12
      need (decide (64 ≤ size) && decide (size ≤ bs.length)) C.AUTOMATON_INVALID
      let im := bs.take size
      need (automatonOk im) C.AUTOMATON_INVALID
      let rest ← readAutomataFrom fuel (bs.drop size)
      return ⟨u16 bs 0, im⟩ :: rest

def readAutomata (bs : List Byte) : Except Code (List Automaton) := do
  let l ← readAutomataFrom (bs.length + 1) bs
  need (distinct (l.map Automaton.number)) C.AUTOMATON_INVALID
  need (decide ((l.map (fun a => a.bytes.length)).foldl (· + ·) 0 ≤ transitionMemory)) C.AUTOMATON_SIZE
  return l

/-! ### Match store (R181, R182) -/

/-- Number of table records: they end where the first entry record begins, or with the section (log entry 59). -/
def tableRecords (bs : List Byte) : Nat → Nat → Nat → Nat
  | 0, n, _ => n
  | fuel + 1, n, first =>
    if 16 * (n + 1) > min first bs.length then n
    else
      let entries := u32 bs (16 * n + 12)
      tableRecords bs fuel (n + 1) (if entries = 0 then first else min first (u32 bs (16 * n + 8)))

def readMstTable (all : List Byte) (bs : List Byte) : Except Code MstTableRec := do
  let wide := u8 bs 3 == 1
  let blocks := u8 bs 2
  let entries := u32 bs 12
  let per := if wide then 4096 else 8192
  let recs := if wide then 2 * entries else entries
  let bad := C.TABLE_LAYOUT
  need (decide (u8 bs 0 < 16) && decide (1 ≤ blocks) && decide (u8 bs 1 + blocks ≤ 64)) bad
  need (decide (u8 bs 3 ≤ 1) && decide (u8 bs 4 ≤ 1) && allZero (slice 5 3 bs)) bad
  need (decide (entries ≤ blocks * per) && decide (u32 bs 8 + 64 * recs ≤ all.length || entries = 0)) bad
  return ⟨u8 bs 0, u8 bs 1, blocks, wide, u8 bs 4 == 1, chunksOf 64 (recs + 1) (slice (u32 bs 8) (64 * recs) all)⟩

def readMatchStore (bs : List Byte) : Except Code (List MstTableRec) := do
  let n := tableRecords bs 17 0 bs.length
  let l ← readAll (readMstTable bs) (chunksOf 16 (n + 1) (bs.take (16 * n)))
  let used := l.flatMap (fun t => (List.range t.blocks).map (fun i => t.firstBlock + i))
  need (distinct (l.map MstTableRec.table) && distinct used) C.TABLE_LAYOUT
  return l

/-! ### Embedding tables and shard maps (R221 to R225) -/

/-- Element formats of a table. -/
def embFormats : List Nat := [0x0D, 0x0A, 0x06, 0x07, 0x04, 0x01]

/-- Whether a storage region is one that a table may have, and the bytes of each slice's place in it. -/
def Region.tablePlace (r : Region) : Option Nat :=
  match r.kind with
  | .vaultRange => some r.size
  | .lpddr6 => if r.base % channelSize = 0 ∧ r.size % channelSize = 0 then some channelSize else none
  | _ => none

def readEmbTable (regions : List Region) (bs : List Byte) : Except Code EmbTable := do
  let fl := u8 bs 2
  let t : EmbTable :=
    { table := u8 bs 0, format := u8 bs 1, scaled := bitAt fl 0, hot := bitsOf fl 2 1, missFault := bitAt fl 3,
      migratable := bitAt fl 4, dim := u16 bs 4, map := u16 bs 6, region := u16 bs 8, capacity := u32 bs 12,
      seed := BitVec.ofNat 64 (u64 bs 16), base := u64 bs 24 }
  let bad := C.EMB_TABLE_INVALID
  need (decide (t.table < 64) && embFormats.contains t.format && decide (fl < 32) && decide (t.hot ≤ 2)) bad
  need (u8 bs 3 == 0 && allZero (slice 10 2 bs)) bad
  need ((t.dim * elemBits t.format) % 32 == 0 && decide (4 ≤ t.rowBytes) && decide (t.rowBytes ≤ 4096)) bad
  match (regions.find? (fun r => r.number == t.region)).bind Region.tablePlace with
  | none => .error bad
  | some room => do
    need (decide (t.base + t.sliceBytes ≤ room)) bad
    return t

/-- Table records end where a record's second byte is 0, which no FORMAT is and every map header has (log entry 60). -/
def embRecords (bs : List Byte) : Nat → Nat → Nat
  | 0, n => n
  | fuel + 1, n =>
    if 32 * (n + 1) ≤ bs.length ∧ u8 bs (32 * n + 1) ≠ 0 then embRecords bs fuel (n + 1) else n

def readMapsFrom : Nat → List Byte → Except Code (List ShardMap)
  | 0, _ => .error C.SHARD_MAP_INVALID
  | fuel + 1, bs =>
    if bs.isEmpty then .ok []
    else do
      let d := u32 bs 4
      let bad := C.SHARD_MAP_INVALID
      need (decide (16 ≤ bs.length) && decide (u16 bs 0 < 16) && u16 bs 2 == 0 && u32 bs 12 == 0) bad
      need (decide (1 ≤ d) && decide (d ≤ 65536) && decide (16 + 4 * d ≤ bs.length)) bad
      let es := (List.range d).map (fun i => u32 bs (16 + 4 * i))
      need (es.all (fun e => decide (e < 2 ^ 20))) bad
      let rest ← readMapsFrom fuel (bs.drop (16 + 4 * d))
      return ⟨u16 bs 0, BitVec.ofNat 32 (u32 bs 8), es.map (BitVec.ofNat 20)⟩ :: rest

def readEmbedding (regions : List Region) (bs : List Byte) : Except Code (List EmbTable × List ShardMap) := do
  let n := embRecords bs 65 0
  let ts ← readAll (readEmbTable regions) (chunksOf 32 (n + 1) (bs.take (32 * n)))
  let ms ← readMapsFrom (bs.length + 1) (bs.drop (32 * n))
  need (distinct (ts.map EmbTable.table)) C.EMB_TABLE_INVALID
  need (distinct (ms.map ShardMap.map)) C.SHARD_MAP_INVALID
  need (ts.all (fun t => ms.any (fun m => m.map == t.map))) C.EMB_TABLE_INVALID
  return (ts, ms)

/-! ### Dictionaries (R257) -/

def readDict (all bs : List Byte) : Except Code Dict := do
  let kind := u8 bs 1
  let content := slice (u32 bs 8) (u32 bs 12) all
  let bad := C.DICT_INVALID
  need (decide (u8 bs 0 < 64) && decide (kind ≤ 1) && u16 bs 2 == 0) bad
  need (decide (1 ≤ u32 bs 12) && decide (u32 bs 12 ≤ 0x800000) && decide (u32 bs 8 + u32 bs 12 ≤ all.length)) bad
  need (if kind = 0 then (ZDict.formatted content).isSome && u32 content 4 == u32 bs 4 else u32 bs 4 == 0) bad
  return ⟨u8 bs 0, kind, u32 bs 4, content⟩

def readDictionaries (regions : List Region) (bs : List Byte) : Except Code (Nat × List Dict) := do
  let n := u16 bs 2
  let bad := C.DICT_INVALID
  need (decide (n ≤ 64) && decide (16 + 16 * n ≤ bs.length) && allZero (slice 4 12 bs)) bad
  let l ← readAll (readDict bs) (chunksOf 16 (n + 1) (slice 16 (16 * n) bs))
  let total : Nat := (l.map (fun (d : Dict) => d.bytes.length)).foldl (· + ·) 0
  need (decide (total ≤ 0x4000000)) bad
  need (distinct (l.map Dict.number) && distinct ((l.map Dict.id).filter (· != 0))) bad
  need ((regions.find? (fun r => r.number == u16 bs 0)).any (fun (r : Region) =>
    r.kind == .interleaved && r.access == .keeperOnly && decide (total ≤ r.size))) bad
  return (u16 bs 0, l)

/-! ### Streams, routes, watches (R385) -/

def readStream (bs : List Byte) : Except Code StreamDecl :=
  if u16 bs 0 < 256 ∧ u16 bs 2 = 0 ∧ u32 bs 4 < 0xFFFFF then .ok ⟨u16 bs 0, u32 bs 4⟩ else .error C.SECTION_INVALID

def readStreams (bs : List Byte) : Except Code (List StreamDecl) := do
  let l ← readAll readStream (← recordsOf 8 C.SECTION_INVALID bs)
  need (distinct (l.map StreamDecl.stream)) C.SECTION_INVALID
  return l

/-- Whether the two words of a routing entry are refused (R343, R385). -/
def routeBad (w0 w1 : W64) : Bool :=
  decide (bitsOf w0.toNat 24 20 > 20) || decide (bitsOf w0.toNat 63 28 ≠ 0) ||
    (bitAt w0.toNat 27 && (decide (bitsOf w1.toNat 51 48 < 1) || decide (bitsOf w1.toNat 51 48 > 8) ||
      decide (bitsOf w1.toNat 63 52 ≠ 0)))

def readRoute (bs : List Byte) : Except Code (W64 × W64) :=
  let w0 := BitVec.ofNat 64 (u64 bs 0)
  let w1 := BitVec.ofNat 64 (u64 bs 8)
  if routeBad w0 w1 then .error C.SECTION_INVALID else .ok (w0, w1)

def readRoutes (bs : List Byte) : Except Code (List (W64 × W64)) := do
  let l ← readAll readRoute (← recordsOf 16 C.SECTION_INVALID bs)
  need (decide (l.length ≤ 4096)) C.SECTION_INVALID
  return l

/-- A pitched watch word: aligned, in a range that has watch words (R44). -/
def readWatch (bs : List Byte) : Except Code Nat :=
  let a := u64 bs 0
  if a % 8 ≠ 0 then .error C.ALIGNMENT
  else
    match physOf a with
    | some _ => .ok a
    | none => .error C.ADDRESS_UNMAPPED

def readWatches (bs : List Byte) : Except Code (List Nat) := do
  let l ← readAll readWatch (← recordsOf 8 C.SECTION_INVALID bs)
  need (decide (l.length ≤ watchPlaces)) C.WATCH_TABLE_FULL
  return l

end Sys2Proof.Machine
end

