-- ==== Sys2Proof/Machine/Graphs.lean ====
section
/-!
DEFINITION. The descriptors and the stage graphs of a pitch image, as pitching reads and checks them (R149, R150, R157,
R274, R281 to R286, R288).
-/
namespace Sys2Proof.Machine

def Image.region? (im : Image) (n : Nat) : Option Region := im.regions.find? (fun (r : Region) => r.number == n)
def Image.desc? (im : Image) (n : Nat) : Option Desc := (im.descs.find? (·.1 == n)).map (·.2)
def Image.layout? (im : Image) (n : Nat) : Option Layout := im.layouts.find? (fun (l : Layout) => l.number == n)
def Image.schema? (im : Image) (n : Nat) : Option Schema := im.schemas.find? (fun (g : Schema) => g.number == n)

/-! ### Descriptors (R149, R157, R385) -/

/-- Base and size of a region for the creation checks; the base is a multiple of 4 KiB, which is all they use of it. -/
def spanIn (regions : List Region) (n : Nat) : Option (Nat × Nat) :=
  (regions.find? (fun (r : Region) => r.number == n)).map (fun r => (r.base, r.size))

/-- A template as pitching sees it: what its argument will change cannot fail yet (log entry 61). -/
def templateView (d : Desc) : Desc :=
  let last := d.rank - 1
  { d with
    base := 0
    extent := if d.rowsFromArg then d.extent.set last (if d.rank = 1 then 128 else 1) else d.extent }

/-- The creation checks of an image descriptor (R157). -/
def imageDescCheck (regions : List Region) (before : List (Nat × Desc)) (isScale : Bool) (n : Nat) (d : Desc) :
    Option Code :=
  let comp := if d.scale = 0xFFFF then none else (before.find? (·.1 == d.scale)).map (·.2)
  if d.arg = 0xFF then descCheck n d (spanIn regions d.region) true isScale comp
  else
    match descCheck n (templateView d) (spanIn regions d.region) (decide (d.arg < 64)) isScale comp with
    | some c => if c = C.OUT_OF_REGION ∨ c = C.SCALE_INVALID then none else some c
    | none => none

/-- Descriptors one after the other, in rising number order. -/
def readDescsFrom (regions : List Region) : List (Nat × Desc) → List (List Byte) → Except Code (List (Nat × Desc))
  | before, [] => .ok before
  | before, bs :: rest =>
    let n := u16 bs 0
    let d := descOf (slice 8 128 bs)
    if !allZero (slice 2 6 bs) ∨ before.any (fun e => decide (n ≤ e.1)) then .error C.SECTION_INVALID
    else if n ≥ 32768 then .error C.DESC_LIMIT
    else
      let isScale := rest.any (fun r => (descOf (slice 8 128 r)).scale == n)
      match imageDescCheck regions before isScale n d with
      | some c => .error c
      | none => readDescsFrom regions (before ++ [(n, d)]) rest

def readDescriptors (regions : List Region) (bs : List Byte) : Except Code (List (Nat × Desc)) := do
  let recs ← recordsOf 136 C.SECTION_INVALID bs
  need (decide (recs.length ≤ 32768)) C.DESC_LIMIT
  readDescsFrom regions [] recs

/-! ### Graph records (R281 to R283) -/

def gTensorOf (bs : List Byte) : GTensor :=
  { kind := u8 bs 0, typ := u8 bs 1, rank := u8 bs 2, desc := u16 bs 4, scale := u16 bs 6, payload := u8 bs 8,
    extent := (List.range 5).map (fun i => u32 bs (12 + 4 * i)) }

def gNodeOf (bs : List Byte) : GNode :=
  { op := u8 bs 0, flags := u8 bs 1, act := u8 bs 2, axis := u8 bs 3, in0 := u16 bs 4, in1 := u16 bs 6, in2 := u16 bs 8,
    in3 := u16 bs 10, out := u16 bs 12, p0 := BitVec.ofNat 32 (u32 bs 16), p1 := BitVec.ofNat 32 (u32 bs 20) }

def GTensor.dims (t : GTensor) : List Nat := t.extent.take t.rank

def noTensor : Nat := 0xFFFF

/-- Fields of a tensor record that are out of range whatever the graph. -/
def tensorFieldsOk (bs : List Byte) : Bool :=
  let t := gTensorOf bs
  decide (t.kind ≤ 3) && elemBits t.typ != 0 && decide (1 ≤ t.rank) && decide (t.rank ≤ 5) && u8 bs 3 == 0 &&
    allZero (slice 9 3 bs) && t.dims.all (· != 0) && (t.extent.drop t.rank).all (· == 0) &&
    (if t.kind = 2 then true else t.desc == noTensor && t.scale == noTensor) &&
    (if t.kind ≤ 1 then true else t.payload == 0xFF)

/-- Operation codes (R284). -/
def elementwiseOp (o : Nat) : Bool := decide (0x10 ≤ o ∧ o ≤ 0x15)
def unaryOp (o : Nat) : Bool := decide (0x20 ≤ o ∧ o ≤ 0x24)
def lineOpCode (o : Nat) : Bool := decide (0x30 ≤ o ∧ o ≤ 0x32)
def bagOpCode (o : Nat) : Bool := decide (0x40 ≤ o ∧ o ≤ 0x42)
def matrixOp (o : Nat) : Bool := o == 1 || o == 2 || o == 0x60

def opKnown (o : Nat) : Bool :=
  matrixOp o || elementwiseOp o || unaryOp o || lineOpCode o || bagOpCode o || decide (0x50 ≤ o ∧ o ≤ 0x52)

/-- Inputs that an operation must have, by field. -/
def inputsNeeded (n : GNode) : List Nat :=
  let two := n.op == 1 || n.op == 2 || elementwiseOp n.op || n.op == 0x50
  [n.in0] ++ (if two then [n.in1] else []) ++ (if n.op = 0x31 ∨ n.op = 0x32 ∨ bagOpCode n.op then [n.in2] else []) ++
    (if n.op = 0x31 then [n.in3] else [])

/-- The input fields that an operation uses, a GEMM's bias among them; the others hold 0xFFFF (R283, R284). -/
def inputFields (o : Nat) : List Nat :=
  if o = 1 then [0, 1, 2]
  else if o = 2 ∨ elementwiseOp o ∨ o = 0x50 then [0, 1]
  else if o = 0x31 then [0, 2, 3]
  else if o = 0x32 ∨ bagOpCode o then [0, 2]
  else [0]

/-- Fields that an operation does not use say so; TRANS_A, TRANS_B and TRANS_OUT belong to the matrix nodes (R168, R285). -/
def unusedOk (n : GNode) : Bool :=
  (([n.in0, n.in1, n.in2, n.in3].zip (List.range 4)).all (fun e => e.1 == 0xFFFF || (inputFields n.op).contains e.2)) &&
    (matrixOp n.op || bitsOf n.flags 2 0 == 0)

/-- Tensors that a node names as inputs. -/
def GNode.reads (n : GNode) : List Nat := [n.in0, n.in1, n.in2, n.in3].filter (· != noTensor)

def nodeFieldsOk (ts : List GTensor) (bs : List Byte) : Bool :=
  let n := gNodeOf bs
  let there (i : Nat) : Bool := decide (i < ts.length)
  opKnown n.op && unusedOk n && decide (n.flags < 32) && decide (n.act ≤ 5) && (n.act == 0 || matrixOp n.op) &&
    allZero (slice 14 2 bs) && allZero (slice 24 8 bs) && (inputsNeeded n).all there && n.reads.all there &&
    ((ts[n.out]?).any (fun (t : GTensor) => t.kind == 1 || t.kind == 3)) &&
    (if lineOpCode n.op ∨ n.op = 0x50 ∨ n.op = 0x51 then (ts[n.in0]?).any (fun (t : GTensor) => decide (n.axis < t.rank))
     else true) &&
    (if n.op = 0x60 then decide (n.p1.toNat ≤ 1) else true)

/-- No node reads a SCRATCH tensor that no earlier node has written; ACCUMULATE reads its output. -/
def scratchWritten (ts : List GTensor) : List Nat → List GNode → Bool
  | _, [] => true
  | done, n :: rest =>
    let reads := n.reads ++ (if bitAt n.flags 4 then [n.out] else [])
    reads.all (fun i => done.contains i || (ts[i]?).any (fun (t : GTensor) => t.kind != 3)) &&
      scratchWritten ts (n.out :: done) rest

/-! ### Shapes (R282, R284, R286) -/

def swap01 (flag : Bool) : List Nat → List Nat
  | a :: b :: r => if flag then b :: a :: r else a :: b :: r
  | l => l

/-- The extents of a tensor against what it stands for: a payload tensor, an image descriptor, or the slots alone. -/
def tensorShapeOk (im : Image) (inL outL : Layout) (t : GTensor) : Bool :=
  match t.kind with
  | 2 => (im.desc? t.desc).any (fun (d : Desc) => d.rank == t.rank && d.extent.take d.rank == t.dims)
  | 3 => t.dims.getLast? == some inL.slots
  | k =>
    let l := if k = 0 then inL else outL
    (l.tensors[t.payload]?).any (fun (x : LayoutTensor) =>
      x.rank == t.rank && t.dims == x.extents.take (x.rank - 1) ++ [l.slots])

/-- The shape that a node's output must have, as its inputs say; none where they do not fit together. -/
def nodeShape (slots : Nat) (n : GNode) (a : List Nat) (b c d : Option (List Nat)) : Option (List Nat) :=
  let a' := swap01 (bitAt n.flags 0) a
  let b' := (b.map (swap01 (bitAt n.flags 1))).getD []
  let out (l : List Nat) : List Nat := swap01 (bitAt n.flags 2) l
  let line := some [a.getD n.axis 0]
  if n.op = 1 then
    match a', b' with
    | k :: rows, [k', m] =>
      if k = k' ∧ k ≤ 65536 ∧ m ≤ 65536 ∧ (c = none ∨ c = some [m]) then some (out (m :: rows)) else none
    | _, _ => none
  else if n.op = 2 then
    match a', b' with
    | [k, m, s], [k', w, s'] => if k = k' ∧ s = s' ∧ k ≤ 65536 ∧ w ≤ 65536 then some (out [w, m, s]) else none
    | _, _ => none
  else if n.op = 0x60 then
    match a' with
    | [k, f, s] =>
      if k ≤ 65536 ∧ f ≤ 65536 then some (out [(if bitAt n.p1.toNat 0 then f * (f + 1) else f * (f - 1)) / 2, s]) else none
    | _ => none
  else if elementwiseOp n.op then (if b = some a then some a else none)
  else if n.op = 0x31 then (if c = line ∧ d = line then some a else none)
  else if n.op = 0x32 then (if c = line then some a else none)
  else if bagOpCode n.op then
    match a with
    | [w, _] => if c = some [slots + 1] then some [w, slots] else none
    | _ => none
  else if n.op = 0x50 then
    match b with
    | some b => if b.length = a.length ∧ b.set n.axis 0 = a.set n.axis 0 then
        some (a.set n.axis (a.getD n.axis 0 + b.getD n.axis 0)) else none
    | none => none
  else if n.op = 0x51 then
    if n.p0.toNat + n.p1.toNat ≤ a.getD n.axis 0 then some (a.set n.axis n.p1.toNat) else none
  else some a

/-- The scales of a matrix node's weights have the shape that the weights call for (R278, R282): an E8M0 code for each block of
32 along dimension 0, an FP32 scale for each output column, which integer weights must have. -/
def scaleShapeOk (im : Image) (ts : List GTensor) (n : GNode) : Bool :=
  match ts[n.in1]? with
  | none => true
  | some t =>
    if (n.op ≠ 1 ∧ n.op ≠ 2) ∨ t.kind ≠ 2 then true
    else
      let ints := decide (t.typ = 1 ∨ t.typ = 2 ∨ t.typ = 4 ∨ t.typ = 5)
      if t.scale = noTensor then !ints
      else (im.desc? t.scale).any (fun (d : Desc) =>
        d.extent.take d.rank == (if ints then [(swap01 (bitAt n.flags 1) t.dims).getD 1 0]
          else (match t.dims with | k :: r => ceilDiv k 32 :: r | [] => [])))

def nodeShapeOk (slots : Nat) (ts : List GTensor) (n : GNode) : Bool :=
  let dims (i : Nat) : Option (List Nat) := (ts[i]?).map GTensor.dims
  match dims n.in0, dims n.out with
  | some a, some o =>
    if n.op = 0x52 then count a == count o
    else nodeShape slots n a (dims n.in1) (dims n.in2) (dims n.in3) == some o
  | _, _ => false

/-! ### Types (R154, R274) -/

def intOperand (t : Nat) : Bool := t == 1 || t == 2 || t == 4 || t == 5
def smallFloat (t : Nat) : Bool := t == 3 || t == 6 || t == 7

/-- Whether two operand types go together in the matrix engines. -/
def gemmTypes (a b : Nat) : Bool :=
  (intOperand a && intOperand b) || (smallFloat a && smallFloat b) || (a == 9 && b == 9) || (a == 0x0A && b == 0x0A) ||
    ((a == 0x0D || a == 0x0A || a == 9) && smallFloat b)

/-- The scales of a weight tensor: an E8M0 companion, or FP32 column scales for integers. -/
def weightScaleOk (im : Image) (t : GTensor) : Bool :=
  t.scale == noTensor || (im.desc? t.scale).any (fun (d : Desc) =>
    if intOperand t.typ then d.typ == 0x0D else smallFloat t.typ && d.typ == tyE8m0)

def tensorTypeOk (im : Image) (inL outL : Layout) (t : GTensor) : Bool :=
  match t.kind with
  | 2 => (im.desc? t.desc).any (fun (d : Desc) => d.typ == t.typ) && weightScaleOk im t
  | 3 => true
  | k => ((if k = 0 then inL else outL).tensors[t.payload]?).any (fun (x : LayoutTensor) => x.typ == t.typ)

def nodeTypeOk (ts : List GTensor) (n : GNode) : Bool :=
  let ty (i : Nat) : Nat := ((ts[i]?).map GTensor.typ).getD 0
  if n.op = 1 ∨ n.op = 2 then gemmTypes (ty n.in0) (ty n.in1)
  else if n.op = 0x60 then gemmTypes (ty n.in0) (ty n.in0)
  else if bagOpCode n.op then ty n.in2 == 0x0B
  else true

/-- Bytes of SCRATCH for one slot, in eighths. -/
def Graph.scratchBits (g : Graph) : Nat :=
  ((g.tensors.filter (fun (t : GTensor) => t.kind == 3)).map (fun (t : GTensor) => count t.dims.dropLast * elemBits t.typ)).sum

/-! ### The section -/

/-- Places of a graph that no record of R281 to R283 covers, where a copy record would fit. -/
def copyRoom (nodeOff nodes tensorOff tensors size : Nat) : List Nat :=
  ((List.range (size / 8)).map (8 * ·)).filter (fun o =>
    decide (64 ≤ o ∧ (o + 8 ≤ nodeOff ∨ nodeOff + 32 * nodes ≤ o) ∧ (o + 8 ≤ tensorOff ∨ tensorOff + 32 * tensors ≤ o)))

/-- The copy records of a graph (R163): the manual gives them no place, so which of the free places hold one is open (log
entry 172). -/
def copiesOf (bs : List Byte) (room : List Nat) : List CopyRec :=
  if room.isEmpty then [] else (room.filter (Config.copyAt bs)).map (fun o => copyRecOf (slice o 8 bs))

/-- One graph from its bytes, with the fields of R281 in range. -/
def graphOf (bs : List Byte) : Except Code Graph := do
  let nodes := u16 bs 2
  let tensors := u16 bs 4
  let bad := C.GRAPH_INVALID
  need (decide (u16 bs 0 < 256) && decide (1 ≤ nodes) && decide (nodes ≤ 1024)) bad
  need (decide (1 ≤ tensors) && decide (tensors ≤ 4096) && u16 bs 10 == 0 && allZero (slice 24 40 bs)) bad
  need (decide (u32 bs 12 + 32 * nodes ≤ bs.length) && decide (u32 bs 16 + 32 * tensors ≤ bs.length)) bad
  let tr := chunksOf 32 (tensors + 1) (slice (u32 bs 16) (32 * tensors) bs)
  let nr := chunksOf 32 (nodes + 1) (slice (u32 bs 12) (32 * nodes) bs)
  need (tr.all tensorFieldsOk) bad
  need (nr.all (nodeFieldsOk (tr.map gTensorOf)) && scratchWritten (tr.map gTensorOf) [] (nr.map gNodeOf)) bad
  return ⟨u16 bs 0, u16 bs 6, u16 bs 8, nr.map gNodeOf, tr.map gTensorOf,
    copiesOf bs (copyRoom (u32 bs 12) nodes (u32 bs 16) tensors bs.length)⟩

/-- The checks of a graph against the rest of the image; `chunk` is CORE_CHUNK in KiB. -/
def graphCheck (im : Image) (chunk : Nat) (g : Graph) : Except Code Unit :=
  match im.layout? g.inLayout, im.layout? g.outLayout with
  | some li, some lo => do
    need (li.slots == lo.slots && g.tensors.all (tensorShapeOk im li lo)) C.GRAPH_SHAPE
    need (g.nodes.all (nodeShapeOk li.slots g.tensors) && g.nodes.all (scaleShapeOk im g.tensors)) C.GRAPH_SHAPE
    need (g.tensors.all (tensorTypeOk im li lo) && g.nodes.all (nodeTypeOk g.tensors)) C.TYPE_PATH
    let _ ← readAll (copyCheck im) g.copies
    need (decide (16 * g.scratchBits ≤ 8 * (chunk * 1024))) C.SCRATCH_SPACE
  | _, _ => .error C.GRAPH_INVALID

def readGraphsFrom : Nat → List Byte → Except Code (List Graph)
  | 0, _ => .error C.GRAPH_INVALID
  | fuel + 1, bs =>
    if bs.isEmpty then .ok []
    else do
      let size := u32 bs 20
      need (decide (64 ≤ size) && decide (size ≤ bs.length)) C.GRAPH_INVALID
      let g ← graphOf (bs.take size)
      let rest ← readGraphsFrom fuel (bs.drop size)
      return g :: rest

def readGraphs (im : Image) (chunk : Nat) (bs : List Byte) : Except Code (List Graph) := do
  let l ← readGraphsFrom (bs.length + 1) bs
  need (distinct (l.map Graph.number)) C.GRAPH_INVALID
  let _ ← readAll (graphCheck im chunk) l
  return l

end Sys2Proof.Machine
end

