-- ==== Sys2Proof/Machine/Pipes.lean ====
section
/-!
DEFINITION. The pipelines of a pitch image, as pitching reads and checks them (R55 to R58, R60, R74, R77, R78, R84 to
R124, R133 to R146, R150, R169, R200, R215, R228, R229, R264, R265, R287). A field of a parameter block that is out of
range, with no code of its own, is refused with the code of the operator's chapter (log entry 58).
-/
namespace Sys2Proof.Machine

/-! ### Records (R55, R56) -/

def opOfCode : Nat → Option Op
  | 0x01 => some .scan | 0x02 => some .filter | 0x03 => some .project | 0x04 => some .hash | 0x05 => some .bucket
  | 0x06 => some .normalise | 0x07 => some .stats | 0x08 => some .partition | 0x09 => some .joinBuild
  | 0x0A => some .joinProbe | 0x0B => some .dictJoin | 0x0C => some .gather | 0x0D => some .scatter | 0x0E => some .lookup
  | 0x0F => some .update | 0x10 => some .decode | 0x11 => some .parse | 0x12 => some .pyramid | 0x13 => some .compress
  | 0x14 => some .decompress | 0x15 => some .model | 0x16 => some .batch | 0x17 => some .emit
  | _ => none

/-- Length of an operator's parameter block (R58). -/
def Op.blockBytes : Op → Nat
  | .scan | .hash | .stats | .dictJoin | .gather | .scatter | .decode | .parse => 24
  | .filter | .project | .compress | .decompress | .model | .emit => 16
  | _ => 32

def Op.isSource (o : Op) : Bool := o == .scan || o == .decode || o == .parse

def queueList (bs : List Byte) : List Nat := (bs.map BitVec.toNat).filter (· != 0xFF)

/-- A stage record with its parameter block: what its own 32 bytes can break. -/
def readStage (sec : List Byte) (flows queues i : Nat) (bs : List Byte) : Except Code StageRec :=
  match opOfCode (u8 bs 1) with
  | none => .error C.PIPELINE_INVALID
  | some op => do
    let fl := u8 bs 3
    let prio := u8 bs 2
    let inQ := queueList (slice 4 4 bs)
    let outQ := queueList (slice 8 4 bs)
    let flow := u16 bs 12
    let len := u16 bs 14
    let off := u64 bs 16
    let bad := C.PIPELINE_INVALID
    need (u8 bs 0 == i && (decide (prio ≤ 7) || prio == 0xFF) && decide (fl < 4) && allZero (slice 24 8 bs)) bad
    need (bitAt fl 0 == op.isSource && bitAt fl 1 == (op == .emit)) bad
    need (distinct inQ && distinct outQ && (inQ ++ outQ).all (fun q => decide (q < queues))) bad
    need (if op.isSource then inQ.isEmpty && decide (flow < flows)
          else !inQ.isEmpty && (decide (flow < flows) || flow == 0xFFFF)) bad
    need (if op = .emit then inQ.length == 1 && outQ.isEmpty else true) bad
    need (len == op.blockBytes && decide (off + len ≤ sec.length)) bad
    let r : StageRec :=
      { op := op, priority := prio, source := op.isSource, inQ := inQ, outQ := outQ, outFlow := flow, param := slice off len sec }
    .ok r

def readQueue (bs : List Byte) : Except Code QueueRec :=
  if 2 ≤ u16 bs 0 ∧ u16 bs 0 ≤ 1024 ∧ allZero (slice 4 4 bs) then .ok ⟨u16 bs 0, u8 bs 2, u8 bs 3⟩
  else .error C.PIPELINE_INVALID

def readFlow (bs : List Byte) : Except Code Bool :=
  if u8 bs 0 ≤ 1 ∧ allZero (slice 1 3 bs) then .ok (u8 bs 0 == 1) else .error C.PIPELINE_INVALID

def argKindOf : Nat → Option ArgKind
  | 1 => some .table
  | 2 => some .scalar
  | 3 => some .ring
  | 4 => some .stream
  | _ => none

def readArgDecl (bs : List Byte) : Except Code (Nat × ArgKind) :=
  match argKindOf (u8 bs 1) with
  | some k => if u8 bs 0 < 64 ∧ allZero (slice 2 2 bs) then .ok (u8 bs 0, k) else .error C.PIPELINE_INVALID
  | none => .error C.PIPELINE_INVALID

/-- Each queue is named by its producer and its consumer, and by no other stage. -/
def queuesJoined (stages : List StageRec) (queues : List QueueRec) : Bool :=
  let idx := (List.range stages.length).zip stages
  ((List.range queues.length).zip queues).all (fun e =>
    (idx.filter (fun s => s.2.outQ.contains e.1)).map (·.1) == [e.2.producer] &&
      (idx.filter (fun s => s.2.inQ.contains e.1)).map (·.1) == [e.2.consumer])

/-- The stages whose producers have all been placed; `fuel` bounds the rounds. -/
def placeStages (stages : List StageRec) (queues : List QueueRec) : Nat → List Nat → List Nat
  | 0, done => done
  | fuel + 1, done =>
    let ready := (List.range stages.length).filter (fun i => !done.contains i && ((stages[i]?).any (fun st =>
      st.inQ.all (fun q => (queues[q]?).any (fun (r : QueueRec) => done.contains r.producer)))))
    placeStages stages queues fuel (done ++ ready)

/-- One pipeline record and the lists it names. -/
def readPipeline (sec : List Byte) (off : Nat) : Except Code Pipeline := do
  let bs := slice off 64 sec
  let n := u8 bs 2
  let nq := u8 bs 3
  let nf := u8 bs 4
  let na := u8 bs 5
  let bad := C.PIPELINE_INVALID
  need (decide (off + 64 ≤ sec.length) && decide (u16 bs 0 < 256) && allZero (slice 40 24 bs)) bad
  need (decide (1 ≤ n) && decide (n ≤ 64) && decide (nq ≤ 128) && decide (1 ≤ nf) && decide (nf ≤ 16) && decide (na ≤ 64)) bad
  need (decide (u8 bs 6 ≤ u8 bs 7) && decide (u8 bs 7 ≤ 7)) bad
  let part (at_ size k : Nat) : Except Code (List (List Byte)) :=
    if u64 bs at_ + size * k ≤ sec.length then .ok (chunksOf size (k + 1) (slice (u64 bs at_) (size * k) sec)) else .error bad
  let stages ← readAll (fun (e : Nat × List Byte) => readStage sec nf nq e.1 e.2) ((List.range n).zip (← part 8 32 n))
  let queues ← readAll readQueue (← part 16 8 nq)
  let flows ← readAll readFlow (← part 24 4 nf)
  let args ← readAll readArgDecl (← part 32 4 na)
  need (distinct (args.map (·.1)) && queuesJoined stages queues) bad
  need ((placeStages stages queues (n + 1) []).length == n) bad
  let p : Pipeline :=
    { number := u16 bs 0, defaultPriority := u8 bs 6, ceiling := u8 bs 7, stages := stages, queues := queues, ordered := flows,
      args := args }
  .ok p

/-! ### What reaches a stage -/

/-- The stages that a stage feeds. -/
def Pipeline.fed (p : Pipeline) (n : Nat) : List Nat :=
  ((p.stages[n]?).map (fun st => st.outQ.filterMap (fun q => (p.queues[q]?).map QueueRec.consumer))).getD []

def Pipeline.opOf (p : Pipeline) (n : Nat) : Option Op := (p.stages[n]?).map (·.op)

/-- The source stages from which a stage descends; a source stage descends from itself. -/
def Pipeline.sourcesOf (p : Pipeline) : Nat → Nat → List Nat
  | 0, _ => []
  | fuel + 1, n => if (p.feeders n).isEmpty then [n] else (p.feeders n).flatMap (Pipeline.sourcesOf p fuel)

/-- The flows whose chunks enter a stage. -/
def Pipeline.flowsIn (p : Pipeline) (n : Nat) : List Nat := ((p.feeders n).flatMap (p.flowsOut 64)).eraseDups

/-- Whether chunks of an ORDERED flow enter a stage that keeps their flow. -/
def Pipeline.keepsOrder (p : Pipeline) (n : Nat) : Bool :=
  (p.stages[n]?).any (fun st => st.outFlow == 0xFFFF) && (p.flowsIn n).any p.isOrdered

/-- Whether a stage's argument slot has been declared with a kind. -/
def Pipeline.argIs (p : Pipeline) (slot : Nat) (k : ArgKind) : Bool := p.args.contains (slot, k)

/-- What a stage's chunks carry: 1 a decoded image, 2 the levels of a pyramid, 3 a batch, 0 rows. -/
def outKind (st : StageRec) : Nat :=
  match st.op with
  | .decode => if 4 ≤ u8 st.param 0 then 1 else 0
  | .pyramid => 2
  | .batch | .model => 3
  | _ => 0

/-! ### Column types (R78) -/

/-- A column that the vault operators compute on; BF16 stands in no row of R78's table and is only kept or dropped. -/
def SCol.num? (c : SCol) : Bool := isPrimT c.typ && c.typ != tBf16
def SCol.fixed? (c : SCol) : Bool := c.num? || (c.typ == tFsb && decide (1 ≤ c.width) && decide (c.width ≤ 20))
def SCol.key? (c : SCol) : Bool := c.fixed? || isVarT c.typ
def SCol.bytes (c : SCol) : Nat := typeBytes c.typ c.width

/-- What makes two columns the same type: the width counts for FIXED_SIZE_BINARY alone. -/
def SCol.sort (c : SCol) : Nat × Nat := (c.typ, if c.typ = tFsb then c.width else 0)

/-- The code for a column of a type that an operator does not accept: R77 gives COLUMN_CONFLICT and the table of R126
COLUMN_TYPE, so that which of the two comes is open (log entry 99). -/
def wrongType : Code := if Config.typeConflict then C.COLUMN_CONFLICT else C.COLUMN_TYPE

/-- A column that a stage reads, of a type it accepts (R77). -/
def readCol (cols : List SCol) (n : Nat) (ok : SCol → Bool) (typeCode : Code := wrongType) : Except Code SCol :=
  match scolAt cols n with
  | none => .error C.COLUMN_CONFLICT
  | some c => if ok c then .ok c else .error typeCode

def readCols (cols : List SCol) (ns : List Nat) (ok : SCol → Bool) : Except Code (List SCol) :=
  readAll (fun n => readCol cols n ok) ns

/-- Columns that a stage creates: numbers in range, none present. -/
def newCols (cols : List SCol) (bad : Code) : List Nat → Except Code Unit
  | [] => .ok ()
  | n :: r =>
    if 64 ≤ n then .error bad
    else if (scolAt cols n).isSome ∨ r.contains n then .error C.COLUMN_CONFLICT
    else newCols cols bad r

/-! ### Vault operators (R83 to R124) -/

/-- A microoperation against its column slots and constants (R86, R78). -/
def microCheck (cols : List (Option SCol)) (nc : Nat) (bs : List Byte) : Except Code Unit := do
  let w := u64 bs 0
  let o := bitsOf w 7 0
  let bad := C.PARAM_INVALID
  let slotCol (k : Nat) : Except Code SCol :=
    match (cols[k]?).join with
    | some c => .ok c
    | none => .error bad
  need (!bitAt w 23 && bitsOf w 63 32 == 0) bad
  need ((decide (1 ≤ o) && decide (o ≤ 0x0B)) || (decide (0x11 ≤ o) && decide (o ≤ 0x16)) ||
    (decide (0x20 ≤ o) && decide (o ≤ 0x24)) || o == 0x30 || o == 0x31) bad
  if o ≤ 9 then
    let c ← slotCol (bitsOf w 22 20)
    need (decide (bitsOf w 27 24 < nc) && (o != 7 || decide (bitsOf w 31 28 < nc))) bad
    need (if o ≤ 2 then c.num? || (c.typ == tFsb && decide (1 ≤ c.width) && decide (c.width ≤ 8))
          else if o ≤ 7 then c.num? else isIntT c.typ) wrongType
  else if o ≤ 0x0B then
    let c ← slotCol (bitsOf w 22 20)
    need (c.num? || isVarT c.typ) wrongType
  else if o ≤ 0x16 then
    let c ← slotCol (bitsOf w 22 20)
    let k ← slotCol (bitsOf w 26 24)
    need (c.sort == k.sort) C.COLUMN_TYPE
    need (c.num? || (decide (o ≤ 0x12) && c.fixed?)) wrongType
  else .ok ()

def filterCheck (pipe : List Byte) (p : Pipeline) (cols : List SCol) (b : List Byte) : Except Code Unit := do
  let off := u32 b 0
  let len := u8 b 4
  let nc := u8 b 6
  let nb := u8 b 7
  let bad := C.PARAM_INVALID
  need (off % 8 == 0 && decide (1 ≤ len) && decide (len ≤ 32) && decide (nc ≤ 16) && decide (nb ≤ 16)) bad
  need (decide (off + 8 * len + 8 * nc + roundUp (2 * nb) 8 ≤ pipe.length)) bad
  let slots ← readAll (fun (x : Byte) =>
    if x = 0xFF then .ok none
    else match scolAt cols x.toNat with
      | some c => .ok (some c)
      | none => .error C.COLUMN_CONFLICT) (slice 8 8 b)
  let _ ← readAll (fun i => microCheck slots nc (slice (off + 8 * i) 8 pipe)) (List.range len)
  let binds := (List.range nb).map (fun i => slice (off + 8 * len + 8 * nc + 2 * i) 2 pipe)
  need (distinct (binds.map (fun x => u8 x 0)) && binds.all (fun x => decide (u8 x 0 < nc) && p.argIs (u8 x 1) .scalar)) bad
  newCols cols bad [u8 b 5]

/-- Boundaries of a BOUNDARY stage in a column's type rise strictly, and none is a NaN (R97). -/
def boundariesRise : List Val → Bool
  | [] => true
  | [x] => !x.isNan
  | x :: y :: r => !x.isNan && x.lt y && boundariesRise (y :: r)

/-- A stage that reads a STATS stage of its own pipeline (R106). -/
def statsRefCheck (im : Image) (p : Pipeline) (n stage region : Nat) : Except Code Unit :=
  if stage = 0xFF then need (im.region? region).isSome C.PARAM_INVALID
  else do
    need (p.opOf stage == some .stats && (p.sourcesOf 64 n).any (fun b => !(p.sourcesOf 64 stage).contains b)) C.STATS_DEPENDENCY
    need (im.region? region).isSome C.PARAM_INVALID

def generalTable (im : Image) (t : Nat) : Bool :=
  im.mstTables.any (fun (m : MstTableRec) => m.table == t && !m.wide && !m.prefilter)

def bucketCheck (im : Image) (p : Pipeline) (n : Nat) (cols : List SCol) (b : List Byte) : Except Code Unit := do
  let kind := u8 b 0
  let cnt := u32 b 4
  let bad := C.PARAM_INVALID
  need (decide (kind ≤ 3) && decide (u8 b 3 < 4) && u16 b 30 == 0) bad
  let c ← readCol cols (u8 b 1) SCol.num?
  if kind = 0 then
    need (decide (1 ≤ cnt) && decide (cnt ≤ 4096) && decide (u64 b 8 + 8 * cnt ≤ im.pipeBytes.length)) bad
    need (boundariesRise (boundaryTable im.pipeBytes b ⟨0, c.typ, c.elem, c.width, []⟩)) C.BOUNDARY_ORDER
  else if kind = 1 then need (decide (1 ≤ cnt) && (u8 b 27 == 1 || u8 b 27 == 2)) bad
  else if kind = 2 then
    need (cnt == 0 && decide (u64 b 8 < 16)) bad
    need (generalTable im (u64 b 8)) C.TABLE_WIDTH
  else
    need (decide (2 ≤ cnt) && decide (cnt ≤ 4096)) bad
    statsRefCheck im p n (u8 b 26) (u16 b 24)
  newCols cols bad [u8 b 2]

def normaliseCheck (im : Image) (p : Pipeline) (n : Nat) (cols : List SCol) (b : List Byte) : Except Code Unit := do
  let used := (List.range 4).filter (fun i => u8 b i != 0xFF)
  let bad := C.PARAM_INVALID
  let mode (i : Nat) : Nat := u8 b (8 + i)
  let const (i j : Nat) : FVal := fp32.decode (u32 im.pipeBytes (u32 b 28 + 16 * i + 4 * j))
  need (decide (u8 b 15 ≤ 2) && decide (u32 b 28 + 16 * (used.getLast?.elim 0 (· + 1)) ≤ im.pipeBytes.length)) bad
  need (used.all (fun i => decide (bitsOf (mode i) 3 0 ≤ 5) && !bitAt (mode i) 7 && !(const i 1).lt (const i 0))) bad
  let _ ← readCols cols (used.map (fun i => u8 b i)) SCol.num?
  if used.any (fun i => !(normNeeds (mode i)).isEmpty) then statsRefCheck im p n (u8 b 14) (u16 b 12)
  newCols cols bad (used.map (fun i => u8 b (4 + i)))

def statsCheck (im : Image) (cols : List SCol) (b : List Byte) : Except Code Unit := do
  let names := colList (slice 0 8 b)
  let hist := bitAt (u8 b 8) 3
  let bins := u16 b 10
  let off := u64 b 16
  let bad := C.PARAM_INVALID
  need (decide (u8 b 8 < 16) && u8 b 9 == 0 && u16 b 14 == 0) bad
  need (if hist then decide (1 ≤ bins) && decide (bins ≤ 4096) else bins == 0) bad
  let cs ← readCols cols names SCol.num?
  need (!hist || cs.all (fun c => isIntT c.typ)) C.COLUMN_TYPE
  match im.region? (u16 b 12) with
  | none => .error bad
  | some g =>
    let n := ((statCols b).getLast?).elim 0 (fun e => e.1 + 1)
    need (off % 64 == 0 && decide (off + n * recordBytes bins ≤ g.size)) bad

def partitionCheck (p : Pipeline) (n : Nat) (cols : List SCol) (b : List Byte) : Except Code Unit := do
  let bad := C.PARAM_INVALID
  need (decide (u8 b 8 ≤ 8) && decide (u8 b 9 ≤ 1) && decide (u8 b 10 < 2) && u8 b 11 == 0) bad
  need (u16 b 14 == 0 && allZero (slice 24 8 b) && !(colList (slice 0 8 b)).isEmpty) bad
  let _ ← readCols cols (colList (slice 0 8 b)) SCol.key?
  need (!(u8 b 9 == 1 && p.keepsOrder n)) C.PIPELINE_INVALID

def joinBuildCheck (im : Image) (cols : List SCol) (b : List Byte) : Except Code Unit := do
  let keys := colList (slice 0 4 b)
  need (!keys.isEmpty && ((im.region? (u16 b 12)).any (fun (r : Region) => r.kind == .vaultRange))) C.PARAM_INVALID
  let _ ← readCols cols keys SCol.key?
  let _ ← readCols cols (colList (slice 4 8 b)) (fun c => c.bytes != 0 || c.typ == tFsb)
  return ()

def joinProbeCheck (im : Image) (p : Pipeline) (n : Nat) (cols : List SCol) (b : List Byte) : Except Code Unit := do
  let keys := colList (slice 4 4 b)
  let bad := C.PARAM_INVALID
  need (decide (u8 b 0 ≤ 3) && u16 b 2 == 0 && allZero (slice 24 8 b)) bad
  match p.stages[u8 b 1]? with
  | none => .error bad
  | some bst => do
    need (bst.op == .joinBuild) bad
    let bcols := p.colsIn im 64 (u8 b 1)
    let bkeys := (colList (slice 0 4 bst.param)).filterMap (scolAt bcols)
    let payload := colList (slice 4 8 bst.param)
    let ks ← readCols cols keys SCol.key?
    need (ks.map SCol.sort == bkeys.map SCol.sort) C.COLUMN_TYPE
    let _ ← readCols cols (bitList 64 (u64 b 16)) (fun _ => true)
    need ((List.range 8).all (fun i => decide (i < payload.length) || u8 b (8 + i) == 0xFF)) bad
    need (!(u16 bst.param 14 != 0xFFFF && p.keepsOrder n)) C.PIPELINE_INVALID
    if u8 b 0 ≤ 1 then newCols cols bad (colList (slice 8 8 b)) else return ()

/-- A field map of DICT_JOIN (R123). -/
def fieldMapOk (m : Nat) : Bool :=
  let w := bitsOf m 11 6 + 1
  let t := bitsOf m 15 12
  decide (bitsOf m 5 0 + w ≤ 64) && decide (t ≤ 4) && (t != 2 || w == 32) && (decide (t < 3) || w == 16)

def dictJoinCheck (im : Image) (cols : List SCol) (b : List Byte) : Except Code Unit := do
  let keys := (colList (slice 4 4 b)).take (u8 b 2)
  let maps := (List.range 4).filter (fun i => u16 b (8 + 2 * i) != 0xFFFF)
  let bad := C.PARAM_INVALID
  need (decide (u8 b 1 ≤ 3) && u8 b 3 == 0 && u32 b 20 == 0) bad
  need (decide (1 ≤ u8 b 2) && decide (u8 b 2 ≤ 4) && keys.length == u8 b 2) bad
  need (generalTable im (u8 b 0)) C.TABLE_WIDTH
  let ks ← readCols cols keys SCol.fixed?
  need (decide ((ks.map SCol.bytes).sum ≤ 20)) C.KEY_TOO_WIDE
  need (maps.all (fun i => fieldMapOk (u16 b (8 + 2 * i))) && (decide (u8 b 1 ≤ 1) || maps.isEmpty)) bad
  newCols cols bad (maps.map (fun i => u8 b (16 + i)))

/-! ### Gather and scatter (R160, R169, R172) -/

/-- The index tensor or column of a block: how many indices it gives, where that is known. -/
def indexCheck (im : Image) (cols : List SCol) (b : List Byte) : Except Code (Option Nat) :=
  if u16 b 2 = 0xFFFF then do
    let _ ← readCol cols (u8 b 12) (fun c => c.typ == 3 || c.typ == 4) C.INDEX_TYPE
    return if u32 b 8 = 0 then none else some (u32 b 8)
  else
    match im.desc? (u16 b 2) with
    | none => .error C.PARAM_INVALID
    | some d => do
      need (d.rank == 1 && (d.typ == 0x0B || d.typ == 0x0E)) C.INDEX_TYPE
      return if u32 b 8 ≠ 0 then some (u32 b 8) else if d.rowsFromArg then none else some (d.ext 0)

/-- Whether a tensor has the shape of the data with the extent along the axis replaced; an extent that an argument will
give is not known yet. -/
def sliceShapeOk (data x : Desc) (axis : Nat) (cnt : Option Nat) : Bool :=
  let unknown (d : Desc) (k : Nat) : Bool := d.rowsFromArg && k + 1 == d.rank
  data.rank == x.rank && data.typ == x.typ && (List.range data.rank).all (fun k =>
    unknown x k || (if k = axis then (match cnt with | some n => x.ext k == n | none => true)
                    else unknown data k || x.ext k == data.ext k))

def policyCheck (b : Nat) : Except Code Unit :=
  need (b == 0xFF || (decide (b < 16) && bitsOf b 3 2 != 3)) C.POLICY_INVALID

def gatherCheck (im : Image) (cols : List SCol) (b : List Byte) : Except Code Unit := do
  need (allZero (slice 13 11 b)) C.PARAM_INVALID
  match im.desc? (u16 b 0) with
  | none => .error C.PARAM_INVALID
  | some d => do
    let cnt ← indexCheck im cols b
    need (decide (1 ≤ u8 b 6) && decide (u8 b 6 < d.rank)) C.AXIS_INVALID
    policyCheck (u8 b 7)
    need ((List.range d.rank).all (fun k => d.str k != 0)) C.BROADCAST_COPY
    if u16 b 4 = 0xFFFF then return ()
    else need ((im.desc? (u16 b 4)).any (fun (o : Desc) => o.writable && sliceShapeOk d o (u8 b 6) cnt)) C.COPY_SHAPE

def scatterCheck (im : Image) (cols : List SCol) (b : List Byte) : Except Code Unit := do
  need (allZero (slice 14 10 b) && decide (u8 b 13 ≤ 3)) C.PARAM_INVALID
  match im.desc? (u16 b 0) with
  | none => .error C.PARAM_INVALID
  | some d => do
    let cnt ← indexCheck im cols b
    need (decide (1 ≤ u8 b 6) && decide (u8 b 6 < d.rank)) C.AXIS_INVALID
    policyCheck (u8 b 7)
    need (u8 b 13 == 0 || !(d.typ == 1 || d.typ == 2 || d.typ == 3 || d.typ == elBool || d.typ == tyE8m0)) C.TYPE_PATH
    need d.writable C.COPY_SHAPE
    if u16 b 4 = 0xFFFF then return ()
    else need ((im.desc? (u16 b 4)).any (fun (o : Desc) => sliceShapeOk d o (u8 b 6) cnt)) C.COPY_SHAPE

/-! ### Exchange, compression, samples, batches, models -/

/-- Ids of a LOOKUP or an UPDATE: an id column (R226), or a rank-1 index descriptor. -/
def idsCheck (im : Image) (cols : List SCol) (b : List Byte) : Except Code Unit :=
  if u8 b 1 ≠ 0xFF then do
    let _ ← readCol cols (u8 b 1) (fun c => c.typ == 3 || c.typ == 4 || c.typ == 7 || c.typ == 8)
    return ()
  else need ((im.desc? (u16 b 2)).any (fun (d : Desc) => d.rank == 1 && [0x0B, 0x0C, 0x0E, 0x0F].contains d.typ)) C.EMB_PARAM

def lookupCheck (im : Image) (cols : List SCol) (b : List Byte) : Except Code Unit :=
  match im.embTables.find? (fun t => t.table == u8 b 0) with
  | none => .error C.EMB_PARAM
  | some t => do
    need (decide (u8 b 7 < 2) && decide (u32 b 8 ≤ 10000) && allZero (slice 12 20 b)) C.EMB_PARAM
    idsCheck im cols b
    if u16 b 4 = 0xFFFF then newCols cols C.EMB_PARAM [u8 b 6]
    else need ((im.desc? (u16 b 4)).any (fun (d : Desc) => d.writable && d.rank == 2 && (d.ext 0 == t.dim) &&
      (d.typ == 0x0D || d.typ == 9 || d.typ == 0x0A || d.typ == t.format))) C.EMB_PARAM

def updateCheck (im : Image) (cols : List SCol) (b : List Byte) : Except Code Unit :=
  match im.embTables.find? (fun t => t.table == u8 b 0) with
  | none => .error C.EMB_PARAM
  | some t => do
    need (decide (u8 b 6 ≤ 3) && decide (u8 b 7 < 2) && decide (u32 b 8 ≤ 10000) && allZero (slice 12 20 b)) C.EMB_PARAM
    idsCheck im cols b
    if u16 b 4 = 0xFFFF then return ()
    else need ((im.desc? (u16 b 4)).any (fun (d : Desc) => d.rank == 2 && d.ext 0 == t.dim &&
      (d.typ == 0x0D || d.typ == 9 || d.typ == 0x0A))) C.EMB_PARAM

/-- The dictionary of a compression block. -/
def dictOk (im : Image) (format dict : Nat) : Bool :=
  dict == 0xFFFF || (format == 4 && im.dicts.any (fun (d : Dict) => d.number == dict))

def compressCheck (im : Image) (cols : List SCol) (b : List Byte) : Except Code Unit := do
  let f := u8 b 0
  let w := u8 b 4
  let bad := C.CMP_PARAM
  need (decide (1 ≤ f) && decide (f ≤ 4) && decide (u8 b 1 ≤ 12) && u32 b 12 == 0 && decide (u32 b 8 ≤ maxValueBytes)) bad
  need (w == 0 || (if f = 4 then decide (10 ≤ w) && decide (w ≤ 23) else decide (8 ≤ w) && decide (w ≤ 15))) bad
  need (decide (u8 b 5 < 4) && (f == 4 || u8 b 5 == 0) && dictOk im f (u16 b 6)) bad
  let _ ← readCol cols (u8 b 2) (fun c => isVarT c.typ) bad
  newCols cols bad [u8 b 3]

def decompressCheck (im : Image) (cols : List SCol) (b : List Byte) : Except Code Unit := do
  let f := u8 b 0
  let bad := C.CMP_PARAM
  need (decide (1 ≤ f) && decide (f ≤ 5) && u32 b 12 == 0 && decide (u32 b 8 ≤ maxValueBytes) && dictOk im f (u16 b 4)) bad
  let _ ← readCol cols (u8 b 1) (fun c => c.typ == tBinary) bad
  if u8 b 3 ≠ 0xFF then
    let _ ← readCol cols (u8 b 3) (fun c => c.typ == tUint32 || c.typ == tUint64) bad
  newCols cols bad [u8 b 2]

def automatonKind (im : Image) (n k : Nat) : Bool :=
  im.automata.any (fun (a : Automaton) => a.number == n && u8 a.bytes 2 == k)

/-- The bytes 16 to 23 of a DECODE block (R133). -/
def decodeArgsOk (f : Nat) (b : List Byte) : Bool :=
  if f = 2 ∨ f = 3 then allZero (slice 20 4 b)
  else if f = 6 then decide (u8 b 20 ≤ 2) && allZero (slice 21 3 b)
  else allZero (slice 16 8 b)

def decodeCheck (im : Image) (p : Pipeline) (n : Nat) (b : List Byte) : Except Code Unit := do
  let f := u8 b 0
  let bad := C.ING_PARAM
  need (decide (1 ≤ f) && decide (f ≤ 7) && decide (u8 b 3 < 2) && u16 b 10 == 0 && decodeArgsOk f b) bad
  need (decide (u16 b 6 ≤ 16384) && decide (u16 b 8 ≤ 16384)) bad
  need (p.argIs (u8 b 1) (if f = 7 then .stream else .table)) C.PIPELINE_INVALID
  if f = 7 then need (u8 b 2 == 0xFF) bad
  else
    match im.schema? (u16 b 4) with
    | none => .error bad
    | some g => do
      need (g.format == (if f ≤ 3 then f else 0)) bad
      need ((f != 2 && f != 3) || automatonKind im (u16 b 16) (f - 1)) C.AUTOMATON_KIND
      if f ≤ 3 then need (u8 b 2 == 0xFF) bad
      else
        match g.cols[u8 b 2]? with
        | none => .error C.COLUMN_CONFLICT
        | some c => need (c.typ == tBinary && !c.dictionary) C.COLUMN_TYPE
  if 4 ≤ f then
    need (!(p.fed n).isEmpty && (p.fed n).all (fun m => p.opOf m == some .pyramid) &&
      (p.fed n).all (fun m => !(p.batchesFrom 64 m 0).isEmpty)) bad

def parseCheck (im : Image) (p : Pipeline) (b : List Byte) : Except Code Unit := do
  let bad := C.PARAM_INVALID
  need (decide (u8 b 2 ≤ 2) && decide (u8 b 3 < 8) && u16 b 10 == 0 && u32 b 20 == 0) bad
  need (if u8 b 2 = 0 then decide (u8 b 5 < 64) else u8 b 5 == 0xFF) bad
  need (p.argIs (u8 b 4) .table && p.argIs (u8 b 6) .ring) C.PIPELINE_INVALID
  need (automatonKind im (u16 b 0) 0) C.AUTOMATON_KIND
  need (!bitAt (u8 b 3) 2 || im.automata.any (fun (a : Automaton) => a.number == u16 b 0 &&
    im.mstTables.any (fun (m : MstTableRec) => m.table == u8 a.bytes 35 && m.prefilter))) C.PREFILTER_TABLE
  need (u8 b 7 == 0xFF || decide (u8 b 7 ≤ 61)) bad

/-- The element type of OUT_TYPE (R135): FP16, BF16, FP8 E4M3, FP8 E5M2, INT8. -/
def outTypeCode (outType : Nat) : Nat := [9, 10, 6, 7, 4].getD outType 0

/-- Level sizes from the tile (R136). -/
def tileSizes (ratio : Nat) : Nat → Nat → Nat → List (Nat × Nat)
  | 0, _, _ => []
  | n + 1, w, h => (w, h) :: tileSizes ratio n (max 1 ((w * ratio) >>> 16)) (max 1 ((h * ratio) >>> 16))

/-- Whether each level of a PYRAMID block fits the DATA tensor of a layout that receives it, the l-th for level l: OUT_TYPE,
and the per-slot shape [C, h, w] or [h, w, C], the last innermost. KEEP leaves C to the image: 1 or 3 (R138). -/
def levelsFit (b : List Byte) (lay : Layout) : Bool :=
  let data := lay.tensors.filter (fun (t : LayoutTensor) => t.role == 0)
  let sizes := tileSizes (u16 b 2) (u8 b 0) (u16 b 16) (u16 b 18)
  let chans := if u8 b 4 = 0 then [1, 3] else if u8 b 4 = 2 then [1] else [3]
  decide (sizes.length ≤ data.length) && (sizes.zip data).all (fun e =>
    e.2.typ == outTypeCode (u8 b 5) && e.2.rank == 4 && chans.any (fun c =>
      e.2.extents.take 3 == if u8 b 6 = 1 then [c, e.1.1, e.1.2] else [e.1.1, e.1.2, c]))

def pyramidCheck (im : Image) (p : Pipeline) (n : Nat) (b : List Byte) : Except Code Unit := do
  let norm (i : Nat) : FVal := fp32.decode (u32 im.pipeBytes (u32 b 20 + 4 * i))
  let zero := FVal.ofInt 0
  let bad := C.ING_PARAM
  need (decide (1 ≤ u8 b 0) && decide (u8 b 0 ≤ 8) && decide (u8 b 1 ≤ 2) && decide (32768 ≤ u16 b 2)) bad
  need (decide (u8 b 4 ≤ 3) && decide (u8 b 5 ≤ 4) && decide (u8 b 6 ≤ 1) && decide (u8 b 7 < 2) && u32 b 28 == 0) bad
  need (decide (1 ≤ u16 b 16) && decide (u16 b 16 ≤ 16384) && decide (1 ≤ u16 b 18) && decide (u16 b 18 ≤ 16384)) bad
  need (decide (u32 b 20 + 28 ≤ im.pipeBytes.length)) bad
  need ([3, 4, 5].all (fun i => !(norm i).eq zero) && zero.lt (norm 6)) bad
  need ((p.feeders n).all (fun m => (p.stages[m]?).any (fun st => outKind st == 1))) bad
  need ((p.batchesFrom 64 n 0).all (fun e => match p.stages[e.1]? with
    | some st => (im.layout? (u16 st.param 0)).all (levelsFit b)
    | none => true)) bad

def batchCheck (im : Image) (p : Pipeline) (n : Nat) (b : List Byte) : Except Code Unit := do
  let defer := if u8 b 3 = 0 then 8 else u8 b 3
  let abandon := if u16 b 8 = 0 then 64 else u16 b 8
  let bad := C.ING_PARAM
  need (decide (u8 b 2 ≤ 1) && u16 b 10 == 0 && allZero (slice 24 8 b)) bad
  need (decide (2 ≤ defer) && decide (3 ≤ abandon) && decide (defer < abandon)) bad
  need (decide (1 ≤ u32 b 4) && decide (u32 b 4 ≤ 65536)) bad
  need ((im.layout? (u16 b 0)).any (fun (l : Layout) => l.slots == u32 b 4 &&
    decide (u32 b 16 + 4 * l.tensors.length ≤ im.pipeBytes.length))) bad
  need ((p.feeders n).all (fun m => (p.stages[m]?).any (fun st => outKind st != 1))) bad
  need (u32 b 12 == 0 || !(p.flowsIn n).any p.isOrdered) C.TIMEOUT_ORDERED

/-- The layout of the batches that a stage passes on. -/
def batchLayout (im : Image) (st : StageRec) : Option Nat :=
  match st.op with
  | .batch => some (u16 st.param 0)
  | .model => (im.graph? (u16 st.param 0)).map Graph.outLayout
  | _ => none

/-- Whether every stage that feeds a stage passes on batches of a layout. -/
def Pipeline.fedLayout (p : Pipeline) (im : Image) (n layout : Nat) : Bool :=
  (p.feeders n).all (fun m => (p.stages[m]?).any (fun st => batchLayout im st == some layout))

def modelCheck (im : Image) (p : Pipeline) (n : Nat) (b : List Byte) : Except Code Unit := do
  let m := modelPar b
  need (decide (m.residency ≤ 2) && decide (m.clusters < 4096) && allZero (slice 8 8 b)) C.PARAM_INVALID
  match im.graph? m.graph with
  | none => .error C.GRAPH_UNKNOWN
  | some g => do
    need (!m.cores.isEmpty && decide (1 ≤ m.group) && decide (m.group ≤ m.cores.length)) C.CORE_SET_INVALID
    need (p.fedLayout im n g.inLayout) C.GRAPH_SHAPE

def emitCheck (im : Image) (p : Pipeline) (n : Nat) (b : List Byte) : Except Code Unit :=
  need (p.argIs (u8 b 0) .ring && u8 b 1 == 0 && allZero (slice 4 12 b) && p.fedLayout im n (u16 b 2)) C.PIPELINE_INVALID

def scanCheck (im : Image) (p : Pipeline) (b : List Byte) : Except Code Unit := do
  need (allZero (slice 1 3 b) && decide (u32 b 4 ≤ 65536) && allZero (slice 18 6 b)) C.PARAM_INVALID
  need (p.argIs (u8 b 0) .table) C.PIPELINE_INVALID
  match im.schema? (u16 b 16) with
  | none => .error C.PARAM_INVALID
  | some g => need (decide (u64 b 8 < 2 ^ g.cols.length)) C.COLUMN_CONFLICT

/-! ### A pipeline -/

/-- A stage's block against one of its inputs. -/
def blockCheck (im : Image) (p : Pipeline) (n : Nat) (st : StageRec) (cols : List SCol) : Except Code Unit :=
  let b := st.param
  match st.op with
  | .scan => scanCheck im p b
  | .filter => filterCheck im.pipeBytes p cols b
  | .project => do
    need (allZero (slice 1 7 b)) C.PARAM_INVALID
    let _ ← readCols cols (if u8 b 0 = 0xFF then [] else [u8 b 0]) (fun c => c.typ == tBool)
    let _ ← readCols cols (bitList 64 (u64 b 8)) (fun _ => true)
    return ()
  | .hash => do
    let keys := (colList (slice 16 8 b)).take (u8 b 2)
    need ((u8 b 0 == 1 || u8 b 0 == 2) && decide (1 ≤ u8 b 2) && decide (u8 b 2 ≤ 8) && decide (u8 b 3 < 2) &&
      u32 b 4 == 0 && keys.length == u8 b 2) C.PARAM_INVALID
    let _ ← readCols cols keys SCol.key?
    newCols cols C.PARAM_INVALID [u8 b 1]
  | .bucket => bucketCheck im p n cols b
  | .normalise => normaliseCheck im p n cols b
  | .stats => statsCheck im cols b
  | .partition => partitionCheck p n cols b
  | .joinBuild => joinBuildCheck im cols b
  | .joinProbe => joinProbeCheck im p n cols b
  | .dictJoin => dictJoinCheck im cols b
  | .gather => gatherCheck im cols b
  | .scatter => scatterCheck im cols b
  | .lookup => lookupCheck im cols b
  | .update => updateCheck im cols b
  | .decode => decodeCheck im p n b
  | .parse => parseCheck im p b
  | .pyramid => pyramidCheck im p n b
  | .compress => compressCheck im cols b
  | .decompress => decompressCheck im cols b
  | .model => modelCheck im p n b
  | .batch => batchCheck im p n b
  | .emit => emitCheck im p n b

/-- A stage against each of its inputs; a source has none. -/
def stageCheck (im : Image) (p : Pipeline) (e : Nat × StageRec) : Except Code Unit := do
  let inputs := if (p.feeders e.1).isEmpty then [[]] else ((p.feeders e.1).flatMap (p.colsWays im 64)).eraseDups
  let _ ← readAll (blockCheck im p e.1 e.2) inputs
  return ()

def pipelineCheck (im : Image) (p : Pipeline) : Except Code Unit := do
  let _ ← readAll (stageCheck im p) ((List.range p.stages.length).zip p.stages)
  need (decide ((templatesOf im p).length ≤ 512)) C.DESC_LIMIT

def readPipelines (im : Image) (bs : List Byte) : Except Code (List Pipeline) := do
  let n := u16 bs 0
  let bad := C.PIPELINE_INVALID
  need (decide (n ≤ 256) && decide (16 + 8 * n ≤ bs.length) && allZero (slice 2 14 bs)) bad
  let l ← readAll (fun i => readPipeline bs (u64 bs (16 + 8 * i))) (List.range n)
  need (distinct (l.map Pipeline.number)) bad
  let _ ← readAll (pipelineCheck im) l
  return l

/-- The share of the core stores (R290). -/
def coreStoreCheck (im : Image) : Except Code Unit := do
  let f := settingOf im.settings
  let kib := f F.VLT_OPS_CTL_CORE_CHUNK + f F.MTX_CTL_WEIGHT_KIB + 64 * f F.VLT_OPS_CTL_TAG_FILTER
  need (decide (kib ≤ 960) && !(im.plan (f F.MTX_CTL_WEIGHT_KIB)).refused) C.CORE_STORE_BUDGET

end Sys2Proof.Machine
end

