-- ==== Sys2Proof/Machine/Manifest.lean ====
section
/-!
DEFINITION. Verification of a flash slot (R383 to R393): the image header, the three manifests with their signers,
signatures and security versions, the sections with their digests and contents, and the version rule.
-/
namespace Sys2Proof.Machine

/-- What a failed verification records (R392): the code, the section type or 0, which signatures failed. -/
structure Bad where
  code : Code
  section_ : Nat
  sig : Nat
deriving DecidableEq, Repr

def bad (c : Code) : Bad := ⟨c, 0, 0⟩

/-- A content check of the section of a type. -/
def inSection {α : Type} (t : Nat) : Except Code α → Except Bad α
  | .ok a => .ok a
  | .error c => .error ⟨c, t, 0⟩

def demand (c : Bool) (b : Bad) : Except Bad Unit := if c then .ok () else .error b

/-- A section entry of a manifest (R384). -/
structure SecEntry where
  typ : Nat
  size : Nat
  offset : Nat
  digest : List Byte
deriving DecidableEq, Repr

/-- A manifest (R384): its body, with the fields the rules use, the message that both signatures cover, the keys
and the signatures. -/
structure Manifest where
  body : List Byte
  entries : List SecEntry
  message : List Byte
  edKey : List Byte
  mlKey : List Byte
  edSig : List Byte
  mlSig : List Byte
deriving DecidableEq, Repr

def Manifest.sample (m : Manifest) : Bool := bitAt (u8 m.body 1) 0
def Manifest.override (m : Manifest) : Bool := bitAt (u8 m.body 1) 1
def Manifest.recovery (m : Manifest) : Bool := bitAt (u8 m.body 1) 2
def Manifest.version (m : Manifest) : Nat := u32 m.body 4
def Manifest.epoch (m : Manifest) : Nat := u8 m.body 8
def Manifest.svn (m : Manifest) : Nat := u8 m.body 9
def Manifest.position (m : Manifest) : Nat := u8 m.body 10 % 4
def Manifest.grenog (m : Manifest) : Bool := bitAt (u8 m.body 10) 7
def Manifest.partners (m : Manifest) : List Nat := (List.range (u8 m.body 11)).map (fun i => u32 m.body (64 + 4 * i))

/-- Identity digest of the signer (R388). -/
def Manifest.identity (m : Manifest) : List Byte := Config.sha512 (m.edKey ++ m.mlKey)

/-- Manifest kinds. -/
def manWarden : Nat := 1
def manSteward : Nat := 2
def manPitch : Nat := 3

/-- Bytes of keys and signatures behind a body. -/
def keyBytes : Nat := 32 + 1952
def tailBytes : Nat := 5357

/-- The section type that a firmware manifest names. -/
def firmwareType (kind : Nat) : Nat := kind

/-- `n` bytes of a slot from an offset; bytes never programmed read 0xFF. -/
def flashBytes (l : List Byte) (off n : Nat) : List Byte :=
  let x := slice off n l
  x ++ List.replicate (n - x.length) 0xFF

/-- The body of a manifest of `kind` keeps the table. -/
def bodyOk (kind : Nat) (b : List Byte) : Bool :=
  let firmware := kind != manPitch
  let z (off n : Nat) : Bool := allZero (slice off n b)
  u8 b 0 == kind && (if firmware then u8 b 1 == 0 else decide (u8 b 1 < 8)) &&
    (if firmware then u16 b 2 == 1 else decide (1 ≤ u16 b 2) && decide (u16 b 2 ≤ 32)) &&
    decide (u8 b 9 ≤ 64) && (u8 b 10 &&& 0x7C) == 0 &&
    (if firmware then decide (u8 b 11 ≤ 16) else u8 b 11 == 0) && z 12 12 &&
    (if kind = manWarden then u8 b 27 == 0 && u16 b 30 == 0
      else if kind = manSteward then z 24 8
      else decide (u32 b 24 ≤ 0xFFFFE)) &&
    (kind == manPitch || z 32 4) && z 36 28

def readEntry (b : List Byte) : SecEntry := ⟨u16 b 0, u32 b 4, u64 b 8, slice 32 64 b⟩

/-- Read the manifest of a kind at an offset, and check its fields and that it and its sections lie in the image. -/
def readManifest (slot : List Byte) (size kind off : Nat) : Except Bad Manifest := do
  demand (decide (off + 128 ≤ size)) (bad C.IMAGE_HEADER)
  let head := flashBytes slot off 128
  demand (bodyOk kind head) (bad C.MANIFEST_INVALID)
  let n := 128 + 96 * u16 head 2
  demand (decide (off + n + tailBytes ≤ size)) (bad C.IMAGE_HEADER)
  let all := flashBytes slot off (n + tailBytes)
  let recs := chunksOf 96 33 (slice 128 (n - 128) all)
  demand (recs.all (fun r => allZero (slice 2 2 r) && allZero (slice 16 16 r))) (bad C.MANIFEST_INVALID)
  let es := recs.map readEntry
  demand (es.all (fun e => decide (e.offset + e.size ≤ size))) (bad C.IMAGE_HEADER)
  let m : Manifest :=
    { body := slice 0 n all, entries := es, message := slice 0 (n + keyBytes) all, edKey := slice n 32 all,
      mlKey := slice (n + 32) 1952 all, edSig := slice (n + keyBytes) 64 all, mlSig := slice (n + keyBytes + 64) 3309 all }
  return m

/-! ### Signers (R388, R389) -/

/-- The digest that a key position holds, unless it is empty or revoked. -/
def Fuses.digest (f : Fuses) (grenog : Bool) (k : Nat) : Option (List Byte) :=
  if grenog then (if f.grenogRevoked.getD k true then none else some (Config.grenogDigest k))
  else if f.revoked.getD k true then none
  else f.owners.getD k none

def Fuses.enrolled (f : Fuses) : Bool := f.owners.any Option.isSome

/-- Whether a pitch manifest's signer and flags are allowed (R389). -/
def Fuses.pitchAllowed (f : Fuses) (golden : Bool) (m : Manifest) : Bool :=
  if m.grenog then (m.sample && !f.enrolled) || (m.recovery && golden)
  else !m.sample && !m.recovery && f.enrolled

/-- The signer of a manifest is known, and is one that the manifest may have. A Warden or a Steward that is not
Grenog-signed names no key that may sign it (log entry 63). -/
def Fuses.signerCheck (f : Fuses) (golden : Bool) (kind : Nat) (m : Manifest) : Except Bad Unit := do
  demand (f.digest m.grenog m.position == some m.identity) (bad C.KEY_UNKNOWN)
  if kind = manPitch then demand (f.pitchAllowed golden m) (bad C.OWNER_REQUIRED)
  else demand m.grenog (bad C.KEY_UNKNOWN)

/-- Both signatures, always both checked. -/
def Manifest.sigFails (m : Manifest) : Nat :=
  b2n (!Config.ed25519Verify m.edKey m.message m.edSig) + 2 * b2n (!Config.mldsaVerify m.mlKey m.message m.mlSig)

def Fuses.counter (f : Fuses) (kind : Nat) : Nat :=
  if kind = manWarden then f.svnWarden else if kind = manSteward then f.svnSteward else f.svnPitch

/-- Signer, signatures, security version (R392 steps 1 to 3). -/
def Fuses.trust (f : Fuses) (golden : Bool) (kind : Nat) (m : Manifest) : Except Bad Unit := do
  f.signerCheck golden kind m
  demand (m.sigFails == 0) ⟨C.SIGNATURE_FAILED, 0, m.sigFails⟩
  demand (decide (f.counter kind ≤ m.svn)) (bad C.ROLLBACK)

/-! ### Sections -/

def SecEntry.bytes (slot : List Byte) (e : SecEntry) : List Byte := flashBytes slot e.offset e.size

/-- The digest of a section. -/
def digestOk (slot : List Byte) (e : SecEntry) : Except Bad Unit :=
  demand (Config.sha512 (e.bytes slot) == e.digest) ⟨C.SECTION_DIGEST, e.typ, 0⟩

/-- The one section of a firmware manifest. -/
def firmwareSection (slot : List Byte) (kind : Nat) (m : Manifest) : Except Bad Unit := do
  match m.entries with
  | [e] => do
    demand (e.typ == firmwareType kind) ⟨C.SECTION_INVALID, e.typ % 256, 0⟩
    digestOk slot e
  | _ => .error (bad C.MANIFEST_INVALID)

/-- Whether two sections overlap. -/
def SecEntry.meets (a b : SecEntry) : Bool :=
  decide (a.offset < b.offset + b.size) && decide (b.offset < a.offset + a.size)

def sectionsClash : List SecEntry → Bool
  | [] => false
  | e :: r => r.any e.meets || sectionsClash r

/-- Types, repeats and overlaps of the pitch sections, with those of the firmware, and the two that are required. -/
def sectionsCheck (firmware entries : List SecEntry) : Except Bad Unit := do
  let types := entries.map SecEntry.typ
  demand (types.all (fun t => decide (0x10 ≤ t) && decide (t ≤ 0x1D)) && distinct types &&
    types.contains 0x10 && types.contains 0x11 && !sectionsClash (firmware ++ entries)) (bad C.SECTION_INVALID)

/-- Types that the pitch copy holds (R369). -/
def copiedTypes : List Nat := [0x01, 0x02, 0x10, 0x13, 0x14, 0x16, 0x17, 0x18]

/-- What the manifests give the image. -/
def manifestsOf (w t p : Manifest) : Manifests :=
  { wardenVersion := BitVec.ofNat 32 w.version, stewardVersion := BitVec.ofNat 32 t.version,
    pitchVersion := BitVec.ofNat 32 p.version, pitchFormat := p.epoch, device := BitVec.ofNat 20 (u32 p.body 24),
    linkEpoch := BitVec.ofNat 8 (u8 w.body 24), linkEpochMin := BitVec.ofNat 8 (u8 w.body 25),
    linkEpochMax := BitVec.ofNat 8 (u8 w.body 26), sample := p.sample, recovery := p.recovery, owner := !p.grenog,
    signer := p.position, svnWarden := w.svn, svnSteward := t.svn, svnPitch := p.svn,
    digests := [Config.sha512 w.message, Config.sha512 t.message, Config.sha512 p.message], signerId := p.identity }

/-- An image of which nothing but the manifests has been read. -/
def Image.bare (man : Manifests) : Image :=
  { man := man, settings := [], regions := [], schemas := [], pipelines := [], pipeBytes := [], descs := [],
    layouts := [], automata := [], graphs := [], mstTables := [], embTables := [], maps := [], dicts := [],
    dictRegion := 0, streams := [], routes := [], watches := [] }

/-- A section's content; nothing is read of a section that the image does not have. -/
def content {α : Type} (t : Nat) (none_ : α) (read : List Byte → Except Code α) :
    Option (List Byte) → Except Bad α
  | none => .ok none_
  | some bs => inSection t (read bs)

/-- The sections that stand for themselves. -/
def readPlain (man : Manifests) (sec : Nat → Option (List Byte)) : Except Bad Image := do
  let settings ← content 0x10 [] readSettings (sec 0x10)
  let regions ← content 0x11 [] readRegions (sec 0x11)
  let schemas ← content 0x12 [] readSchemas (sec 0x12)
  let layouts ← content 0x15 [] readLayouts (sec 0x15)
  let automata ← content 0x16 [] readAutomata (sec 0x16)
  let tables ← content 0x18 [] readMatchStore (sec 0x18)
  let emb ← content 0x19 ([], []) (readEmbedding regions) (sec 0x19)
  let dicts ← content 0x1A (0, []) (readDictionaries regions) (sec 0x1A)
  let streams ← content 0x1B [] readStreams (sec 0x1B)
  let routes ← content 0x1C [] readRoutes (sec 0x1C)
  let watches ← content 0x1D [] readWatches (sec 0x1D)
  let descs ← content 0x14 [] (readDescriptors regions) (sec 0x14)
  let im : Image :=
    { Image.bare man with
      settings := settings, regions := regions, schemas := schemas, layouts := layouts, automata := automata,
      mstTables := tables, embTables := emb.1, maps := emb.2, dictRegion := dicts.1, dicts := dicts.2,
      streams := streams, routes := routes, watches := watches, descs := descs }
  return im

/-- All pitch sections: graphs after the descriptors and layouts they name, pipelines after everything. -/
def readSections (man : Manifests) (sec : Nat → Option (List Byte)) : Except Bad Image := do
  let im ← readPlain man sec
  let chunk := settingOf im.settings F.VLT_OPS_CTL_CORE_CHUNK
  let graphs ← content 0x17 [] (readGraphs im chunk) (sec 0x17)
  let im : Image := { im with graphs := graphs, pipeBytes := (sec 0x13).getD [] }
  let pipes ← content 0x13 [] (readPipelines im) (sec 0x13)
  let im : Image := { im with pipelines := pipes }
  inSection 0 (coreStoreCheck im)
  return im

/-! ### The slot as a whole (R383, R392, R393) -/

/-- "IDRNPTCH". -/
def imageMagic : List Byte := [0x49, 0x44, 0x52, 0x4E, 0x50, 0x54, 0x43, 0x48]

def slotLimit (golden : Bool) : Nat := (if golden then 15 else 120) * 1048576

/-- The outcome of verifying a slot. -/
inductive Verdict where
  | refused (b : Bad)
  | untested (im : Image)
  | good (im : Image) (tested : Bool)
deriving DecidableEq, Repr

/-- Whether a firmware epoch lies in the range the boot ROM accepts. -/
def epochIn (lo hi : Byte) (n : Nat) : Bool := decide (lo.toNat ≤ n) && decide (n ≤ hi.toNat)

/-- The version rule (R393). -/
def Fuses.versionRule (f : Fuses) (w t p : Manifest) (im : Image) : Verdict :=
  let epochs := epochIn f.wardenMin f.wardenMax w.epoch && epochIn f.stewardMin f.stewardMax t.epoch
  let pair := w.partners.contains t.version || t.partners.contains w.version
  let named := p.override && u32 p.body 28 == w.version && u32 p.body 32 == t.version
  if epochs && pair then .good im true
  else if epochs && named then .good im false
  else .untested im

/-- The copied sections fit (R369). -/
def copyFits (es : List SecEntry) : Bool :=
  decide (((es.filter (fun e => copiedTypes.contains e.typ)).foldl (fun (n : Nat) e => n + e.size) 0) ≤ 64 * 1048576)

/-- The sections of a pitch manifest by type. -/
def sectionOf (slot : List Byte) (es : List SecEntry) (t : Nat) : Option (List Byte) :=
  (es.find? (·.typ == t)).map (SecEntry.bytes slot)

/-- Verify a slot: R392 in its order. -/
def Fuses.verifySteps (f : Fuses) (slot : List Byte) (golden : Bool) : Except Bad Verdict := do
  let h := flashBytes slot 0 64
  let size := u32 h 8
  demand (slice 0 8 h == imageMagic && decide (64 ≤ size) && decide (size ≤ slotLimit golden) && allZero (slice 40 24 h))
    (bad C.IMAGE_HEADER)
  let w ← readManifest slot size manWarden (u64 h 16)
  f.trust golden manWarden w
  firmwareSection slot manWarden w
  let t ← readManifest slot size manSteward (u64 h 24)
  f.trust golden manSteward t
  firmwareSection slot manSteward t
  let p ← readManifest slot size manPitch (u64 h 32)
  f.trust golden manPitch p
  demand (decide (u8 w.body 28 ≤ p.epoch) && decide (p.epoch ≤ u8 w.body 29)) (bad C.PITCH_FORMAT)
  sectionsCheck (w.entries ++ t.entries) p.entries
  let _ ← p.entries.foldlM (fun (_ : Unit) e => digestOk slot e) ()
  let im ← readSections (manifestsOf w t p) (sectionOf slot p.entries)
  demand (copyFits (w.entries ++ t.entries ++ p.entries)) (bad C.PITCH_COPY_SIZE)
  return f.versionRule w t p im

def Fuses.verify (f : Fuses) (slot : List Byte) (golden : Bool) : Verdict :=
  match f.verifySteps slot golden with
  | .ok v => v
  | .error b => .refused b

/-! ### Flash slots -/

/-- What a slot holds: 0, 1, or 2 for the golden slot. -/
def Flash.slot (fl : Flash) (k : Nat) : List Byte :=
  if k = 0 then fl.slot0 else if k = 1 then fl.slot1 else fl.golden

def Flash.setSlot (fl : Flash) (k : Nat) (bs : List Byte) : Flash :=
  if k = 0 then { fl with slot0 := bs } else { fl with slot1 := bs }

/-- Whether a slot's header carries the right MAGIC, and its SEQUENCE. -/
def Flash.hasMagic (fl : Flash) (k : Nat) : Bool := flashBytes (fl.slot k) 0 8 == imageMagic

def Flash.sequence (fl : Flash) (k : Nat) : Nat := u32 (flashBytes (fl.slot k) 0 64) 12

end Sys2Proof.Machine
end

