-- ==== Sys2Proof/Machine/LiveRegs.lean ====
section
/-!
DEFINITION. Registers as they read: the words the device derives from other state at the moment of the read, and what
bivouac mode leaves of them (R441, R445).
-/
namespace Sys2Proof.Machine

open Sys2Proof

/-- A field of a word. -/
def put (w : W64) (f : FRef) (x : Nat) : W64 := putBits w f.msb f.lsb x

/-! ### Pages (R438, R439) -/

def inCorePage : RegId → Bool
  | .LAY_STATUS | .LAY_BYTES | .LAY_IDX | .LAY_COMBINE | .MTX_CORE_STATUS | .MTX_CORE_CYCLES | .MTX_CORE_EXC
  | .MTX_CORE_REPAIR | .DSP_CENSUS_DEPTH | .DSP_CENSUS_WAIT | .DSP_CENSUS_LOAD => true
  | _ => false

def inVaultOps : RegId → Bool
  | .VLT_OPS_STATUS | .VLT_OPS_ROWS | .VLT_OPS_JOIN | .VLT_OPS_EXC => true
  | _ => false

def inVaultMemory : RegId → Bool
  | .VLT_STATUS | .VLT_ERR | .VLT_ERR_ADDR | .VLT_POISON | .VLT_SCRUB => true
  | _ => false

/-- Registers of a cluster's PMC page, which go with its bank of counters. -/
def inCounterPage : RegId → Bool
  | .PMC_CL_LOST | .PMC_TD_SEL | .PMC_CL_CNT_CTL | .PMC_CL_CNT => true
  | _ => false

/-- Registers of a cluster's other pages. -/
def inClusterPage : RegId → Bool
  | .ING_DEC_STATUS | .PAT_ENG_STATUS | .PAT_ENG_BYTES | .PAT_ENG_COUNT | .PAT_STREAM | .CMP_ENG_STATUS
  | .CMP_ENG_BYTES_IN | .CMP_ENG_BYTES_OUT | .CMP_ENG_COUNT | .CMP_ENG_JOB_E0 | .CMP_ENG_JOB_E1 | .PWS_CLUSTER => true
  | _ => false

/-- Whether the unit behind a page is gone: the pages of a LOST cluster, of its cores and its vaults, and the core page of
an orphaned vault. They read as they stood when the unit left, and a write to them has no effect (R439). -/
def State.pageGone (s : State) (id : RegId) (i : Nat) : Bool :=
  ((inClusterPage id || inCounterPage id) && s.units.lostClusters.contains i) ||
    ((inCorePage id || inVaultOps id || inVaultMemory id) && s.units.lostClusters.contains (i / 16)) ||
    (inCorePage id && s.units.orphans.contains i)

def settingsOnly (c : Cls) : Bool := c == .pitch || c == .runtime

/-! ### Values behind the registers -/

/-- Whether a physical byte lies in one of the vaults or channels. -/
def bankAmong (vs chs : List Nat) (p : Nat) : Bool :=
  match bankOf p with
  | .vault v _ => vs.contains v
  | .channel ch _ => chs.contains ch

/-- Whether a region holds bytes in one of the vaults or channels. -/
def Region.touches (r : Region) (vs chs : List Nat) : Bool :=
  match r.kind with
  | .vaultRange | .vaultHash => !vs.isEmpty
  | .vaultSingle => vs.contains r.vault
  | .interleaved =>
    (List.range (min (r.size / 4096) 192)).any (fun i => vs.contains ((r.base / 4096 + i) % 192))
  | .lpddr6 =>
    chs.any (fun ch => decide (ch * channelSize < r.base + r.size) && decide (r.base < (ch + 1) * channelSize))


/-- Entries of a bank's poison list (R35). -/
def State.poisonUsed (s : State) (p : Nat → Bool) : Nat := min 256 (s.side.poison.countP p)

def inVault (v : Nat) (p : Nat) : Bool := bankAmong [v] [] p
def inChannel (ch : Nat) (p : Nat) : Bool := bankAmong [] [ch] p

/-- The running task that holds a unit. -/
def State.taskOn (s : State) (u : Nat) : Option Task :=
  s.disp.tasks.find? (fun t => t.state == .running && t.units.contains u)

def State.opOf (s : State) (t : Task) : Option Op := (s.stage? t.slot t.stage).map (fun st => st.op)

/-- Whether a running task of one of the operators holds a core. -/
def State.coreRuns (s : State) (n : Nat) (ops : List Op) : Bool :=
  s.disp.tasks.any (fun t => t.state == .running && t.cores.contains n &&
    (match s.opOf t with | some o => ops.contains o | none => false))

/-- Whether a running MODEL task on a core has a graph with a property. -/
def State.coreGraph (s : State) (n : Nat) (p : Graph → Bool) : Bool :=
  s.disp.tasks.any (fun t => t.state == .running && t.cores.contains n && s.opOf t == some .model &&
    (match s.stage? t.slot t.stage with
     | some st => (s.graph? (modelPar st.param).graph).any p
     | none => false))

/-- The selected descriptor: one of the image, or an instance of a run slot (R149). -/
def State.descAt (s : State) (n : Nat) : Option Desc :=
  let pitched := match s.image with
    | some im => (im.descs.find? (fun (e : Nat × Desc) => e.1 == n)).map (fun (e : Nat × Desc) => e.2)
    | none => none
  match pitched with
  | some d => some d
  | none => (s.runDescs.find? (fun (e : Nat × Desc) => e.1 == n)).map (fun (e : Nat × Desc) => e.2)

/-- The sample-producing stages of a run, in order. -/
def State.sampleStages (s : State) (slot : Nat) : List Nat :=
  match s.pipelineOf slot with
  | none => []
  | some p => (List.range p.stages.length).filter (fun i =>
      match p.stages[i]? with | some st => st.makesSamples | none => false)

/-- m of a stage in whole ns (R144). -/
def State.meanNs (s : State) (slot stage : Nat) : Nat :=
  let flow := match s.pipelineOf slot with
    | some p => (p.stages[stage]?).elim 0 (fun st => st.flowOf 0)
    | none => 0
  let m := s.mean slot stage ((s.batchFed slot stage flow).getD [])
  min 0xFFFFFFFF (m.1 / max 1 m.2)

/-- Cores that may run a READY task (R303, R314). -/
def State.eligibleCores (s : State) (t : Task) : List Nat :=
  match s.stage? t.slot t.stage with
  | some st => (((s.ways t st).flatMap (fun w => w.units)).filterMap (fun u =>
      if u < 192 then some u else if 256 ≤ u ∧ u < 448 then some (u - 256) else none)).eraseDups
  | none => []

/-- OWN and SHARED of a core's census. -/
def State.censusDepth (s : State) (n : Nat) : Nat × Nat :=
  let ready := (s.disp.tasks.filter (fun t => t.state == .ready)).map (fun t => s.eligibleCores t)
  (ready.countP (fun l => l == [n]), ready.countP (fun l => l.contains n && l != [n]))

/-- Slices of a table that hold CAPACITY rows (R249). -/
def State.fullSlices (s : State) (table : Nat) : Nat :=
  match s.embTable? table with
  | none => 0
  | some t =>
    match s.region? t.region with
    | none => 0
    | some r => (List.range 192).countP (fun n => decide (t.capacity ≤ s.sliceCount t r n))

/-- KiB of resident weights in a core, rounded down (R298). -/
def State.residentKib (s : State) (n : Nat) : Nat :=
  match s.image with
  | none => 0
  | some im =>
    ((s.resident.filter (fun e => e.cores.contains n)).map (fun e =>
      ((im.graph? e.graph).map im.weightBytes).getD 0)).sum / 1024

def MigPhase.code : MigPhase → Nat
  | .streaming => 1
  | .forwarding => 2
  | .redirecting => 3

/-- The job descriptor of a busy engine (R269): what the stage gives, with the addresses and sizes of buffers, which the
device chooses, as free words. -/
def State.jobWord (s : State) (c e i d : Nat) : W64 :=
  match s.taskOn (unitEngine c e) with
  | none => 0
  | some t =>
    match s.stage? t.slot t.stage with
    | none => 0
    | some st =>
      let p := st.param
      let comp := st.op == .compress
      let first :=
        if comp then [1] ++ slice 0 1 p ++ [BitVec.ofNat 8 (max 1 (u8 p 1))] ++ slice 4 1 p ++ slice 6 2 p
        else [2] ++ slice 0 1 p ++ [0, 0] ++ slice 4 2 p
      if i = 0 then BitVec.ofNat 64 (leNat (first ++ [BitVec.ofNat 8 t.slot, 0])) else Config.word (d + i)

/-- Register bytes of the quote window. -/
def State.quoteWord (s : State) (i : Nat) : W64 := BitVec.ofNat 64 (u64 s.trust.quote (8 * i))

def bitsWhere (n : Nat) (p : Nat → Bool) : Nat := (List.range n).foldl (fun (m : Nat) i => m + b2n (p i) * 2 ^ i) 0

/-- PCH_FUSE (R401). -/
def Fuses.word (f : Fuses) : W64 :=
  let w := put (put (put 0 F.PCH_FUSE_SVN_WARDEN f.svnWarden) F.PCH_FUSE_SVN_STEWARD f.svnSteward)
    F.PCH_FUSE_SVN_PITCH f.svnPitch
  let w := put w F.PCH_FUSE_ENROLLED (bitsWhere 4 (fun k => (f.owners.getD k none).isSome))
  let w := put w F.PCH_FUSE_REVOKED (bitsWhere 4 (fun k => f.revoked.getD k false))
  put w F.PCH_FUSE_GRENOG_REVOKED (bitsWhere 4 (fun k => f.grenogRevoked.getD k false))

/-- PCH_ROM. -/
def Fuses.romWord (f : Fuses) : W64 :=
  let w := put (put 0 F.PCH_ROM_WARDEN_MIN f.wardenMin.toNat) F.PCH_ROM_WARDEN_MAX f.wardenMax.toNat
  put (put w F.PCH_ROM_STEWARD_MIN f.stewardMin.toNat) F.PCH_ROM_STEWARD_MAX f.stewardMax.toNat

/-! ### The registers by block -/

/-- Memory, layout and operator registers. -/
def State.liveMemory (s : State) (id : RegId) (i d : Nat) (w : W64) : W64 :=
  match id with
  | .VLT_POISON => put w F.VLT_POISON_USED (s.poisonUsed (inVault i))
  | .LPT_CH_POISON => put w F.LPT_CH_POISON_USED (s.poisonUsed (inChannel i))
  | .VLT_WATCH => put w F.VLT_WATCH_USED s.side.watches.length
  | .VLT_OPS_STATUS =>
    let w := put w F.VLT_OPS_STATUS_JOIN_HELD (b2n (s.heldRegions.any (fun e =>
      match s.region? e.1 with | some r => r.touches [i] [] | none => false)))
    (match s.taskOn (unitVault i) with
     | none => w
     | some t => put (put w F.VLT_OPS_STATUS_BUSY 1) F.VLT_OPS_STATUS_OP ((s.opOf t).elim 0 Op.code))
  | .LAY_DESC_SEL => put w F.LAY_DESC_SEL_EMPTY (b2n (s.descAt (s.fget F.LAY_DESC_SEL_NUMBER)).isNone)
  | .LAY_DESC_DATA =>
    (match s.descAt (s.fget F.LAY_DESC_SEL_NUMBER) with
     | some x => BitVec.ofNat 64 (u64 x.bytes (8 * i))
     | none => 0)
  | .LAY_DESC_STATUS => put w F.LAY_DESC_STATUS_BOUND s.runDescs.length
  | .LAY_STATUS =>
    let w := put w F.LAY_STATUS_INDEX_BUSY (b2n (s.coreRuns i [.gather, .scatter]))
    let w := put w F.LAY_STATUS_COPY_BUSY (b2n (s.coreGraph i (fun g => !g.copies.isEmpty) && Config.coin d))
    put w F.LAY_STATUS_FUSED (b2n (s.coreGraph i (fun g => g.nodes.any (fun n => bitsOf n.flags 2 0 != 0)) &&
      Config.coin (d + 1)))
  | _ => w

/-- Run, task and dispatcher registers. -/
def State.liveRuns (s : State) (id : RegId) (i j : Nat) (w : W64) : W64 :=
  let tasks := s.disp.tasks
  let ready (p : Task → Bool) : Nat := tasks.countP (fun t => t.state == .ready && p t)
  match id with
  | .PIP_STATUS => put w F.PIP_STATUS_ACTIVE s.runs.length
  | .DSP_STATUS => put (put (put w F.DSP_STATUS_IN_FLIGHT tasks.length) F.DSP_STATUS_READY (ready (fun _ => true)))
      F.DSP_STATUS_CONTEXTS s.disp.ctxs.length
  | .DSP_LEVEL => put w F.DSP_LEVEL_READY (ready (fun t => t.prio == i))
  | .DSP_CENSUS_DEPTH =>
    let n := s.censusDepth i
    put (put w F.DSP_CENSUS_DEPTH_OWN n.1) F.DSP_CENSUS_DEPTH_SHARED n.2
  | .DSP_RUN_TASKS =>
    let w := put w F.DSP_RUN_TASKS_READY (ready (fun t => t.slot == i))
    let w := put w F.DSP_RUN_TASKS_RUNNING (tasks.countP (fun t => t.slot == i && t.state == .running))
    put w F.DSP_RUN_TASKS_PENDING (((s.disp.ctxs.filter (fun c => c.slot == i)).map (fun c =>
      c.items.countP QItem.isChunk)).sum + (s.workOf i).sourcesLeft.countP (fun e => e.2.isChunk))
  | .ING_MEAN =>
    (match (s.sampleStages i)[j]? with
     | some n => put (put w F.ING_MEAN_MEAN_NS (s.meanNs i n)) F.ING_MEAN_STAGE n
     | none => w)
  | .ING_STREAM_STATE =>
    (match s.runs.find? (fun r => r.streams.any (fun e => e.1 == i)) with
     | some r => put (put w F.ING_STREAM_STATE_RUN r.run.toNat) F.ING_STREAM_STATE_BOUND 1
     | none => w)
  | _ => w

/-- The registers of one run slot (R75). -/
def State.liveSlot (s : State) (id : RegId) (i : Nat) (w : W64) : W64 :=
  match s.run? i with
  | none => w
  | some r =>
    match id with
    | .PIP_RUN_STATE =>
      let w := put (put w F.PIP_RUN_STATE_RUN r.run.toNat) F.PIP_RUN_STATE_STATE r.state.code
      put (put (put w F.PIP_RUN_STATE_KEEPER (b2n r.keeper)) F.PIP_RUN_STATE_PIPELINE r.pipeline) F.PIP_RUN_STATE_PRIORITY
        r.priority
    | .PIP_RUN_ROWS_IN => put w F.PIP_RUN_ROWS_IN_COUNT (satField 48 r.rowsIn)
    | .PIP_RUN_ROWS_OUT => put w F.PIP_RUN_ROWS_OUT_COUNT (satField 48 r.rowsOut)
    | .PIP_RUN_LOSS_A => put (put w F.PIP_RUN_LOSS_A_FIRST (satField 32 r.skipped)) F.PIP_RUN_LOSS_A_SECOND
        (satField 32 r.replaced)
    | .PIP_RUN_LOSS_B => put (put w F.PIP_RUN_LOSS_B_FIRST (satField 32 r.stale)) F.PIP_RUN_LOSS_B_SECOND
        (satField 32 r.abandoned)
    | .PIP_RUN_STATUS => put (put (put w F.PIP_RUN_STATUS_STATUS r.finalStatus.toNat) F.PIP_RUN_STATUS_FAILURES
        (satField 16 r.failures)) F.PIP_RUN_STATUS_BATCHES (satField 32 r.batches)
    | .PIP_RUN_START => put w F.PIP_RUN_START_TIME r.startTime
    | .DSP_RUN_STALL => put w F.DSP_RUN_STALL_RELEASE_STALL (satField 48 r.stall)
    | _ => w

/-- Decoder, pattern, compression and matrix registers. -/
def State.liveUnits (s : State) (id : RegId) (i j d : Nat) (w : W64) : W64 :=
  match id with
  | .ING_DEC_STATUS =>
    put (put w F.ING_DEC_STATUS_JPEG_BUSY (bitsWhere 4 (fun k => s.unitBusy (unitJpeg i k)))) F.ING_DEC_STATUS_PYRAMID_BUSY
      (b2n (s.unitBusy (unitPyramid i)))
  | .PAT_ENG_STATUS =>
    let mine := s.pat.filter (fun x => x.cluster == i)
    let w := put w F.PAT_ENG_STATUS_BUSY (bitsWhere 16 (fun k => s.unitBusy (unitStream i k)))
    let w := put w F.PAT_ENG_STATUS_BLOCKED (bitsWhere 16 (fun k => mine.any (fun x =>
      x.stream == some k && x.blockedAt.isSome)))
    put w F.PAT_ENG_STATUS_SUSPENDED (mine.countP (fun x => x.stream.isNone))
  | .PAT_STREAM =>
    (match s.taskOn (unitStream i j) with
     | none => w
     | some t =>
       let w := put w F.PAT_STREAM_RUN_SLOT t.slot
       match s.patOf t.id with
       | some x =>
         let w := put w F.PAT_STREAM_STATE (if x.blockedAt.isSome then 2 else 1)
         put (put w F.PAT_STREAM_AUTOMATON_STATE x.state) F.PAT_STREAM_OFFSET x.offset
       | none => put w F.PAT_STREAM_STATE (if (s.askingOf t.id).isSome then 3 else 1))
  | .CMP_STATUS => put w F.CMP_STATUS_ENGINES ((List.range 12).map (fun c => (s.enginesOf c).length)).sum
  | .CMP_ENG_STATUS => put w F.CMP_ENG_STATUS_BUSY (b2n (s.unitBusy (unitEngine i j)))
  | .CMP_ENG_JOB_E0 => s.jobWord i 0 j d
  | .CMP_ENG_JOB_E1 => s.jobWord i 1 j d
  | .MTX_CORE_STATUS =>
    let w := put w F.MTX_CORE_STATUS_RESIDENT_KIB (s.residentKib i)
    if s.coreRuns i [.model] then
      put (put w F.MTX_CORE_STATUS_BUSY (Config.choice d &&& s.fget F.MTX_CORE_STATUS_ENGINES i)) F.MTX_CORE_STATUS_VECTOR_BUSY
        (b2n (Config.coin d))
    else w
  | _ => w

/-- Exchange, port and fault registers. -/
def State.livePorts (s : State) (id : RegId) (i : Nat) (w : W64) : W64 :=
  match id with
  | .EMB_TABLE_STATUS =>
    put (put w F.EMB_TABLE_STATUS_ROWS (s.emb.rows.countP (fun r => r.table == i))) F.EMB_TABLE_STATUS_FULL_SLICES
      (s.fullSlices i)
  | .EMB_TABLE_COUNT => put w F.EMB_TABLE_COUNT_HOT_ROWS (min 0xFFFF (s.emb.hot.countP (fun r => r.table == i)))
  | .EMB_MIGRATE_STATE =>
    (match s.emb.migs.find? (fun m => m.slot == i) with
     | some m =>
       let w := put (put w F.EMB_MIGRATE_STATE_STATE m.phase.code) F.EMB_MIGRATE_STATE_MAP m.map
       put (put w F.EMB_MIGRATE_STATE_POSITION m.position) F.EMB_MIGRATE_STATE_PEER m.peer.toNat
     | none => w)
  | .EMB_MIGRATE_ROWS =>
    (match s.emb.migs.find? (fun m => m.slot == i) with
     | some m => put (put w F.EMB_MIGRATE_ROWS_TOTAL m.total) F.EMB_MIGRATE_ROWS_SENT m.sent
     | none => w)
  | .ODN_STATUS =>
    let up := s.odn.sessions.filter (fun x => x.isOpen)
    let w := put (put w F.ODN_STATUS_SESSIONS up.length) F.ODN_STATUS_KEEPERS (up.countP (fun x => x.role == .keeper))
    put w F.ODN_STATUS_BACKLOG s.odn.occurs.length
  | .ODN_SESSION =>
    (match s.odn.sessions.find? (fun x => x.slot == i) with
     | some x =>
       let w := put (put w F.ODN_SESSION_ID x.id.toNat) F.ODN_SESSION_OPEN (b2n x.isOpen)
       let w := put (put w F.ODN_SESSION_KEEPER (b2n (x.role == .keeper))) F.ODN_SESSION_ATTENTION (b2n x.attention)
       put w F.ODN_SESSION_RELAYED (b2n x.relayed)
     | none => w)
  | .ODN_SESSION_SEQ => (s.odn.sessions.find? (fun x => x.slot == i)).elim w (fun x => put w F.ODN_SESSION_SEQ_EXPECTED x.expected)
  | .ODN_SESSION_ATTN =>
    (match s.odn.sessions.find? (fun x => x.slot == i) with
     | some x => put (put (put w F.ODN_SESSION_ATTN_NEXT x.nextAttn) F.ODN_SESSION_ATTN_UNACKED x.queue.length)
         F.ODN_SESSION_ATTN_OVERFLOW x.overflow
     | none => w)
  | .ODN_MAC =>
    let set := match s.image with
      | some im => im.settings.any (fun (e : Nat × W64) => e.1 == regAddr .ODN_MAC 0 0)
      | none => false
    if set then w else put w F.ODN_MAC_MAC s.fuses.mac.toNat
  | .FLT_LOG_DATA =>
    (match s.flog[s.fget F.FLT_LOG_SEL_INDEX]? with
     | some e => BitVec.ofNat 64 (u64 e (8 * i))
     | none => 0)
  | .PCH_FUSE => s.fuses.word
  | .PCH_ROM => s.fuses.romWord
  | .PCH_QUOTE_DATA => s.quoteWord i
  | .MOD_ID => put (put w F.MOD_ID_STEPPING s.fuses.stepping.toNat) F.MOD_ID_BOARD s.fuses.board.toNat
  | _ => w

/-- A register of a unit that is there, as it stands; `d` is a draw for what no command shows (R441). -/
def State.derived (s : State) (id : RegId) (i j d : Nat) : W64 :=
  let w := s.liveMemory id i d (s.raw id i j)
  s.livePorts id i (s.liveUnits id i j d (s.liveSlot id i (s.liveRuns id i j w)))

/-- A register as it stands. -/
def State.liveWord (s : State) (id : RegId) (i j d : Nat) : W64 :=
  if s.pageGone id i then s.raw id i j else s.derived id i j d

/-- The registers of a core's pages whose words the device derives. -/
def coreRegs (n : Nat) : List (RegId × Nat × Nat) :=
  [RegId.LAY_STATUS, .MTX_CORE_STATUS, .DSP_CENSUS_DEPTH].map (fun id => (id, n, 0))

/-- The registers of a cluster, its cores and its vaults whose words the device derives. -/
def clusterRegs (c : Nat) : List (RegId × Nat × Nat) :=
  [(.ING_DEC_STATUS, c, 0), (.PAT_ENG_STATUS, c, 0), (.CMP_ENG_STATUS, c, 0), (.CMP_ENG_STATUS, c, 1)] ++
    (List.range 16).map (fun j => (.PAT_STREAM, c, j)) ++
    (List.range 4).flatMap (fun j => [(.CMP_ENG_JOB_E0, c, j), (.CMP_ENG_JOB_E1, c, j)]) ++
    (List.range 16).flatMap (fun k =>
      [(RegId.VLT_OPS_STATUS, c * 16 + k, 0), (RegId.VLT_POISON, c * 16 + k, 0)] ++ coreRegs (c * 16 + k))

/-- The derived words of some pages are kept as they stand. -/
def State.freezePages (s : State) (l : List (RegId × Nat × Nat)) : State :=
  l.foldl (fun s e =>
    let (d, s) := s.draw
    s.setRaw e.1 e.2.1 e.2.2 (s.derived e.1 e.2.1 e.2.2 d)) s

/-! ### Views (R441, R445) -/

/-- Blocks that act in full in bivouac mode. -/
def bivouacActs (id : RegId) : Bool :=
  let b := blockOf (regDef id).base
  b == 0x0D || b == 0x0E || b == 0x0F || b == 0x12

/-- What stands in a register, in bivouac mode too: Runtime and Pitch fields of other blocks read their reset values. -/
def State.regWord (s : State) (id : RegId) (i j d : Nat) : W64 :=
  let w := s.liveWord id i j d
  let w := if s.power.state == .bivouac && !bivouacActs id then (regDef id).defaultCls settingsOnly w else w
  if id == .PMC_ENERGY then put w F.PMC_ENERGY_ARRAY_FJ s.fuses.arrayFj.toNat else w

/-- Access to a field in a view. -/
def FieldDef.view (f : FieldDef) (keeper : Bool) : Access := if keeper then f.keeper else f.operator

def Access.reads (a : Access) : Bool := a == .rw || a == .ro || a == .w1c

/-- Bits of the fields that `p` picks. -/
def RegDef.maskOf (d : RegDef) (p : FieldDef → Bool) : W64 :=
  BitVec.ofNat 64 (d.fields.foldl (fun (acc : Nat) f =>
    if p f then acc + ((2 ^ (f.msb + 1 - f.lsb) - 1) <<< f.lsb) else acc) 0)

/-- Whether a register has no access in a view. -/
def RegDef.closed (d : RegDef) (keeper : Bool) : Bool := d.fields.all (fun f => f.view keeper == .na)

/-- A read of one register in a view. -/
def State.readOne (s : State) (keeper : Bool) (a d : Nat) : Except Code W64 :=
  if a % 8 ≠ 0 then .error C.REG_UNMAPPED
  else
    match locate a with
    | none => .error C.REG_UNMAPPED
    | some (id, i, j) =>
      if (regDef id).closed keeper then .error C.ACCESS_DENIED
      else .ok (s.regWord id i j d &&& (regDef id).maskOf (fun f => (f.view keeper).reads))

end Sys2Proof.Machine
end

