-- ==== Sys2Proof/Machine/Units.lean ====
section
/-!
DEFINITION. Failed units and their spares (R421 to R427): what leaves service, what takes its place, what is lost, and
which runs fail with it.
-/
namespace Sys2Proof.Machine

open Sys2Proof

/-! ### Numbers (R11, R12, R434) -/

/-- The physical slot that serves a logical core. -/
def State.physSlot (s : State) (n : Nat) : Nat := lookupD (n % 16) s.units.slotOf n

/-- The physical slot in which a vault stands. -/
def State.physVault (s : State) (v : Nat) : Nat := lookupD (v % 16) s.units.vaultSlotOf v

/-- Unit kinds (R434). -/
def kindCore : Nat := 0x00
def kindEngine : Nat := 0x01
def kindColumn : Nat := 0x02
def kindCluster : Nat := 0x03
def kindVault : Nat := 0x04
def kindMstBlock : Nat := 0x06
def kindPattern : Nat := 0x07
def kindCompression : Nat := 0x08
def kindJpeg : Nat := 0x09
def kindPyramid : Nat := 0x0A
def kindChannel : Nat := 0x0B
def kindSupervisor : Nat := 0x0E
def kindSensor : Nat := 0x10

def State.modUnits (s : State) (f : Units → Units) : State := { s with units := f s.units }

/-- A cluster runs below full rate. -/
def State.degrade (s : State) (c : Nat) : State :=
  s.fset F.FLT_UNITS_DEGRADED 0 (s.fget F.FLT_UNITS_DEGRADED ||| 2 ^ c)

/-- Clear a bit of a device-wide field. -/
def State.clearBit (s : State) (f : FRef) (i : Nat) : State :=
  if bitAt (s.fget f) i then s.fset f 0 (s.fget f - 2 ^ i) else s

def State.setBit (s : State) (f : FRef) (i : Nat) : State := s.fset f 0 (s.fget f ||| 2 ^ i)

/-- Fields of the chosen classes of some pages return to their reset values. -/
def State.defaultPages (s : State) (which : Cls → Bool) (pick : RegId → Nat → Nat → Bool) : State :=
  { s with regs := defaultRegs which pick s.regs }

def runtimeOnly (c : Cls) : Bool := c == .runtime
def newUnit (c : Cls) : Bool := c == .runtime || c == .sticky

/-! ### Lost memory (R427) -/

def Region.loses (r : Region) (vs chs : List Nat) : Bool := !r.mirrored && r.touches vs chs

def State.regionLoses (s : State) (vs chs : List Nat) (n : Nat) : Bool :=
  match s.region? n with
  | some r => r.loses vs chs
  | none => false

/-- Whether a range named by a pool address of this device has lost bytes. -/
def State.rangeLoses (s : State) (vs chs : List Nat) (a : W64) (len : Nat) : Bool :=
  if poolDevice a ≠ s.device then false
  else
    match parts (poolLocal a) len with
    | some ps => ps.any (fun q => bankAmong vs chs q.1 && (s.mirrorOf q.1).isNone)
    | none => false

/-- Whether a chunk holds bytes in lost memory: its buffer in a vault, or with its cluster's core stores. -/
def Chunk.loses (c : Chunk) (vs clusters : List Nat) : Bool :=
  (!c.inCore && vs.contains c.vault) || clusters.contains (c.vault / 16)

/-- The regions that a pipeline's stages reach, that of the dictionaries among them where a stage codes values. -/
def pipelineRegions (im : Image) (p : Pipeline) : List Nat :=
  let used := p.stages.any (fun st => st.op == .compress || st.op == .decompress)
  (p.stages.flatMap (stageRegions im)).eraseDups ++ (if used && !im.dicts.isEmpty then [im.dictRegion] else [])

/-- Whether a run has lost data (R427). -/
def State.runLoses (s : State) (vs chs clusters : List Nat) (r : Run) : Bool :=
  let queued := (s.disp.ctxs.filter (fun c => c.slot == r.slot)).any (fun c => c.items.any (fun q =>
    match q with
    | .chunk k => k.loses vs clusters
    | .hole .. => false))
  let running := (s.tasksOf r.slot).any (fun t => t.chunk.loses vs clusters)
  let tables := r.args.any (fun e => e.kind == ArgKind.code .table && s.regionLoses vs chs e.region)
  let rings := r.rings.any (fun g => s.rangeLoses vs chs g.ctl 128 || s.rangeLoses vs chs g.slot0 (g.size * g.count))
  let completion := r.completion != 0 && s.rangeLoses vs chs r.completion 32
  let working := s.heldRegions.any (fun e => e.2 == r.slot && s.regionLoses vs chs e.1)
  let pitched :=
    match s.image, s.pipelineOf r.slot with
    | some im, some p => (pipelineRegions im p).any (s.regionLoses vs chs)
    | _, _ => false
  queued || running || tables || rings || completion || working || pitched

/-- Every run that has lost data fails. -/
def State.failLosers (s : State) (vs chs clusters : List Nat) : State :=
  (s.runs.filter (s.runLoses vs chs clusters)).foldl (fun s r => s.failRun r.slot C.VAULT_LOST) s

/-- The rows of the pool that lay in lost memory are gone, and each position that lost some is reported (R428). -/
def State.loseRows (s : State) (vs chs : List Nat) : State :=
  let gone (r : Row) : Bool :=
    match s.embTable? r.table with
    | none => false
    | some t =>
      match s.region? t.region with
      | none => false
      | some g => !g.mirrored && bankAmong vs chs (sliceBase t g (sliceOf t g r.id))
  let lost := s.emb.rows.filter gone
  let places := (lost.filterMap (fun r => (s.embTable? r.table).map (fun t => (t.map, s.position t r.id, r.table)))).eraseDups
  let s := s.modEmb (fun e => { e with rows := e.rows.filter (fun r => !gone r) })
  places.foldl (fun s (p : Nat × Nat × Nat) => s.attn C.SHARD_DEGRADED [p.1, p.2.1, p.2.2]) s

/-- The contents of vaults and channels are lost: every byte there reads zero with correct parity (R425), no list names
a word of theirs. -/
def State.wipeBanks (s : State) (vs chs : List Nat) : State :=
  { s with
    mem := s.mem.filter (fun e => !bankAmong vs chs e.1)
    side := { s.side with
      flaky := s.side.flaky.filter (fun e => !bankAmong vs chs e.1)
      poison := s.side.poison.filter (fun w => !bankAmong vs chs w) } }

/-- What the loss of vaults' or channels' contents comes to (R427, R428). -/
def State.loseBanks (s : State) (vs chs clusters : List Nat) : State :=
  ((s.failLosers vs chs clusters).loseRows vs chs).wipeBanks vs chs

/-- Whether a mirrored region has a copy in a vault. -/
def State.mirrorIn (s : State) (v : Nat) : Bool :=
  s.regions.any (fun r => r.mirrored && r.touches [v, (v + 96) % 192] [])

/-- A replacement vault has taken the number: what survives elsewhere is rebuilt in it (R38, R198), and its part of the
pitch copy is missing until it is rewritten (R425). -/
def State.bringVault (s : State) (v : Nat) : State :=
  let s := if s.mirrorIn v then
      s.setSide { s.side with rebuilding := s.side.rebuilding ++ [.vault (Fin.ofNat 192 v)] } else s
  if v < 64 then
    (if s.mst.rebuilding.contains v then s else { s with mst := { s.mst with rebuilding := s.mst.rebuilding ++ [v] } })
  else { s with power := { s.power with copyHoles := s.power.copyHoles.filter (· != v) ++ [v] } }

/-! ### Tasks on failed units (R312, R313) -/

/-- The cluster a unit lies in. -/
def unitClusterOf (u : Nat) : Nat :=
  if u < 512 then u % 256 / 16
  else if u < 576 then (u - 512) / 4
  else if u < 592 then u - 576
  else if u < 608 then u - 592
  else if u < 832 then (u - 608) / 16
  else (u - 832) / 2

/-- Interrupt the running tasks that `p` picks; `core` is the failed core, 0xFF for another unit. -/
def State.interruptAll (s : State) (core : Nat) (p : Task → Bool) : State :=
  (s.disp.tasks.filter (fun t => t.state == .running && p t)).foldl (fun s t => s.interrupt t core) s

def onUnit (u : Nat) (t : Task) : Bool := t.units.contains u

/-- Whether a task runs in a cluster: on a unit of it, or on a stream saved there. -/
def State.inCluster (s : State) (c : Nat) (t : Task) : Bool :=
  t.units.any (fun u => unitClusterOf u == c) || s.pat.any (fun x => x.task == t.id && x.cluster == c)

/-- Resident weights in some cores are gone and must be loaded again (R291). -/
def State.dropResident (s : State) (p : Nat → Bool) : State :=
  { s with resident := s.resident.filter (fun e => !e.cores.any p) }

/-! ### Cores and engines (R424, R292) -/

/-- A core leaves service. With the cluster's spare slot free it is taken for the core, which waits for it; without, the
core's vault is orphaned. `report` holds for a core that fails itself, not for one whose engine gives it up. -/
def State.coreOut (s : State) (n : Nat) (report : Bool) : State :=
  let c := n / 16
  let pc := s.physCluster c
  let slot := s.physSlot n
  let spare := bitAt (s.fget F.FLT_UNITS_SPARE_SLOTS) c
  let s := if spare then s else s.freezePages (coreRegs n)
  let s := s.modUnits (fun u => { u with coresOut := u.coresOut ++ [n] })
  let s := (s.interruptAll n (fun t => t.cores.contains n)).dropResident (· == n)
  let s := if report then s.unitLeaves kindCore (if spare then outReplaced else outDegraded) pc slot n else s
  if spare then (s.clearBit F.FLT_UNITS_SPARE_SLOTS c).recoveryOn c
  else (s.modUnits (fun u => { u with orphans := u.orphans ++ [n] })).degrade c

/-- Whether a core serves now. -/
def State.coreUp (s : State) (n : Nat) : Bool :=
  !s.units.coresOut.contains n && !s.units.lostClusters.contains (n / 16)

/-- A core fails. -/
def State.coreFails (s : State) (n : Nat) : State :=
  if s.coreUp n then (s.coreOut n true).settleAll else s

/-- The spare slot takes a core's number: the core's pages show the new unit (R439). -/
def State.coreTaken (s : State) (n : Nat) : State :=
  let c := n / 16
  let pc := s.physCluster c
  let s := s.modUnits (fun u => { u with
    coresOut := u.coresOut.filter (· != n), slotOf := assocSet u.slotOf n 16,
    missed := u.missed.filter (fun e => e.1 != .core (Fin.ofNat 192 n)) })
  let s := s.defaultPages newUnit (fun id i _ => inCorePage id && i == n)
  let out := (List.range 4).filter (fun e => s.units.outSet.contains ⟨kindEngine, pc, 16 * 4 + e⟩)
  let s := out.foldl (fun s e => s.fset F.MTX_CORE_STATUS_ENGINES n (s.fget F.MTX_CORE_STATUS_ENGINES n - 2 ^ e)) s
  (s.fset F.VLT_STATUS_SPARE_SLOT n 1).recoveryOff c

/-- CORE_REPLACE: the spare slot serves the failed core's vault from now on. -/
def coreReplace (n : Fin 192) (s : State) : State :=
  if s.units.coresOut.contains n.val && !s.units.orphans.contains n.val && !s.units.lostClusters.contains (n.val / 16) then
    (s.coreTaken n).settleAll
  else s

/-- A matrix engine fails: the core runs on without it, or with ENGINE_REMAP gives way to the spare. -/
def State.engineFails (s : State) (n e : Nat) : State :=
  if !s.coreUp n || !bitAt (s.fget F.MTX_CORE_STATUS_ENGINES n) e then s
  else
    let c := n / 16
    let remap := s.flag F.MTX_CTL_ENGINE_REMAP && bitAt (s.fget F.FLT_UNITS_SPARE_SLOTS) c
    let pc := s.physCluster c
    let unit := s.physSlot n * 4 + e
    let s := s.fset F.MTX_CORE_STATUS_ENGINES n (s.fget F.MTX_CORE_STATUS_ENGINES n - 2 ^ e)
    let s := (s.bump F.MTX_STATUS_ENGINES_OUT 0 1).attn C.ENGINE_DISABLED [n, e, b2n remap]
    let s := s.unitLeaves kindEngine (if remap then outReplaced else outDegraded) pc unit n
    let s :=
      if remap then s.coreOut n false
      else
        let model (t : Task) : Bool :=
          t.cores.contains n && (match s.stage? t.slot t.stage with | some st => st.op == .model | none => false)
        (s.interruptAll n model).degrade c
    s.settleAll

/-- A column fails: one of the engine's two spare columns takes its place; with both in use, the engine is out. -/
def State.columnFails (s : State) (n e : Nat) : State :=
  if !s.coreUp n || !bitAt (s.fget F.MTX_CORE_STATUS_ENGINES n) e then s
  else
    let used := bitsOf (s.fget F.MTX_CORE_REPAIR_SPARE_COLS n) (2 * e + 1) (2 * e)
    if used < 2 then
      let s := s.fset F.MTX_CORE_REPAIR_SPARE_COLS n (s.fget F.MTX_CORE_REPAIR_SPARE_COLS n + 4 ^ e)
      let pc := s.physCluster (n / 16)
      let unit := s.physSlot n * 4 + e
      (s.setOut (s.units.outSet ++ [⟨kindColumn, pc, unit⟩])).unitReport kindColumn outReplaced pc unit n
    else s.engineFails n e

/-! ### Vaults (R425) -/

/-- A vault is lost for good: its accesses are refused. -/
def State.vaultGone (s : State) (v : Nat) : State :=
  let s := s.setSide { s.side with lostVaults := s.side.lostVaults ++ [v] }
  let s := s.fset F.FLT_UNITS_VAULTS_LOST 0 (min 255 s.side.lostVaults.length)
  if v < 64 then s else { s with power := { s.power with copyHoles := s.power.copyHoles.filter (· != v) ++ [v] } }

/-- A vault fails beyond its spare rows: the vault of the spare slot is cleared to take its place, or it is LOST. -/
def State.vaultFails (s : State) (v : Nat) : State :=
  let c := v / 16
  if s.side.lostVaults.contains v then s
  else
    let spare := !s.units.vaultSpareUsed.contains c
    let s := s.interruptAll v (onUnit (unitVault v))
    let s := s.unitLeaves kindVault (if spare then outReplaced else outLost) (s.physCluster c) (s.physVault v) v
    let s := s.loseBanks [v] [] []
    let s := if spare then (s.modUnits (fun u => { u with
        vaultSpareUsed := u.vaultSpareUsed ++ [c], clearing := u.clearing ++ [v] })).bringVault v
      else (s.vaultGone v).degrade c
    s.settleAll

/-- VAULT_REPLACE: the replacement vault has been cleared and serves; its page describes the new vault (R439). -/
def vaultReplace (v : Fin 192) (s : State) : State :=
  if s.units.clearing.contains v.val then
    let s := s.modUnits (fun u => { u with
      clearing := u.clearing.filter (· != v.val), vaultSlotOf := assocSet u.vaultSlotOf v 16 })
    s.defaultPages newUnit (fun id i _ => ((inVaultMemory id && id != .VLT_STATUS) || inVaultOps id) && i == v.val)
  else s

/-! ### Numbering (R11, R12, R429) -/

/-- Units out of service before a pitch: those of the fused repair record and those of the Sticky set. -/
def State.outUnits (s : State) : List OutUnit :=
  s.fuses.repairs.map (fun r => ⟨r.1, r.2.1, r.2.2⟩) ++ s.units.outSet

/-- The physical slots of a cluster in which a kind of unit is in service, ascending. -/
def slotsLeft (out : List OutUnit) (kind pc : Nat) : List Nat :=
  (List.range 17).filter (fun p => !out.contains ⟨kind, pc, p⟩)

/-- Matrix engines in service in a physical slot, as a mask. -/
def enginesLeft (out : List OutUnit) (pc p : Nat) : Nat :=
  ((List.range 4).filter (fun e => !out.contains ⟨kindEngine, pc, 4 * p + e⟩)).foldl (fun (m : Nat) e => m + 2 ^ e) 0

/-- Spare columns in use in a physical slot, two bits an engine. -/
def columnsUsed (out : List OutUnit) (pc p : Nat) : Nat :=
  (List.range 4).foldl (fun (m : Nat) e => m + min 2 (out.count ⟨kindColumn, pc, 4 * p + e⟩) * 4 ^ e) 0

/-- The slots that cores are numbered over; with ENGINE_REMAP a slot that has lost an engine is left as the spare. -/
def coreSlots (out : List OutUnit) (pc : Nat) (remap : Bool) : List Nat :=
  let up := slotsLeft out kindCore pc
  if remap && up.length == 17 then
    match up.find? (fun p => enginesLeft out pc p != 15) with
    | some p => up.filter (· != p)
    | none => up
  else up

/-- Numbers of a cluster that stand in another slot than their own, given the slots in order. -/
def placed (c : Nat) (slots : List Nat) : List (Nat × Nat) :=
  ((List.range 16).zip slots).filterMap (fun e => if e.1 = e.2 then none else some (c * 16 + e.1, e.2))

/-- Numbers of a cluster for which no slot is left. -/
def unplaced (c : Nat) (slots : List Nat) : List Nat :=
  (List.range 16).filterMap (fun k => if k < slots.length then none else some (c * 16 + k))

/-- Number the cores of a cluster over its slots, and show what stands behind each number. -/
def State.numberCores (s : State) (c : Nat) (out : List OutUnit) : State :=
  let pc := s.physCluster c
  let slots := coreSlots out pc (s.flag F.MTX_CTL_ENGINE_REMAP)
  let bare := unplaced c slots
  let s := s.modUnits (fun u => { u with
    slotOf := u.slotOf ++ placed c slots, coresOut := u.coresOut ++ bare, orphans := u.orphans ++ bare })
  let s := ((List.range 16).zip slots).foldl (fun s e =>
    let n := c * 16 + e.1
    let s := (s.fset F.MTX_CORE_STATUS_ENGINES n (enginesLeft out pc e.2)).fset F.MTX_CORE_REPAIR_SPARE_COLS n
      (columnsUsed out pc e.2)
    s.fset F.VLT_STATUS_SPARE_SLOT n (b2n (e.2 == 16))) s
  let lame := ((List.range 16).zip slots).any (fun e => enginesLeft out pc e.2 != 15)
  let s := if slots.length = 17 then s.setBit F.FLT_UNITS_SPARE_SLOTS c else s.clearBit F.FLT_UNITS_SPARE_SLOTS c
  if lame || !bare.isEmpty then s.degrade c else s

/-- QUARANTINED and VERIFY_FAILS of every engine, under its physical cluster (R261). -/
def State.engineMarks (s : State) : List ((Nat × Nat) × Nat × Nat) :=
  (List.range 12).flatMap (fun c => [0, 1].map (fun e =>
    ((s.physCluster c, e), s.fget2 F.CMP_ENG_STATUS_QUARANTINED c e, s.fget2 F.CMP_ENG_STATUS_VERIFY_FAILS c e)))

/-- The marks of the engines that a cluster now stands for; an engine that had no number before has none. -/
def State.placeMarks (s : State) (marks : List ((Nat × Nat) × Nat × Nat)) (c : Nat) : State :=
  [0, 1].foldl (fun s e =>
    let m := ((marks.find? (fun k => k.1 == (s.physCluster c, e))).map (·.2)).getD (0, 0)
    (s.fset2 F.CMP_ENG_STATUS_QUARANTINED c e m.1).fset2 F.CMP_ENG_STATUS_VERIFY_FAILS c e m.2) s

/-- The engines, decoders and pyramid unit of a cluster that are out; an engine in quarantine stays out (R261). -/
def State.numberOthers (s : State) (c : Nat) (out : List OutUnit) : State :=
  let pc := s.physCluster c
  let cmp := (List.range 2).filter (fun e =>
    out.contains ⟨kindCompression, pc, e⟩ || s.fget2 F.CMP_ENG_STATUS_QUARANTINED c e == 1)
  let jpeg := (List.range 4).filter (fun d => out.contains ⟨kindJpeg, pc, d⟩)
  let pat := out.contains ⟨kindPattern, pc, 0xFF⟩
  let pyr := out.contains ⟨kindPyramid, pc, 0xFF⟩
  let s := s.modUnits (fun u => { u with
    patOut := if pat then u.patOut ++ [c] else u.patOut
    cmpOut := u.cmpOut ++ cmp.map (fun e => (c, e))
    jpegOut := u.jpegOut ++ jpeg.map (fun d => (c, d))
    pyrOut := if pyr then u.pyrOut ++ [c] else u.pyrOut })
  if pat || pyr || !cmp.isEmpty || !jpeg.isEmpty then s.degrade c else s

/-- Number the vaults of a cluster; one for which no slot is left is LOST. -/
def State.numberVaults (s : State) (c : Nat) (out : List OutUnit) : State :=
  let slots := slotsLeft out kindVault (s.physCluster c)
  let bare := unplaced c slots
  let s := s.modUnits (fun u => { u with
    vaultSlotOf := u.vaultSlotOf ++ placed c slots
    vaultSpareUsed := if slots.length = 17 then u.vaultSpareUsed else u.vaultSpareUsed ++ [c] })
  let s := bare.foldl State.vaultGone s
  if bare.isEmpty then s else s.degrade c

/-! ### Clusters (R426) -/

/-- Take a cluster's units out of every list that names them. -/
def Units.clearCluster (u : Units) (c : Nat) : Units :=
  { u with
    slotOf := u.slotOf.filter (fun e => e.1 / 16 != c), vaultSlotOf := u.vaultSlotOf.filter (fun e => e.1 / 16 != c),
    coresOut := u.coresOut.filter (fun n => n / 16 != c),
    orphans := u.orphans.filter (fun n => n / 16 != c), patOut := u.patOut.filter (· != c),
    cmpOut := u.cmpOut.filter (fun e => e.1 != c), jpegOut := u.jpegOut.filter (fun e => e.1 != c),
    pyrOut := u.pyrOut.filter (· != c), vaultSpareUsed := u.vaultSpareUsed.filter (· != c),
    resetting := u.resetting.filter (fun e => e.cluster != c),
    clearing := u.clearing.filter (fun v => v / 16 != c) }

/-- The engines, decoders and pyramid unit of a lost cluster count as failed. -/
def Units.loseCluster (u : Units) (c : Nat) : Units :=
  { u with
    lostClusters := u.lostClusters ++ [c], patOut := u.patOut.filter (· != c) ++ [c],
    cmpOut := u.cmpOut.filter (fun e => e.1 != c) ++ [(c, 0), (c, 1)],
    jpegOut := u.jpegOut.filter (fun e => e.1 != c) ++ [(c, 0), (c, 1), (c, 2), (c, 3)],
    pyrOut := u.pyrOut.filter (· != c) ++ [c], resetting := u.resetting.filter (fun e => e.cluster != c),
    clearing := u.clearing.filter (fun v => v / 16 != c) }

/-- MOD_FAULT_N and MOD_THERM_N as R432 states them. -/
def State.pinsFollow (s : State) : State :=
  let throttle := s.fget F.FLT_CTL_THROTTLE_C
  let therm := s.power.tripped || s.gov.hotSensors.any (fun e => decide (throttle ≤ e.2))
  let supervisorless := s.units.outSet.contains ⟨kindSupervisor, 0xFF, s.fget F.PWS_WATCHDOG_ACTIVE⟩
  let fault := s.flag F.FLT_GOV_TRIPPED || s.fget F.FLT_UNITS_LOST != 0 || supervisorless || s.power.state == .halted
  (s.fset F.MOD_PINS_THERM 0 (b2n therm)).fset F.MOD_PINS_FAULT 0 (b2n fault)

/-- The core stores of a cluster are cleared, their parity with them. -/
def State.clearCores (s : State) (c : Nat) : State :=
  { s with
    core := s.core.filter (fun e => e.1 / 0x100000 / 16 != c)
    side := { s.side with flaky := s.side.flaky.filter (fun e =>
      decide (e.1 < 2 ^ 44) || (e.1 - 2 ^ 44) / 0x100000 / 16 != c) } }

/-- A cluster fails: the spare cluster is brought in for it, or it is LOST. -/
def State.clusterFails (s : State) (c : Nat) : State :=
  if s.units.lostClusters.contains c || s.units.replacing.contains c then s
  else
    let spare := s.flag F.FLT_UNITS_SPARE_CLUSTER
    let vs := (List.range 16).map (fun k => c * 16 + k)
    let s := if spare then s else s.freezePages (clusterRegs c)
    let s := s.interruptAll 0xFF (s.inCluster c)
    let s := { s with pat := s.pat.filter (fun x => x.cluster != c) }
    let s := (s.dropResident (fun n => n / 16 == c)).clearCores c
    let s := s.unitLeaves kindCluster (if spare then outReplaced else outLost) (s.physCluster c) 0xFF c
    let s := s.loseBanks vs [] [c]
    let s :=
      if spare then
        let s := s.modUnits (fun u => { u with replacing := u.replacing ++ [c] })
        (vs.foldl State.bringVault (s.fset F.FLT_UNITS_SPARE_CLUSTER 0 0)).recoveryOn c
      else
        let s := s.modUnits (fun u => u.loseCluster c)
        (vs.foldl State.vaultGone s).setBit F.FLT_UNITS_LOST c
    s.pinsFollow.settleAll

/-- Pitch settings put back into the registers that `pick` names (R385, R444). -/
def State.applySettings (s : State) (pick : RegId → Nat → Nat → Bool) : State :=
  match s.image with
  | none => s
  | some im => im.settings.foldl (fun s e =>
      match locate e.1 with
      | some (id, i, j) => if pick id i j then s.setRaw id i j (putPitch id (s.raw id i j) e.2) else s
      | none => s) s

/-- CLUSTER_REPLACE: the spare cluster bears the number from now on, with vaults of its own and all its slots. -/
def clusterReplace (c : Fin 12) (s : State) : State :=
  let k := c.val
  if !s.units.replacing.contains k then s
  else
    let s := s.modUnits (fun u => { u.clearCluster k with
      replacing := u.replacing.filter (· != k), clusterOf := assocSet u.clusterOf k 12 })
    let s := s.setSide { s.side with lostVaults := s.side.lostVaults.filter (fun v => v / 16 != k) }
    let s := s.fset F.FLT_UNITS_VAULTS_LOST 0 (min 255 s.side.lostVaults.length)
    let pick (id : RegId) (i _j : Nat) : Bool :=
      (inClusterPage id && i == k) || ((inCorePage id || inVaultOps id || inVaultMemory id) && i / 16 == k)
    let s := (s.defaultPages newUnit pick).applySettings pick
    let out := s.outUnits
    let s := s.clearBit F.FLT_UNITS_DEGRADED k
    let s := ((s.numberVaults k out).numberCores k out).numberOthers k out
    let s := (s.fset F.PWS_CLUSTER_PLL_LOCKED k 1).clearBit F.PWS_STATE_SHADED k
    (s.recoveryOff k).settleAll

/-! ### The other units (R423) -/

def State.patternFails (s : State) (c : Nat) : State :=
  if s.units.patOut.contains c then s
  else
    let s := s.modUnits (fun u => { u with patOut := u.patOut ++ [c] })
    let s := s.interruptAll 0xFF (fun t => (List.range 16).any (fun i => onUnit (unitStream c i) t))
    ((s.unitLeaves kindPattern outDegraded (s.physCluster c) 0xFF c).degrade c).settleAll

def State.compressionFails (s : State) (c e : Nat) : State :=
  if s.units.cmpOut.contains (c, e) then s
  else
    let s := s.modUnits (fun u => { u with cmpOut := u.cmpOut ++ [(c, e)] })
    let s := s.interruptAll 0xFF (onUnit (unitEngine c e))
    ((s.unitLeaves kindCompression outDegraded (s.physCluster c) e (2 * c + e)).degrade c).settleAll

def State.jpegFails (s : State) (c d : Nat) : State :=
  if s.units.jpegOut.contains (c, d) then s
  else
    let s := s.modUnits (fun u => { u with jpegOut := u.jpegOut ++ [(c, d)] })
    let s := s.interruptAll 0xFF (onUnit (unitJpeg c d))
    ((s.unitLeaves kindJpeg outDegraded (s.physCluster c) d (4 * c + d)).degrade c).settleAll

def State.pyramidFails (s : State) (c : Nat) : State :=
  if s.units.pyrOut.contains c then s
  else
    let s := s.modUnits (fun u => { u with pyrOut := u.pyrOut ++ [c] })
    let s := s.interruptAll 0xFF (onUnit (unitPyramid c))
    ((s.unitLeaves kindPyramid outDegraded (s.physCluster c) 0xFF c).degrade c).settleAll

/-- A channel is taken out of service (R30, R51). -/
def State.channelFails (s : State) (ch : Nat) : State :=
  if !bitAt (s.fget F.LPT_AVAIL_CHANNELS) ch then s
  else
    let s := (s.clearBit F.LPT_AVAIL_CHANNELS ch).fset F.LPT_CH_STATUS_STATE ch 2
    let s := (s.attn C.CHANNEL_FAILED [ch]).unitLeaves kindChannel outLost 0xFF ch ch
    (s.loseBanks [] [ch] []).settleAll

/-- A sensor fails and reads from then on as its hottest neighbour. -/
def State.sensorFails (s : State) (i : Nat) : State :=
  if s.units.sensorsOut.contains i then s
  else (s.modUnits (fun u => { u with sensorsOut := u.sensorsOut ++ [i] })).unitLeaves kindSensor outDegraded 0xFF i i

/-- What the sensors read (R423): a failed one as the hottest of its adjacent sensors. -/
def State.sensorTemps (s : State) (temps : List Nat) : List Nat :=
  (List.range 64).map (fun i =>
    if s.units.sensorsOut.contains i then
      ((Config.adjacent i).filter (fun j => !s.units.sensorsOut.contains j)).foldl (fun m j => max m (temps.getD j 0)) 0
    else temps.getD i 0)

end Sys2Proof.Machine
end

