-- ==== Sys2Proof/Machine/Power.lean ====
section
/-!
DEFINITION. Clusters that sleep and wake, cluster resets, and the governor (R366 to R368, R375, R422, R430, R431).
-/
namespace Sys2Proof.Machine

open Sys2Proof

/-! ### Shading (R366, R368, R433) -/

def vaultsOfCluster (c : Nat) : List Nat := (List.range 16).map (fun k => c * 16 + k)

/-- The registers that show whether a cluster is shaded (R48, R378). -/
def State.showShaded (s : State) (c : Nat) (shaded : Bool) : State :=
  let s := (s.fset F.PWS_CLUSTER_SHADED c (b2n shaded)).fset F.PWS_CLUSTER_PLL_LOCKED c (b2n (!shaded))
  let s := if shaded then s.setBit F.PWS_STATE_SHADED c else s.clearBit F.PWS_STATE_SHADED c
  let s := s.fset F.PWS_STATE_STATE 0 (b2n (s.fget F.PWS_STATE_SHADED == 0xFFF))
  (vaultsOfCluster c).foldl (fun s v => s.fset F.VLT_STATUS_SELF_REFRESH v (b2n shaded)) s

/-- Whether a task keeps a cluster from being idle: it runs there, or is ready and may run there. -/
def State.clusterWanted (s : State) (c : Nat) : Bool :=
  s.disp.tasks.any (fun t =>
    (t.state == .running && s.inCluster c t) ||
      (t.state == .ready && (match s.stage? t.slot t.stage with
        | some st => (s.ways t st).any (fun w => w.clusters.contains c)
        | none => false)))

/-- A cluster is shaded. -/
def State.shade (s : State) (c : Nat) : State :=
  let s := s.showShaded c true
  { s with power := { s.power with waking := s.power.waking.filter (fun e => e.1 != c) } }

/-- The Warden reports the mask of shaded clusters (R433). -/
def State.reportShade (s : State) : State := s.attn C.WARDEN_SHADE [s.fget F.PWS_STATE_SHADED]

/-- Entry to SHADED takes 2 µs (R368). -/
def shadeEntryNs : Nat := 2000

/-- Shading by R368 is complete: AUTO_SHADE, and nothing has asked for the cluster for SHADE_US and the time of entry. -/
def State.shadeDue (s : State) (c : Nat) : Bool :=
  s.lit && s.flag F.PWS_CTL_AUTO_SHADE && !s.shaded c && s.clusterWorks c && !s.clusterWanted c &&
    decide (lookupD 0 s.power.idleSince c + s.fget F.PWS_CTL_SHADE_US * 1000 + shadeEntryNs ≤ s.now)

/-- CLUSTER_SHADE: entry, which takes 2 µs, is complete; a request before that has restarted the idle time. -/
def clusterShade (c : Fin 12) (s : State) : State :=
  if s.shadeDue c then (s.shade c).reportShade else s

/-- A cluster runs again. -/
def State.light (s : State) (c : Nat) : State :=
  let s := (s.showShaded c false).bump F.PWS_CLUSTER_WAKES c 1
  { s with power := { s.power with
      waking := s.power.waking.filter (fun e => e.1 != c), idleSince := assocSet s.power.idleSince c s.now } }

/-- The wake of a cluster is due: 20 µs after the request (R366); a held cluster stays shaded (R431). -/
def State.wakeDue (s : State) (c : Nat) : Bool :=
  s.lit && s.shaded c && !s.heldShaded c &&
    (match s.power.waking.find? (fun e => e.1 == c) with
     | some e => decide (e.2 + 20000 ≤ s.now)
     | none => false)

def clusterWake (c : Fin 12) (s : State) : State := if s.wakeDue c then (s.light c).settleAll else s

/-! ### Cluster resets (R375) -/

/-- Time within which a cluster must return to LIT, and within which a second reset takes it out of service. -/
def clusterLitNs : Nat := 50000
def secondResetNs : Nat := 1000000000

/-- A cluster reset: cleared at once; the cluster returns with CLUSTER_LIT. -/
def State.resetCluster (s : State) (c cause : Nat) : State :=
  let s := if s.shaded c then s.light c else s
  let before := s.fget F.DSP_COUNT_REISSUED
  let s := s.interruptAll 0xFF (s.inCluster c)
  let n := s.fget F.DSP_COUNT_REISSUED - before
  let s := { s with pat := s.pat.filter (fun x => x.cluster != c) }
  let s := (s.dropResident (fun n => n / 16 == c)).clearCores c
  let pick (id : RegId) (i _j : Nat) : Bool :=
    (inClusterPage id && i == c) || ((inCorePage id || inVaultOps id) && i / 16 == c)
  let s := ((s.defaultPages runtimeOnly pick).bankReset c).applySettings pick
  let s := ((s.bump F.PWS_CLUSTER_RESETS c 1).fset F.PWS_STATE_LAST_RESET 0 9).recoveryOn c
  let s := s.faultLog 9 kindCluster outEvent (s.physCluster c) 0xFF c c
  let s := { s with power := { s.power with lastResets := assocSet s.power.lastResets c s.now } }
  (s.modUnits (fun u => { u with resetting := u.resetting ++ [⟨c, s.now, cause, n⟩] })).settleAll

/-- Apply a cluster reset: not in a cluster that is gone, being brought in or held; a second one within 1 s of the
first takes the cluster out of service (R422). -/
def State.clusterReset (s : State) (c cause : Nat) : State :=
  if !s.lit || !s.clusterWorks c || s.heldShaded c then s
  else
    match s.power.lastResets.find? (fun e => e.1 == c) with
    | some e => if s.now ≤ e.2 + secondResetNs then s.clusterFails c else s.resetCluster c cause
    | none => s.resetCluster c cause

/-- CLUSTER_LIT: the cluster answers again; one that has taken longer than 50 µs has failed. -/
def clusterLit (c : Fin 12) (s : State) : State :=
  match s.units.resetting.find? (fun e => e.cluster == c.val) with
  | none => s
  | some r =>
    let s := s.modUnits (fun u => { u with resetting := u.resetting.filter (fun e => e.cluster != c.val) })
    if r.since + clusterLitNs < s.now then (s.recoveryOff c).clusterFails c
    else
      let s := (s.fset F.PWS_CLUSTER_PLL_LOCKED c 1).recoveryOff c
      let s := { s with power := { s.power with idleSince := assocSet s.power.idleSince c s.now } }
      (s.attn C.CLUSTER_RESET [c, r.cause, r.reissued]).settleAll

/-! ### The governor (R430, R431) -/

/-- The hottest of the sensors: number and temperature, the lower number on a tie. -/
def hottest (temps : List Nat) : Nat × Nat :=
  ((List.range temps.length).zip temps).foldl (fun (b e : Nat × Nat) => if b.2 < e.2 then e else b) (0, temps.getD 0 0)

/-- L moves one step; the store's cap follows (R188). `cause`: 0 power, 1 temperature. -/
def State.levelTo (s : State) (l cause : Nat) : State :=
  let s := (s.fset F.FLT_GOV_LEVEL 0 l).fset F.FLT_GOV_MST_CAP 0 (4 * l)
  (s.attn C.GOVERNOR_STEP [l, cause, s.fget F.FLT_GOV_POWER_W, s.fget F.FLT_GOV_TEMP_MAX]).setActLimit

/-- A fall is called for: at the lowest level the cluster with the hottest sensor is shaded instead. -/
def State.levelFall (s : State) (cause : Nat) : State :=
  let l := s.fget F.FLT_GOV_LEVEL
  if s.fget F.FLT_CTL_MTX_MIN_LEVEL < l then s.levelTo (l - 1) cause
  else
    let c := Config.sensorCluster (s.fget F.FLT_GOV_HOT_SENSOR)
    if c < 12 ∧ !s.shaded c ∧ s.clusterWorks c then (s.shade c).reportShade else s

/-- GOVERNOR_FAST_CHECK: the mean input of the last 100 µs. -/
def governorFastCheck (watts : Nat) (s : State) : State :=
  if s.lit && decide (s.fget F.FLT_CTL_POWER_CAP_W < watts) then s.levelFall 0 else s

/-- The sensors are read: the hottest is shown (R435), the time since when each held cluster has been cool is kept (R431),
the pins follow. -/
def State.readSensors (s : State) (temps : List Nat) : State :=
  let ts := s.sensorTemps temps
  let hot := hottest ts
  let s := (s.fset F.FLT_GOV_TEMP_MAX 0 (min 255 hot.2)).fset F.FLT_GOV_HOT_SENSOR 0 hot.1
  let cool := s.fget F.FLT_CTL_SHADE_C - 10
  let now := s.now
  let held := (List.range 12).filter s.heldShaded
  let since := held.filterMap (fun c =>
    let mine := (List.range 64).filter (fun i => Config.sensorCluster i == c)
    if mine.all (fun i => decide (ts.getD i 0 < cool)) then some (c, lookupD now s.gov.coolSince c) else none)
  ({ s with gov := { s.gov with hotSensors := (List.range 64).zip ts, coolSince := since } }).pinsFollow

/-- GOVERNOR_CHECK: once a second, the mean input of that second and the sensors. -/
def governorCheck (watts : Nat) (temps : List Nat) (s : State) : State :=
  if !s.lit then s
  else
    let s := (s.fset F.FLT_GOV_POWER_W 0 (min 4095 watts)).readSensors temps
    let top := s.fget F.FLT_GOV_TEMP_MAX
    let throttle := s.fget F.FLT_CTL_THROTTLE_C
    let cap := s.fget F.FLT_CTL_POWER_CAP_W
    let seconds (n : Nat) (s : State) : State := { s with gov := { s.gov with coolSeconds := n } }
    if throttle ≤ top then (seconds 0 s).levelFall 1
    else if cap < watts then (seconds 0 s).levelFall 0
    else if top + 5 < throttle ∧ watts + 50 < cap then
      if s.gov.coolSeconds < 5 then seconds (s.gov.coolSeconds + 1) s
      else
        let s := seconds 1 s
        if s.fget F.FLT_GOV_LEVEL < 8 then s.levelTo (s.fget F.FLT_GOV_LEVEL + 1) 1 else s
    else seconds 0 s

/-- CLUSTER_HOLD: a sensor, one of those the cluster has (the command names both), is at or above SHADE_C. -/
def clusterHold (c : Fin 12) (_sensor : Fin 64) (temp : Nat) (s : State) : State :=
  if s.lit && decide (s.fget F.FLT_CTL_SHADE_C ≤ temp) && !s.heldShaded c && !s.units.lostClusters.contains c.val then
    let s := (s.shade c).setBit F.FLT_GOV_HELD c
    let s := { s with gov := { s.gov with coolSince := s.gov.coolSince.filter (fun (e : Nat × Nat) => e.1 != c.val) } }
    let s := s.faultLog C.CLUSTER_HELD.toNat kindCluster outEvent (s.physCluster c) 0xFF c c
    s.attn C.CLUSTER_HELD [c, temp, 0]
  else s

/-- CLUSTER_HOLD_RELEASE: every sensor of the cluster has stayed below SHADE_C − 10 °C for 1 s; it wakes under R366. -/
def clusterHoldRelease (c : Fin 12) (temp : Nat) (s : State) : State :=
  let cool := match s.gov.coolSince.find? (fun e => e.1 == c.val) with
    | some e => decide (e.2 + 1000000000 ≤ s.now)
    | none => false
  if s.lit && s.heldShaded c && decide (temp + 10 < s.fget F.FLT_CTL_SHADE_C) && cool then
    let s := s.clearBit F.FLT_GOV_HELD c
    let s := { s with
      gov := { s.gov with coolSince := s.gov.coolSince.filter (fun (e : Nat × Nat) => e.1 != c.val) }
      power := { s.power with waking := s.power.waking.filter (fun (e : Nat × Nat) => e.1 != c.val) ++ [(c.val, s.now)] } }
    s.attn C.CLUSTER_HELD [c, temp, 1]
  else s

/-! ### Probes (R422) -/

/-- Units that the Warden probes. -/
def HwUnit.probed : HwUnit → Bool
  | .core _ | .engine .. | .jpegDecoder .. | .pyramidUnit _ | .patternEngine _ | .compressionEngine .. => true
  | _ => false

/-- The failure of a unit that needs no reset. -/
def State.unitFails (s : State) : HwUnit → State
  | .core n => s.coreFails n
  | .engine n e => s.engineFails n e
  | .column n e => s.columnFails n e
  | .cluster c => s.clusterFails c
  | .vault v => s.vaultFails v
  | .patternEngine c => s.patternFails c
  | .compressionEngine c e => s.compressionFails c e
  | .jpegDecoder c d => s.jpegFails c d
  | .pyramidUnit c => s.pyramidFails c
  | .channel ch => s.channelFails ch
  | .supervisor => s
  | .sensor i => s.sensorFails i

/-- Clusters of which no core in service answers. -/
def State.silentClusters (s : State) (dead : List HwUnit) : List Nat :=
  (List.range 12).filter (fun c =>
    let up := (vaultsOfCluster c).filter s.coreUp
    !up.isEmpty && up.all (fun n => dead.contains (.core (Fin.ofNat 192 n))))

/-- PROBE: a unit that has missed its third probe in a row has failed; a cluster whose cores have all stopped answering
is reset instead (R375). -/
def probe (missed : List HwUnit) (s : State) : State :=
  if !s.lit then s
  else
    let count (u : HwUnit) : Nat := ((s.units.missed.find? (fun e => e.1 == u)).map (·.2)).getD 0
    let counts := ((missed.filter HwUnit.probed).eraseDups).map (fun u => (u, count u + 1))
    let dead := (counts.filter (fun e => decide (3 ≤ e.2))).map (·.1)
    let s := s.modUnits (fun u => { u with missed := counts.filter (fun e => decide (e.2 < 3)) })
    let silent := s.silentClusters dead
    let s := silent.foldl (fun s c => s.clusterReset c 0) s
    let inSilent : HwUnit → Bool
      | .core n | .engine n _ => silent.contains (n.val / 16)
      | .jpegDecoder c _ | .pyramidUnit c | .patternEngine c | .compressionEngine c _ => silent.contains c.val
      | _ => false
    (dead.filter (fun u => !inSilent u)).foldl State.unitFails s

end Sys2Proof.Machine
end

