-- ==== Sys2Proof/Machine/Pitch.lean ====
section
/-!
DEFINITION. Pitching (R395 to R397): numbering, training, shakedown, and loading the image that has been verified.
-/
namespace Sys2Proof.Machine

open Sys2Proof

/-! ### Numbering of the whole device (R11, R178, R429) -/

/-- Number the clusters; one for which no physical cluster is left is LOST. -/
def State.numberClusters (s : State) (out : List OutUnit) : State :=
  let good := (List.range 13).filter (fun p => !out.contains ⟨kindCluster, p, 0xFF⟩)
  let pairs := ((List.range 12).zip good).filterMap (fun e => if e.1 = e.2 then none else some e)
  let s := (s.modUnits (fun u => { u with clusterOf := pairs })).fset F.FLT_UNITS_SPARE_CLUSTER 0 (b2n (good.length == 13))
  ((List.range 12).drop good.length).foldl (fun s c =>
    ((vaultsOfCluster c).foldl State.vaultGone (s.modUnits (fun u => u.loseCluster c))).setBit F.FLT_UNITS_LOST c) s

/-- Spares that were on their way when the device was reset stand where they were to go. -/
def State.finishSpares (s : State) (out : List OutUnit) : State :=
  let clusters := s.units.replacing
  let s := s.modUnits (fun u => { u with
    replacing := [], clearing := [], vaultSlotOf := u.clearing.foldl (fun l v => assocSet l v 16) u.vaultSlotOf })
  clusters.foldl (fun s c =>
    let s := s.modUnits (fun u => { u with
      clusterOf := assocSet u.clusterOf c 12, vaultSlotOf := u.vaultSlotOf.filter (fun e => e.1 / 16 != c),
      vaultSpareUsed := u.vaultSpareUsed.filter (· != c) })
    (s.numberVaults c out).placeMarks [] c) s

/-- What numbering starts from: everything in its own place in a cold pitch; in a quick pitch clusters and vaults stay
where their contents are. -/
def Units.fresh (u : Units) (cold : Bool) : Units :=
  let v : Units := { Units.empty with outSet := u.outSet }
  if cold then v
  else { v with
    clusterOf := u.clusterOf, vaultSlotOf := u.vaultSlotOf, vaultSpareUsed := u.vaultSpareUsed,
    replacing := u.replacing, clearing := u.clearing }

/-- Logical numbers for cores, vaults and clusters, from the repair record, the Sticky set and the shakedown. What an
engine's quarantine records goes with the engine (R261). -/
def State.renumber (s : State) (cold : Bool) : State :=
  let out := s.outUnits
  let marks := s.engineMarks
  let lost := if cold then [] else s.units.lostClusters
  let sensors := (out.filter (fun u => u.kind == kindSensor)).map OutUnit.unit
  let s := s.modUnits (fun u => { u.fresh cold with sensorsOut := sensors.eraseDups })
  let s := lost.foldl (fun s c => s.modUnits (fun u => u.loseCluster c)) s
  let s := s.fset F.FLT_UNITS_DEGRADED 0 0
  let s :=
    if cold then
      (List.range 12).foldl (fun s c => s.placeMarks marks c)
        (((s.fset F.FLT_UNITS_LOST 0 0).fset F.FLT_UNITS_VAULTS_LOST 0 0).numberClusters out)
    else s.finishSpares out
  let s := ((List.range 12).filter (fun c => !s.units.lostClusters.contains c)).foldl (fun s c =>
    let s := (s.numberCores c out).numberOthers c out
    if cold then s.numberVaults c out
    else if s.side.lostVaults.any (fun v => v / 16 == c) then s.degrade c else s) s
  let missing := (List.range 192).foldl (fun (n : Nat) i => n + (4 - popcount 4 (s.fget F.MTX_CORE_STATUS_ENGINES i))) 0
  s.fset F.MTX_STATUS_ENGINES_OUT 0 missing

/-- Logical numbers for the blocks of the match store (R178). -/
def State.numberBlocks (s : State) : State :=
  let out := s.outUnits
  let good := (List.range 68).filter (fun b => !out.contains ⟨kindMstBlock, 0xFF, b⟩)
  let s := (List.range 68).foldl (fun s b => s.fset F.MST_BLOCK_STATUS_STATE b blkRetired) s
  let s := ((List.range good.length).zip good).foldl (fun s e =>
    if e.1 < 64 then (s.fset F.MST_BLOCK_STATUS_STATE e.2 blkActive).fset F.MST_BLOCK_STATUS_LOGICAL e.2 e.1
    else (s.fset F.MST_BLOCK_STATUS_STATE e.2 blkSpare).fset F.MST_BLOCK_STATUS_LOGICAL e.2 0) s
  s.fset F.MST_STATUS_SPARES 0 (good.length - 64)

/-! ### Shakedown and training (R25, R51, R397) -/

/-- Whether shakedown tests a unit of this kind and number; vaults are tested in a cold pitch only. -/
def shaken (cold : Bool) (u : OutUnit) : Bool :=
  let last :=
    if u.kind = kindCore then some 16
    else if u.kind = kindEngine then some 67
    else if u.kind = kindVault && cold then some 16
    else if u.kind = kindCompression then some 1
    else if u.kind = kindJpeg then some 3
    else if u.kind = kindPattern || u.kind = kindPyramid then some 0xFF
    else none
  if u.kind = kindMstBlock then decide (u.unit < 68)
  else
    match last with
    | some n => decide (u.cluster ≤ 12) && decide (u.unit ≤ n)
    | none => false

/-- A failure as the fault log names it. -/
def namedUnit (r : Nat × Nat × Nat) : OutUnit :=
  if r.1 = kindMstBlock then ⟨r.1, 0xFF, r.2.2⟩
  else if r.1 = kindPattern ∨ r.1 = kindPyramid then ⟨r.1, r.2.1, 0xFF⟩
  else ⟨r.1, r.2.1, r.2.2⟩

/-- What the failure of a unit comes to, with all that are out (R423). -/
def failureOutcome (out : List OutUnit) (u : OutUnit) : Nat :=
  if u.kind = kindCore then (if 16 ≤ (slotsLeft out kindCore u.cluster).length then outReplaced else outDegraded)
  else if u.kind = kindVault then (if 16 ≤ (slotsLeft out kindVault u.cluster).length then outReplaced else outLost)
  else if u.kind = kindMstBlock then
    (if (out.filter (fun x => x.kind == kindMstBlock)).eraseDups.length ≤ 4 then outReplaced else outDegraded)
  else outDegraded

/-- A unit that fails shakedown leaves service before it has a logical number. -/
def State.shakedownFails (s : State) (u : OutUnit) : State :=
  let s := s.attn C.SHAKEDOWN_FAILED [u.kind, u.cluster, u.unit]
  s.unitLeaves u.kind (failureOutcome (s.outUnits ++ [u]) u) u.cluster u.unit 0xFFFF

/-- Shakedown: every unit in service is tested; which fail is the module's own fact. -/
def State.shakedown (s : State) (cold : Bool) : State :=
  let (d, s) := s.draw
  let known := s.outUnits
  let found := ((Config.shakedown d).map namedUnit).eraseDups.filter (fun u => shaken cold u && !known.contains u)
  let s := found.foldl State.shakedownFails s
  let cores := found.countP (fun u => u.kind == kindCore)
  let vaults := found.countP (fun u => u.kind == kindVault)
  let s := (s.fset F.PCH_SHAKEDOWN_CORES 0 (min 255 cores)).fset F.PCH_SHAKEDOWN_VAULTS 0 (min 255 vaults)
  s.fset F.PCH_SHAKEDOWN_OTHER 0 (min 255 (found.length - cores - vaults))

/-- States of a channel (R49). -/
def chInService : Nat := 0
def chSelfRefresh : Nat := 1
def chOut : Nat := 2
def chUntrained : Nat := 3

/-- Every channel not out of service is trained; one that fails leaves service. -/
def State.trainChannels (s : State) : State :=
  let (d, s) := s.draw
  let known := s.outUnits
  let failed := (List.range 32).filter (fun ch =>
    !known.contains ⟨kindChannel, 0xFF, ch⟩ && (Config.badChannels d).contains ch)
  let s := failed.foldl (fun s ch =>
    (s.attn C.CHANNEL_TRAINING_FAILED [ch]).unitLeaves kindChannel outLost 0xFF ch ch) s
  let out := s.outUnits
  (List.range 32).foldl (fun s ch =>
    if out.contains ⟨kindChannel, 0xFF, ch⟩ then (s.clearBit F.LPT_AVAIL_CHANNELS ch).fset F.LPT_CH_STATUS_STATE ch chOut
    else (s.setBit F.LPT_AVAIL_CHANNELS ch).fset F.LPT_CH_STATUS_STATE ch chInService) s

/-- The channels in service enter or leave self-refresh. -/
def State.channelsTo (s : State) (st : Nat) : State :=
  (bitList 32 (s.fget F.LPT_AVAIL_CHANNELS)).foldl (fun s ch => s.fset F.LPT_CH_STATUS_STATE ch st) s

/-- Memory whose contents are lost has to be trained again. -/
def State.channelsUntrained (s : State) : State :=
  (List.range 32).foldl (fun s ch => s.fset F.LPT_CH_STATUS_STATE ch chUntrained) (s.fset F.LPT_AVAIL_CHANNELS 0 0)

def State.untrained (s : State) : Bool := (List.range 32).all (fun ch => s.fget F.LPT_CH_STATUS_STATE ch == chUntrained)

/-! ### Loading the image (R395 step 8) -/

/-- What the manifests name: TTH_ID and the registers of the image in force. -/
def State.identify (s : State) (man : Manifests) (slot : Nat) : State :=
  let s := (s.fset F.TTH_ID_DEVICE 0 man.device.toNat).fset F.TTH_ID_EPOCH 0 man.linkEpoch.toNat
  let s := (s.fset F.TTH_ID_EPOCH_MIN 0 man.linkEpochMin.toNat).fset F.TTH_ID_EPOCH_MAX 0 man.linkEpochMax.toNat
  let s := (s.fset F.PCH_STATUS_SLOT 0 slot).fset F.PCH_STATUS_SAMPLE 0 (b2n man.sample)
  let s := (s.fset F.PCH_VERSION_WARDEN 0 man.wardenVersion.toNat).fset F.PCH_VERSION_STEWARD 0 man.stewardVersion.toNat
  (s.fset F.PCH_IMAGE_PITCH_VERSION 0 man.pitchVersion.toNat).fset F.PCH_IMAGE_PITCH_FORMAT 0 (man.pitchFormat % 256)

/-- The counts of what the image holds. -/
def State.showImage (s : State) (im : Image) : State :=
  let s := (s.fset F.PIP_STATUS_PIPELINES 0 im.pipelines.length).fset F.PIP_STATUS_REGIONS 0 im.regions.length
  let s := (s.fset F.LAY_DESC_STATUS_PITCHED 0 im.descs.length).fset F.MTX_STATUS_GRAPHS 0 im.graphs.length
  let s := (s.fset F.PAT_STATUS_IMAGES 0 im.automata.length).fset F.PAT_STATUS_MEMORY_KIB 0
    (im.automata.foldl (fun (n : Nat) a => n + a.bytes.length) 0 / 1024)
  let s := (s.fset F.CMP_STATUS_DICTS 0 im.dicts.length).fset F.CMP_STATUS_DICT_KIB 0
    (im.dicts.foldl (fun (n : Nat) d => n + d.bytes.length) 0 / 1024)
  let s := im.streams.foldl (fun s e =>
    (s.fset F.ING_STREAM_STATE_DECLARED e.stream 1).fset F.ING_STREAM_STATE_GATEWAY e.stream e.gateway) s
  im.embTables.foldl (fun s t => s.fset F.EMB_TABLE_STATUS_DEFINED t.table 1) s

/-- The routing entries: entry i from entry i of the section (R385). -/
def State.loadRoutes (s : State) (routes : List (W64 × W64)) : State :=
  ((List.range routes.length).zip routes).foldl (fun s e =>
    (s.setRaw .TTH_ROUTE0 e.1 0 e.2.1).setRaw .TTH_ROUTE1 e.1 0 e.2.2) s

/-- A table's registers (R201). -/
def State.declareTable (s : State) (t : MstTableRec) : State :=
  let s := (s.fset F.MST_TABLE_CFG_FIRST t.table t.firstBlock).fset F.MST_TABLE_CFG_BLOCKS t.table t.blocks
  let s := (s.fset F.MST_TABLE_CFG_WIDTH t.table (b2n t.wide)).fset F.MST_TABLE_CFG_KIND t.table (b2n t.prefilter)
  s.fset F.MST_TABLE_CFG_DEFINED t.table 1

/-- The entries of a table with their logical block and index: record j stands j entries behind the first. -/
def MstTableRec.places (t : MstTableRec) : List (Nat × Nat × List Byte) :=
  ((List.range t.records.length).zip t.records).map (fun e =>
    (t.firstBlock + e.1 / blockEntries, e.1 % blockEntries, e.2))

/-- Whether a physical byte lies in a match-store shadow (R196). -/
def inShadow (p : Nat) : Bool := decide (p < 64 * vaultSize) && decide (reservedTop ≤ p % vaultSize)

/-- The shadows are written anew: empty but for the entries of the image. -/
def State.loadShadows (s : State) (ps : List (Nat × Nat × List Byte)) : State :=
  let side := { s.side with
    flaky := s.side.flaky.filter (fun e => !inShadow e.1), poison := s.side.poison.filter (fun w => !inShadow w) }
  let s := ({ s with mem := s.mem.filter (fun e => !inShadow e.1) }).setSide side
  ps.foldl (fun s e =>
    if s.side.lostVaults.contains e.1 then s else s.storeBytes (shadowAt e.1 e.2.1) (fitTo 64 e.2.2)) s

/-- The match store from the image, shadows and arrays (R184, R196). -/
def State.loadMatchStore (s : State) (tables : List MstTableRec) : State :=
  let s := tables.foldl State.declareTable s
  let ps := tables.flatMap MstTableRec.places
  let s := s.loadShadows ps
  let s := ps.foldl (fun s e =>
    match s.physBlock e.1 with
    | some b => s.mstSet (b * blockEntries + e.2.1) (entryOfRecord e.2.2)
    | none => s) s
  tables.foldl (fun s t =>
    match s.mstTab? t.table with
    | some m => s.setUsedEnd m
    | none => s) s

/-- The map to use at this pitch (R227): the kept copy if it is newer and of the same size, else the image's. -/
def chooseMap (kept : List ShardMap) (m : ShardMap) : ShardMap :=
  match kept.find? (fun k => k.map == m.map) with
  | some k => if k.devices.length = m.devices.length ∧ m.version.toNat < k.version.toNat then k else m
  | none => m

/-- Rows and maps for the tables of the image. Rows are found again under the image's declaration of their table; a
row whose table has another row length now cannot be. -/
def State.loadEmbedding (s : State) (im : Image) : State :=
  let keeps (r : Row) : Bool := im.embTables.any (fun t => t.table == r.table && t.rowBytes == r.bytes.length)
  let readable := s.power.copyHoles.isEmpty
  let maps := im.maps.map (chooseMap (if readable then s.emb.maps else []))
  s.modEmb (fun e => { e with rows := e.rows.filter keeps, maps := maps })

/-- The dictionaries copied into their region, one after another (R257). -/
def State.loadDictionaries (s : State) (im : Image) : State :=
  match s.region? im.dictRegion with
  | none => s
  | some r => s.writeLocal (r.localAddr 0 0) (im.dicts.flatMap Dict.bytes)

/-- The image's own watch words (R44). -/
def State.loadWatches (s : State) (addrs : List Nat) : State :=
  let s := addrs.foldl (fun s a =>
    match physOf a with
    | some p => (s.addWatch ⟨p, poolAddr s.device a, .pitched⟩).getD s
    | none => s) s
  s.fset F.VLT_WATCH_PITCHED 0 addrs.length

/-- The pitch copy is written whole (R369). -/
def State.writeCopies (s : State) : State := { s with power := { s.power with copyOk := true, copyHoles := [] } }

/-- Links begin to train, except those that the settings disable (R325, R327). -/
def State.startLinks (s : State) : State :=
  (List.range 64).foldl (fun s l =>
    s.fset F.TTH_LINK_STATUS_STATE l (if s.flag F.TTH_LINK_CTL_ENABLE l then lnkTraining else lnkDisabled)) s

/-- Every cluster that is not LOST runs from now on. -/
def State.startClusters (s : State) : State :=
  let now := s.now
  let s := { s with power := { s.power with idleSince := (List.range 12).map (fun c => (c, now)) } }
  ((List.range 12).filter s.clusterWorks).foldl (fun s c => s.fset F.PWS_CLUSTER_PLL_LOCKED c 1) s

/-- How LIT is reached: R395, R396, R370. -/
inductive PitchMode where
  | cold
  | quick
  | wake
deriving DecidableEq, Repr

/-- Memory, units and numbers at a pitch (steps 6 and 7); a clear of the Sticky set that awaits it takes effect (R429). A wake keeps them as they stand: a spare block of the match
store that was being loaded is a spare again. -/
def State.bringUp (s : State) (mode : PitchMode) : State :=
  match mode with
  | .wake =>
    let s := s.channelsTo chInService
    let back := (List.range 68).filter (fun b => s.fget F.MST_BLOCK_STATUS_STATE b == blkCopying)
    back.foldl (fun s b => (s.fset F.MST_BLOCK_STATUS_STATE b blkSpare).bump F.MST_STATUS_SPARES 0 1) s
  | m =>
    let cold := m == .cold
    let s := if s.units.clearAsked then
        ((s.modUnits (fun u => { u with clearAsked := false })).setOut []).fset F.PWS_WATCHDOG_STANDBY_OK 0 1 else s
    let s := s.fset F.FLT_UNIT_CLEAR_PENDING 0 0
    let s := if cold then s.trainChannels else s.channelsTo chInService
    ((s.shakedown cold).renumber cold).numberBlocks

/-- Everything the image gives the units (step 8). -/
def State.loadImage (s : State) (im : Image) (mode : PitchMode) : State :=
  let s := ((s.showImage im).loadRoutes im.routes).loadMatchStore im.mstTables
  let s := s.loadEmbedding im
  let s := if mode == .wake then s else (s.loadDictionaries im).writeCopies
  s.loadWatches im.watches

/-- LIT is reached (step 11); the links train and the device joins the fabric from now on (R398, log entry 51). -/
def State.reachLit (s : State) (lost : Bool) : State :=
  let s := s.startLinks.startClusters
  let s := { s with
    power := { s.power with state := .lit }
    tth := { s.tth with joining := some s.now, coldJoin := lost } }
  let s := (s.fset F.PCH_STATUS_STATE 0 1).closeCensus false
  s.pinsFollow

/-- From the verified image to LIT. -/
def State.pitchWith (s : State) (im : Image) (slot : Nat) (mode : PitchMode) : State :=
  let s := { s with image := some im }
  let s := ((s.applySettings (fun _ _ _ => true)).identify im.man slot).fset F.ODN_STATUS_PORT 0 1
  let s := ((s.bringUp mode).loadImage im mode).setActLimit
  s.reachLit (mode == .cold)

end Sys2Proof.Machine
end

