-- ==== Sys2Proof/Machine/Tether.lean ====
section
/-!
DEFINITION. The fabric as a whole: links that fail (R321), departures (R338), joining (R398), synchronisation of meridian
time (R339, R340), and what a Keeper writes to links and routes (R328, R343).
-/
namespace Sys2Proof.Machine
open Sys2Proof

/-! ### Departures (R338) -/

/-- The last departure number known of a device. -/
def State.lastSeen (s : State) (d : BitVec 20) : Nat :=
  ((s.tth.seen.find? (fun e => e.1 == d)).map (fun e => e.2)).getD 0

def State.noteDeparture (s : State) (d : BitVec 20) (n : Nat) : State :=
  let m := max n (s.lastSeen d)
  { s with tth := { s.tth with seen := s.tth.seen.filter (fun e => e.1 != d) ++ [(d, m)] } }

/-- DEPARTED for a device on every ACTIVE link but one. -/
def State.sendDeparted (s : State) (d : BitVec 20) (n : Nat) (notOn : Option Nat) : State :=
  (s.activeLinks.filter (fun l => notOn != some l)).foldl
    (fun s l => s.sendControl l 0x0D (natLe 4 d.toNat ++ natLe 4 n)) s

/-- A device has left the fabric: what awaited it fails, and the departure is reported (R119, R247, R248). -/
def State.left (s : State) (d : BitVec 20) : State :=
  let s := { s with tth := { s.tth with gone := s.tth.gone.filter (fun e => e != d) ++ [d] } }
  (((s.joinsDeparted d).embDeparted d).attn C.PEER_DEPARTED [d.toNat]).settleAll

/-- A neighbour resets: the links to it leave reserve (R335). -/
def State.peerResets (s : State) (d : BitVec 20) : State :=
  ((List.range 64).filter (fun l => s.fget F.TTH_LINK_STATUS_PEER_DEVICE l == d.toNat)).foldl
    (fun s l => (s.setLinkx { s.linkx l with replaced := false }).fset F.TTH_LINK_STATUS_RESERVE l 0) s

/-- A departure is passed on once for each device and number; a device's own number is only passed on (log entry 52). -/
def State.departs (s : State) (d : BitVec 20) (n : Nat) (arrival : Option Nat) : State :=
  if s.tth.departures.contains (d, n) then s
  else
    let s := { s with tth := { s.tth with departures := s.tth.departures ++ [(d, n)] } }
    let s := s.sendDeparted d n arrival
    if d = s.self then s else (s.noteDeparture d n).left d

/-- DEPARTED is received on a link. -/
def departed (link : Fin 64) (device : BitVec 20) (number : Nat) (s : State) : State :=
  if !s.mayArrive link 0x0D then s
  else
    let peer := BitVec.ofNat 20 (s.fget F.TTH_LINK_STATUS_PEER_DEVICE link)
    let s := s.takeInbox 0x0D peer
    (if device = peer then s.peerResets device else s).departs device number (some link.val)

/-- The device announces its own departure, under the next number (R338). -/
def State.ownDeparture (s : State) : State :=
  let s := { s with tth := { s.tth with departure := s.tth.departure + 1 } }
  let n := s.tth.departure
  let s := { s with tth := { s.tth with departures := s.tth.departures ++ [(s.self, n)] } }
  s.sendDeparted s.self n none

/-! ### A link fails (R321) -/

/-- The reason as LINK_DOWN carries it (log entry 53). -/
def DownReason.code : DownReason → Nat
  | .eightNaks => 0
  | .noProgress => 1
  | .lossOfSignal => 2

/-- Whether the reason holds: eight NAKs in a row with one ACK, or 10 µs without ACK progress. -/
def State.linkFails (s : State) (l : Nat) (why : DownReason) : Bool :=
  let x := s.linkx l
  match why with
  | .eightNaks => decide (x.nakCount ≥ 8)
  | .noProgress => !x.replay.isEmpty && decide (x.ackAt + 10000 ≤ s.now)
  | .lossOfSignal => true

/-- LINK_DOWN: a link leaves service and retrains; the last ACTIVE link to a neighbour is the neighbour's departure. -/
def linkDown (link : Fin 64) (why : DownReason) (s : State) : State :=
  let l := link.val
  let st := s.linkState l
  if !(st == lnkActive || st == lnkStandby || st == lnkMaintenance) || !s.linkFails l why then s
  else
    let peer := s.fget F.TTH_LINK_STATUS_PEER_DEVICE l
    let s := (s.bump F.TTH_LINK_ERR_RETRAINS l 1).leaveService l lnkRetraining
    let s := (s.attn C.LINK_DOWN [l, DownReason.code why]).chooseParent
    let s := s.unitReport 0x0D (if s.tth.replacedBy.any (fun p => p.1 == l) then outReplaced else outDegraded) 0xFF l l
    if st = lnkActive ∧ s.activeLinks.all (fun k => s.fget F.TTH_LINK_STATUS_PEER_DEVICE k != peer) then
      let d := BitVec.ofNat 20 peer
      s.departs d (s.lastSeen d + 1) none
    else s

/-! ### Joining (R398) -/

/-- The version of each map that a REQUEST lists. -/
def State.joinVersions (s : State) : List Nat :=
  (List.range 16).map (fun n => ((s.map? n).map (fun m => m.version.toNat)).getD 0xFFFFFFFF)

def joinBody (kind device departure : Nat) (versions : List Nat) (maps : List Byte) : List Byte :=
  natLe 1 kind ++ zeros 3 ++ natLe 4 device ++ natLe 4 departure ++ zeros 4 ++
    (List.range 16).flatMap (fun i => natLe 4 (versions.getD i 0)) ++ maps

/-- A map as its header and entries (R225). -/
def mapBytes (m : ShardMap) : List Byte :=
  natLe 2 m.map ++ zeros 2 ++ natLe 4 m.devices.length ++ natLe 4 m.version.toNat ++ zeros 4 ++
    m.devices.flatMap (fun d => natLe 4 d.toNat)

/-- Send a message to a neighbour, as a train when it is longer than one packet carries (R329). -/
def State.sendTrain (s : State) (l kind tag : Nat) : List (List Byte) → State
  | [] => s
  | b :: r =>
    let h := s.header 0xFFFFF 2 kind b.length tag
    State.sendTrain (s.enqueue l ⟨{ h with more := !r.isEmpty }, b⟩) l kind tag r

/-- While the device joins, a link that has become ACTIVE carries a REQUEST. -/
def State.joinAsk (s : State) (l : Nat) : State :=
  if s.tth.joining.isNone ∨ s.linkState l ≠ lnkActive then s
  else
    let s := s.sendControl l 0x0F (joinBody 0 s.device s.tth.departure s.joinVersions [])
    { s with tth := { s.tth with joining := some s.now, joinWaiting := s.tth.joinWaiting ++ [l] } }

/-- The highest version received of a map, with as many positions as this device's own. -/
def bestMap (own : ShardMap) (maps : List MapRecord) : Option MapRecord :=
  (maps.filter (fun m => m.map == own.map && m.devices.length == own.devices.length)).foldl
    (fun best m =>
      match best with
      | none => if own.version < m.version then some m else none
      | some b => if b.version < m.version then some m else best)
    none

/-- Adopt a newer map: positions that it gives to this device without their rows are reported (R227). -/
def State.adoptMap (s : State) (own : ShardMap) (m : MapRecord) : State :=
  let change (x : ShardMap) : ShardMap := { x with version := m.version, devices := m.devices }
  let s := s.modEmb (fun e => { e with maps := updWhere (fun x => x.map == own.map) change e.maps })
  let pairs := (List.range own.devices.length).zip (own.devices.zip m.devices)
  let bare := pairs.filter (fun p =>
    p.2.2 == s.self && (p.2.1 != s.self || s.tth.coldJoin) && (s.rowsAt own.map p.1).isEmpty)
  bare.foldl (fun s p =>
    (s.embTables.filter (fun t => t.map == own.map)).foldl
      (fun s t => s.attn C.SHARD_DEGRADED [own.map, p.1, t.table]) s) s

/-- The wait is over: the device adopts what it has, and reports the links without an answer. -/
def State.joinEnd (s : State) : State :=
  let late := s.tth.joinWaiting
  let maps := s.tth.joinMaps
  let s := { s with tth := { s.tth with joining := none, joinWaiting := [], joinMaps := [] } }
  let s := s.emb.maps.foldl (fun s own =>
    match bestMap own maps with
    | some m => s.adoptMap own m
    | none => s) s
  late.foldl (fun s l => s.attn C.JOIN_TIMEOUT [l]) s

/-- Joining ends once every neighbour asked has replied and no link is training. -/
def State.joinCheck (s : State) : State :=
  if s.tth.joining.isSome ∧ s.tth.joinWaiting.isEmpty ∧ (s.linksIn (· == lnkTraining)).isEmpty then s.joinEnd else s

/-- LINK_INIT, with the REQUEST of a device that joins. -/
def State.linkInitJoin (s : State) (link : Fin 64) (b : LinkInitBody) : State :=
  let before := s.linkState link
  let s := linkInit link b s
  if before = s.linkState link then s else (s.joinAsk link).joinCheck

/-- The record of a device's departure ends. -/
def State.returned (s : State) (d : BitVec 20) : State :=
  { s with tth := { s.tth with gone := s.tth.gone.filter (fun e => e != d) } }

/-- JOIN REQUEST: answered with every map newer than the version it lists; a higher departure number ends the record of
that device's departure. -/
def joinRequest (link : Fin 64) (device : BitVec 20) (departure : Nat) (versions : List W32) (s : State) : State :=
  if s.linkState link ≠ lnkActive then s
  else
    let s := s.takeInbox 0x0F device
    let s := if s.lastSeen device < departure then
        (s.peerResets device).returned device else s
    let s := s.noteDeparture device departure
    let newer := s.emb.maps.filter (fun m => versions.getD m.map 0xFFFFFFFF#32 < m.version)
    let body := joinBody 1 s.device s.tth.departure [] (newer.flatMap mapBytes)
    let (tag, s) := s.newTag
    s.sendTrain link 0x0F tag (chunksOf 65504 (body.length + 1) body)

/-- JOIN REPLY: its maps are kept until every neighbour has replied. -/
def joinReply (link : Fin 64) (device : BitVec 20) (departure : Nat) (maps : List MapRecord) (s : State) : State :=
  if s.linkState link ≠ lnkActive then s
  else
    let s := (s.takeInbox 0x0F device).noteDeparture device departure
    if s.tth.joining.isNone ∨ !s.tth.joinWaiting.contains link.val then s
    else
      let s := { s with tth := { s.tth with
        joinWaiting := s.tth.joinWaiting.filter (fun l => l != link.val)
        joinMaps := s.tth.joinMaps ++ maps } }
      s.joinCheck

/-- JOIN_WAIT_EXPIRY: 2 ms have passed since the last REQUEST. -/
def joinWaitExpiry (s : State) : State :=
  match s.tth.joining with
  | some t => if t + 2000000 ≤ s.now ∧ !s.tth.joinWaiting.isEmpty then s.joinEnd else s
  | none => s

/-- A link that has failed to train keeps joining waiting no longer. -/
def State.trainingFailedJoin (s : State) (link : Fin 64) (step : Fin 7) : State := (trainingFailed link step s).joinCheck

/-! ### Meridian time over the links (R340) -/

/-- The link to the parent, of a device that has one. -/
def State.parentLink (s : State) : Option Nat :=
  if s.fget F.TTH_TIME_STRATUM = 0 ∨ s.fget F.TTH_TIME_STRATUM = 255 then none
  else
    let l := s.fget F.TTH_TIME_PARENT_LINK
    if s.linkState l = lnkActive then some l else none

/-- Every 1 ms TIME_SYNC goes to the parent, with T1. -/
def timeSyncTimer (s : State) : State :=
  match s.parentLink with
  | none => s
  | some l =>
    if !s.lit ∨ s.now < s.tth.syncAt + 1000000 then s
    else
      let s := s.sendControl l 0x08 (natLe 8 s.meridian ++ zeros 16)
      { s with tth := { s.tth with syncAt := s.now } }

/-- Half of a difference of times; a half nanosecond may go either way (log entry 57). -/
def halfNs (up : Bool) (d : Int) : Int := if up then -((-d) / 2) else d / 2

/-- Use an answer: before the first lock the time is set, from then on it is corrected by rate (R340). -/
def State.useSync (s : State) (t1 t2 t3 : Nat) : State :=
  let t4 := s.meridian
  let (d, s) := s.draw
  let offset := halfNs (Config.coin d) (((t2 : Int) - t1) - ((t4 : Int) - t3))
  let s := s.fset F.TTH_TIME_OFFSET_NS 0 (ofSigned 32 offset)
  let near := decide (offset.natAbs < 1000)
  let n := if near then s.tth.exchanges + 1 else 0
  let locked := s.flag F.TTH_TIME_LOCKED
  let s := { s with tth := { s.tth with exchanges := n } }
  let s :=
    if s.tth.everLocked then { s with clock := { s.clock with corr := offset } }
    else if offset = 0 then s
    else s.stepTime (shiftTime s.meridian offset)
  let s := if locked ∧ offset.natAbs > 100000 then s.attn C.TIME_FAULT [] else s
  if n ≥ 8 then
    let s := { s with tth := { s.tth with everLocked := true } }
    s.fset F.TTH_TIME_LOCKED 0 1
  else s

/-- TIME_SYNC: a request is answered on the same link, an answer from the parent is used; both tell the neighbour's
stratum. -/
def timeSync (link : Fin 64) (answer : Bool) (t1 t2 t3 stratum : Nat) (s : State) : State :=
  let l := link.val
  if s.linkState l ≠ lnkActive then s
  else
    let s := s.takeInbox 0x08 (BitVec.ofNat 20 (s.fget F.TTH_LINK_STATUS_PEER_DEVICE l))
    let s := { s with tth := { s.tth with peerStrata := assocSet s.tth.peerStrata l stratum } }
    let s := s.chooseParent
    if answer then (if s.parentLink = some l then s.useSync t1 t2 t3 else s)
    else s.sendControl l 0x08 (natLe 8 t1 ++ natLe 8 s.meridian ++ natLe 8 s.meridian)

/-! ### Register writes of links and routes (R328, R343) -/

/-- Send LINK_RESET to the neighbour of a trained link: kind 0 RETRAIN, 1 WARM. -/
def State.sendReset (s : State) (l kind : Nat) : State :=
  let st := s.linkState l
  if st = lnkActive ∨ st = lnkStandby ∨ st = lnkMaintenance then s.sendControl l 0x0C (natLe 1 kind ++ zeros 7) else s

/-- ENABLE of a link has been written; `old` is what it was: 0 holds the link DISABLED, 1 starts training. -/
def State.linkEnabled (s : State) (l : Nat) (old : Bool) : State :=
  let new := s.flag F.TTH_LINK_CTL_ENABLE l
  if new = old then s
  else if new then
    (s.fset F.TTH_LINK_STATUS_STATE l lnkTraining).setLinkx { s.linkx l with failedOnce := false }
  else (s.leaveService l lnkDisabled).chooseParent

/-- A routing entry has been written; `before` is its old traffic list, if it was in use: the pairs whose link changed are
held, and the change is reported. -/
def State.routeWritten (s : State) (e : Nat) (before : Option (List Nat)) : State :=
  let now := ((s.routeTable.find? (fun r => r.index == e && !r.sourceRoute)).map s.traffic).getD []
  match before with
  | none => s
  | some old =>
    if old = now then s
    else (s.holdOthers e old none).attn C.ROUTE_CHANGED [old.headD 0, 1]

/-- The traffic list of an entry in use. -/
def State.entryTraffic (s : State) (e : Nat) : Option (List Nat) :=
  (s.routeTable.find? (fun r => r.index == e && !r.sourceRoute)).map s.traffic

end Sys2Proof.Machine
end

