-- ==== Sys2Proof/Machine/Resets.lean ====
section
/-!
DEFINITION. Resets and power states: what each keeps (R377), which image a pitch takes (R382, R392 to R394), the reset
kinds (R372), BANKED and DOUSED (R369 to R371), the watchdog (R374), 48 V and the reset pins (R453, R454).
-/
namespace Sys2Proof.Machine

open Sys2Proof

/-! ### What an event keeps (R377) -/

/-- What the units and the supervisor hold ends when their clocks stop or they are reset: runs, sessions, core stores
and unit SRAM. Rows and maps of the pool follow the memory. -/
def State.endUnits (s : State) : State :=
  { s with
    core := [], runs := [], work := [], runDescs := [], heldRegions := [], resident := [], disp := Disp.empty,
    odn := Odn.empty, pat := [], mst := Mst.empty, trust := ⟨false, []⟩,
    pmc := { Pmc.empty with windowStart := s.meridian, gap := true },
    gov := { Gov.empty with hotSensors := s.gov.hotSensors },
    tth := { Tth.empty with departure := s.tth.departure },
    emb := { Emb.empty with rows := s.emb.rows, maps := s.emb.maps },
    side := { s.side with
      watches := [], remote := [], idleSince := [], flaky := s.side.flaky.filter (fun e => decide (e.1 < 2 ^ 44)) },
    clock := { s.clock with corr := 0, wasZero := false },
    power := { s.power with
      waking := [], idleSince := [], lastResets := [], alarmAt := none, waits := [], blocked := false } }

/-- Vaults and LPDDR6 lose their contents, the rows and the pitch copy with them. -/
def State.loseMemory (s : State) : State :=
  ({ s with
    mem := [], side := MemSide.empty, emb := Emb.empty,
    power := { s.power with copyOk := false, copyHoles := [] } }).channelsUntrained

/-- Registers of the chosen classes return to their reset values (R377, R445). Pin levels are no settings (R453), and
the static address of the management bus follows the MOD_ADDR pins (R455); a clear of the Sticky set that has been asked
for goes on waiting for a pitch in `units.clearAsked` (R429, log entry 70). -/
def State.wipeRegs (s : State) (which : Cls → Bool) : State :=
  let s := { s with regs := defaultRegs which (fun (id : RegId) _ _ => id != RegId.MOD_PINS) s.regs }
  s.fset F.MOD_MGMT_ADDRESS 0 (0x58 + s.fget F.MOD_PINS_ADDR)

def butLantern (c : Cls) : Bool := c != .lantern

/-- A device reset takes effect: `lost` says whether it loses memory, `which` the classes that it does not keep. -/
def State.wipe (s : State) (lost : Bool) (which : Cls → Bool) : State :=
  let s := (s.endUnits).wipeRegs which
  let s := if lost then { s.loseMemory with image := none } else s.channelsTo chSelfRefresh
  { s with power := { s.power with state := .pitching } }

/-- The device tells its neighbours that it leaves (R338, R373). -/
def State.announceDeparture (s : State) : State :=
  if s.lit then
    let links := s.activeLinks
    links.foldl (fun s l => s.pump 512 l) s.ownDeparture
  else s

/-! ### Which image (R382, R392, R393) -/

def failsField (slot : Nat) : FRef := if slot = 0 then F.PCH_BOOT_FAILS_0 else F.PCH_BOOT_FAILS_1

def State.candidate (s : State) (slot : Nat) : Bool := s.flash.hasMagic slot && decide (s.fget (failsField slot) < 3)

/-- The slot that the boot counter chooses, if a candidate is left. -/
def State.chooseSlot (s : State) : Option Nat × State :=
  let next := s.fget F.PCH_BOOT_NEXT_SLOT
  if (next = 1 ∨ next = 2) ∧ s.candidate (next - 1) then (some (next - 1), s.fset F.PCH_BOOT_NEXT_SLOT 0 0)
  else
    match s.candidate 0, s.candidate 1 with
    | true, true => (some (if s.flash.sequence 0 < s.flash.sequence 1 then 1 else 0), s)
    | true, false => (some 0, s)
    | false, true => (some 1, s)
    | false, false => (none, s)

/-- A refusal is recorded, and signature, key and rollback failures are counted (R392, R401). -/
def State.recordRefusal (s : State) (slot : Nat) (b : Bad) : State :=
  let s := (s.fset F.PCH_REFUSE_CODE 0 b.code.toNat).fset F.PCH_REFUSE_SECTION 0 b.section_
  let s := ((s.fset F.PCH_REFUSE_SLOT 0 slot).fset F.PCH_REFUSE_SIG 0 b.sig).fset F.PCH_REFUSE_VALID 0 1
  if b.code = C.SIGNATURE_FAILED then s.bump F.PCH_SECURITY_SIG_FAILS 0 1
  else if b.code = C.ROLLBACK then s.bump F.PCH_SECURITY_ROLLBACKS 0 1
  else if b.code = C.KEY_UNKNOWN then s.bump F.PCH_SECURITY_KEYS 0 1
  else s

/-- What the boot ROM comes to. -/
inductive Boot where
  | image (slot : Nat) (im : Image) (tested : Bool)
  | untested
  | golden

/-- Try the slot given, or the one that the boot counter chooses, then the next candidate, over `fuel` attempts; the
refusals are gathered, oldest first. -/
def State.boot : Nat → Option Nat → List (Nat × Bad) → State → Boot × List (Nat × Bad) × State
  | 0, _, refused, s => (.golden, refused, s)
  | fuel + 1, given, refused, s =>
    let (choice, s) := match given with
      | some k => (if k < 2 then some k else none, s)
      | none => s.chooseSlot
    match choice with
    | none => (.golden, refused, s)
    | some k =>
      let s := s.fset (failsField k) 0 (min 3 (s.fget (failsField k) + 1))
      match s.fuses.verify (s.flash.slot k) false with
      | .good im tested => (.image k im tested, refused, s)
      | .untested _ => (.untested, refused, s.fset (failsField k) 0 3)
      | .refused b =>
        State.boot fuel none (refused ++ [(k, b)]) ((s.fset (failsField k) 0 3).recordRefusal k b)

/-- SLOT_REFUSED for every slot refused, once the port is up. -/
def State.reportRefused (s : State) (l : List (Nat × Bad)) : State :=
  l.foldl (fun s e => s.attn C.SLOT_REFUSED [e.1, e.2.code.toNat, e.2.section_]) s

/-! ### Bivouac (R394) -/

def bivouacBlock (id : RegId) (i j : Nat) : Bool :=
  let b := blockOf (regAddr id i j)
  b == 0x0D || b == 0x0E

/-- Bivouac mode on the golden slot's Warden; with no golden image either, the boot ROM halts. -/
def State.bivouac (s : State) (reason : Code) (refused : List (Nat × Bad)) : State :=
  let enter (im : Image) : State :=
    let last := if s.flag F.PCH_REFUSE_VALID then s.fget F.PCH_REFUSE_CODE else 0
    let s := { s with image := some { Image.bare im.man with settings := im.settings } }
    let s := ((s.applySettings bivouacBlock).identify im.man 2).fset F.ODN_STATUS_PORT 0 1
    let s := { s.startLinks with power := { s.power with state := .bivouac, copyOk := false } }
    let s := (s.fset F.PCH_STATUS_STATE 0 2).fset F.PCH_STATUS_REASON 0 reason.toNat
    (s.pinsFollow.reportRefused refused).attn C.BIVOUAC_ENTERED [reason.toNat, last]
  match s.fuses.verify s.flash.golden true with
  | .good im _ => enter im
  | .untested im => enter im
  | .refused b =>
    let s := s.recordRefusal 2 b
    ({ s with power := { s.power with state := .halted, copyOk := false } }).pinsFollow

/-! ### A pitch from flash -/

/-- Pitch from flash, from the slot given or from one that the boot counter chooses; `cold` says that memory has to be
trained and cleared, as it has to wherever its contents have been lost. -/
def State.pitchFlash (s : State) (cold : Bool) (given : Option Nat) : State :=
  let s := s.bump F.PCH_BOOT_BOOT_COUNT 0 1
  match s.boot 3 given [] with
  | (.golden, refused, s) => s.bivouac C.RECOVERY refused
  | (.untested, refused, s) => s.bivouac C.VERSION_UNTESTED refused
  | (.image k im tested, refused, s) =>
    let mode : PitchMode := if cold || s.untrained then .cold else .quick
    let s := if tested then s else s.fset F.PCH_STATUS_UNTESTED 0 1
    let s := s.pitchWith im k mode
    let s := if tested then s.fset F.PCH_STATUS_UNTESTED 0 0 else s
    let (d, s) := s.draw
    let ms := (Config.pitchMs d).toNat
    let s := ((s.fset (failsField k) 0 0).fset F.PCH_SHAKEDOWN_PITCH_MS 0 ms).fset F.PCH_STATUS_QUICK 0 (b2n (mode == .quick))
    let s := ({ s with power := { s.power with tripped := false, wakeHeld := false } }).fset F.FLT_GOV_TRIPPED 0 0
    (s.pinsFollow.reportRefused refused).attn C.PITCHED
      [k, b2n (mode == .quick), ms, im.man.wardenVersion.toNat, im.man.stewardVersion.toNat, im.man.pitchVersion.toNat]

/-! ### Device resets (R372, R373) -/

/-- The kinds of device reset that pitch from flash. -/
inductive ResetKind where
  | powerOn
  | warmPin
  | warmTether
  | soft
  | watchdog
  | quickRepitch
  | coldRepitch
  | dousedWake
deriving DecidableEq, Repr

def ResetKind.code : ResetKind → Nat
  | .powerOn => 0
  | .warmPin => 1
  | .warmTether => 2
  | .soft => 3
  | .watchdog => 4
  | .quickRepitch => 5
  | .coldRepitch => 6
  | .dousedWake => 8

def ResetKind.cold : ResetKind → Bool
  | .powerOn | .coldRepitch | .dousedWake => true
  | _ => false

def ResetKind.warm : ResetKind → Bool
  | .warmPin | .warmTether | .soft | .watchdog => true
  | _ => false

/-- PWS_RESET_COUNT; `held` says that 48 V was there throughout. -/
def State.countReset (s : State) (k : ResetKind) (held : Bool) : State :=
  match k with
  | .warmPin | .warmTether => s.bump F.PWS_RESET_COUNT_WARM 0 1
  | .soft | .quickRepitch | .coldRepitch => s.bump F.PWS_RESET_COUNT_SOFT 0 1
  | .watchdog => s.bump F.PWS_RESET_COUNT_WATCHDOG 0 1
  | .powerOn => if held then s.bump F.PWS_RESET_COUNT_POWER_ON 0 1 else s
  | .dousedWake => s

/-- A device that was BANKED or DOUSED is LIT again: POWER_STATE_CHANGED with the new state, and after a wake its
duration. -/
def State.leftLow (s : State) (before : DevState) (us : Option Nat) : State :=
  if (before == .banked || before == .doused) && s.lit then s.attn C.POWER_STATE_CHANGED ([0, 0] ++ us.toList) else s

/-- The duration of a wake, measured to LIT (R378). -/
def State.timeWake (s : State) : Nat × State :=
  let (d, s) := s.draw
  let us := (Config.wakeUs d).toNat
  (us, if s.lit then s.fset F.PWS_WAKE_LAST_US 0 us else s)

/-- A device reset. A warm one takes the slot in force, which a DOUSED device has none of. -/
def State.deviceReset (s : State) (k : ResetKind) (held : Bool) : State :=
  let before := s.power.state
  let inForce := s.fget F.PCH_STATUS_SLOT
  let given := if k.warm && before != .doused then some inForce else none
  let s := if k == .powerOn then s else s.announceDeparture
  let s := s.wipe k.cold (if k == .powerOn then butLantern else settingsOnly)
  let s := if k == .powerOn then
      ({ s with clock := { s.clock with meridian := 0 }, power := { s.power with tripped := false } }).setOut [] else s
  let s := ((s.countReset k held).fset F.PWS_STATE_LAST_RESET 0 k.code).faultEvent k.code 0
  let s := s.pitchFlash k.cold given
  if k == .dousedWake then
    let (us, s) := s.timeWake
    s.leftLow before (some us)
  else s.leftLow before none

/-- Whether the logic can be reset: 48 V and PWRGOOD are there (R453). -/
def State.powered (s : State) : Bool := s.power.input48 && s.power.pwrgood

def State.warmPinReset (s : State) : State := if s.powered then s.deviceReset .warmPin true else s

/-! ### BANKED and DOUSED (R369 to R371, R432) -/

/-- Enter BANKED or DOUSED: the Runtime class returns to its defaults with the logic's power (R7, R377); the Pitch class is
applied again at the wake. The alarm is in ms, 0 for none. -/
def State.enterLow (s : State) (doused : Bool) (alarmMs : Nat) : State :=
  let s := if s.upAndRunning then s.attn C.POWER_STATE_CHANGED [if doused then 3 else 2, alarmMs] else s
  let s := s.announceDeparture.endUnits.wipeRegs (· == .runtime)
  let s := if doused then (s.bump F.PWS_WAKE_DOUSED 0 1) else s.bump F.PWS_WAKE_BANKED 0 1
  let s := if doused then { s.loseMemory with image := none } else s.channelsTo chSelfRefresh
  let s := s.fset F.ODN_STATUS_PORT 0 0
  let at_ := if alarmMs = 0 then none else some (s.now + alarmMs * 1000000)
  { s with power := { s.power with state := if doused then .doused else .banked, alarmAt := at_ } }

/-- PWS_REQUEST (R369): refused while a run is active, unless FORCE is set. -/
def State.requestLow (s : State) (doused force : Bool) : Option Code :=
  let _ := doused
  if !force && !s.runs.isEmpty then some C.RUNS_ACTIVE else none

/-- Wake from BANKED: from the pitch copy, or where it fails by a quick pitch from flash (R370). -/
def State.wakeBanked (s : State) : State :=
  let inForce := s.fget F.PCH_STATUS_SLOT
  let whole := s.power.copyOk && s.power.copyHoles.isEmpty
  let im := s.image
  let s := ((s.wipe false settingsOnly).fset F.PWS_STATE_LAST_RESET 0 7).faultEvent 7 0
  let s := match whole, im with
    | true, some im => s.pitchWith im inForce .wake
    | _, _ => (s.attn C.PITCH_COPY_FAILED []).pitchFlash false none
  let (us, s) := s.timeWake
  s.leftLow .banked (some us)

/-- Every sensor has fallen below TRIP_C − 20 °C (R432). -/
def State.cooled (s : State) : Bool :=
  s.gov.hotSensors.all (fun e => decide (e.2 + 20 < s.fget F.FLT_CTL_TRIP_C))

/-- Wake from either state. -/
def State.wakeNow (s : State) : State :=
  let s := { s with power := { s.power with tripped := false, wakeHeld := false, alarmAt := none } }
  match s.power.state with
  | .banked => s.wakeBanked.pinsFollow
  | .doused => s.deviceReset .dousedWake true
  | _ => s

/-- WAKE on the management bus: a tripped device keeps it until it has cooled. -/
def State.wakeAsked (s : State) : State :=
  if s.power.state == .banked || s.power.state == .doused then
    if s.power.tripped && !s.cooled then { s with power := { s.power with wakeHeld := true } } else s.wakeNow
  else s

/-- ALARM: the time set at entry has come; it is ignored while the device is tripped. -/
def alarm (s : State) : State :=
  match s.power.alarmAt with
  | some t => if t ≤ s.now && !s.power.tripped then s.wakeNow else s
  | none => s

/-- DOUSE on the management bus, from any state that has something to douse. -/
def State.douseAsked (s : State) : State :=
  match s.power.state with
  | .lit | .bivouac | .banked | .halted => s.enterLow true 0
  | _ => s

/-- One sensor's reading. -/
def State.sensorReads (s : State) (i temp : Nat) : State :=
  { s with gov := { s.gov with
      hotSensors := insertBy (fun a b => a.1 ≤ b.1) (i, temp) (s.gov.hotSensors.filter (fun (e : Nat × Nat) => e.1 != i)) } }

/-- THERMAL_TRIP: a sensor has reached TRIP_C (R432). -/
def thermalTrip (sensor : Fin 64) (temp : Nat) (s : State) : State :=
  if s.upAndRunning && decide (s.fget F.FLT_CTL_TRIP_C ≤ temp) then
    let s := s.sensorReads sensor temp
    let s := (s.attn C.THERMAL_TRIP [sensor, temp]).faultLog C.THERMAL_TRIP.toNat kindSensor outEvent 0xFF sensor sensor sensor
    let s := ({ s with power := { s.power with tripped := true } }).fset F.FLT_GOV_TRIPPED 0 1
    (s.enterLow false 0).pinsFollow
  else s

/-- MOD_THERM_N: the sensors' readings have crossed THROTTLE_C one way or the other; a WAKE that waited for a tripped
device to cool is acted on. -/
def modThermN (temps : List Nat) (s : State) : State :=
  let s := s.readSensors temps
  if s.power.wakeHeld && s.cooled then s.wakeNow else s

/-! ### The watchdog and the supervisors (R374) -/

/-- The standby supervisor takes over. -/
def State.takeOver (s : State) : State :=
  let old := s.fget F.PWS_WATCHDOG_ACTIVE
  let s := ((s.fset F.PWS_WATCHDOG_ACTIVE 0 (1 - old)).fset F.PWS_WATCHDOG_STANDBY_OK 0 0).bump F.PWS_WATCHDOG_TAKEOVERS 0 1
  (s.attn C.WATCHDOG_TAKEOVER [1 - old]).faultLog C.WATCHDOG_TAKEOVER.toNat kindSupervisor outReplaced 0xFF old 0xFFFF (1 - old)

/-- WATCHDOG_EXPIRY; the watchdog does not run in BANKED or DOUSED (R371). -/
def watchdogExpiry (s : State) : State :=
  if !s.upAndRunning then s
  else if s.flag F.PWS_WATCHDOG_STANDBY_OK then s.takeOver
  else s.deviceReset .watchdog true

/-- The active supervisor core fails: the standby takes over, or with none left the lantern domain resets the device. -/
def State.supervisorFails (s : State) : State :=
  let active := s.fget F.PWS_WATCHDOG_ACTIVE
  let spare := s.flag F.PWS_WATCHDOG_STANDBY_OK
  let s := (s.unitLeaves kindSupervisor (if spare then outReplaced else outLost) 0xFF active 0xFFFF).pinsFollow
  if spare then s.takeOver else s.deviceReset .watchdog true

/-- UNIT_FAILED: the Warden declares a unit failed. -/
def unitFailed (u : HwUnit) (s : State) : State :=
  match u with
  | .supervisor => if s.upAndRunning then s.supervisorFails else s
  | u => if s.lit then s.unitFails u else s

/-! ### Power (R372, R453, R454) -/

/-- LINK_RESET WARM from a neighbour (R328): a warm reset where PEER_RESET allows it. -/
def linkResetWarm (_link : Fin 64) (s : State) : State :=
  if s.upAndRunning && s.flag F.TTH_CTL_PEER_RESET then s.deviceReset .warmTether true else s

/-- 48 V has come: the lantern domain starts, and with PWRGOOD the device. -/
def State.supplyOn (s : State) : State :=
  let s := { s with power := { s.power with input48 := true, stuckOpen := false, retries := 0 } }
  if s.power.pwrgood then s.deviceReset .powerOn false else s

def powerOn (why : PowerOnCause) (s : State) : State :=
  match why with
  | .input48V => if s.power.input48 && s.power.state != .pitching then s else s.supplyOn
  | .pwrgoodRise =>
    if s.power.pwrgood then s
    else
      let s := ({ s with power := { s.power with pwrgood := true } }).fset F.MOD_PINS_PWRGOOD 0 1
      if s.power.input48 then s.deviceReset .powerOn true else s
  | .resetHeld => if s.powered then s.deviceReset .powerOn true else s

/-- The logic rails are gone: what they fed has lost everything, memory included. -/
def State.railsOff (s : State) : State :=
  let s := s.wipe true settingsOnly
  { s with power := { s.power with state := .off, wakeHeld := false } }

/-- PWRGOOD_FALL: the lantern domain and the Lantern class survive. -/
def pwrgoodFall (s : State) : State :=
  if s.power.pwrgood then
    let s := if s.power.input48 then s.railsOff else s
    ({ s with power := { s.power with pwrgood := false } }).fset F.MOD_PINS_PWRGOOD 0 0
  else s

/-- LOSS_OF_48V: nothing that is not in flash or fuses survives. -/
def lossOf48V (s : State) : State :=
  let pins := s.raw .MOD_PINS 0 0
  let s := s.railsOff
  let s := { s with
    regs := [], flog := [], mgmt := ⟨none⟩, units := Units.empty, gov := Gov.empty, pmc := Pmc.empty, tth := Tth.empty,
    clock := ⟨0, 0, 0, 0, false⟩, power := { s.power with input48 := false, tripped := false } }
  let s := s.setRaw .MOD_PINS 0 0 pins
  let s := s.fset F.MOD_MGMT_ADDRESS 0 (0x58 + s.fget F.MOD_PINS_ADDR)
  (s.fset F.MOD_PINS_THERM 0 0).fset F.MOD_PINS_FAULT 0 0

/-- INPUT_SWITCH_RETRY: 1 s after a short circuit the switch closes again, or finds the short a third time and stays open. -/
def inputSwitchRetry (shorted : Bool) (s : State) : State :=
  if s.power.input48 || s.power.stuckOpen then s
  else if shorted then
    { s with power := { s.power with retries := s.power.retries + 1, stuckOpen := decide (3 ≤ s.power.retries + 1) } }
  else s.supplyOn

/-- PITCH_COPY_REWRITE: the missing parts of the pitch copy have been written again from the slot in force (R425). -/
def pitchCopyRewrite (s : State) : State :=
  if s.lit then { s with power := { s.power with copyHoles := [] } } else s

end Sys2Proof.Machine
end

