-- ==== Sys2Proof/Machine/RegAccess.lean ====
section
/-!
DEFINITION. READ_REG and WRITE_REG (R351, R356, R440 to R446): the checks of a write in their order, what an accepted write
does to each field, and the actions that writes to some registers start.
-/
namespace Sys2Proof.Machine

open Sys2Proof

/-- Draw `n` values the manual leaves open. -/
def State.draws (s : State) (n : Nat) : Nat × State := (s.free, { s with free := s.free + n })

/-! ### Reading -/

/-- Read registers from address `a` on, up to the first refusal: the words, and what stopped the read. -/
def State.readRegs (keeper : Bool) : Nat → Nat → State → List W64 × Code × State
  | 0, _, s => ([], C.OK, s)
  | n + 1, a, s =>
    let (d, s) := s.draws 4
    match s.readOne keeper a d with
    | .error c => ([], c, s)
    | .ok w =>
      let (ws, c, s) := State.readRegs keeper n (a + 8) s
      (w :: ws, c, s)

/-- The READ_REG response body: DONE, then the words. -/
def readBody (ws : List W64) : List Byte := natLe 4 ws.length ++ zeros 4 ++ ws.flatMap (fun w => natLe 8 w.toNat)

def State.doReadReg (s : State) (x : Session) (addr : W64) (count : Nat) : Answer :=
  if count < 1 ∨ 64 < count then s.refuse C.MESSAGE_INVALID
  else
    let (ws, c, s) := State.readRegs (x.role == .keeper) count addr.toNat s
    (s, c, readBody ws)

/-! ### The checks of a write (R442) -/

/-- The refusal by access, reserved bits and values. -/
def RegDef.writeRefusal (d : RegDef) (id : RegId) (keeper : Bool) (w : W64) : Option Code :=
  let acts (f : FieldDef) : Bool := f.view keeper == .rw || f.view keeper == .wo
  let route := id == .TTH_ROUTE0 || id == .TTH_ROUTE1
  if d.closed keeper || d.fields.any (fun f => f.view keeper == .na && f.value w != 0) then some C.ACCESS_DENIED
  else if d.reservedBits w != 0 then some (if route then C.ROUTE_INVALID else C.VALUE_REFUSED)
  else if d.refuses acts w || (d.fields.any acts && jointRefuses id w) then
    some (if route then C.ROUTE_INVALID else C.VALUE_REFUSED)
  else none

/-- What an accepted write leaves in the fields of a view: RW fields take the value, W1C bits written 1 clear (R5). -/
def RegDef.written (d : RegDef) (keeper : Bool) (old w : W64) : W64 :=
  let rw := d.maskOf (fun f => f.view keeper == .rw)
  let w1c := d.maskOf (fun f => f.view keeper == .w1c)
  ((old &&& ~~~ rw) ||| (w &&& rw)) &&& ~~~ (w &&& w1c)

/-- Fields fixed after pitching (R444): the ranges of bits a register may not change. -/
def fixedBits (id : RegId) : List (Nat × Nat) :=
  match id with
  | .PIP_CTL => [(6, 0)]
  | .VLT_OPS_CTL => [(9, 0), (16, 16)]
  | .MTX_CTL => [(9, 0)]
  | .EMB_CTL => [(39, 24)]
  | _ => []

def fixedChanged (id : RegId) (old new : W64) : Bool :=
  (fixedBits id).any (fun (b : Nat × Nat) => bitsOf old.toNat b.1 b.2 != bitsOf new.toNat b.1 b.2)

/-! ### Actions -/

/-- The fuses are burned by two registers' writes alone (R390, R391): what else a write starts leaves them as they are. -/
def State.sameFuses (s t : State) : State := { t with fuses := s.fuses }

/-- Whether the logbook's settings are refused (R315). -/
def State.logBad (s : State) (ctl : W64) : Bool :=
  let size := s.fget F.DSP_LOG_SIZE_SIZE_LOG
  let base := s.fget F.DSP_LOG_BASE_OFFSET
  match s.region? (bitsOf ctl.toNat 27 16) with
  | none => true
  | some r =>
    !(r.kind == .vaultSingle || r.kind == .interleaved) || decide (base % 4096 ≠ 0) || decide (size < 10) ||
      decide (24 < size) || decide (r.size < base + 32 * 2 ^ size)

/-- The refusal of a write to a logbook register: while ENABLE is 1 only ENABLE may change. -/
def State.logRefusal (s : State) (id : RegId) (old new : W64) : Bool :=
  let on := s.flag F.DSP_LOG_CTL_ENABLE
  match id with
  | .DSP_LOG_CTL =>
    if on then (old ||| 1) != (new ||| 1) else bitAt new.toNat 0 && s.logBad new
  | .DSP_LOG_BASE | .DSP_LOG_SIZE => on && old != new
  | _ => false

/-- Burn an owner's digest into a position (R390). -/
def Fuses.enroll (f : Fuses) (k : Nat) (digest : List Byte) : Fuses := { f with owners := f.owners.set k (some digest) }

/-- Burn a position's revocation bit. -/
def Fuses.revoke (f : Fuses) (k : Nat) : Fuses := { f with revoked := f.revoked.set k true }

/-- The staged digest, PCH_ENROLL_DIGEST0–7. -/
def State.stagedDigest (s : State) : List Byte :=
  (List.range 8).flatMap (fun i => natLe 8 (s.raw .PCH_ENROLL_DIGEST i 0).toNat)

/-- Positions that hold a digest and are not revoked. -/
def Fuses.live (f : Fuses) : List Nat :=
  (List.range 4).filter (fun k => (f.owners.getD k none).isSome && !f.revoked.getD k false)

/-- FUSE_REFUSED (R390). -/
def State.fuseRefused (s : State) (k : Nat) (enroll revoke : Bool) : Bool :=
  let signed := match s.image with | some im => im.man.owner && im.man.signer == k | none => false
  (enroll && (s.fuses.owners.getD k none).isSome) || (revoke && (s.fuses.live == [k] || signed))

/-- PCH_ENROLL_CMD. -/
def State.fuseCommand (s : State) (k : Nat) (enroll revoke : Bool) : Code × State :=
  if s.fuseRefused k enroll revoke then (C.FUSE_REFUSED, s)
  else
    let f := if enroll then s.fuses.enroll k s.stagedDigest else s.fuses
    (C.OK, { s with fuses := if revoke then f.revoke k else f })

/-- The fuse counters at the SVNs of the manifests in force; none falls, none passes 64 (R391). -/
def Fuses.commit (f : Fuses) (m : Manifests) : Fuses :=
  { f with
    svnWarden := max f.svnWarden (min 64 m.svnWarden), svnSteward := max f.svnSteward (min 64 m.svnSteward),
    svnPitch := max f.svnPitch (min 64 m.svnPitch) }

/-- PCH_ROLLBACK.COMMIT. -/
def State.commitRollback (s : State) : State :=
  match s.image with
  | some im => { s with fuses := s.fuses.commit im.man }
  | none => s

/-- PCH_SLOT.CHECK: the slot is verified without pitching (R392). A pair that has not been tested does not pass. -/
def State.checkSlot (s : State) (k : Nat) : State :=
  match s.fuses.verify (s.flash.slot k) false with
  | .good _ _ => s.fset F.PCH_SLOT_CHECK_OK k 1
  | .untested _ => (s.fset F.PCH_SLOT_CHECK_OK k 0).recordRefusal k (bad C.VERSION_UNTESTED)
  | .refused b =>
    ((s.fset F.PCH_SLOT_CHECK_OK k 0).recordRefusal k b).attn C.SLOT_REFUSED [k, b.code.toNat, b.section_]

/-- PCH_BOOT.NEXT_SLOT clears the FAILS count of the slot it names (R382). -/
def State.nextSlotNamed (s : State) : State :=
  match s.fget F.PCH_BOOT_NEXT_SLOT with
  | 1 => s.fset F.PCH_BOOT_FAILS_0 0 0
  | 2 => s.fset F.PCH_BOOT_FAILS_1 0 0
  | _ => s

/-- PCH_QUOTE_CTL.GO: a quote is begun, or the certificate is put into the window (R399, R400). -/
def State.quoteGoes (s : State) : State :=
  if s.flag F.PCH_QUOTE_CTL_SELECT then
    let s := { s with trust := ⟨false, s.flash.certificate⟩ }
    (s.fset F.PCH_QUOTE_CTL_READY 0 1).fset F.PCH_QUOTE_CTL_LENGTH 0 (min 4096 s.flash.certificate.length)
  else
    let s := { s with trust := ⟨true, []⟩ }
    (s.fset F.PCH_QUOTE_CTL_READY 0 0).fset F.PCH_QUOTE_CTL_LENGTH 0 0

/-- A compression engine returns from quarantine (R261). -/
def State.engineReleased (s : State) (c e : Nat) : State :=
  let pc := s.physCluster c
  let s := s.fset2 F.CMP_ENG_STATUS_VERIFY_FAILS c e 0
  let s := s.modUnits (fun u => { u with cmpOut := u.cmpOut.filter (fun (k : Nat × Nat) => k != (c, e)) })
  (s.setOut (s.units.outSet.filter (fun o => o != (⟨kindCompression, pc, e⟩ : OutUnit)))).settleAll

/-- FLT_LOG_SEL.CLEAR empties the fault log; TOTAL is kept. -/
def State.clearFaultLog (s : State) : State := ({ s with flog := [] }).fset F.FLT_LOG_SEL_COUNT 0 0

/-- What a Keeper's link commands ask: RETRAIN, SEND_RESET (R325, R328). -/
def State.linkCommands (s : State) (l : Nat) (w : W64) : State :=
  let s := match bitsOf w.toNat 10 9 with
    | 1 => s.sendReset l 0
    | 2 => s.sendReset l 1
    | _ => s
  if bitAt w.toNat 8 then s.retrain l else s

/-- The refusal of a write for what only its register's own rule knows (R62, R189, R244, R315, R369, R416, R444). -/
def State.actionRefusal (s : State) (id : RegId) (old new w : W64) : Option Code :=
  if fixedChanged id old new then some C.VALUE_REFUSED
  else if s.logRefusal id old new then some C.LOG_INVALID
  else
    match id with
    | .PMC_TD_CTL => if bitsOf new.toNat 1 0 = 2 ∧ !s.runs.isEmpty then some C.TEST_REFUSED else none
    | .PWS_REQUEST => s.requestLow (bitAt w.toNat 0) (bitAt w.toNat 2)
    | _ => none

/-- What a refused write leaves behind: the logbook says why it was refused (R315). -/
def State.refusalTrace (s : State) (id : RegId) (new : W64) : State :=
  if id == .DSP_LOG_CTL && bitAt new.toNat 0 && !s.flag F.DSP_LOG_CTL_ENABLE then
    s.fset F.DSP_LOG_STATUS_CODE 0 C.LOG_INVALID.toNat
  else s

/-- What follows a write to registers of the operators' and links' blocks. `old` is what stood there, `w` what was written. -/
def State.actUnits (s : State) (id : RegId) (i j : Nat) (old w : W64) : Code × State :=
  match id with
  | .MST_CTL => (C.OK, s.setActLimit)
  | .MST_CMD => s.mstCommand (bitsOf w.toNat 3 0) (bitsOf w.toNat 11 8) (bitsOf w.toNat 34 16)
  | .EMB_MIGRATE =>
    if w = 0 then (C.OK, s)
    else
      s.startMigration (bitsOf w.toNat 15 0) (bitsOf w.toNat 19 16) (BitVec.ofNat 20 (bitsOf w.toNat 39 20)) (bitAt w.toNat 40)
  | .CMP_ENG_STATUS => (C.OK, if bitAt old.toNat 1 && bitAt w.toNat 1 then s.engineReleased i j else s)
  | .DSP_LOG_CTL =>
    (C.OK, if bitAt w.toNat 0 && !bitAt old.toNat 0 then s.setRaw .DSP_LOG_STATUS 0 0 0 else s)
  | .TTH_LINK_CTL => (C.OK, (s.linkEnabled i (bitAt old.toNat 0)).linkCommands i w)
  | _ => (C.OK, s)

/-- What follows a write to a counter's registers (R408). -/
def State.counterHook (s : State) (id : RegId) (i j : Nat) (old : W64) : State :=
  let bank : RegId := if id == .PMC_CNT_CTL || id == .PMC_CNT then .PMC_CNT_CTL else .PMC_CL_CNT_CTL
  match counterAt (regAddr bank i j) with
  | none => s
  | some r => if id == .PMC_CNT_CTL || id == .PMC_CL_CNT_CTL then s.counterSet r old else s.countWritten r

/-- What follows a write to registers of the device's own blocks. -/
def State.actDevice (s : State) (id : RegId) (i j : Nat) (old w : W64) : Code × State :=
  match id with
  | .PWS_CLUSTER => (C.OK, if bitAt w.toNat 8 then s.clusterReset i 1 else s)
  | .PCH_BOOT => (C.OK, s.nextSlotNamed)
  | .PCH_QUOTE_CTL => (C.OK, if bitAt w.toNat 0 then s.quoteGoes else s)
  | .PCH_SLOT => (C.OK, if bitAt w.toNat 32 then s.checkSlot i else s)
  | .PMC_TD_CTL => (C.OK, s.banksFollow)
  | .PMC_CNT_CTL | .PMC_CNT | .PMC_CL_CNT_CTL | .PMC_CL_CNT => (C.OK, s.counterHook id i j old)
  | .FLT_CTL => (C.OK, s.pinsFollow)
  | .FLT_UNIT_CLEAR =>
    (C.OK, if bitAt w.toNat 0 then
        { s with units := { s.units with clearAsked := true } }.fset F.FLT_UNIT_CLEAR_PENDING 0 1 else s)
  | .FLT_LOG_SEL => (C.OK, if bitAt w.toNat 63 then s.clearFaultLog else s)
  | _ => (C.OK, s)

/-! ### Writing -/

/-- What a register write comes to: its code, the state, and BANKED or DOUSED with an alarm where it asks for it. -/
structure Written where
  code : Code
  state : State
  low : Option (Bool × Nat)

/-- What follows a write: fuses are burned, or the registers' other actions start. -/
def State.act (s : State) (id : RegId) (i j : Nat) (old w : W64) : Code × State :=
  match id with
  | .PCH_ROLLBACK => (C.OK, if bitAt w.toNat 0 then s.commitRollback else s)
  | .PCH_ENROLL_CMD => s.fuseCommand (bitsOf w.toNat 1 0) (bitAt w.toNat 8) (bitAt w.toNat 9)
  | id =>
    let u := s.actUnits id i j old w
    let d := if u.1 = C.OK then u.2.actDevice id i j old w else u
    (d.1, s.sameFuses d.2)

/-- In bivouac mode a register of a block that does not act keeps its Runtime and Pitch fields (R445). -/
def State.writeHeld (s : State) (id : RegId) (i j : Nat) (old new w : W64) : State :=
  let m := (regDef id).clsMask (fun c => c == .sticky || c == .lantern)
  let s := s.setRaw id i j ((old &&& ~~~ m) ||| (new &&& m))
  if id == .CMP_ENG_STATUS then s.sameFuses (s.actUnits id i j old w).2 else s

/-- The two words of a routing entry together break R343. -/
def State.routeRefused (s : State) (id : RegId) (i : Nat) (new : W64) : Bool :=
  match id with
  | .TTH_ROUTE0 => routeBad new (s.raw .TTH_ROUTE1 i 0)
  | .TTH_ROUTE1 => routeBad (s.raw .TTH_ROUTE0 i 0) new
  | _ => false

/-- The write of one register whose word has passed the checks of R442. -/
def State.writeAccepted (s : State) (keeper : Bool) (id : RegId) (i j : Nat) (w : W64) : Written :=
  let d := regDef id
  let old := s.raw id i j
  let new := d.written keeper old w
  let acts := d.fields.any (fun f => f.view keeper == .rw || f.view keeper == .wo || f.view keeper == .w1c)
  if !acts || s.pageGone id i then ⟨C.OK, s, none⟩
  else if s.power.state == .bivouac && !bivouacActs id then ⟨C.OK, s.writeHeld id i j old new w, none⟩
  else if s.routeRefused id i new then ⟨C.ROUTE_INVALID, s, none⟩
  else
    match s.actionRefusal id old new w with
    | some c => ⟨c, s.refusalTrace id new, none⟩
    | none =>
      let before := s.entryTraffic i
      let s := s.setRaw id i j new
      if id == .TTH_ROUTE0 || id == .TTH_ROUTE1 then ⟨C.OK, s.sameFuses (s.routeWritten i before), none⟩
      else if id == .PWS_REQUEST then ⟨C.OK, s, some (bitAt w.toNat 0, bitsOf w.toNat 47 16)⟩
      else
        let r := s.act id i j old w
        ⟨r.1, r.2, none⟩

/-- A write of one register. -/
def State.writeOne (s : State) (keeper : Bool) (a : Nat) (w : W64) : Written :=
  if a % 8 ≠ 0 then ⟨C.REG_UNMAPPED, s, none⟩
  else
    match locate a with
    | none => ⟨C.REG_UNMAPPED, s, none⟩
    | some (id, i, j) =>
      match (regDef id).writeRefusal id keeper w with
      | some c => ⟨c, s, none⟩
      | none => s.writeAccepted keeper id i j w

/-- The routing entry whose first word stands at an address. -/
def routeAt (a : Nat) : Option Nat := ((regDef .TTH_ROUTE0).instanceAt a).map (fun (e : Nat × Nat) => e.1)

/-- Both words of a routing entry in one step (R336, R442). -/
def State.writeRoute (s : State) (keeper : Bool) (e : Nat) (w0 w1 : W64) : Written :=
  match (regDef .TTH_ROUTE0).writeRefusal .TTH_ROUTE0 keeper w0, (regDef .TTH_ROUTE1).writeRefusal .TTH_ROUTE1 keeper w1 with
  | some c, _ => ⟨c, s, none⟩
  | none, some c => ⟨c, s, none⟩
  | none, none =>
    if !keeper || s.power.state == .bivouac then ⟨C.OK, s, none⟩
    else if routeBad w0 w1 then ⟨C.ROUTE_INVALID, s, none⟩
    else
      let before := s.entryTraffic e
      ⟨C.OK, s.sameFuses (((s.setRaw .TTH_ROUTE0 e 0 w0).setRaw .TTH_ROUTE1 e 0 w1).routeWritten e before), none⟩

/-- Write registers from address `a` on, up to the first refusal: how many were written. -/
def State.writeRegs (keeper : Bool) : List W64 → Nat → State → Nat × Written
  | [], _, s => (0, ⟨C.OK, s, none⟩)
  | [w], a, s =>
    let r := s.writeOne keeper a w
    (b2n (r.code == C.OK), r)
  | w0 :: w1 :: rest, a, s =>
    match routeAt a with
    | some e =>
      let r := s.writeRoute keeper e w0 w1
      if r.code == C.OK then
        let (n, q) := State.writeRegs keeper rest (a + 16) r.state
        (n + 2, q)
      else (0, r)
    | none =>
      let r := s.writeOne keeper a w0
      if r.code == C.OK then
        let (n, q) := State.writeRegs keeper (w1 :: rest) (a + 8) r.state
        (n + 1, { q with low := q.low.or r.low })
      else (0, r)

/-- The response of a WRITE_REG, and then what a write to PWS_REQUEST asked for. -/
def State.writeAnswer (s : State) (h : Hdr) (n : Nat) (r : Written) : State :=
  let s := s.respond h.session tyWriteReg h.seq r.code (natLe 4 n ++ zeros 4)
  match r.low with
  | some (doused, ms) => s.enterLow doused ms
  | none => s

/-- A WRITE_REG command of 1 to 64 registers. -/
def State.writeCommand (s : State) (h : Hdr) (addr : W64) (words : List W64) : State :=
  match s.receive h tyWriteReg false with
  | .lost => s
  | .answered t => s.sameFuses t
  | .execute x t =>
    let t := s.sameFuses t
    if !h.wellShaped ∨ words.length < 1 ∨ 64 < words.length then
      s.sameFuses (t.respond h.session tyWriteReg h.seq C.MESSAGE_INVALID [])
    else
      let (n, r) := State.writeRegs (x.role == .keeper) words addr.toNat t
      r.state.sameFuses (r.state.writeAnswer h n r)

def readReg (h : Hdr) (addr : W64) (count : Nat) (s : State) : State :=
  s.command h tyReadReg (fun x s => s.doReadReg x addr count)

def writeReg (h : Hdr) (addr : W64) (words : List W64) (s : State) : State := s.writeCommand h addr words

/-- A write of one named register. -/
def State.writeNamed (s : State) (h : Hdr) (id : RegId) (i j : Nat) (w : W64) : State :=
  s.writeCommand h (BitVec.ofNat 64 (regAddr id i j)) [w]

/-! ### Commands that are writes to one register -/

def mstWord (op : Nat) (table : BitVec 4) (addr : BitVec 19) : W64 :=
  put (put (put 0 F.MST_CMD_OP op) F.MST_CMD_TABLE table.toNat) F.MST_CMD_ADDR addr.toNat

def mstWrite (h : Hdr) (table : BitVec 4) (addr : BitVec 19) (s : State) : State :=
  s.writeNamed h .MST_CMD 0 0 (mstWord 1 table addr)
def mstInsert (h : Hdr) (table : BitVec 4) (addr : BitVec 19) (s : State) : State :=
  s.writeNamed h .MST_CMD 0 0 (mstWord 2 table addr)
def mstRemove (h : Hdr) (table : BitVec 4) (addr : BitVec 19) (s : State) : State :=
  s.writeNamed h .MST_CMD 0 0 (mstWord 3 table addr)
def mstRead (h : Hdr) (table : BitVec 4) (addr : BitVec 19) (s : State) : State :=
  s.writeNamed h .MST_CMD 0 0 (mstWord 4 table addr)
def mstSearch (h : Hdr) (table : BitVec 4) (s : State) : State := s.writeNamed h .MST_CMD 0 0 (mstWord 5 table 0)

def migrateWord (position : BitVec 16) (map : BitVec 4) (newOwner : BitVec 20) (force : Bool) : W64 :=
  put (put (put (put 0 F.EMB_MIGRATE_POSITION position.toNat) F.EMB_MIGRATE_MAP map.toNat) F.EMB_MIGRATE_NEW_OWNER
    newOwner.toNat) F.EMB_MIGRATE_FORCE (b2n force)

def migrate (h : Hdr) (position : BitVec 16) (map : BitVec 4) (newOwner : BitVec 20) (s : State) : State :=
  s.writeNamed h .EMB_MIGRATE 0 0 (migrateWord position map newOwner false)
def migrateForce (h : Hdr) (position : BitVec 16) (map : BitVec 4) (newOwner : BitVec 20) (s : State) : State :=
  s.writeNamed h .EMB_MIGRATE 0 0 (migrateWord position map newOwner true)

/-- The settings of TTH_LINK_CTL as they stand. -/
def State.linkWord (s : State) (l : Nat) : W64 :=
  put (put 0 F.TTH_LINK_CTL_ENABLE (s.fget F.TTH_LINK_CTL_ENABLE l)) F.TTH_LINK_CTL_STANDBY (s.fget F.TTH_LINK_CTL_STANDBY l)

def retrain (h : Hdr) (link : Fin 64) (s : State) : State :=
  s.writeNamed h .TTH_LINK_CTL link 0 (put (s.linkWord link) F.TTH_LINK_CTL_RETRAIN 1)
def sendResetRetrain (h : Hdr) (link : Fin 64) (s : State) : State :=
  s.writeNamed h .TTH_LINK_CTL link 0 (put (s.linkWord link) F.TTH_LINK_CTL_SEND_RESET 1)
def sendResetWarm (h : Hdr) (link : Fin 64) (s : State) : State :=
  s.writeNamed h .TTH_LINK_CTL link 0 (put (s.linkWord link) F.TTH_LINK_CTL_SEND_RESET 2)
def linkDisable (h : Hdr) (link : Fin 64) (enable : Bool) (s : State) : State :=
  s.writeNamed h .TTH_LINK_CTL link 0 (put (s.linkWord link) F.TTH_LINK_CTL_ENABLE (b2n enable))

def tthRouteWrite (h : Hdr) (entry : Fin 4096) (word0 word1 : W64) (s : State) : State :=
  s.writeCommand h (BitVec.ofNat 64 (regAddr .TTH_ROUTE0 entry 0)) [word0, word1]

def logEnable (h : Hdr) (value : W64) (s : State) : State := s.writeNamed h .DSP_LOG_CTL 0 0 value

def engineRelease (h : Hdr) (c : Fin 12) (e : Fin 2) (s : State) : State :=
  s.writeNamed h .CMP_ENG_STATUS c e (put 0 F.CMP_ENG_STATUS_QUARANTINED 1)

def requestWord (state : Nat) (force : Bool) (alarmMs : W32) : W64 :=
  put (put (put 0 F.PWS_REQUEST_STATE state) F.PWS_REQUEST_FORCE (b2n force)) F.PWS_REQUEST_ALARM_MS alarmMs.toNat

def bankRequest (h : Hdr) (force : Bool) (alarmMs : W32) (s : State) : State :=
  s.writeNamed h .PWS_REQUEST 0 0 (requestWord 2 force alarmMs)
def douseRequest (h : Hdr) (force : Bool) (alarmMs : W32) (s : State) : State :=
  s.writeNamed h .PWS_REQUEST 0 0 (requestWord 3 force alarmMs)

/-- WAKES keeps its count beside RESET. -/
def pwsClusterReset (h : Hdr) (c : Fin 12) (s : State) : State :=
  s.writeNamed h .PWS_CLUSTER c 0 (put (s.raw .PWS_CLUSTER c 0) F.PWS_CLUSTER_RESET 1)

def slotCheck (h : Hdr) (slot : Fin 2) (s : State) : State :=
  s.writeNamed h .PCH_SLOT slot 0 (put 0 F.PCH_SLOT_CHECK 1)
def nextSlot (h : Hdr) (value : BitVec 2) (s : State) : State :=
  s.writeNamed h .PCH_BOOT 0 0 (put 0 F.PCH_BOOT_NEXT_SLOT value.toNat)
def rollbackCommit (h : Hdr) (s : State) : State :=
  s.writeNamed h .PCH_ROLLBACK 0 0 (put 0 F.PCH_ROLLBACK_COMMIT 1)
def enroll (h : Hdr) (position : Fin 4) (s : State) : State :=
  s.writeNamed h .PCH_ENROLL_CMD 0 0 (put (put 0 F.PCH_ENROLL_CMD_POSITION position.val) F.PCH_ENROLL_CMD_ENROLL 1)
def revoke (h : Hdr) (position : Fin 4) (s : State) : State :=
  s.writeNamed h .PCH_ENROLL_CMD 0 0 (put (put 0 F.PCH_ENROLL_CMD_POSITION position.val) F.PCH_ENROLL_CMD_REVOKE 1)
def quoteGo (h : Hdr) (s : State) : State := s.writeNamed h .PCH_QUOTE_CTL 0 0 (put 0 F.PCH_QUOTE_CTL_GO 1)
def certificateLoad (h : Hdr) (s : State) : State :=
  s.writeNamed h .PCH_QUOTE_CTL 0 0 (put (put 0 F.PCH_QUOTE_CTL_GO 1) F.PCH_QUOTE_CTL_SELECT 1)

def unitClear (h : Hdr) (s : State) : State := s.writeNamed h .FLT_UNIT_CLEAR 0 0 (put 0 F.FLT_UNIT_CLEAR_CLEAR 1)
/-- INDEX keeps its value beside CLEAR. -/
def logClear (h : Hdr) (s : State) : State :=
  s.writeNamed h .FLT_LOG_SEL 0 0 (put (put 0 F.FLT_LOG_SEL_INDEX (s.fget F.FLT_LOG_SEL_INDEX)) F.FLT_LOG_SEL_CLEAR 1)

/-- COUNTER_WRITE: the count is replaced, OVF stands (R408). -/
def counterWrite (h : Hdr) (r : CounterRef) (value : BitVec 48) (s : State) : State :=
  let id : RegId := match r with | .global _ => .PMC_CNT | .cluster _ _ => .PMC_CL_CNT
  s.writeNamed h id r.i r.j (put 0 F.PMC_CNT_VALUE value.toNat)

def tdTest (h : Hdr) (clusters : BitVec 12) (s : State) : State :=
  s.writeNamed h .PMC_TD_CTL 0 0 (put (put 0 F.PMC_TD_CTL_MODE 2) F.PMC_TD_CTL_CLUSTERS clusters.toNat)
def tdOff (h : Hdr) (s : State) : State := s.writeNamed h .PMC_TD_CTL 0 0 0

end Sys2Proof.Machine
end

