-- ==== Sys2Proof/Machine/ExecExchange.lean ====
section
/-!
DEFINITION. The commands of the embedding pool and the exchange (R220 to R249), and of joins that span devices (R119 to R122).
-/
namespace Sys2Proof.Machine

open Sys2Proof

/-- ROUND_CLOSE (R230). -/
def execRoundClose (round : Fin 16) (cause : CloseCause) (s : State) : Host.Outcome State Fault Refusal :=
  .next (s.holdFlash ((roundClose round cause s).settleAll))

/-- ROUND_TIMEOUT (R233). -/
def execRoundTimeout (round : Fin 16) (s : State) : Host.Outcome State Fault Refusal :=
  .next (s.holdFlash ((roundTimeout round s).settleAll))

/-- LOOKUP_REQ (R231). -/
def execLookupReq (b : BundleHdr) (ids : List Entry) (s : State) : Host.Outcome State Fault Refusal :=
  .next (s.holdFlash (lookupReq b ids s))

/-- LOOKUP_RESP (R232). -/
def execLookupResp (b : BundleHdr) (es : List Entry) (s : State) : Host.Outcome State Fault Refusal :=
  .next (s.holdFlash ((lookupResp b es s).settleAll))

/-- UPDATE_REQ (R237). -/
def execUpdateReq (b : BundleHdr) (es : List Entry) (s : State) : Host.Outcome State Fault Refusal :=
  .next (s.holdFlash (updateReq b es s))

/-- UPDATE_ACK (R237). -/
def execUpdateAck (b : BundleHdr) (es : List Entry) (s : State) : Host.Outcome State Fault Refusal :=
  .next (s.holdFlash ((updateAck b es s).settleAll))

/-- FORWARD_REQ (R245). -/
def execForwardReq (b : BundleHdr) (es : List Entry) (s : State) : Host.Outcome State Fault Refusal :=
  .next (s.holdFlash (forwardReq b es s))

/-- FORWARD_RESP (R232). -/
def execForwardResp (b : BundleHdr) (es : List Entry) (s : State) : Host.Outcome State Fault Refusal :=
  .next (s.holdFlash ((forwardResp b es s).settleAll))

/-- HOT_PUSH (R243). -/
def execHotPush (b : BundleHdr) (es : List Entry) (s : State) : Host.Outcome State Fault Refusal :=
  .next (s.holdFlash (hotPush b es s))

/-- HOT_INVALIDATE (R243). -/
def execHotInvalidate (b : BundleHdr) (es : List Entry) (s : State) : Host.Outcome State Fault Refusal :=
  .next (s.holdFlash (hotInvalidate b es s))

/-- HOT_ACK (R243). -/
def execHotAck (b : BundleHdr) (s : State) : Host.Outcome State Fault Refusal :=
  .next (s.holdFlash ((hotAck b s).settleAll))

/-- HOT_DECAY (R242). -/
def execHotDecay (s : State) : Host.Outcome State Fault Refusal :=
  .next (s.holdData (hotDecay s))

/-- MIGRATE (R244). -/
def execMigrate (h : Hdr) (position : BitVec 16) (map : BitVec 4) (newOwner : BitVec 20)
    (s : State) : Host.Outcome State Fault Refusal :=
  .next (s.holdFlash (migrate h position map newOwner (s.odrenIn h.relayed 24 true)))

/-- MIGRATE_FORCE (R247). -/
def execMigrateForce (h : Hdr) (position : BitVec 16) (map : BitVec 4) (newOwner : BitVec 20)
    (s : State) : Host.Outcome State Fault Refusal :=
  .next (s.holdFlash (migrateForce h position map newOwner (s.odrenIn h.relayed 24 true)))

/-- AUTO_MIGRATE_CHECK (R244). -/
def execAutoMigrateCheck (served : MapServed) (s : State) : Host.Outcome State Fault Refusal :=
  .next (s.holdFlash (autoMigrateCheck served.map served.counts s))

/-- MIGRATE_ROWS (R245). -/
def execMigrateRows (b : BundleHdr) (es : List Entry) (s : State) : Host.Outcome State Fault Refusal :=
  .next (s.holdFlash (migrateRows b es s))

/-- MIGRATE_ACK (R245). -/
def execMigrateAck (b : BundleHdr) (lastId : W64) (s : State) : Host.Outcome State Fault Refusal :=
  .next (s.holdFlash ((migrateAck b lastId s).settleAll))

/-- MAP_UPDATE (R245). -/
def execMapUpdate (b : BundleHdr) (position : Nat) (device : BitVec 20) (version : W32)
    (s : State) : Host.Outcome State Fault Refusal :=
  .next (s.holdFlash ((mapUpdate b position device version s).settleAll))

/-- FORWARDING_END (R245). -/
def execForwardingEnd (slot : Fin 8) (s : State) : Host.Outcome State Fault Refusal :=
  .next (s.holdFlash (forwardingEnd slot s))

/-- MIGRATE_FREE (R249). -/
def execMigrateFree (slot : Fin 8) (s : State) : Host.Outcome State Fault Refusal :=
  .next (s.holdFlash (migrateFree slot s))

/-- MIGRATION_TIMEOUT (R247). -/
def execMigrationTimeout (slot : Fin 8) (s : State) : Host.Outcome State Fault Refusal :=
  .next (s.holdFlash (migrationTimeout slot s))

/-- END_OF_BUILD (R119). -/
def execEndOfBuild (b : BundleHdr) (s : State) : Host.Outcome State Fault Refusal :=
  .next (s.holdFlash ((endOfBuild b s).settleAll))

/-- PARTITION_ROWS (R248). -/
def execPartitionRows (b : BundleHdr) (stage : Nat) (rows : List (List (List Byte × Bool × Bool)))
    (s : State) : Host.Outcome State Fault Refusal :=
  .next (s.holdFlash ((partitionRows b stage rows s).settleAll))

/-- ROW_WRITE_FORWARDED (R240). -/
def execRowWriteForwarded (source : BitVec 20) (tag : Nat) (table : Nat) (id : W64) (scale : W32) (row : List Byte)
    (s : State) : Host.Outcome State Fault Refusal :=
  .next (s.holdFlash (rowWriteForwarded source tag table id scale row s))

end Sys2Proof.Machine
end

