-- ==== Sys2Proof/Machine/ExecMatch.lean ====
section
/-!
DEFINITION. The commands of the match store (R177 to R205).
-/
namespace Sys2Proof.Machine

open Sys2Proof

/-- MST_WRITE (R189). -/
def execMstWrite (h : Hdr) (table : BitVec 4) (addr : BitVec 19) (s : State) : Host.Outcome State Fault Refusal :=
  .next (s.holdData (mstWrite h table addr (s.odrenIn h.relayed 24 true)))

/-- MST_INSERT (R189). -/
def execMstInsert (h : Hdr) (table : BitVec 4) (addr : BitVec 19) (s : State) : Host.Outcome State Fault Refusal :=
  .next (s.holdData (mstInsert h table addr (s.odrenIn h.relayed 24 true)))

/-- MST_REMOVE (R189). -/
def execMstRemove (h : Hdr) (table : BitVec 4) (addr : BitVec 19) (s : State) : Host.Outcome State Fault Refusal :=
  .next (s.holdData (mstRemove h table addr (s.odrenIn h.relayed 24 true)))

/-- MST_READ (R189). -/
def execMstRead (h : Hdr) (table : BitVec 4) (addr : BitVec 19) (s : State) : Host.Outcome State Fault Refusal :=
  .next (s.holdData (mstRead h table addr (s.odrenIn h.relayed 24 true)))

/-- MST_SEARCH (R190). -/
def execMstSearch (h : Hdr) (table : BitVec 4) (s : State) : Host.Outcome State Fault Refusal :=
  .next (s.holdData (mstSearch h table (s.odrenIn h.relayed 24 true)))

/-- A task whose searches are all answered goes on (R99, R124, R210). -/
def State.searcherGoesOn (s : State) (a : Asking) : State :=
  match (s.task? a.task).bind (fun t => (s.stage? t.slot t.stage).map StageRec.op) with
  | some .bucket => (s.orBlocked (bucket a.task)).settleAll
  | some .dictJoin => (s.orBlocked (dictJoin a.task)).settleAll
  | some .parse => (s.orBlocked (parse a.task)).settleAll
  | _ => s

def State.searchersGoOn (s : State) : State := (s.mst.asking.filter Asking.done).foldl State.searcherGoesOn s

/-- MST_OP_HEAD (R190). -/
def execMstOpHead (table : Fin 16) (s : State) : Host.Outcome State Fault Refusal :=
  .next (s.holdFlash (s.orBlocked (mstOpHead table)))

/-- SHIFT_MOVE (R194). -/
def execShiftMove (table : Fin 16) (s : State) : Host.Outcome State Fault Refusal :=
  .next (s.holdFlash (s.orBlocked (shiftMove table)))

/-- SHIFT_END (R194). -/
def execShiftEnd (table : Fin 16) (s : State) : Host.Outcome State Fault Refusal :=
  .next (s.holdFlash (shiftEnd table s))

/-- SEARCH_GRANT (R186). -/
def execSearchGrant (s : State) : Host.Outcome State Fault Refusal :=
  .next (s.holdFlash (searchGrant s).searchersGoOn)

/-- MST_TEMP_SAMPLE (R188). -/
def execMstTempSample (temp : Nat) (s : State) : Host.Outcome State Fault Refusal :=
  .next (s.holdData (mstTempSample temp s))

/-- MST_SCRUB_VISIT (R197). -/
def execMstScrubVisit (block : Fin 64) (index : Fin 8192) (s : State) : Host.Outcome State Fault Refusal :=
  .next (s.holdFlash (mstScrubVisit block index s))

/-- BLOCK_RETIRE (R199). -/
def execBlockRetire (block : Fin 64) (s : State) : Host.Outcome State Fault Refusal :=
  .next (s.holdFlash (blockRetire block s))

/-- SPARE_SWAP (R199). -/
def execSpareSwap (block : Fin 64) (s : State) : Host.Outcome State Fault Refusal :=
  .next (s.holdFlash (s.orBlocked (spareSwap block)))

/-- SHADOW_REBUILT (R198). -/
def execShadowRebuilt (block : Fin 64) (s : State) : Host.Outcome State Fault Refusal :=
  .next (s.holdFlash (s.orBlocked (shadowRebuilt block)))

end Sys2Proof.Machine
end

