-- ==== Sys2Proof/Machine/Module.lean ====
section
/-!
DEFINITION. Image writes (R351, R381), device resets asked for over the port (R351, R372), quotes (R399), and the module:
management bus, JTAG and measurements (R455 to R462).
-/
namespace Sys2Proof.Machine

open Sys2Proof

/-! ### Image writes -/

/-- An IMAGE_WRITE is carried out before its final response, for which it answers PENDING (R350). -/
def State.flashDone (s : State) (x : Session) (seq : Nat) : Answer := s.pend x tyImageWrite seq .flash (some (C.OK, []))

/-- ERASE: the slot, WRITTEN and its FAILS count. -/
def State.doErase (s : State) (x : Session) (seq k offset len : Nat) : Answer :=
  if offset ≠ 0 ∨ len ≠ 0 then s.refuse C.MESSAGE_INVALID
  else if s.fget F.PCH_STATUS_SLOT = k then s.refuse C.SLOT_IN_FORCE
  else
    let s := { s with flash := s.flash.setSlot k [] }
    ((s.fset F.PCH_SLOT_WRITTEN k 0).fset (failsField k) 0 0).flashDone x seq

/-- WRITTEN when it is not known (R381). -/
def writtenUnknown : Nat := 2 ^ 27 - 1

/-- PROGRAM: behind what has been programmed since ERASE. -/
def State.doProgram (s : State) (x : Session) (seq k offset : Nat) (data : List Byte) : Answer :=
  let written := s.fget F.PCH_SLOT_WRITTEN k
  if 8192 < data.length then s.refuse C.MESSAGE_INVALID
  else if s.fget F.PCH_STATUS_SLOT = k then s.refuse C.SLOT_IN_FORCE
  else if written = writtenUnknown ∨ offset ≠ written then s.refuse C.OFFSET_ORDER
  else if slotLimit false < offset + data.length then s.refuse C.SLOT_RANGE
  else
    let s := { s with flash := s.flash.setSlot k (s.flash.slot k ++ data) }
    (s.fset F.PCH_SLOT_WRITTEN k (written + data.length)).flashDone x seq

def erase (h : Hdr) (slot : Fin 2) (offset len : Nat) (s : State) : State :=
  s.command h tyImageWrite (keeperOnly (fun x s => s.doErase x h.seq slot offset len))

def program (h : Hdr) (slot : Fin 2) (offset : Nat) (data : List Byte) (s : State) : State :=
  s.command h tyImageWrite (keeperOnly (fun x s => s.doProgram x h.seq slot offset data))

/-! ### RESET -/

/-- A RESET command: the response is sent before the reset takes effect (R351). -/
def State.resetCommand (s : State) (h : Hdr) (k : ResetKind) : State :=
  s.command h tyReset (keeperOnly (fun _ s => s.ok)) (fun _ c s => if c = C.OK then s.deviceReset k true else s)

def soft (h : Hdr) (s : State) : State := s.resetCommand h .soft
def quickRepitch (h : Hdr) (s : State) : State := s.resetCommand h .quickRepitch
def coldRepitch (h : Hdr) (s : State) : State := s.resetCommand h .coldRepitch

/-- MOD_RESET_N has been low for 1 µs to under 100 ms (R372, R453). -/
def warmPin (s : State) : State := s.warmPinReset

/-! ### Quotes (R399) -/

/-- The nonce as written. -/
def State.nonce (s : State) : List Byte := (List.range 8).flatMap (fun i => natLe 8 (s.raw .PCH_QUOTE_NONCE i 0).toNat)

/-- FLAGS of a quote. -/
def State.quoteFlags (s : State) : Nat :=
  let of_ (p : Manifests → Bool) : Nat := match s.image with | some im => b2n (p im.man) | none => 0
  b2n (s.flag F.PCH_STATUS_UNTESTED) + 2 * b2n (s.power.state == .bivouac) + 4 * of_ (fun m => m.sample) +
    8 * of_ (fun m => m.recovery) + 16 * b2n (!s.fuses.enrolled)

/-- The identification of device and pitch, bytes 0 to 95. -/
def State.quoteHead (s : State) : List Byte :=
  natLe 2 1 ++ natLe 2 s.quoteFlags ++ natLe 4 s.device ++ natLe 8 s.fuses.serial.toNat ++ natLe 8 s.meridian ++
    natLe 1 (s.fget F.PCH_STATUS_SLOT) ++ zeros 3 ++ natLe 4 (s.fget F.PCH_BOOT_BOOT_COUNT) ++ s.nonce

/-- The measurements of the image in force, bytes 96 to 299. -/
def measurements : Option Image → List Byte
  | none => zeros 204
  | some im => fitTo 192 (im.man.digests.flatMap (fitTo 64)) ++ natLe 4 im.man.wardenVersion.toNat ++
      natLe 4 im.man.stewardVersion.toNat ++ natLe 4 im.man.pitchVersion.toNat

/-- The quote body, 512 bytes. -/
def State.quoteBody (s : State) : List Byte :=
  let counters := natLe 1 s.fuses.svnWarden ++ natLe 1 s.fuses.svnSteward ++ natLe 1 s.fuses.svnPitch ++ zeros 1
  let signer := match s.image with | some im => fitTo 64 im.man.signerId | none => zeros 64
  s.quoteHead ++ measurements s.image ++ counters ++ signer ++ fitTo 64 (Config.sha512 Config.identityKeys) ++ zeros 80

/-- Bytes of a quote. -/
def quoteLength : Nat := 3888

/-- QUOTE_READY: the quote asked for has been formed. -/
def quoteReady (s : State) : State :=
  if s.upAndRunning && s.trust.quotePending then
    let (d, s) := s.draw
    let body := s.quoteBody
    let bytes := body ++ fitTo 64 (Config.ed25519Sign body) ++ fitTo 3309 (Config.mldsaSign d body) ++ zeros 3
    let s := { s with trust := ⟨false, bytes⟩ }
    (s.fset F.PCH_QUOTE_CTL_READY 0 1).fset F.PCH_QUOTE_CTL_LENGTH 0 quoteLength
  else s

/-! ### The management bus (R455 to R457) -/

/-- Whether a transaction reaches the module: 48 V is there and the bus is not isolated. -/
def State.onBus (s : State) : Bool := s.power.input48 && !s.flag F.MOD_MGMT_ISOLATED

/-- The response takes the place of one not yet read. -/
def State.mgmtAnswer (s : State) (c : Code) (data : List Byte) : State :=
  ({ s with mgmt := ⟨some (c, data)⟩ }).out (.mgmt c data)

/-- The blocks READ_REG reaches over the bus. -/
def mgmtBlock (a : Nat) : Bool :=
  let b := blockOf a
  b == 0x0E || b == 0x0F || b == 0x11 || b == 0x12

def mgmtReadReg (addr : W64) (s : State) : State :=
  if !s.onBus then s
  else if !mgmtBlock addr.toNat then s.mgmtAnswer C.REG_UNMAPPED []
  else
    let (d, s) := s.draws 4
    match s.readOne false addr.toNat d with
    | .ok w => s.mgmtAnswer C.OK (natLe 8 w.toNat)
    | .error c => s.mgmtAnswer c []

def wake (s : State) : State := if s.onBus then s.wakeAsked.mgmtAnswer C.OK [] else s

def douse (s : State) : State := if s.onBus then s.douseAsked.mgmtAnswer C.OK [] else s

/-- ENROLL_FIRST: while MOD_ENROLL_EN is high and no position is enrolled. -/
def enrollFirst (position : Nat) (digest : List Byte) (s : State) : State :=
  if !s.onBus then s
  else if s.flag F.MOD_PINS_ENROLL_EN && !s.fuses.enrolled && decide (position < 4) then
    ({ s with fuses := s.fuses.enroll position (fitTo 64 digest) }).mgmtAnswer C.OK []
  else s.mgmtAnswer C.MGMT_REFUSED []

def mgmtStatus (s : State) : State :=
  if s.onBus then
    s.mgmtAnswer C.OK ([RegId.PCH_STATUS, RegId.PWS_STATE, RegId.FLT_GOV].flatMap (fun id =>
      natLe 8 (s.regWord id 0 0 0).toNat))
  else s

/-- MGMT_STUCK: a line has been low for 25 ms; the module leaves the bus and the transaction is lost. -/
def mgmtStuck (s : State) : State :=
  if s.onBus then
    let s := ({ s with mgmt := ⟨none⟩ }).bump F.MOD_MGMT_STUCK 0 1
    (s.fset F.MOD_MGMT_ISOLATED 0 1).attn C.MGMT_STUCK []
  else s

/-- MGMT_RECONNECT: both lines have been high for 1 ms. -/
def mgmtReconnect (s : State) : State := s.fset F.MOD_MGMT_ISOLATED 0 0

/-- DYNAMIC_ADDRESS: an I3C controller assigns an address. -/
def dynamicAddress (s : State) : State := if s.onBus then s.fset F.MOD_MGMT_DYNAMIC 0 1 else s

/-! ### Measurements (R462) -/

/-- A reading must stay in range this long before it is sent again. -/
def warnAgainNs : Nat := 1000000000

/-- Whether a warning is due on a bad reading, and the state of the warning after a reading: warned, in range since. -/
def warnAfter (bad warned : Bool) (okAt : Option Nat) (now : Nat) : Bool × Bool × Option Nat :=
  let again := match okAt with | some t => decide (t + warnAgainNs ≤ now) | none => false
  if bad then (!warned || again, true, none)
  else if warned then (if again then (false, false, none) else (false, true, some (okAt.getD now)))
  else (false, false, none)

def State.coolantSample (s : State) (inlet outlet : Nat) : State :=
  let s := (s.fset F.MOD_COOLANT_INLET_C 0 (min 255 inlet)).fset F.MOD_COOLANT_OUTLET_C 0 (min 255 outlet)
  let (warn, warned, okAt) := warnAfter (decide (40 < inlet)) s.gov.coolantBad s.gov.coolantOkAt s.now
  let s := { s with gov := { s.gov with coolantBad := warned, coolantOkAt := okAt } }
  if warn then (s.bump F.MOD_COOLANT_WARNINGS 0 1).attn C.COOLANT_WARN [inlet, outlet] else s

/-- The input counts as bad once it has been out of 40–60 V for more than 1 ms. -/
def State.inputSample (s : State) (millivolts milliamps watts : Nat) : State :=
  let s := (s.fset F.MOD_INPUT_MILLIVOLTS 0 (min 65535 millivolts)).fset F.MOD_INPUT_MILLIAMPS 0 (min 65535 milliamps)
  let s := s.fset F.MOD_INPUT_WATTS 0 (min 4095 watts)
  let out := decide (millivolts < 40000) || decide (60000 < millivolts)
  let since := if out then some (s.gov.inputBadAt.getD s.now) else none
  let bad := match since with | some t => decide (t + 1000000 < s.now) | none => false
  let again := match s.gov.inputOkAt with | some t => decide (t + warnAgainNs ≤ s.now) | none => false
  let (warn, warned, okAt) := if out && !bad then (false, s.gov.inputBad && !again, none)
    else warnAfter bad s.gov.inputBad s.gov.inputOkAt s.now
  let s := { s with gov := { s.gov with inputBad := warned, inputOkAt := okAt, inputBadAt := since } }
  if warn then (s.bump F.MOD_INPUT_OUT_OF_RANGE 0 1).attn C.INPUT_WARN [millivolts] else s

/-- MODULE_SAMPLE. -/
def moduleSample (inlet outlet millivolts milliamps watts : Nat) (s : State) : State :=
  if s.power.input48 then (s.coolantSample inlet outlet).inputSample millivolts milliamps watts else s

/-! ### JTAG (R458) -/

/-- Whether an instruction is one of Grenog's and is enabled. Every other one acts as IDCODE or BYPASS, or as an EXTEST
while MOD_RESET_N is high: none changes the state. -/
def State.jtagActs (s : State) (i : JtagInstr) : Bool :=
  match i with
  | .grenogPrivate _ => s.flag F.MOD_MGMT_JTAG_DEBUG
  | _ => false

end Sys2Proof.Machine
end

