-- ==== Sys2Proof/Machine/ExecModule.lean ====
section
/-!
DEFINITION. The commands of pitching and trust (R382 to R400), of the counters (R403 to R416) and of the module (R455 to R462).
-/
namespace Sys2Proof.Machine

open Sys2Proof

/-- SLOT_CHECK (R392). -/
def execSlotCheck (h : Hdr) (slot : Fin 2) (s : State) : Host.Outcome State Fault Refusal :=
  .next (s.holdData (slotCheck h slot (s.odrenIn h.relayed 24 true)))

/-- NEXT_SLOT (R382). -/
def execNextSlot (h : Hdr) (value : BitVec 2) (s : State) : Host.Outcome State Fault Refusal :=
  .next (s.holdData (nextSlot h value (s.odrenIn h.relayed 24 true)))

/-- ROLLBACK_COMMIT (R391). -/
def execRollbackCommit (h : Hdr) (s : State) : Host.Outcome State Fault Refusal :=
  .next (s.holdQueue (rollbackCommit h (s.odrenIn h.relayed 24 true)))

/-- ENROLL (R390). -/
def execEnroll (h : Hdr) (position : Fin 4) (s : State) : Host.Outcome State Fault Refusal :=
  .next (s.holdQueue (enroll h position (s.odrenIn h.relayed 24 true)))

/-- REVOKE (R390). -/
def execRevoke (h : Hdr) (position : Fin 4) (s : State) : Host.Outcome State Fault Refusal :=
  .next (s.holdQueue (revoke h position (s.odrenIn h.relayed 24 true)))

/-- QUOTE_GO (R399). -/
def execQuoteGo (h : Hdr) (s : State) : Host.Outcome State Fault Refusal :=
  .next (s.holdData (quoteGo h (s.odrenIn h.relayed 24 true)))

/-- CERTIFICATE_LOAD (R400). -/
def execCertificateLoad (h : Hdr) (s : State) : Host.Outcome State Fault Refusal :=
  .next (s.holdData (certificateLoad h (s.odrenIn h.relayed 24 true)))

/-- QUOTE_READY (R399). -/
def execQuoteReady (s : State) : Host.Outcome State Fault Refusal :=
  .next (s.holdData (quoteReady s))

/-- PMC_WINDOW (R410). -/
def execPmcWindow (s : State) : Host.Outcome State Fault Refusal :=
  .next (s.holdData (pmcWindow s))

/-- COUNTER_OVERFLOW (R407). -/
def execCounterOverflow (r : CounterRef) (s : State) : Host.Outcome State Fault Refusal :=
  .next (s.holdData (counterOverflow r s))

/-- COUNTER_WRITE (R408). -/
def execCounterWrite (h : Hdr) (r : CounterRef) (value : BitVec 48) (s : State) : Host.Outcome State Fault Refusal :=
  .next (s.holdData (counterWrite h r value (s.odrenIn h.relayed 24 true)))

/-- ENERGY_SAMPLE (R413). -/
def execEnergySample (microjoules : Nat) (s : State) : Host.Outcome State Fault Refusal :=
  .next (s.holdData (energySample microjoules s))

/-- TD_TEST (R416). -/
def execTdTest (h : Hdr) (clusters : BitVec 12) (s : State) : Host.Outcome State Fault Refusal :=
  .next (s.holdData (tdTest h clusters (s.odrenIn h.relayed 24 true)))

/-- TD_OFF (R416). -/
def execTdOff (h : Hdr) (s : State) : Host.Outcome State Fault Refusal :=
  .next (s.holdData (tdOff h (s.odrenIn h.relayed 24 true)))

/-- MGMT_READ_REG (R457). -/
def execMgmtReadReg (addr : W64) (s : State) : Host.Outcome State Fault Refusal :=
  .next (s.holdData (mgmtReadReg addr s))

/-- WAKE (R457). -/
def execWake (s : State) : Host.Outcome State Fault Refusal :=
  .next (s.holdFlash (wake s))

/-- DOUSE (R457). -/
def execDouse (s : State) : Host.Outcome State Fault Refusal :=
  .next (s.holdFlash (douse s))

/-- ENROLL_FIRST (R457). -/
def execEnrollFirst (position : Nat) (digest : List Byte) (s : State) : Host.Outcome State Fault Refusal :=
  .next (s.holdQueue (enrollFirst position digest s))

/-- MGMT_STATUS (R457). -/
def execMgmtStatus (s : State) : Host.Outcome State Fault Refusal :=
  .next (s.holdData (mgmtStatus s))

/-- MGMT_STUCK (R456). -/
def execMgmtStuck (s : State) : Host.Outcome State Fault Refusal :=
  .next (s.holdData (mgmtStuck s))

/-- MGMT_RECONNECT (R456). -/
def execMgmtReconnect (s : State) : Host.Outcome State Fault Refusal :=
  .next (s.holdData (mgmtReconnect s))

/-- MODULE_SAMPLE (R462). -/
def execModuleSample (inlet outlet : Nat) (millivolts milliamps watts : Nat)
    (s : State) : Host.Outcome State Fault Refusal :=
  .next (s.holdData (moduleSample inlet outlet millivolts milliamps watts s))

/-- JTAG_INSTRUCTION (R458). -/
def execJtagInstruction (code : JtagInstr) (s : State) : Host.Outcome State Fault Refusal :=
  if s.jtagActs code then .refused .jtagPrivate else .next s

/-- DYNAMIC_ADDRESS (R455). -/
def execDynamicAddress (s : State) : Host.Outcome State Fault Refusal :=
  .next (s.holdData (dynamicAddress s))

end Sys2Proof.Machine
end

