-- ==== Sys2Proof/Machine/ExecPort.lean ====
section
/-!
DEFINITION. The commands of the Odren port: sessions, messages, attention, time, the port itself and relay (R345 to R360).
-/
namespace Sys2Proof.Machine

open Sys2Proof

/-- HELLO (R354). -/
def execHello (m : HelloMsg) (s : State) : Host.Outcome State Fault Refusal :=
  .next (s.holdData (hello m (s.odrenIn m.relayed 1252 false)))

/-- PROVE (R354). -/
def execProve (h : Hdr) (m : ProveMsg) (s : State) : Host.Outcome State Fault Refusal :=
  .next (s.holdData (prove h m (s.odrenIn h.relayed 5361 true)))

/-- CLOSE (R355). -/
def execClose (h : Hdr) (s : State) : Host.Outcome State Fault Refusal :=
  .next (s.holdData (close h (s.odrenIn h.relayed 1 true)))

/-- SESSION_OPEN_TIMEOUT (R354). -/
def execSessionOpenTimeout (slot : Fin 8) (s : State) : Host.Outcome State Fault Refusal :=
  .next (s.holdData (sessionOpenTimeout slot s))

/-- SESSION_IDLE_TIMEOUT (R355). -/
def execSessionIdleTimeout (slot : Fin 8) (s : State) : Host.Outcome State Fault Refusal :=
  .next (s.holdData (sessionIdleTimeout slot s))

/-- ODREN_FRAME_DISCARD (R347). -/
def execOdrenFrameDiscard (why : FrameFault) (s : State) : Host.Outcome State Fault Refusal :=
  .next (s.holdData (odrenFrameDiscard why s))

/-- READ_REG (R441). -/
def execReadReg (h : Hdr) (addr : W64) (count : Nat) (s : State) : Host.Outcome State Fault Refusal :=
  .next (s.holdData (readReg h addr count (s.odrenIn h.relayed 16 true)))

/-- WRITE_REG (R442). -/
def execWriteReg (h : Hdr) (addr : W64) (words : List W64) (s : State) : Host.Outcome State Fault Refusal :=
  .next (s.holdQueue (writeReg h addr words (s.odrenIn h.relayed (16 + 8 * words.length) true)))

/-- RUN (R62). -/
def execRun (h : Hdr) (b : RunBlock) (s : State) : Host.Outcome State Fault Refusal :=
  .next (s.holdFlash ((run h b (s.odrenIn h.relayed (16 + 32 * b.entries.length) true)).settleAll))

/-- CANCEL (R65). -/
def execCancel (h : Hdr) (run : W32) (s : State) : Host.Outcome State Fault Refusal :=
  .next (s.holdData (cancel h run (s.odrenIn h.relayed 8 true)))

/-- QUERY (R351). -/
def execQuery (h : Hdr) (run : W32) (s : State) : Host.Outcome State Fault Refusal :=
  .next (s.holdData (query h run (s.odrenIn h.relayed 8 true)))

/-- ROW_WRITE (R240). -/
def execRowWrite (h : Hdr) (table : Nat) (id : W64) (scale : W32) (row : List Byte)
    (s : State) : Host.Outcome State Fault Refusal :=
  .next (s.holdFlash (rowWrite h table id scale row (s.odrenIn h.relayed (16 + row.length) true)))

/-- POOL_READ (R31). -/
def execPoolRead (h : Hdr) (addr : W64) (len : Nat) (s : State) : Host.Outcome State Fault Refusal :=
  .next (s.holdFlash ((s.odrenIn h.relayed 16 true).litCommand h tyPoolRead (fun x s => s.doPoolRead x h.seq addr len)))

/-- POOL_WRITE (R31). -/
def execPoolWrite (h : Hdr) (addr : W64) (data : List Byte) (s : State) : Host.Outcome State Fault Refusal :=
  .next (s.holdFlash ((s.odrenIn h.relayed (16 + data.length) true).litCommand h tyPoolWrite (fun x s => s.doPoolWrite x h.seq addr data)))

/-- WATCH_SET (R47). -/
def execWatchSet (h : Hdr) (addr : W64) (s : State) : Host.Outcome State Fault Refusal :=
  .next (s.holdData ((s.odrenIn h.relayed 16 true).litCommand h tyWatch (fun x s => s.doWatchSet x addr)))

/-- WATCH_CLEAR (R47). -/
def execWatchClear (h : Hdr) (addr : W64) (s : State) : Host.Outcome State Fault Refusal :=
  .next (s.holdData ((s.odrenIn h.relayed 16 true).litCommand h tyWatch (fun x s => s.doWatchClear x addr)))

/-- ERASE (R381). -/
def execErase (h : Hdr) (slot : Fin 2) (offset : Nat) (len : Nat) (s : State) : Host.Outcome State Fault Refusal :=
  .next (s.holdFuses (erase h slot offset len (s.odrenIn h.relayed 24 true)))

/-- PROGRAM (R381). -/
def execProgram (h : Hdr) (slot : Fin 2) (offset : Nat) (data : List Byte)
    (s : State) : Host.Outcome State Fault Refusal :=
  .next (s.holdFuses (program h slot offset data (s.odrenIn h.relayed (24 + data.length) true)))

/-- FINAL_RESPONSE (R350). -/
def execFinalResponse (slot : Fin 8) (seq : Nat) (s : State) : Host.Outcome State Fault Refusal :=
  .next (s.holdData (finalResponse slot seq s))

/-- TIME_QUERY (R352). -/
def execTimeQuery (h : Hdr) (t1 : Nat) (s : State) : Host.Outcome State Fault Refusal :=
  .next (s.holdData (timeQuery h t1 (s.odrenIn h.relayed 24 true)))

/-- TIME_SET (R352). -/
def execTimeSet (h : Hdr) (step : Bool) (value : Nat) (s : State) : Host.Outcome State Fault Refusal :=
  .next (s.holdData (timeSet h step value (s.odrenIn h.relayed 24 true)))

/-- TIME_ADJUST (R352). -/
def execTimeAdjust (h : Hdr) (step : Bool) (value : Int) (s : State) : Host.Outcome State Fault Refusal :=
  .next (s.holdData (timeAdjust h step value (s.odrenIn h.relayed 24 true)))

/-- SOFT (R372). -/
def execSoft (h : Hdr) (s : State) : Host.Outcome State Fault Refusal :=
  .next (s.holdFlash (soft h (s.odrenIn h.relayed 8 true)))

/-- QUICK_REPITCH (R372). -/
def execQuickRepitch (h : Hdr) (s : State) : Host.Outcome State Fault Refusal :=
  .next (s.holdFlash (quickRepitch h (s.odrenIn h.relayed 8 true)))

/-- COLD_REPITCH (R372). -/
def execColdRepitch (h : Hdr) (s : State) : Host.Outcome State Fault Refusal :=
  .next (s.holdFlash (coldRepitch h (s.odrenIn h.relayed 8 true)))

/-- ATTN_ACK (R359). -/
def execAttnAck (h : Hdr) (s : State) : Host.Outcome State Fault Refusal :=
  .next (s.holdData (attnAck h (s.odrenIn h.relayed 0 true)))

/-- ATTN_FIRST_SEND (R359). -/
def execAttnFirstSend (slot : Fin 8) (s : State) : Host.Outcome State Fault Refusal :=
  .next (s.holdData (attnFirstSend slot s))

/-- ATTN_RESEND (R359). -/
def execAttnResend (slot : Fin 8) (seq : Nat) (s : State) : Host.Outcome State Fault Refusal :=
  .next (s.holdData (attnResend slot seq s))

/-- PORT_DOWN (R345). -/
def execPortDown (s : State) : Host.Outcome State Fault Refusal :=
  .next (s.holdData (portDown s))

/-- PORT_UP (R345). -/
def execPortUp (s : State) : Host.Outcome State Fault Refusal :=
  .next (s.holdData (portUp s))

/-- CROSSED_FIBRE (R346). -/
def execCrossedFibre (s : State) : Host.Outcome State Fault Refusal :=
  .next (s.holdData (crossedFibre s))

/-- RELAY (R360). -/
def execRelay (link : Fin 64) (b : RelayBody) (s : State) : Host.Outcome State Fault Refusal :=
  .next (s.holdData (relay link b s))

/-- RELAYED (R360). -/
def execRelayed (mac : BitVec 48) (b : RelayBody) (s : State) : Host.Outcome State Fault Refusal :=
  .next (s.holdData (relayed mac b (s.odrenIn false (16 + b.inner.length) false)))

/-- MESSAGE_INVALID (R351). -/
def execMessageInvalid (h : Hdr) (why : BadMessage) (s : State) : Host.Outcome State Fault Refusal :=
  .next (s.holdData (messageInvalid h why (s.odrenIn h.relayed 0 true)))

end Sys2Proof.Machine
end

