-- ==== Sys2Proof/Machine/Waits.lean ====
section
/-!
DEFINITION. The requests that wait for a vault go on when it serves: sessions' pool accesses and ROW_WRITEs, packets and
bundles of other devices, and the ids of this device's own rounds (R425, R426, R431, R350).
-/
namespace Sys2Proof.Machine

open Sys2Proof

def isWaiting (seq : Nat) (p : Pend) : Bool := p.seq == seq && p.work == .vault

/-- A session's command that waited has its result. -/
def State.settleWait (s : State) (session : W32) (seq : Nat) (c : Code) (body : List Byte) : State :=
  match s.session? session with
  | none => s
  | some x => s.putSession { x with
      pends := updWhere (isWaiting seq) (fun (p : Pend) => { p with result := some (c, body) }) x.pends }

/-- The answer of a session's command that waited, as the result of the command. -/
def State.settleAnswer (session : W32) (seq : Nat) (a : Answer) : State := a.1.settleWait session seq a.2.1 a.2.2

/-- A request that waited is carried out, or goes on waiting. -/
def State.again (s : State) (w : VaultWait) : State :=
  match w with
  | .read id seq addr len =>
    if s.queues w (s.accessWaits (poolLocal addr) len) then (s.askVaults (poolLocal addr) len).putWait w
    else State.settleAnswer id seq (s.localRead addr len)
  | .write id seq addr data =>
    if s.queues w (s.accessWaits (poolLocal addr) data.length) then (s.askVaults (poolLocal addr) data.length).putWait w
    else State.settleAnswer id seq (s.localWrite addr data)
  | .row id seq table rid scale row =>
    match s.embTable? table with
    | none => s.settleWait id seq C.EMB_TABLE_UNKNOWN []
    | some t =>
      if s.queues w (s.rowWaits t rid) then s.putWait w
      else
        match s.writeRowFor id seq t rid scale row with
        | (some (c, bs), s) => s.settleWait id seq c bs
        | (none, s) => s
  | .peerRead source tag addr len => s.ownerRead source tag addr len
  | .peerWrite source tag addr data poison => s.ownerWrite source tag addr data poison
  | .peerRow source tag table rid scale row => s.rowWriteFrom source tag table rid scale row
  | .bundle b update forwarded es => s.serveBundle b update forwarded es

/-- A vault may serve again: what waited is tried in order, and the rounds' own ids with it. -/
def State.serveWaits (s : State) : State :=
  if !s.lit then s
  else
    let ws := s.power.waits
    let s := ws.foldl State.again { s with power := { s.power with waits := [] } }
    s.advanceRounds

end Sys2Proof.Machine
end

