-- ==== Sys2Proof/Machine/ExecPower.lean ====
section
/-!
DEFINITION. The commands of memory maintenance, clusters, power states, resets and redundancy (R38 to R42, R361 to R379, R418 to R436).
-/
namespace Sys2Proof.Machine

open Sys2Proof

/-- SCRUB_READ (R40). -/
def execScrubRead (u : MemUnit) (s : State) : Host.Outcome State Fault Refusal :=
  .next (s.holdFlash (scrubRead u s))

/-- SCRUB_FORCED_TURN (R39). -/
def execScrubForcedTurn (u : MemUnit) (s : State) : Host.Outcome State Fault Refusal :=
  .next (s.holdFlash (scrubForcedTurn u s))

/-- MIRROR_REBUILT (R38). -/
def execMirrorRebuilt (u : MemUnit) (s : State) : Host.Outcome State Fault Refusal :=
  .next (s.holdFlash (mirrorRebuilt u s))

/-- VAULT_REFRESH (R41). -/
def execVaultRefresh (v : Fin 192) (temp : Nat) (s : State) : Host.Outcome State Fault Refusal :=
  .next (s.holdData (vaultRefresh v temp s))

/-- LPDDR6_REFRESH (R42). -/
def execLpddr6Refresh (ch : Fin 32) (rate : BitVec 4) (s : State) : Host.Outcome State Fault Refusal :=
  .next (s.holdData (lpddr6Refresh ch rate s))

/-- CLUSTER_SHADE (R368). -/
def execClusterShade (c : Fin 12) (s : State) : Host.Outcome State Fault Refusal :=
  .next (s.holdFlash (clusterShade c s))

/-- CLUSTER_WAKE (R366). -/
def execClusterWake (c : Fin 12) (s : State) : Host.Outcome State Fault Refusal :=
  .next (s.holdFlash (((clusterWake c s).serveWaits).settleAll))

/-- BANK_REQUEST (R369). -/
def execBankRequest (h : Hdr) (force : Bool) (alarmMs : W32) (s : State) : Host.Outcome State Fault Refusal :=
  .next (s.holdFlash (bankRequest h force alarmMs (s.odrenIn h.relayed 24 true)))

/-- DOUSE_REQUEST (R369). -/
def execDouseRequest (h : Hdr) (force : Bool) (alarmMs : W32) (s : State) : Host.Outcome State Fault Refusal :=
  .next (s.holdFlash (douseRequest h force alarmMs (s.odrenIn h.relayed 24 true)))

/-- ALARM (R367). -/
def execAlarm (s : State) : Host.Outcome State Fault Refusal :=
  .next (s.holdFlash (alarm s))

/-- PWS_CLUSTER_RESET (R375). -/
def execPwsClusterReset (h : Hdr) (c : Fin 12) (s : State) : Host.Outcome State Fault Refusal :=
  .next (s.holdFlash (pwsClusterReset h c (s.odrenIn h.relayed 24 true)))

/-- CLUSTER_LIT (R375). -/
def execClusterLit (c : Fin 12) (s : State) : Host.Outcome State Fault Refusal :=
  .next (s.holdFlash (clusterLit c s))

/-- WATCHDOG_EXPIRY (R374). -/
def execWatchdogExpiry (s : State) : Host.Outcome State Fault Refusal :=
  .next (s.holdFlash (watchdogExpiry s))

/-- WARM_PIN (R372). -/
def execWarmPin (s : State) : Host.Outcome State Fault Refusal :=
  .next (s.holdFlash (warmPin s))

/-- POWER_ON (R372). -/
def execPowerOn (why : PowerOnCause) (s : State) : Host.Outcome State Fault Refusal :=
  .next (s.holdFlash (powerOn why s))

/-- PWRGOOD_FALL (R453). -/
def execPwrgoodFall (s : State) : Host.Outcome State Fault Refusal :=
  .next (s.holdFlash (pwrgoodFall s))

/-- LOSS_OF_48V (R377). -/
def execLossOf48V (s : State) : Host.Outcome State Fault Refusal :=
  .next (s.holdFlash (lossOf48V s))

/-- INPUT_SWITCH_RETRY (R454). -/
def execInputSwitchRetry (shorted : Bool) (s : State) : Host.Outcome State Fault Refusal :=
  .next (s.holdFlash (inputSwitchRetry shorted s))

/-- PROBE (R422). -/
def execProbe (missed : List HwUnit) (s : State) : Host.Outcome State Fault Refusal :=
  .next (s.holdFlash (probe missed s))

/-- UNIT_FAILED (R422). -/
def execUnitFailed (u : HwUnit) (s : State) : Host.Outcome State Fault Refusal :=
  .next (s.holdFlash (((unitFailed u s).serveWaits).settleAll))

/-- CORE_REPLACE (R424). -/
def execCoreReplace (n : Fin 192) (s : State) : Host.Outcome State Fault Refusal :=
  .next (s.holdFlash (coreReplace n s))

/-- VAULT_REPLACE (R425). -/
def execVaultReplace (v : Fin 192) (s : State) : Host.Outcome State Fault Refusal :=
  .next (s.holdFlash (((vaultReplace v s).serveWaits).settleAll))

/-- CLUSTER_REPLACE (R426). -/
def execClusterReplace (c : Fin 12) (s : State) : Host.Outcome State Fault Refusal :=
  .next (s.holdFlash (((clusterReplace c s).serveWaits).settleAll))

/-- UNIT_CLEAR (R429). -/
def execUnitClear (h : Hdr) (s : State) : Host.Outcome State Fault Refusal :=
  .next (s.holdData (unitClear h (s.odrenIn h.relayed 24 true)))

/-- LOG_CLEAR (R435). -/
def execLogClear (h : Hdr) (s : State) : Host.Outcome State Fault Refusal :=
  .next (s.holdData (logClear h (s.odrenIn h.relayed 24 true)))

/-- GOVERNOR_FAST_CHECK (R430). -/
def execGovernorFastCheck (watts : Nat) (s : State) : Host.Outcome State Fault Refusal :=
  .next (s.holdData (governorFastCheck watts s))

/-- GOVERNOR_CHECK (R430). -/
def execGovernorCheck (watts : Nat) (temps : List Nat) (s : State) : Host.Outcome State Fault Refusal :=
  .next (s.holdFlash (governorCheck watts temps s))

/-- CLUSTER_HOLD (R431). -/
def execClusterHold (c : Fin 12) (sensor : Fin 64) (temp : Nat) (s : State) : Host.Outcome State Fault Refusal :=
  .next (s.holdFlash (clusterHold c sensor temp s))

/-- CLUSTER_HOLD_RELEASE (R431). -/
def execClusterHoldRelease (c : Fin 12) (temp : Nat) (s : State) : Host.Outcome State Fault Refusal :=
  .next (s.holdFlash (clusterHoldRelease c temp s))

/-- THERMAL_TRIP (R432). -/
def execThermalTrip (sensor : Fin 64) (temp : Nat) (s : State) : Host.Outcome State Fault Refusal :=
  .next (s.holdFlash (thermalTrip sensor temp s))

/-- MOD_THERM_N (R432). -/
def execModThermN (temps : List Nat) (s : State) : Host.Outcome State Fault Refusal :=
  .next (s.holdFlash (modThermN temps s))

/-- PITCH_COPY_REWRITE (R425). -/
def execPitchCopyRewrite (s : State) : Host.Outcome State Fault Refusal :=
  .next (s.holdFlash (pitchCopyRewrite s))

end Sys2Proof.Machine
end

