-- ==== Sys2Proof/Machine/ExecRuns.lean ====
section
/-!
DEFINITION. The commands of the dispatcher and of the operators: tasks, chunks, batches, losses, cancellation (R52 to R176, R214, R230, R250 to R317).
-/
namespace Sys2Proof.Machine

open Sys2Proof

/-- TASK_DISPATCH (R303). -/
def execTaskDispatch (s : State) : Host.Outcome State Fault Refusal :=
  .next (s.holdFlash (taskDispatch s))

/-- SCAN (R83). -/
def execScan (task : Nat) (s : State) : Host.Outcome State Fault Refusal :=
  .next (s.holdFlash ((s.orBlocked (scan task)).settleAll))

/-- FILTER (R86). -/
def execFilter (task : Nat) (s : State) : Host.Outcome State Fault Refusal :=
  .next (s.holdFlash ((s.orBlocked (filter task)).settleAll))

/-- PROJECT (R89). -/
def execProject (task : Nat) (s : State) : Host.Outcome State Fault Refusal :=
  .next (s.holdFlash ((s.orBlocked (project task)).settleAll))

/-- HASH (R95). -/
def execHash (task : Nat) (s : State) : Host.Outcome State Fault Refusal :=
  .next (s.holdFlash ((s.orBlocked (hash task)).settleAll))

/-- BUCKET (R96). -/
def execBucket (task : Nat) (s : State) : Host.Outcome State Fault Refusal :=
  .next (s.holdFlash ((s.orBlocked (bucket task)).settleAll))

/-- NORMALISE (R109). -/
def execNormalise (task : Nat) (s : State) : Host.Outcome State Fault Refusal :=
  .next (s.holdFlash ((s.orBlocked (normalise task)).settleAll))

/-- STATS (R101). -/
def execStats (task : Nat) (s : State) : Host.Outcome State Fault Refusal :=
  .next (s.holdFlash ((s.orBlocked (stats task)).settleAll))

/-- STATS_MERGE (R101). -/
def execStatsMerge (runSlot : Fin 64) (stage : Fin 64) (s : State) : Host.Outcome State Fault Refusal :=
  .next (s.holdFlash ((s.orBlocked (statsMerge runSlot stage)).settleAll))

/-- PARTITION (R112). -/
def execPartition (task : Nat) (s : State) : Host.Outcome State Fault Refusal :=
  .next (s.holdFlash ((s.orBlocked (partition task)).settleAll))

/-- JOIN_BUILD (R115). -/
def execJoinBuild (task : Nat) (s : State) : Host.Outcome State Fault Refusal :=
  .next (s.holdFlash ((s.orBlocked (joinBuild task)).settleAll))

/-- JOIN_PROBE (R120). -/
def execJoinProbe (task : Nat) (s : State) : Host.Outcome State Fault Refusal :=
  .next (s.holdFlash ((s.orBlocked (joinProbe task)).settleAll))

/-- DICT_JOIN (R124). -/
def execDictJoin (task : Nat) (s : State) : Host.Outcome State Fault Refusal :=
  .next (s.holdFlash ((s.orBlocked (dictJoin task)).settleAll))

/-- GATHER (R169). -/
def execGather (task : Nat) (s : State) : Host.Outcome State Fault Refusal :=
  .next (s.holdFlash ((s.orBlocked (gather task)).settleAll))

/-- SCATTER (R172). -/
def execScatter (task : Nat) (s : State) : Host.Outcome State Fault Refusal :=
  .next (s.holdFlash ((s.orBlocked (scatter task)).settleAll))

/-- LOOKUP (R231). -/
def execLookup (task : Nat) (s : State) : Host.Outcome State Fault Refusal :=
  .next (s.holdFlash ((s.orBlocked (lookup task)).settleAll))

/-- UPDATE (R236). -/
def execUpdate (task : Nat) (s : State) : Host.Outcome State Fault Refusal :=
  .next (s.holdFlash ((s.orBlocked (update task)).settleAll))

/-- DECODE (R132). -/
def execDecode (task : Nat) (s : State) : Host.Outcome State Fault Refusal :=
  .next (s.holdFlash ((s.orBlocked (decode task)).settleAll))

/-- PARSE (R207). -/
def execParse (task : Nat) (s : State) : Host.Outcome State Fault Refusal :=
  .next (s.holdFlash ((s.orBlocked (parse task)).settleAll))

/-- PYRAMID (R135). -/
def execPyramid (task : Nat) (s : State) : Host.Outcome State Fault Refusal :=
  .next (s.holdFlash ((s.orBlocked (pyramid task)).settleAll))

/-- COMPRESS (R259). -/
def execCompress (task : Nat) (s : State) : Host.Outcome State Fault Refusal :=
  .next (s.holdFlash ((s.orBlocked (compress task)).settleAll))

/-- DECOMPRESS (R263). -/
def execDecompress (task : Nat) (s : State) : Host.Outcome State Fault Refusal :=
  .next (s.holdFlash ((s.orBlocked (decompress task)).settleAll))

/-- MODEL (R288). -/
def execModel (task : Nat) (s : State) : Host.Outcome State Fault Refusal :=
  .next (s.holdFlash ((s.orBlocked (model task)).settleAll))

/-- BATCH (R141). -/
def execBatch (task : Nat) (s : State) : Host.Outcome State Fault Refusal :=
  .next (s.holdFlash ((s.orBlocked (batch task)).settleAll))

/-- EMIT (R72). -/
def execEmit (task : Nat) (s : State) : Host.Outcome State Fault Refusal :=
  .next (s.holdFlash ((s.orBlocked (emit task)).settleAll))

/-- BATCH_TIMEOUT (R142). -/
def execBatchTimeout (runSlot : Fin 64) (stage : Fin 64) (s : State) : Host.Outcome State Fault Refusal :=
  .next (s.holdFlash ((batchTimeout runSlot stage s).settleAll))

/-- STRAGGLER_DEFER (R145). -/
def execStragglerDefer (task : Nat) (s : State) : Host.Outcome State Fault Refusal :=
  .next (s.holdFlash ((stragglerDefer task s).settleAll))

/-- STRAGGLER_ABANDON (R145). -/
def execStragglerAbandon (task : Nat) (s : State) : Host.Outcome State Fault Refusal :=
  .next (s.holdFlash ((s.orBlocked (stragglerAbandon task)).settleAll))

/-- READ_INDEX_UPDATE (R73). -/
def execReadIndexUpdate (runSlot : Fin 64) (arg : Fin 64) (value : W64) (poison : Bool)
    (s : State) : Host.Outcome State Fault Refusal :=
  .next (s.holdFlash ((readIndexUpdate runSlot arg value poison s).settleAll))

/-- CANCEL_APPLY (R310). -/
def execCancelApply (runSlot : Fin 64) (s : State) : Host.Outcome State Fault Refusal :=
  .next (s.holdFlash ((cancelApply runSlot s).settleAll))

/-- TASK_STOP (R311). -/
def execTaskStop (task : Nat) (s : State) : Host.Outcome State Fault Refusal :=
  .next (s.holdFlash ((taskStop task s).settleAll))

/-- ADMISSION (R140). -/
def execAdmission (f : Frame) (s : State) : Host.Outcome State Fault Refusal :=
  .next (s.holdFlash ((admission f s).settleAll))

/-- FRAME_NO_RUN (R139). -/
def execFrameNoRun (f : Frame) (s : State) : Host.Outcome State Fault Refusal :=
  .next (s.holdFlash (frameNoRun f s))

/-- WEIGHT_LOAD (R291). -/
def execWeightLoad (graph : Fin 256) (s : State) : Host.Outcome State Fault Refusal :=
  .next (s.holdFlash ((weightLoad graph s).settleAll))

/-- STREAM_SUSPEND (R213). -/
def execStreamSuspend (cluster : Fin 12) (stream : Fin 16) (s : State) : Host.Outcome State Fault Refusal :=
  .next (s.holdFlash ((streamSuspend cluster stream s).settleAll))

/-- STREAM_RESUME (R213). -/
def execStreamResume (cluster : Fin 12) (task : Nat) (s : State) : Host.Outcome State Fault Refusal :=
  .next (s.holdFlash ((s.orBlocked (streamResume cluster task)).settleAll))

/-- CENSUS_WINDOW (R314). -/
def execCensusWindow (s : State) : Host.Outcome State Fault Refusal :=
  .next (s.holdData (censusWindow s))

/-- LOG_ENABLE (R315). -/
def execLogEnable (h : Hdr) (value : W64) (s : State) : Host.Outcome State Fault Refusal :=
  .next (s.holdData (logEnable h value (s.odrenIn h.relayed 24 true)))

/-- ENGINE_RELEASE (R261). -/
def execEngineRelease (h : Hdr) (c : Fin 12) (e : Fin 2) (s : State) : Host.Outcome State Fault Refusal :=
  .next (s.holdFlash (engineRelease h c e (s.odrenIn h.relayed 24 true)))

end Sys2Proof.Machine
end

