-- ==== Sys2Proof/Machine/ExecTether.lean ====
section
/-!
DEFINITION. The commands of the tether links and of the fabric (R318 to R344, R398), and pool accesses and watches of other devices (R31, R47).
-/
namespace Sys2Proof.Machine

open Sys2Proof

/-- FLIT_RECEIVE (R321). -/
def execFlitReceive (link : Fin 64) (f : Flit) (s : State) : Host.Outcome State Fault Refusal :=
  .next (s.holdData (flitReceive link f s))

/-- ACK_TIMER (R321). -/
def execAckTimer (link : Fin 64) (s : State) : Host.Outcome State Fault Refusal :=
  .next (s.holdData (ackTimer link s))

/-- LINK_DOWN (R321). -/
def execLinkDown (link : Fin 64) (why : DownReason) (s : State) : Host.Outcome State Fault Refusal :=
  .next (s.holdFlash ((linkDown link why s).settleAll))

/-- LINK_TRAIN (R325). -/
def execLinkTrain (link : Fin 64) (lanes : LaneSense) (s : State) : Host.Outcome State Fault Refusal :=
  .next (s.holdData (linkTrain link lanes s))

/-- TRAINING_FAILED (R325). -/
def execTrainingFailed (link : Fin 64) (step : Fin 7) (s : State) : Host.Outcome State Fault Refusal :=
  .next (s.holdFlash ((s.trainingFailedJoin link step).settleAll))

/-- TRAINING_RETRY (R325). -/
def execTrainingRetry (link : Fin 64) (s : State) : Host.Outcome State Fault Refusal :=
  .next (s.holdData (trainingRetry link s))

/-- LINK_INIT (R326). -/
def execLinkInit (link : Fin 64) (b : LinkInitBody) (s : State) : Host.Outcome State Fault Refusal :=
  .next (s.holdFlash (s.linkInitJoin link b))

/-- RETRAIN (R343). -/
def execRetrain (h : Hdr) (link : Fin 64) (s : State) : Host.Outcome State Fault Refusal :=
  .next (s.holdFlash (retrain h link (s.odrenIn h.relayed 24 true)))

/-- SEND_RESET_RETRAIN (R328). -/
def execSendResetRetrain (h : Hdr) (link : Fin 64) (s : State) : Host.Outcome State Fault Refusal :=
  .next (s.holdData (sendResetRetrain h link (s.odrenIn h.relayed 24 true)))

/-- SEND_RESET_WARM (R328). -/
def execSendResetWarm (h : Hdr) (link : Fin 64) (s : State) : Host.Outcome State Fault Refusal :=
  .next (s.holdData (sendResetWarm h link (s.odrenIn h.relayed 24 true)))

/-- LINK_DISABLE (R343). -/
def execLinkDisable (h : Hdr) (link : Fin 64) (enable : Bool) (s : State) : Host.Outcome State Fault Refusal :=
  .next (s.holdFlash (linkDisable h link enable (s.odrenIn h.relayed 24 true)))

/-- LINK_RESET_RETRAIN (R328). -/
def execLinkResetRetrain (link : Fin 64) (s : State) : Host.Outcome State Fault Refusal :=
  .next (s.holdFlash (linkResetRetrain link s))

/-- LINK_RESET_WARM (R328). -/
def execLinkResetWarm (link : Fin 64) (s : State) : Host.Outcome State Fault Refusal :=
  .next (s.holdFlash (linkResetWarm link s))

/-- PACKET_RECEIVE (R330). -/
def execPacketReceive (arrival : Option (Fin 64)) (p : Packet) (s : State) : Host.Outcome State Fault Refusal :=
  .next (s.holdFlash (packetReceive arrival p s))

/-- PACKET_DEQUEUE (R330). -/
def execPacketDequeue (link : Fin 64) (cls : BitVec 2) (vc : Bool) (s : State) : Host.Outcome State Fault Refusal :=
  .next (s.holdData (packetDequeue link cls vc s))

/-- TTH_ROUTE_WRITE (R343). -/
def execTthRouteWrite (h : Hdr) (entry : Fin 4096) (word0 : W64) (word1 : W64)
    (s : State) : Host.Outcome State Fault Refusal :=
  .next (s.holdData (tthRouteWrite h entry word0 word1 (s.odrenIn h.relayed 32 true)))

/-- FENCE (R336). -/
def execFence (link : Fin 64) (old : Fin 64) (s : State) : Host.Outcome State Fault Refusal :=
  .next (s.holdData (fence link old s))

/-- FENCE_ACK (R336). -/
def execFenceAck (link : Fin 64) (old : Fin 64) (seq : BitVec 12) (s : State) : Host.Outcome State Fault Refusal :=
  .next (s.holdData (fenceAck link old seq s))

/-- FENCE_TIMEOUT (R336). -/
def execFenceTimeout (old : Fin 64) (s : State) : Host.Outcome State Fault Refusal :=
  .next (s.holdData (fenceTimeout old s))

/-- POOL_READ_REQ (R31). -/
def execPoolReadReq (source : BitVec 20) (tag : Nat) (addr : W64) (len : Nat)
    (s : State) : Host.Outcome State Fault Refusal :=
  .next (s.holdFlash (poolReadReq source tag addr len s))

/-- POOL_READ_RESP (R329). -/
def execPoolReadResp (source : BitVec 20) (tag : Nat) (status : Code) (data : List Byte)
    (s : State) : Host.Outcome State Fault Refusal :=
  .next (s.holdFlash ((poolReadResp source tag status data s).runsReady))

/-- POOL_WRITE_PACKET (R31). -/
def execPoolWritePacket (source : BitVec 20) (tag : Nat) (addr : W64) (data : List Byte) (poison : List Nat)
    (s : State) : Host.Outcome State Fault Refusal :=
  .next (s.holdFlash (poolWritePacket source tag addr data poison s))

/-- POOL_WRITE_ACK (R329). -/
def execPoolWriteAck (source : BitVec 20) (tag : Nat) (status : Code)
    (s : State) : Host.Outcome State Fault Refusal :=
  let t := poolWriteAck source tag status s
  .next (s.holdFlash (if s.awaits source tag then (t.published tag status).settleAll else t))

/-- POOL_TIMEOUT (R329). -/
def execPoolTimeout (tag : Nat) (s : State) : Host.Outcome State Fault Refusal :=
  let t := poolTimeout tag s
  .next (s.holdFlash ((if t.tth.reqs == s.tth.reqs then t
    else (t.published tag C.POOL_TIMEOUT).runsReady).settleAll))

/-- WATCH_NOTIFY (R47). -/
def execWatchNotify (source : BitVec 20) (addr : W64) (value : W64) (poison : Bool)
    (s : State) : Host.Outcome State Fault Refusal :=
  .next (s.holdFlash (watchNotify source addr value poison s))

/-- WATCH_REGISTERED_AT_OWNER (R47). -/
def execWatchRegisteredAtOwner (source : BitVec 20) (addr : W64) (remove : Bool)
    (s : State) : Host.Outcome State Fault Refusal :=
  .next (s.holdFlash (watchRegisteredAtOwner source addr remove s))

/-- TIME_SYNC_TIMER (R340). -/
def execTimeSyncTimer (s : State) : Host.Outcome State Fault Refusal :=
  .next (s.holdData (timeSyncTimer s))

/-- TIME_SYNC (R340). -/
def execTimeSync (link : Fin 64) (answer : Bool) (t1 t2 t3 : Nat) (stratum : Nat)
    (s : State) : Host.Outcome State Fault Refusal :=
  .next (s.holdData (timeSync link answer t1 t2 t3 stratum s))

/-- DEPARTED (R338). -/
def execDeparted (link : Fin 64) (device : BitVec 20) (number : Nat) (s : State) : Host.Outcome State Fault Refusal :=
  .next (s.holdFlash ((departed link device number s).settleAll))

/-- JOIN_REQUEST (R398). -/
def execJoinRequest (link : Fin 64) (device : BitVec 20) (departure : Nat) (versions : List W32)
    (s : State) : Host.Outcome State Fault Refusal :=
  .next (s.holdFlash (joinRequest link device departure versions s))

/-- JOIN_REPLY (R398). -/
def execJoinReply (link : Fin 64) (device : BitVec 20) (departure : Nat) (maps : List MapRecord)
    (s : State) : Host.Outcome State Fault Refusal :=
  .next (s.holdFlash (joinReply link device departure maps s))

/-- JOIN_WAIT_EXPIRY (R398). -/
def execJoinWaitExpiry (s : State) : Host.Outcome State Fault Refusal :=
  .next (s.holdFlash (joinWaitExpiry s))

end Sys2Proof.Machine
end

