-- ==== Sys2Proof/Machine/Dispatch.lean ====
section
/-!
DEFINITION. The one match from a command to its meaning: one arm per row of the table.
-/
namespace Sys2Proof.Machine

/-- The effect of a command on everything but the queue. -/
def exec (i : Instr) (s : State) : Host.Outcome State Fault Refusal :=
  match i with
  | .hello m => Sys2Proof.Machine.execHello m s
  | .prove h m => Sys2Proof.Machine.execProve h m s
  | .close h => Sys2Proof.Machine.execClose h s
  | .sessionOpenTimeout slot => Sys2Proof.Machine.execSessionOpenTimeout slot s
  | .sessionIdleTimeout slot => Sys2Proof.Machine.execSessionIdleTimeout slot s
  | .odrenFrameDiscard why => Sys2Proof.Machine.execOdrenFrameDiscard why s
  | .readReg h addr count => Sys2Proof.Machine.execReadReg h addr count s
  | .writeReg h addr words => Sys2Proof.Machine.execWriteReg h addr words s
  | .run h b => Sys2Proof.Machine.execRun h b s
  | .cancel h run => Sys2Proof.Machine.execCancel h run s
  | .query h run => Sys2Proof.Machine.execQuery h run s
  | .rowWrite h table id scale row => Sys2Proof.Machine.execRowWrite h table id scale row s
  | .poolRead h addr len => Sys2Proof.Machine.execPoolRead h addr len s
  | .poolWrite h addr data => Sys2Proof.Machine.execPoolWrite h addr data s
  | .watchSet h addr => Sys2Proof.Machine.execWatchSet h addr s
  | .watchClear h addr => Sys2Proof.Machine.execWatchClear h addr s
  | .erase h slot offset len => Sys2Proof.Machine.execErase h slot offset len s
  | .program h slot offset data => Sys2Proof.Machine.execProgram h slot offset data s
  | .finalResponse slot seq => Sys2Proof.Machine.execFinalResponse slot seq s
  | .timeQuery h t1 => Sys2Proof.Machine.execTimeQuery h t1 s
  | .timeSet h step value => Sys2Proof.Machine.execTimeSet h step value s
  | .timeAdjust h step value => Sys2Proof.Machine.execTimeAdjust h step value s
  | .soft h => Sys2Proof.Machine.execSoft h s
  | .quickRepitch h => Sys2Proof.Machine.execQuickRepitch h s
  | .coldRepitch h => Sys2Proof.Machine.execColdRepitch h s
  | .attnAck h => Sys2Proof.Machine.execAttnAck h s
  | .attnFirstSend slot => Sys2Proof.Machine.execAttnFirstSend slot s
  | .attnResend slot seq => Sys2Proof.Machine.execAttnResend slot seq s
  | .portDown => Sys2Proof.Machine.execPortDown s
  | .portUp => Sys2Proof.Machine.execPortUp s
  | .crossedFibre => Sys2Proof.Machine.execCrossedFibre s
  | .relay link b => Sys2Proof.Machine.execRelay link b s
  | .relayed mac b => Sys2Proof.Machine.execRelayed mac b s
  | .taskDispatch => Sys2Proof.Machine.execTaskDispatch s
  | .scan task => Sys2Proof.Machine.execScan task s
  | .filter task => Sys2Proof.Machine.execFilter task s
  | .project task => Sys2Proof.Machine.execProject task s
  | .hash task => Sys2Proof.Machine.execHash task s
  | .bucket task => Sys2Proof.Machine.execBucket task s
  | .normalise task => Sys2Proof.Machine.execNormalise task s
  | .stats task => Sys2Proof.Machine.execStats task s
  | .statsMerge runSlot stage => Sys2Proof.Machine.execStatsMerge runSlot stage s
  | .partition task => Sys2Proof.Machine.execPartition task s
  | .joinBuild task => Sys2Proof.Machine.execJoinBuild task s
  | .joinProbe task => Sys2Proof.Machine.execJoinProbe task s
  | .dictJoin task => Sys2Proof.Machine.execDictJoin task s
  | .gather task => Sys2Proof.Machine.execGather task s
  | .scatter task => Sys2Proof.Machine.execScatter task s
  | .lookup task => Sys2Proof.Machine.execLookup task s
  | .update task => Sys2Proof.Machine.execUpdate task s
  | .decode task => Sys2Proof.Machine.execDecode task s
  | .parse task => Sys2Proof.Machine.execParse task s
  | .pyramid task => Sys2Proof.Machine.execPyramid task s
  | .compress task => Sys2Proof.Machine.execCompress task s
  | .decompress task => Sys2Proof.Machine.execDecompress task s
  | .model task => Sys2Proof.Machine.execModel task s
  | .batch task => Sys2Proof.Machine.execBatch task s
  | .emit task => Sys2Proof.Machine.execEmit task s
  | .batchTimeout runSlot stage => Sys2Proof.Machine.execBatchTimeout runSlot stage s
  | .stragglerDefer task => Sys2Proof.Machine.execStragglerDefer task s
  | .stragglerAbandon task => Sys2Proof.Machine.execStragglerAbandon task s
  | .readIndexUpdate runSlot arg value poison => Sys2Proof.Machine.execReadIndexUpdate runSlot arg value poison s
  | .cancelApply runSlot => Sys2Proof.Machine.execCancelApply runSlot s
  | .taskStop task => Sys2Proof.Machine.execTaskStop task s
  | .admission f => Sys2Proof.Machine.execAdmission f s
  | .frameNoRun f => Sys2Proof.Machine.execFrameNoRun f s
  | .weightLoad graph => Sys2Proof.Machine.execWeightLoad graph s
  | .mstWrite h table addr => Sys2Proof.Machine.execMstWrite h table addr s
  | .mstInsert h table addr => Sys2Proof.Machine.execMstInsert h table addr s
  | .mstRemove h table addr => Sys2Proof.Machine.execMstRemove h table addr s
  | .mstRead h table addr => Sys2Proof.Machine.execMstRead h table addr s
  | .mstSearch h table => Sys2Proof.Machine.execMstSearch h table s
  | .mstOpHead table => Sys2Proof.Machine.execMstOpHead table s
  | .shiftMove table => Sys2Proof.Machine.execShiftMove table s
  | .shiftEnd table => Sys2Proof.Machine.execShiftEnd table s
  | .searchGrant => Sys2Proof.Machine.execSearchGrant s
  | .mstTempSample temp => Sys2Proof.Machine.execMstTempSample temp s
  | .mstScrubVisit block index => Sys2Proof.Machine.execMstScrubVisit block index s
  | .blockRetire block => Sys2Proof.Machine.execBlockRetire block s
  | .spareSwap block => Sys2Proof.Machine.execSpareSwap block s
  | .shadowRebuilt block => Sys2Proof.Machine.execShadowRebuilt block s
  | .streamSuspend cluster stream => Sys2Proof.Machine.execStreamSuspend cluster stream s
  | .streamResume cluster task => Sys2Proof.Machine.execStreamResume cluster task s
  | .roundClose round cause => Sys2Proof.Machine.execRoundClose round cause s
  | .roundTimeout round => Sys2Proof.Machine.execRoundTimeout round s
  | .lookupReq b ids => Sys2Proof.Machine.execLookupReq b ids s
  | .lookupResp b es => Sys2Proof.Machine.execLookupResp b es s
  | .updateReq b es => Sys2Proof.Machine.execUpdateReq b es s
  | .updateAck b es => Sys2Proof.Machine.execUpdateAck b es s
  | .forwardReq b es => Sys2Proof.Machine.execForwardReq b es s
  | .forwardResp b es => Sys2Proof.Machine.execForwardResp b es s
  | .hotPush b es => Sys2Proof.Machine.execHotPush b es s
  | .hotInvalidate b es => Sys2Proof.Machine.execHotInvalidate b es s
  | .hotAck b => Sys2Proof.Machine.execHotAck b s
  | .hotDecay => Sys2Proof.Machine.execHotDecay s
  | .migrate h position map newOwner => Sys2Proof.Machine.execMigrate h position map newOwner s
  | .migrateForce h position map newOwner => Sys2Proof.Machine.execMigrateForce h position map newOwner s
  | .autoMigrateCheck served => Sys2Proof.Machine.execAutoMigrateCheck served s
  | .migrateRows b es => Sys2Proof.Machine.execMigrateRows b es s
  | .migrateAck b lastId => Sys2Proof.Machine.execMigrateAck b lastId s
  | .mapUpdate b position device version => Sys2Proof.Machine.execMapUpdate b position device version s
  | .forwardingEnd slot => Sys2Proof.Machine.execForwardingEnd slot s
  | .migrateFree slot => Sys2Proof.Machine.execMigrateFree slot s
  | .migrationTimeout slot => Sys2Proof.Machine.execMigrationTimeout slot s
  | .endOfBuild b => Sys2Proof.Machine.execEndOfBuild b s
  | .partitionRows b stage rows => Sys2Proof.Machine.execPartitionRows b stage rows s
  | .flitReceive link f => Sys2Proof.Machine.execFlitReceive link f s
  | .ackTimer link => Sys2Proof.Machine.execAckTimer link s
  | .linkDown link why => Sys2Proof.Machine.execLinkDown link why s
  | .linkTrain link lanes => Sys2Proof.Machine.execLinkTrain link lanes s
  | .trainingFailed link step => Sys2Proof.Machine.execTrainingFailed link step s
  | .trainingRetry link => Sys2Proof.Machine.execTrainingRetry link s
  | .linkInit link b => Sys2Proof.Machine.execLinkInit link b s
  | .retrain h link => Sys2Proof.Machine.execRetrain h link s
  | .sendResetRetrain h link => Sys2Proof.Machine.execSendResetRetrain h link s
  | .sendResetWarm h link => Sys2Proof.Machine.execSendResetWarm h link s
  | .linkResetRetrain link => Sys2Proof.Machine.execLinkResetRetrain link s
  | .linkResetWarm link => Sys2Proof.Machine.execLinkResetWarm link s
  | .packetReceive arrival p => Sys2Proof.Machine.execPacketReceive arrival p s
  | .packetDequeue link cls vc => Sys2Proof.Machine.execPacketDequeue link cls vc s
  | .tthRouteWrite h entry word0 word1 => Sys2Proof.Machine.execTthRouteWrite h entry word0 word1 s
  | .fence link old => Sys2Proof.Machine.execFence link old s
  | .fenceAck link old seq => Sys2Proof.Machine.execFenceAck link old seq s
  | .fenceTimeout old => Sys2Proof.Machine.execFenceTimeout old s
  | .poolReadReq source tag addr len => Sys2Proof.Machine.execPoolReadReq source tag addr len s
  | .poolReadResp source tag status data => Sys2Proof.Machine.execPoolReadResp source tag status data s
  | .poolWritePacket source tag addr data poison => Sys2Proof.Machine.execPoolWritePacket source tag addr data poison s
  | .poolWriteAck source tag status => Sys2Proof.Machine.execPoolWriteAck source tag status s
  | .poolTimeout tag => Sys2Proof.Machine.execPoolTimeout tag s
  | .watchNotify source addr value poison => Sys2Proof.Machine.execWatchNotify source addr value poison s
  | .timeSyncTimer => Sys2Proof.Machine.execTimeSyncTimer s
  | .timeSync link answer t1 t2 t3 stratum => Sys2Proof.Machine.execTimeSync link answer t1 t2 t3 stratum s
  | .departed link device number => Sys2Proof.Machine.execDeparted link device number s
  | .joinRequest link device departure versions => Sys2Proof.Machine.execJoinRequest link device departure versions s
  | .joinReply link device departure maps => Sys2Proof.Machine.execJoinReply link device departure maps s
  | .joinWaitExpiry => Sys2Proof.Machine.execJoinWaitExpiry s
  | .scrubRead u => Sys2Proof.Machine.execScrubRead u s
  | .scrubForcedTurn u => Sys2Proof.Machine.execScrubForcedTurn u s
  | .mirrorRebuilt u => Sys2Proof.Machine.execMirrorRebuilt u s
  | .vaultRefresh v temp => Sys2Proof.Machine.execVaultRefresh v temp s
  | .lpddr6Refresh ch rate => Sys2Proof.Machine.execLpddr6Refresh ch rate s
  | .clusterShade c => Sys2Proof.Machine.execClusterShade c s
  | .clusterWake c => Sys2Proof.Machine.execClusterWake c s
  | .censusWindow => Sys2Proof.Machine.execCensusWindow s
  | .logEnable h value => Sys2Proof.Machine.execLogEnable h value s
  | .engineRelease h c e => Sys2Proof.Machine.execEngineRelease h c e s
  | .bankRequest h force alarmMs => Sys2Proof.Machine.execBankRequest h force alarmMs s
  | .douseRequest h force alarmMs => Sys2Proof.Machine.execDouseRequest h force alarmMs s
  | .alarm => Sys2Proof.Machine.execAlarm s
  | .pwsClusterReset h c => Sys2Proof.Machine.execPwsClusterReset h c s
  | .clusterLit c => Sys2Proof.Machine.execClusterLit c s
  | .watchdogExpiry => Sys2Proof.Machine.execWatchdogExpiry s
  | .warmPin => Sys2Proof.Machine.execWarmPin s
  | .powerOn why => Sys2Proof.Machine.execPowerOn why s
  | .pwrgoodFall => Sys2Proof.Machine.execPwrgoodFall s
  | .lossOf48V => Sys2Proof.Machine.execLossOf48V s
  | .inputSwitchRetry shorted => Sys2Proof.Machine.execInputSwitchRetry shorted s
  | .slotCheck h slot => Sys2Proof.Machine.execSlotCheck h slot s
  | .nextSlot h value => Sys2Proof.Machine.execNextSlot h value s
  | .rollbackCommit h => Sys2Proof.Machine.execRollbackCommit h s
  | .enroll h position => Sys2Proof.Machine.execEnroll h position s
  | .revoke h position => Sys2Proof.Machine.execRevoke h position s
  | .quoteGo h => Sys2Proof.Machine.execQuoteGo h s
  | .certificateLoad h => Sys2Proof.Machine.execCertificateLoad h s
  | .quoteReady => Sys2Proof.Machine.execQuoteReady s
  | .probe missed => Sys2Proof.Machine.execProbe missed s
  | .unitFailed u => Sys2Proof.Machine.execUnitFailed u s
  | .coreReplace n => Sys2Proof.Machine.execCoreReplace n s
  | .vaultReplace v => Sys2Proof.Machine.execVaultReplace v s
  | .clusterReplace c => Sys2Proof.Machine.execClusterReplace c s
  | .unitClear h => Sys2Proof.Machine.execUnitClear h s
  | .logClear h => Sys2Proof.Machine.execLogClear h s
  | .governorFastCheck watts => Sys2Proof.Machine.execGovernorFastCheck watts s
  | .governorCheck watts temps => Sys2Proof.Machine.execGovernorCheck watts temps s
  | .clusterHold c sensor temp => Sys2Proof.Machine.execClusterHold c sensor temp s
  | .clusterHoldRelease c temp => Sys2Proof.Machine.execClusterHoldRelease c temp s
  | .thermalTrip sensor temp => Sys2Proof.Machine.execThermalTrip sensor temp s
  | .pmcWindow => Sys2Proof.Machine.execPmcWindow s
  | .counterOverflow r => Sys2Proof.Machine.execCounterOverflow r s
  | .counterWrite h r value => Sys2Proof.Machine.execCounterWrite h r value s
  | .energySample microjoules => Sys2Proof.Machine.execEnergySample microjoules s
  | .tdTest h clusters => Sys2Proof.Machine.execTdTest h clusters s
  | .tdOff h => Sys2Proof.Machine.execTdOff h s
  | .mgmtReadReg addr => Sys2Proof.Machine.execMgmtReadReg addr s
  | .wake => Sys2Proof.Machine.execWake s
  | .douse => Sys2Proof.Machine.execDouse s
  | .enrollFirst position digest => Sys2Proof.Machine.execEnrollFirst position digest s
  | .mgmtStatus => Sys2Proof.Machine.execMgmtStatus s
  | .mgmtStuck => Sys2Proof.Machine.execMgmtStuck s
  | .mgmtReconnect => Sys2Proof.Machine.execMgmtReconnect s
  | .moduleSample inlet outlet millivolts milliamps watts => Sys2Proof.Machine.execModuleSample inlet outlet millivolts milliamps watts s
  | .jtagInstruction code => Sys2Proof.Machine.execJtagInstruction code s
  | .pitchCopyRewrite => Sys2Proof.Machine.execPitchCopyRewrite s
  | .modThermN temps => Sys2Proof.Machine.execModThermN temps s
  | .linkDisable h link enable => Sys2Proof.Machine.execLinkDisable h link enable s
  | .messageInvalid h why => Sys2Proof.Machine.execMessageInvalid h why s
  | .rowWriteForwarded source tag table id scale row => Sys2Proof.Machine.execRowWriteForwarded source tag table id scale row s
  | .watchRegisteredAtOwner source addr remove => Sys2Proof.Machine.execWatchRegisteredAtOwner source addr remove s
  | .dynamicAddress => Sys2Proof.Machine.execDynamicAddress s

end Sys2Proof.Machine
end

