-- ==== Sys2Proof/Machine/Tick.lean ====
section
/-!
DEFINITION. What passes when no command waits: one cycle of the lantern clock (R365).
-/
namespace Sys2Proof.Machine

open Sys2Proof

/-- Cycles of the 1.7 GHz clocks in one lantern cycle of 80 ns. -/
def tickCycles : Nat := 136

/-! ### Top-down counting (R415) -/

/-- Charge cycles of a top-down unit to a cause; work cycles are held back until the task ends. -/
def State.charge (s : State) (c u k cycles : Nat) : State :=
  if k = 6 then
    let key := c * 2 + u
    { s with pmc := { s.pmc with tdHeld := assocSet s.pmc.tdHeld key (lookupD 0 s.pmc.tdHeld key + cycles) } }
  else
    let f : FRef := F.PMC_CL_CNT_VALUE
    s.fset2 f c (8 * u + k) ((s.fget2 f c (8 * u + k) + cycles) % 2 ^ 48)

/-- Share the cycles of a busy unit among causes: what it waits for is open, so each share is free. -/
def State.shareCycles (s : State) (c u left : Nat) : List Nat → State
  | [] => s.charge c u 6 left
  | k :: r =>
    let (d, s) := s.draw
    let n := Config.choice d % (left + 1)
    State.shareCycles (s.charge c u k n) c u (left - n) r

/-- The causes beside work that can apply to a busy unit: the governor holds no vault unit, and none at level 8 (R430). -/
def State.waitCauses (s : State) (kind : Nat) : List Nat :=
  if kind < 4 && s.fget F.FLT_GOV_LEVEL < 8 then [0, 1, 2, 3, 4] else [1, 2, 3, 4]

/-- Charge the cycles of one lantern cycle to unit `u` of a cluster; a unit without a task is charged NO_TASK. -/
def State.topDownUnit (s : State) (c u cycles : Nat) : State :=
  let (core, kind) := s.topDownSel c u
  let busy := match core with
    | some n => if kind < 4 then s.coreRuns n [.model] else s.unitBusy (unitVault n)
    | none => false
  if busy then s.shareCycles c u cycles (s.waitCauses kind) else s.charge c u 5 cycles

/-- Top-down counting in the clusters that do it (R414); a SHADED cluster's clock stands. -/
def State.topDownTick (s : State) (cycles : Nat) : State :=
  ((List.range 12).filter (fun c => s.topDown c && !s.shaded c)).foldl
    (fun s c => (s.topDownUnit c 0 cycles).topDownUnit c 1 cycles) s

/-! ### Signals that stand through a lantern cycle (R404, R406) -/

/-- A signal asserted in every cycle of the tick. In EDGE mode it has risen at most once, and whether it stood before is
open. -/
def State.levelEvent (s : State) (ev inst : Nat) : State :=
  s.countersOn.foldl (fun s r =>
    let w := s.counterInForce r
    if counts w r ev inst then
      if bitAt w.toNat 12 then s.counterAdd r tickCycles
      else
        let (k, s) := s.draw
        s.counterAdd r (b2n (Config.coin k))
    else s) s

/-- Whether a class of a link holds data without credit. -/
def State.linkStarved (s : State) (l : Nat) : Bool :=
  s.sends l && (List.range 8).any (fun k => (s.linkx l).hasData k && s.credit l (k / 2) (k % 2 == 1) == 0)

/-- The signals of units that now stand: event and instance. -/
def State.standing (s : State) : List (Nat × Nat) :=
  let of_ (ev n : Nat) (p : Nat → Bool) : List (Nat × Nat) := ((List.range n).filter p).map (fun i => (ev, i))
  let held (n : Nat) : Bool := s.disp.tasks.any (fun t => t.held.isSome && t.core == n)
  let unitsWait := of_ 0x501 192 (fun n => decide (0 < (s.censusDepth n).1)) ++ of_ 0x502 192 held
  let blocked := s.pat.filterMap (fun x =>
    match x.stream, x.blockedAt with
    | some i, some _ => some (0x700, x.cluster * 16 + i)
    | _, _ => none)
  let rounds := s.emb.rounds.map (fun r => (0x900, r.slot))
  unitsWait ++ blocked ++ rounds ++ of_ 0xA01 64 s.linkStarved

/-- Events inside a cycle that no command shows: port contention, bank conflicts, NoC credit stalls. -/
def hiddenEvents : List Nat := [0x104, 0x305, 0xB00]

/-- Counters of such events advance by a free amount. -/
def State.hiddenTick (s : State) : State :=
  s.countersOn.foldl (fun s r =>
    if hiddenEvents.contains (bitsOf (s.counterInForce r).toNat 11 0) then
      let (k, s) := s.draw
      s.counterAdd r (Config.choice k % (tickCycles + 1))
    else s) s

/-- Whether a full release buffer holds a task of a run back: one that could be dispatched, or a finished chunk (R308). -/
def State.runStalled (s : State) (slot : Nat) : Bool :=
  s.disp.tasks.any (fun t => t.slot == slot && (t.held.isSome || (t.state == .ready &&
    (match s.stage? t.slot t.stage, s.pipelineOf t.slot with
     | some st, some p => !s.releaseRoom t st p
     | _, _ => false))))

/-- Cycles in which runs were held back (R308). -/
def State.stallTick (s : State) : State :=
  { s with runs := s.runs.map (fun r => if s.runStalled r.slot then { r with stall := r.stall + tickCycles } else r) }

/-! ### Time -/

/-- The correction of meridian time that one lantern cycle makes: in every 25th cycle (2,000 ns) at most 1 ns, so at
most 500 ppm (R352). -/
def State.slew (s : State) : State :=
  if s.clock.phase < 24 then { s with clock := { s.clock with phase := s.clock.phase + 1 } }
  else
    let s := { s with clock := { s.clock with phase := 0 } }
    if s.clock.corr = 0 then s
    else
      let (d, s) := s.draw
      if Config.slewNow d then
        if s.clock.corr > 0 then
          { s with clock := { s.clock with meridian := s.clock.meridian + 1, corr := s.clock.corr - 1 } }
        else { s with clock := { s.clock with meridian := s.clock.meridian - 1, corr := s.clock.corr + 1 } }
      else s

/-- One lantern cycle: 80 ns, 136 cycles of 1.7 GHz (log entry 1). Without 48 V nothing runs. -/
def State.tick (s : State) : State :=
  if !s.power.input48 then s
  else
    let s := { s with clock := { s.clock with
      lantern := s.clock.lantern + 1, meridian := (s.clock.meridian + 80) % 2 ^ 64 } }
    let s := s.slew
    if s.upAndRunning then
      let s := (s.levelEvent 0x000 0).event 0x001 0 1
      let s := s.standing.foldl (fun s (e : Nat × Nat) => s.levelEvent e.1 e.2) s
      (s.hiddenTick.stallTick).topDownTick tickCycles
    else s

/-- What a tick leaves alone: the queue, the fuses, the flash, the memory and the image in force. -/
def tick (s : State) : State :=
  { s.tick with
    pending := s.pending, fuses := s.fuses, flash := s.flash, mem := s.mem, core := s.core, image := s.image }

end Sys2Proof.Machine
end

