-- ==== Sys2Proof/Safety.lean ====
section
/-!
DEFINITION. The terms statements use: what a safe run is, what a command completes with, when a session's command is taken,
which parts of the state a command leaves as they are.
-/
namespace Sys2Proof
open Sys2Proof.Machine

/-- A run of `n` steps from `s` that meets no fault and no refusal. -/
def RunsOn : Nat → State → Prop
  | 0, _ => True
  | n + 1, s => ∃ t, step s = .next t ∧ RunsOn n t

/-- The command completes: `exec` answers a next state, and that state is as `P` says. -/
def Gives (c : Instr) (s : State) (P : State → Prop) : Prop := ∃ t, exec c s = .next t ∧ P t

/-- The protected message `h` reaches the device as the next command of session `z`, which takes commands (`opening`: a
PROVE or CLOSE, which an unopened Keeper session takes too), has room for one more waiting command, and its shape is right
(R348 to R351, R353, R354). -/
def Accepted (s : State) (h : Hdr) (z : Session) (opening : Bool := false) : Prop :=
  s.reached h.relayed = true ∧ s.session? h.session = some z ∧ (z.isOpen = true ∨ z.role = .operator ∨ opening = true) ∧
  h.seq = z.expected ∧ z.pends.length < 64 ∧ h.wellShaped = true

/-- Session `z` once message `h` of `body` bytes is accepted: heard now, opened if this is an Operator's first, one command
further (R349, R353). -/
def Machine.State.holder (s : State) (h : Hdr) (body : Nat) (z : Session) : Session :=
  let x := (((s.odrenIn h.relayed body true).hear h z).session? h.session).getD z
  { x with expected := x.expected + 1 }

/-- The state in which an accepted message is executed: the message is metered, its session heard. -/
def Machine.State.taken (s : State) (h : Hdr) (body : Nat) (z : Session) : State :=
  ((s.odrenIn h.relayed body true).hear h z).putSession (s.holder h body z)

/-- The response that answers a command of a session has been sent with this status and body, last of all. -/
def Responds (s t : State) (h : Hdr) (type : Nat) (c : Code) (body : List Byte) : Prop :=
  ∃ mac relayed, t.outbox = s.outbox ++ [.response mac relayed ⟨type, h.session, h.seq, c, false, body⟩]

/-- The last message sent is the response that answers a command of a session, with this status and body. -/
def Answers (t : State) (h : Hdr) (type : Nat) (c : Code) (body : List Byte) : Prop :=
  ∃ before mac relayed, t.outbox = before ++ [.response mac relayed ⟨type, h.session, h.seq, c, false, body⟩]

/-- The registers below keep their order of addresses: the form that every register write keeps. -/
def RegsOrdered (s : State) : Prop := SMap.risingFrom 0 s.regs = true

/-- Every register but those at the addresses `l` keeps its word. -/
def RegsKept (s t : State) (l : List Nat) : Prop :=
  ∀ id i j, regAddr id i j ∉ l → t.raw id i j = s.raw id i j

/-- The stores that hold data: memory, core stores, fuses, flash, the image in force. -/
def StoresKept (s t : State) : Prop :=
  t.mem = s.mem ∧ t.core = s.core ∧ t.fuses = s.fuses ∧ t.flash = s.flash ∧ t.image = s.image

/-- Runs, tasks and what they accumulate. -/
def RunsKept (s t : State) : Prop :=
  t.runs = s.runs ∧ t.work = s.work ∧ t.disp = s.disp ∧ t.runDescs = s.runDescs ∧ t.pat = s.pat

/-- The embedding pool, the match store, the links, the units and the counters' bookkeeping. -/
def UnitsKept (s t : State) : Prop :=
  t.emb = s.emb ∧ t.mst = s.mst ∧ t.tth = s.tth ∧ t.units = s.units ∧ t.gov = s.gov ∧ t.power = s.power

/-- The state in which an operator begins a step: none of its vault requests has been found waiting. -/
def Unblocked (s : State) : State := { s with power := { s.power with blocked := false } }

/-- No vault's requests wait: none is held, being cleared or replaced, and no cluster is shaded or on its way to wake (R43,
R427, R428). -/
def NoneWaits (s : State) : Prop := ∀ v, v < 192 → s.vaultWaits v = false

/-- The columns that a task of run `r` reads are the rows `rows`, read in state `v` without a wait. -/
def Reads (s : State) (r : Run) (t : Task) (nums : List Nat) (rows : Rows) (v : State) : Prop :=
  (Unblocked s).fetch r t.chunk nums = .ok (rows, v) ∧ v.power.blocked = false

/-- The rows with one column added, in place of the one of its number if there is one. -/
def Machine.Rows.put (r : Rows) (c : Column) : Rows := { r with cols := putCol r.cols c }

/-- From state `v` the task ends and passes the chunks on; then everything that waits settles. -/
def PassesOn (s u v : State) (t : Task) (outs : List Chunk) : Prop := u = s.holdFlash ((v.endTask t outs).settleAll)

/-- From state `v` the chunk is placed in a core store or its vault, and the task ends and passes it on (R79). -/
def PlacesOn (s u v : State) (t : Task) (c : Chunk) : Prop := PassesOn s u (v.place c).2 t [(v.place c).1]

/-- A task of the operator runs, and every column of its chunk has been read. -/
def AtHand (s : State) (task : Nat) (op : Op) (t : Task) (st : StageRec) (p : Pipeline) (r : Run) : Prop :=
  s.runningTask task op = some (t, st, p, r) ∧ t.chunk.rows.rest = none

/-- From state `v` the task of a vault operator fails, and its run with it; then everything that waits settles. -/
def FailsWith (s u v : State) (t : Task) (op : Op) (code : Code) : Prop := u = s.holdFlash ((v.vaultFail t op code).settleAll)

/-- The operators' commands, with the operator and the step of each. -/
def operators (task : Nat) : List (Instr × Op × (State → State)) :=
  [(.scan task, .scan, scan task), (.filter task, .filter, filter task), (.project task, .project, project task),
   (.hash task, .hash, hash task), (.bucket task, .bucket, bucket task), (.normalise task, .normalise, normalise task),
   (.stats task, .stats, stats task), (.partition task, .partition, partition task),
   (.joinBuild task, .joinBuild, joinBuild task), (.joinProbe task, .joinProbe, joinProbe task),
   (.dictJoin task, .dictJoin, dictJoin task), (.gather task, .gather, gather task), (.scatter task, .scatter, scatter task),
   (.lookup task, .lookup, lookup task), (.update task, .update, update task), (.decode task, .decode, decode task),
   (.parse task, .parse, parse task), (.pyramid task, .pyramid, pyramid task), (.compress task, .compress, compress task),
   (.decompress task, .decompress, decompress task), (.model task, .model, model task), (.batch task, .batch, batch task),
   (.emit task, .emit, emit task)]

/-- Nothing burned in `a` is unburned in `b`: digests and revocations stand, the counters have not fallen and are within 64,
what manufacture burned is the same (R390, R391). -/
def FusesSince (a b : Fuses) : Prop :=
  (∀ k d, a.owners.getD k none = some d → b.owners.getD k none = some d) ∧
  (∀ k, a.revoked.getD k false = true → b.revoked.getD k false = true) ∧
  (a.svnWarden ≤ b.svnWarden ∧ b.svnWarden ≤ 64) ∧ (a.svnSteward ≤ b.svnSteward ∧ b.svnSteward ≤ 64) ∧
  (a.svnPitch ≤ b.svnPitch ∧ b.svnPitch ≤ 64) ∧
  b.mac = a.mac ∧ b.serial = a.serial ∧ b.stepping = a.stepping ∧ b.board = a.board ∧ b.grenogRevoked = a.grenogRevoked ∧
  b.repairs = a.repairs

end Sys2Proof
end

