-- ==== Sys2Proof/Certificates/Slice0/Obligations.lean ====
section
/-!
DEFINITION. The statements about this model, each with the rules of spec/ it rests on.
-/

open Sys2Proof Sys2Proof.Machine

/-- A step is the front command run on the queue's rest. For every command and state, a step with that command at the
front of the queue is exec of the command on the state with the queue's rest; with no command waiting the block idles
for one lantern cycle (the model's choice, log entry 1). (spec/opcode_table.json, spec/95_what_each_step_holds.md) -/
def Obligations.StepTakesFront : Prop :=
  ∀ (c : Instr) (r : List Instr) (s : State),
    step { s with pending := c :: r } = exec c { s with pending := r } ∧ step { s with pending := [] } = .next (tick { s with pending := [] })

/-- A session's next command is executed, and only that one. A message that reaches the device and carries the next SEQ of
an open session is executed and SEQ advances; the first command of an unopened Operator session opens it; an unknown
session, a Keeper session not yet proven, an old or early SEQ and a 65th waiting command are answered without
execution. (spec/14_odren_port.md R349, spec/14_odren_port.md R350, spec/14_odren_port.md R353, spec/14_odren_port.md
R354) -/
def Obligations.CommandTakenInOrder : Prop :=
  ∀ (s : State) (h : Hdr) (type : Nat) (opening : Bool),
    (s.reached h.relayed = false → s.receive h type opening = .lost) ∧
    (s.reached h.relayed = true →
      (s.session? h.session = none →
        s.receive h type opening = .answered (s.answerBare h.mac h.relayed type h.session h.seq C.SESSION_UNKNOWN [])) ∧
      ∀ x : Session, s.session? h.session = some x →
        (x.isOpen = false → x.role = .keeper → opening = false →
          s.receive h type opening = .answered (s.answerBare h.mac h.relayed type h.session h.seq C.ROLE_DENIED [])) ∧
        (x.isOpen = false → x.role = .operator → h.seq = x.expected → x.pends.length < 64 →
          ∃ y t, s.receive h type opening = .execute y t ∧ y.isOpen = true ∧ y.expected = x.expected + 1 ∧
            t.session? h.session = some y ∧ StoresKept s t ∧ RunsKept s t ∧ t.regs = s.regs) ∧
        (x.isOpen = true →
          let y : Session := { x with mac := h.mac, relayed := h.relayed, heardAt := s.now }
          let t := s.putSession y
          (h.seq = x.expected → x.pends.length < 64 →
            s.receive h type opening =
              .execute { y with expected := x.expected + 1 } (s.putSession { y with expected := x.expected + 1 })) ∧
          (h.seq = x.expected → 64 ≤ x.pends.length →
            s.receive h type opening = .answered (t.answerBare h.mac h.relayed type h.session h.seq C.BUSY [])) ∧
          (x.expected < h.seq →
            s.receive h type opening =
              .answered (t.answerBare h.mac h.relayed type h.session h.seq C.SEQ_GAP (natLe 8 x.expected))) ∧
          (∀ r : Response, h.seq < x.expected → x.sent.find? (·.seq == h.seq) = some r →
            s.receive h type opening = .answered (t.sendResponse h.mac h.relayed r)) ∧
          (h.seq < x.expected → x.sent.find? (·.seq == h.seq) = none →
            s.receive h type opening = .answered (t.answerBare h.mac h.relayed type h.session h.seq C.SEQ_STALE []))))

/-- HELLO makes a session with an identifier of its own. A well-shaped HELLO that meets no refusal adds one session, not
yet open, whose identifier is neither 0 nor in use and which expects command 1, keeps every other session, every
register and every store, and answers OK with the identifier and the device's shares and signatures.
(spec/14_odren_port.md R354, spec/14_odren_port.md R353) -/
def Obligations.HelloOpensSession : Prop :=
  ∀ (s : State) (m : HelloMsg),
    s.reached m.relayed = true → m.wellShaped = true → s.helloRefusal m.role = none →
    Gives (.hello m) s (fun t => ∃ (x : Session) (body : List Byte),
      x ∈ t.odn.sessions ∧ x.role = m.role ∧ x.attention = m.attention ∧ x.isOpen = false ∧ x.expected = 1 ∧ x.helloAt = s.now ∧
      x.id ≠ 0 ∧ (∀ y ∈ s.odn.sessions, y.id ≠ x.id ∧ y ∈ t.odn.sessions) ∧
      t.odn.sessions.length = s.odn.sessions.length + 1 ∧
      t.outbox = s.outbox ++ [.response m.mac m.relayed ⟨tySession, x.id, 0, C.OK, false, body⟩] ∧
      body.take 4 = natLe 4 x.id.toNat ∧ body.length = 4529 ∧
      t.regs = s.regs ∧ StoresKept s t ∧ RunsKept s t ∧ t.odn.occurs = s.odn.occurs)

/-- PROVE opens a Keeper session, CLOSE ends a session. PROVE by an enrolled key that signed the transcript opens the
session and is answered OK; one whose key is not enrolled (or is revoked) or whose signatures fail counts in
ODN_AUTH_FAILS, is answered with its code and ends the session; one of an Operator or of a session already open is
ROLE_DENIED; CLOSE answers OK and ends the session, and its watches and WATCH_FIRED messages go with it.
(spec/14_odren_port.md R354, spec/14_odren_port.md R355, spec/14_odren_port.md R359) -/
def Obligations.ProveAndCloseCommands : Prop :=
  ∀ (s : State) (h : Hdr) (z : Session), Accepted s h z true →
    (∀ m : ProveMsg,
      let x := s.holder h 5361 z; let t := s.taken h 5361 z
      let enrolled : Prop := s.fuses.owners.getD m.key.val none = some (fitTo 64 (Config.sha512 (m.edPublic ++ m.mlPublic))) ∧
        s.fuses.revoked.getD m.key.val false = false
      let signed : Prop := Config.ed25519Verify m.edPublic z.transcript m.edSignature = true ∧
        Config.mldsaVerify m.mlPublic z.transcript m.mlSignature = true
      let ends (c : Code) (u : State) : Prop :=
        u = s.holdData (((t.bump F.ODN_AUTH_FAILS 0 1).respond h.session tySession h.seq c []).endSession x.slot) ∧
        (∀ y ∈ u.odn.sessions, y.slot ≠ x.slot) ∧ u.regs = (s.bump F.ODN_AUTH_FAILS 0 1).regs
      (z.role = .keeper → z.isOpen = false →
        (enrolled → signed → ∀ y : Session, t.session? x.id = some y →
          Gives (.prove h m) s (fun u => u = s.holdData ((t.openSession y).respond h.session tySession h.seq C.OK []))) ∧
        (¬ enrolled → Gives (.prove h m) s (ends C.KEY_NOT_ENROLLED)) ∧
        (enrolled → ¬ signed → Gives (.prove h m) s (ends C.AUTH_FAILED))) ∧
      (z.role = .operator ∨ z.isOpen = true →
        Gives (.prove h m) s (fun u => Responds t u h tySession C.ROLE_DENIED [] ∧ u.regs = s.regs ∧ StoresKept s u ∧ RunsKept s u))) ∧
    (let x := s.holder h 1 z; let t := s.taken h 1 z
      Gives (.close h) s (fun u =>
        u = s.holdData ((t.respond h.session tySession h.seq C.OK []).endSession x.slot) ∧
        (∀ y ∈ u.odn.sessions, y.slot ≠ x.slot) ∧ (∀ w ∈ u.side.watches, w.who ≠ .session x.id) ∧
        u.regs = s.regs ∧ StoresKept s u ∧ RunsKept s u))

/-- Port events are counted, and sessions end by their timeouts. A frame with a bad FCS counts in BAD_FCS, one of another
EtherType or address in OTHER, one whose tag fails in AUTH_DROP; PORT_DOWN, PORT_UP and CROSSED_FIBRE set
ODN_STATUS.PORT and are reported; an unknown TYPE is answered MESSAGE_INVALID in its session and another VERSION is
answered VERSION_UNSUPPORTED; nothing else changes. SESSION_OPEN_TIMEOUT ends an unopened session once 1 s has passed
since its HELLO and does nothing before; SESSION_IDLE_TIMEOUT ends an open session once IDLE_S seconds have passed
since it was last heard and does nothing before; registers and stores are kept. (spec/14_odren_port.md R345,
spec/14_odren_port.md R346, spec/14_odren_port.md R347, spec/14_odren_port.md R348, spec/14_odren_port.md R351,
spec/14_odren_port.md R353, spec/14_odren_port.md R354, spec/14_odren_port.md R355) -/
def Obligations.PortEventsCounted : Prop :=
  (∀ (s : State),
    (s.reached false = true →
      exec (.odrenFrameDiscard .badFcs) s = .next (s.bump F.ODN_COUNT_BAD_FCS 0 1) ∧
      exec (.odrenFrameDiscard .otherEtherType) s = .next (s.bump F.ODN_COUNT_OTHER 0 1) ∧
      exec (.odrenFrameDiscard .otherAddress) s = .next (s.bump F.ODN_COUNT_OTHER 0 1) ∧
      exec (.odrenFrameDiscard .badTag) s = .next (s.bump F.ODN_COUNT_AUTH_DROP 0 1)) ∧
    (s.upAndRunning = true → s.portUp = true →
      exec .portDown s = .next ((s.fset F.ODN_STATUS_PORT 0 0).attn C.PORT_DOWN [])) ∧
    (s.upAndRunning = true → s.portUp = false →
      exec .portUp s = .next ((s.fset F.ODN_STATUS_PORT 0 1).attn C.PORT_UP [])) ∧
    (s.upAndRunning = true → s.fget F.ODN_STATUS_PORT ≠ 2 →
      exec .crossedFibre s = .next ((s.fset F.ODN_STATUS_PORT 0 2).attn C.CROSSED_FIBRE [])) ∧
    (∀ (h : Hdr), s.reached h.relayed = true →
      Gives (.messageInvalid h .badVersion) s (fun t =>
        t.outbox = s.outbox ++ [.response h.mac h.relayed ⟨0, h.session, h.seq, C.VERSION_UNSUPPORTED, false, []⟩] ∧
        t.odn = s.odn ∧ t.regs = s.regs ∧ StoresKept s t ∧ RunsKept s t)) ∧
    (∀ (h : Hdr) (z : Session), Accepted s h z →
      let t := s.taken h 0 z
      Gives (.messageInvalid h .unknownType) s (fun u =>
        Responds t u h 0 C.MESSAGE_INVALID [] ∧ u.regs = s.regs ∧ StoresKept s u ∧ RunsKept s u))) ∧
    (∀ (s : State) (slot : Fin 8) (x : Session), s.odn.sessions.find? (·.slot == slot.val) = some x →
    (x.isOpen = false → x.helloAt + 1000000000 ≤ s.now →
      Gives (.sessionOpenTimeout slot) s (fun t =>
        t = s.endSession slot ∧ (∀ y ∈ t.odn.sessions, y.slot ≠ slot.val) ∧ t.regs = s.regs ∧ StoresKept s t ∧ RunsKept s t)) ∧
    (x.isOpen = true ∨ s.now < x.helloAt + 1000000000 → exec (.sessionOpenTimeout slot) s = .next s) ∧
    (x.isOpen = true → x.heardAt + s.fget F.ODN_CTL_IDLE_S * 1000000000 ≤ s.now →
      Gives (.sessionIdleTimeout slot) s (fun t =>
        t = s.endSession slot ∧ (∀ y ∈ t.odn.sessions, y.slot ≠ slot.val) ∧ t.regs = s.regs ∧ StoresKept s t ∧ RunsKept s t)) ∧
    (x.isOpen = false ∨ s.now < x.heardAt + s.fget F.ODN_CTL_IDLE_S * 1000000000 →
      exec (.sessionIdleTimeout slot) s = .next s))

/-- Attention messages are acknowledged, lost and kept, and a relay forwards. ATTN_ACK of an open session removes every
message up to its SEQ and no other; ATTN_FIRST_SEND sends the first message that waits, at least 100 us after the last
first send, and notes the 10 ms resend; ATTN_RESEND sends a message again when its interval has passed and doubles the
interval up to 160 ms. An outward RELAY received on an ACTIVE or MAINTENANCE link leaves through the port while it is
up; otherwise, with fewer than 8 hops, it goes on the lowest other such link with HOPS one higher, and with 8 hops it
is discarded and counted; an inward one for another device goes on towards it; a RELAYED message goes towards the
device it names. (spec/14_odren_port.md R359, spec/14_odren_port.md R357, spec/14_odren_port.md R360) -/
def Obligations.AttentionQueueCommands : Prop :=
  (∀ (s : State),
    (∀ (h : Hdr) (x : Session), s.reached h.relayed = true → s.session? h.session = some x → x.isOpen = true →
      h.wellShaped = true → x.overflow = 0 →
      Gives (.attnAck h) s (fun t => t = s.holdData ((s.odrenIn h.relayed 0 true).putSession
          { x with mac := h.mac, relayed := h.relayed, heardAt := s.now, queue := x.queue.filter (fun m => h.seq < m.seq) }) ∧
        t.regs = s.regs)) ∧
    (∀ (slot : Fin 8) (x : Session) (m : AttnMsg), s.odn.sessions.find? (·.slot == slot.val) = some x → x.isOpen = true →
      (∀ a, x.lastFirst = some a → a + firstSendGap ≤ s.now) → x.queue.find? (·.sent.isNone) = some m →
      let n : AttnMsg := { m with sent := some (s.now, 10000000) }
      exec (.attnFirstSend slot) s = .next ((s.putSession { x with
        lastFirst := some s.now, queue := updWhere (·.seq == m.seq) (fun _ => n) x.queue }).sendAttention x.mac x.id n)) ∧
    (∀ (slot : Fin 8) (seq a wait : Nat) (x : Session) (m : AttnMsg), s.odn.sessions.find? (·.slot == slot.val) = some x →
      x.queue.find? (·.seq == seq) = some m → m.sent = some (a, wait) → a + wait ≤ s.now →
      let n : AttnMsg := { m with sent := some (s.now, min (2 * wait) 160000000) }
      exec (.attnResend slot seq) s = .next ((s.putSession { x with
        queue := updWhere (·.seq == seq) (fun _ => n) x.queue }).sendAttention x.mac x.id n))) ∧
    (∀ (s : State) (link : Fin 64) (b : RelayBody), s.upAndRunning = true →
    (s.linkState link = lnkActive ∨ s.linkState link = lnkMaintenance) →
    (b.toDevice = false → s.portUp = true →
      exec (.relay link b) s = .next ((s.out (.relayed b.mac b)).meter 352 (messageBytes (16 + b.inner.length) false))) ∧
    (b.toDevice = false → s.portUp = false → 8 ≤ b.hops →
      exec (.relay link b) s = .next (s.bump F.ODN_COUNT_RELAY_DROP 0 1)) ∧
    (∀ l, b.toDevice = false → s.portUp = false → b.hops < 8 → s.relayLink (some link) = some l →
      exec (.relay link b) s = .next (s.sendRelay l { b with hops := b.hops + 1 })) ∧
    (b.toDevice = true → b.device.toNat ≠ s.device → b.hops < 8 →
      Gives (.relay link b) s (fun t => t = s.holdData (s.relayInward { b with hops := b.hops + 1 }))) ∧
    (∀ mac : BitVec 48, s.portUp = true → b.toDevice = true → b.device.toNat ≠ s.device →
      Gives (.relayed mac b) s (fun t =>
        t = s.holdData ((s.odrenIn false (16 + b.inner.length) false).relayInward { b with mac := mac }))))

/-- READ_REG returns words up to the first refusal and changes no register. READ_REG of 1 to 64 registers answers with the
words read in order, each the register's word as the session's view shows it; OK when all were read, otherwise
REG_UNMAPPED or ACCESS_DENIED for the first register that refuses; another count is answered MESSAGE_INVALID;
registers, stores and runs are kept. (spec/19_register_map.md R441, spec/14_odren_port.md R351, spec/14_odren_port.md
R356, spec/19_register_map.md R438) -/
def Obligations.ReadRegAnswers : Prop :=
  ∀ (s : State) (h : Hdr) (addr : W64) (count : Nat) (z : Session), Accepted s h z →
      let x := s.holder h 16 z; let t := s.taken h 16 z
    (1 ≤ count → count ≤ 64 →
      Gives (.readReg h addr count) s (fun u => ∃ (ws : List W64) (c : Code),
        Responds t u h tyReadReg c (natLe 4 ws.length ++ zeros 4 ++ ws.flatMap (fun w => natLe 8 w.toNat)) ∧
        ws.length ≤ count ∧ (c = C.OK ↔ ws.length = count) ∧ (c = C.OK ∨ c = C.REG_UNMAPPED ∨ c = C.ACCESS_DENIED) ∧
        (∀ k w, ws[k]? = some w → ∃ id i j d, (addr.toNat + 8 * k) % 8 = 0 ∧ locate (addr.toNat + 8 * k) = some (id, i, j) ∧
          (regDef id).closed (x.role == .keeper) = false ∧
          w = (t.regWord id i j d &&& (regDef id).maskOf (fun f => (f.view (x.role == .keeper)).reads))) ∧
        u.regs = s.regs ∧ StoresKept s u ∧ RunsKept s u)) ∧
    (count < 1 ∨ 64 < count →
      Gives (.readReg h addr count) s (fun u => Responds t u h tyReadReg C.MESSAGE_INVALID [] ∧
        u.regs = s.regs ∧ StoresKept s u ∧ RunsKept s u))

/-- The checks of a register write come in their order and a refused write changes nothing. A write to an address that is
not aligned or names no register is refused with REG_UNMAPPED; next a register with no field in the view, or a non-
zero value in a field without access, with ACCESS_DENIED; next a non-zero reserved bit or a value outside a field's
range with VALUE_REFUSED (ROUTE_INVALID in a routing entry); after any of these the state is the state before; a write
that passes them is carried out. (spec/19_register_map.md R442, spec/19_register_map.md R438, spec/14_odren_port.md
R356) -/
def Obligations.RegisterWriteChecks : Prop :=
  ∀ (t : State) (keeper : Bool) (a : Nat) (w : W64),
    (a % 8 ≠ 0 ∨ locate a = none → t.writeOne keeper a w = ⟨C.REG_UNMAPPED, t, none⟩) ∧
    (∀ id i j, a % 8 = 0 → locate a = some (id, i, j) →
      let acts (f : FieldDef) : Bool := f.view keeper == .rw || f.view keeper == .wo
      let route : Bool := id == .TTH_ROUTE0 || id == .TTH_ROUTE1
      let denied := (regDef id).closed keeper = true ∨
        ∃ f ∈ (regDef id).fields, f.view keeper = .na ∧ f.value w ≠ 0
      let refused := (regDef id).reservedBits w ≠ 0 ∨
        (∃ f ∈ (regDef id).fields, acts f = true ∧ f.refuses w = true) ∨
        ((∃ f ∈ (regDef id).fields, acts f = true) ∧ jointRefuses id w = true)
      (denied → t.writeOne keeper a w = ⟨C.ACCESS_DENIED, t, none⟩) ∧
      (¬ denied → refused → t.writeOne keeper a w = ⟨if route then C.ROUTE_INVALID else C.VALUE_REFUSED, t, none⟩) ∧
      (¬ denied → ¬ refused → t.writeOne keeper a w = t.writeAccepted keeper id i j w))

/-- An accepted write acts on each field as its access says. In the word an accepted write leaves, every bit of an RW
field of the session's view has the value written, every bit of a W1C field is the old bit cleared where a 1 was
written, and every other bit is as it stood. (spec/19_register_map.md R442, spec/00_scope.md R5) -/
def Obligations.WrittenFields : Prop :=
  ∀ (id : RegId) (keeper : Bool) (old w : W64) (f : FieldDef) (k : Nat),
    f ∈ (regDef id).fields → f.lsb ≤ k → k ≤ f.msb →
    ((regDef id).written keeper old w).getLsbD k =
      (match f.view keeper with
       | .rw => w.getLsbD k
       | .w1c => old.getLsbD k && !w.getLsbD k
       | _ => old.getLsbD k)

/-- WRITE_REG writes registers in order up to the first refusal and says how many it wrote. WRITE_REG of 1 to 64 words
writes them in order up to the first refusal and answers with that write's code and the number written; a write of one
register that its checks accept answers OK with 1; a register of a unit that is gone takes the write without effect;
another count of words is answered MESSAGE_INVALID and writes nothing. (spec/19_register_map.md R442,
spec/14_odren_port.md R351, spec/14_odren_port.md R350, spec/19_register_map.md R439) -/
def Obligations.WriteRegAnswers : Prop :=
  ∀ (s : State) (h : Hdr) (addr : W64) (words : List W64) (z : Session), Accepted s h z →
    let t := s.taken h (16 + 8 * words.length) z
    (1 ≤ words.length → words.length ≤ 64 →
      let q := State.writeRegs (z.role == .keeper) words addr.toNat t
      Gives (.writeReg h addr words) s (fun u =>
        u = s.holdQueue (q.2.state.sameFuses (q.2.state.writeAnswer h q.1 q.2)) ∧
        q.1 ≤ words.length ∧ (q.2.code = C.OK ↔ q.1 = words.length) ∧
        (q.2.low = none → u = s.holdQueue (q.2.state.respond h.session tyWriteReg h.seq q.2.code (natLe 4 q.1 ++ zeros 4))))) ∧
    (∀ w id i j, words = [w] → addr.toNat % 8 = 0 → locate addr.toNat = some (id, i, j) →
      (regDef id).writeRefusal id (z.role == .keeper) w = none → s.pageGone id i = true →
      Gives (.writeReg h addr words) s (fun u =>
        u = s.holdQueue (t.respond h.session tyWriteReg h.seq C.OK (natLe 4 1 ++ zeros 4)) ∧ u.regs = s.regs ∧ StoresKept s u)) ∧
    (∀ w id i j, words = [w] → addr.toNat % 8 = 0 → locate addr.toNat = some (id, i, j) → id = .CMP_CTL ∨ id = .PMC_WINDOW →
      s.power.state ≠ .bivouac → (regDef id).writeRefusal id (z.role == .keeper) w = none → s.pageGone id i = false →
      Gives (.writeReg h addr words) s (fun u => RegsKept s u [regAddr id i j] ∧ StoresKept s u ∧ RunsKept s u ∧
        (RegsOrdered s → u.raw id i j = (regDef id).written (z.role == .keeper) (s.raw id i j) w) ∧
        Responds t u h tyWriteReg C.OK (natLe 4 1 ++ zeros 4))) ∧
    (words.length < 1 ∨ 64 < words.length →
      Gives (.writeReg h addr words) s (fun u => Responds t u h tyWriteReg C.MESSAGE_INVALID [] ∧
        u.regs = s.regs ∧ StoresKept s u ∧ RunsKept s u))

/-- Pool accesses of this device's memory read and write it, those of another device go to their owner. In LIT state a
POOL_READ of 1 to 8,192 allowed bytes of this device whose vaults serve answers OK with the bytes; a POOL_WRITE stores
its bytes there, keeps the memory's canonical form and answers OK; an access that a check refuses is answered with its
code and changes nothing; for another device's address a request goes to it under a fresh TAG and the command is
PENDING. (spec/02_vaults_and_memory.md R31, spec/14_odren_port.md R351, spec/14_odren_port.md R356,
spec/13_tether_fabric.md R329) -/
def Obligations.PoolReadWrite : Prop :=
  ∀ (s : State) (h : Hdr) (addr : W64) (z : Session), Accepted s h z → s.lit = true →
    (∀ len, 1 ≤ len → len ≤ 8192 → s.mayPool z false addr len = true →
      let t := s.taken h 16 z
      (∀ ps, poolDevice addr = s.device → s.queues (.read z.id h.seq addr len) (s.accessWaits (poolLocal addr) len) = false →
        s.accessCheck (poolLocal addr) len = .ok ps →
        Gives (.poolRead h addr len) s (fun u => u = s.holdFlash
          ((t.readParts ps).2.respond h.session tyPoolRead h.seq C.OK ((t.readParts ps).1.map (·.1))))) ∧
      (∀ c, poolDevice addr = s.device → s.queues (.read z.id h.seq addr len) (s.accessWaits (poolLocal addr) len) = false →
        s.accessCheck (poolLocal addr) len = .error c →
        Gives (.poolRead h addr len) s (fun u => Responds t u h tyPoolRead c [] ∧ u.regs = s.regs ∧ StoresKept s u ∧ RunsKept s u)) ∧
      (poolDevice addr ≠ s.device → s.reachable (poolDevice addr) = true →
        let q := t.request (poolDevice addr) 0x02 (natLe 8 addr.toNat ++ natLe 4 len ++ zeros 4)
        let a := q.2.pend (s.holder h 16 z) tyPoolRead h.seq (.poolRead q.1) none
        Gives (.poolRead h addr len) s (fun u =>
          u = s.holdFlash (a.1.respond h.session tyPoolRead h.seq C.PENDING []) ∧ u.mem = s.mem))) ∧
    (∀ data : List Byte, 1 ≤ data.length → data.length ≤ 8192 → s.mayPool z true addr data.length = true →
      let t := s.taken h (16 + data.length) z
      (∀ ps, poolDevice addr = s.device →
        s.queues (.write z.id h.seq addr data) (s.accessWaits (poolLocal addr) data.length) = false →
        s.accessCheck (poolLocal addr) data.length = .ok ps →
        Gives (.poolWrite h addr data) s (fun u =>
          u = s.holdFlash ((t.writeParts ps data noPoison 0).respond h.session tyPoolWrite h.seq C.OK []) ∧
          (Memory.wf s.mem = true → Memory.wf u.mem = true))) ∧
      (∀ c, poolDevice addr = s.device →
        s.queues (.write z.id h.seq addr data) (s.accessWaits (poolLocal addr) data.length) = false →
        s.accessCheck (poolLocal addr) data.length = .error c →
        Gives (.poolWrite h addr data) s (fun u => Responds t u h tyPoolWrite c [] ∧ u.regs = s.regs ∧ StoresKept s u ∧
          RunsKept s u)) ∧
      (poolDevice addr ≠ s.device → s.reachable (poolDevice addr) = true →
        let q := t.request (poolDevice addr) 0x04 (natLe 8 addr.toNat ++ natLe 4 data.length ++ zeros 4 ++ data)
        let a := q.2.pend (s.holder h (16 + data.length) z) tyPoolWrite h.seq (.poolWrite q.1) none
        Gives (.poolWrite h addr data) s (fun u =>
          u = s.holdFlash (a.1.respond h.session tyPoolWrite h.seq C.PENDING []) ∧ u.mem = s.mem)))

/-- An owner performs pool accesses and a requester takes their answers once. A LIT owner answers a pool read with status
0 and the bytes, or with the code of the refusal, and acknowledges a pool write after storing it; a response or
acknowledgement whose TAG and sender match an outstanding request settles the command that waits and takes the request
off, one that matches none is discarded; a request without answer for twice LIFETIME_US fails with POOL_TIMEOUT.
(spec/02_vaults_and_memory.md R31, spec/13_tether_fabric.md R329) -/
def Obligations.PoolAccessOfAnotherDevice : Prop :=
  ∀ (s : State) (source : BitVec 20) (tag : Nat) (addr : W64),
    let noRun : Prop := ∀ x ∈ s.odn.sessions, ∀ e ∈ x.pends, ∀ b as ks, e.work ≠ .run b as ks
    (∀ len, s.lit = true →
      let t := s.takeInbox 0x02 source
      t.queues (.peerRead source tag addr len) (t.accessWaits (poolLocal addr) len) = false →
      (∀ bs v, t.checkedRead (poolLocal addr) len = .ok (bs, v) →
        Gives (.poolReadReq source tag addr len) s (fun u =>
          u = s.holdFlash (v.injectBody source.toNat 1 0x03 tag (zeros 8 ++ bs.map (·.1))))) ∧
      (∀ c, t.checkedRead (poolLocal addr) len = .error c →
        Gives (.poolReadReq source tag addr len) s (fun u =>
          u = s.holdFlash (t.injectBody source.toNat 1 0x03 tag (natLe 2 c.toNat ++ zeros 6)) ∧ u.mem = s.mem))) ∧
    (∀ data poison, s.lit = true →
      let t := s.takeInbox 0x04 source
      t.queues (.peerWrite source tag addr data poison) (t.accessWaits (poolLocal addr) data.length) = false →
      (∀ v, t.checkedWrite (poolLocal addr) data (fun i => poison.contains i) = .ok v →
        Gives (.poolWritePacket source tag addr data poison) s (fun u =>
          u = s.holdFlash (v.injectBody source.toNat 1 0x05 tag (zeros 8)) ∧ (Memory.wf s.mem = true → Memory.wf u.mem = true))) ∧
      (∀ c, t.checkedWrite (poolLocal addr) data (fun i => poison.contains i) = .error c →
        Gives (.poolWritePacket source tag addr data poison) s (fun u =>
          u = s.holdFlash (t.injectBody source.toNat 1 0x05 tag (natLe 2 c.toNat ++ zeros 6)) ∧ u.mem = s.mem))) ∧
    (∀ status data r, s.tth.reqs.find? (fun r => r.tag == tag && r.dest == source) = some r →
      (noRun → Gives (.poolReadResp source tag status data) s (fun u =>
        u.odn = (s.settlePend (isPoolRead tag) status (if status = C.OK then data else [])).odn ∧
        (∀ q ∈ u.tth.reqs, ¬ (q.tag = tag ∧ q.dest = source)) ∧ u.regs = s.regs ∧ StoresKept s u ∧ RunsKept s u)) ∧
      Gives (.poolWriteAck source tag status) s (fun u => ∃ (body : List Byte) (v : State),
        u = s.holdFlash ((v.published tag status).settleAll) ∧
        v.odn = ((s.settlePend (isPoolWrite tag) status []).settlePend (isRowWrite tag) status body).odn ∧
        (∀ q ∈ v.tth.reqs, ¬ (q.tag = tag ∧ q.dest = source)) ∧ v.regs = s.regs ∧ StoresKept s v ∧ RunsKept s v)) ∧
    (∀ status data, s.tth.reqs.find? (fun r => r.tag == tag && r.dest == source) = none →
      (noRun → Gives (.poolReadResp source tag status data) s (fun u => u.odn = s.odn ∧ u.tth.reqs = s.tth.reqs)) ∧
      Gives (.poolWriteAck source tag status) s (fun u => u.odn = s.odn ∧ u.tth.reqs = s.tth.reqs)) ∧
    (∀ r, s.tth.reqs.find? (·.tag == tag) = some r → r.sentAt + 2 * s.fget F.TTH_CTL_LIFETIME_US * 1000 ≤ s.now →
      Gives (.poolTimeout tag) s (fun u => ∃ v : State, u = s.holdFlash (((v.published tag C.POOL_TIMEOUT).runsReady).settleAll) ∧
        (noRun → v.odn = (s.settlePend (fun w => isPoolRead tag w || isPoolWrite tag w || isRowWrite tag w) C.POOL_TIMEOUT []).odn) ∧
        (∀ q ∈ v.tth.reqs, q.tag ≠ tag) ∧ v.regs = s.regs ∧ v.mem = s.mem))

/-- Watches are entered, removed and fired to the one who set them. WATCH SET on a word of this device that may be watched
adds one entry for the session and answers OK, on a table of 4,096 entries it is refused with WATCH_TABLE_FULL and
VLT_WATCH.REFUSED is set; WATCH CLEAR removes the session's entries for the address and answers OK; another device's
registration adds or removes an entry in its name; a notification reaches the sessions that watch the address there. A
registration from another device enters a watch in its name on a word that may be watched, or sets VLT_WATCH.REFUSED
on a full table; its removal takes that device's entries for the address off and no other; a notification that arrives
is delivered to each watcher of the address, and with no watcher nothing but the message is consumed.
(spec/02_vaults_and_memory.md R44, spec/02_vaults_and_memory.md R47) -/
def Obligations.WatchCommands : Prop :=
  (∀ (s : State) (h : Hdr) (addr : W64) (z : Session), Accepted s h z → s.lit = true →
    let t := s.taken h 16 z
    let mine (w : Watch) : Bool := w.addr == addr && w.who == .session z.id
    (∀ p, s.mayPool z false addr 8 = true → poolDevice addr = s.device →
      s.side.watches.any mine = false → s.watchCheck (poolLocal addr) = .ok p →
      (s.side.watches.length < 4096 →
        Gives (.watchSet h addr) s (fun u => u.side.watches = s.side.watches ++ [⟨p, addr, .session z.id⟩] ∧
          Responds t u h tyWatch C.OK [] ∧ u.regs = s.regs ∧ StoresKept s u ∧ RunsKept s u)) ∧
      (4096 ≤ s.side.watches.length →
        Gives (.watchSet h addr) s (fun u => u.side.watches = s.side.watches ∧
          Responds t u h tyWatch C.WATCH_TABLE_FULL [] ∧ u.regs = (s.fset F.VLT_WATCH_REFUSED 0 1).regs ∧ StoresKept s u))) ∧
    (s.mayPool z false addr 8 = true → poolDevice addr ≠ s.device → addr.toNat % 8 = 0 →
      (physOf (poolLocal addr)).isSome = true → s.reachable (poolDevice addr) = true → s.side.remote.any mine = false →
      Gives (.watchSet h addr) s (fun u => u.side.remote = s.side.remote ++ [⟨0, addr, .session z.id⟩] ∧
        (s.side.remote.any (·.addr == addr) = false → Output.watchRegister (BitVec.ofNat 20 (poolDevice addr)) addr false ∈ u.outbox) ∧
        u.side.watches = s.side.watches ∧ Answers u h tyWatch C.OK [] ∧ u.regs = s.regs ∧ StoresKept s u)) ∧
    (poolDevice addr = s.device →
      Gives (.watchClear h addr) s (fun u => u.side.watches = s.side.watches.filter (fun w => !mine w) ∧
        Responds t u h tyWatch C.OK [] ∧ u.regs = s.regs ∧ StoresKept s u ∧ RunsKept s u)) ∧
    (poolDevice addr ≠ s.device →
      Gives (.watchClear h addr) s (fun u => u.side.remote = s.side.remote.filter (fun w => !mine w) ∧
        Answers u h tyWatch C.OK [] ∧ u.regs = s.regs ∧ StoresKept s u))) ∧
    (∀ (s : State) (source : BitVec 20) (addr : W64), s.lit = true →
    (∀ p, s.watchCheck (poolLocal addr) = .ok p → s.side.watches.length < 4096 →
      let entered := s.setSide { s.side with watches := s.side.watches ++ [⟨p, addr, .device source⟩] }
      exec (.watchRegisteredAtOwner source addr false) s = .next (match bankOf p with
        | .vault v _ => if s.shaded (v / 16) then entered.vaultRequest v else entered
        | .channel _ _ => entered)) ∧
    (∀ p, s.watchCheck (poolLocal addr) = .ok p → 4096 ≤ s.side.watches.length →
      exec (.watchRegisteredAtOwner source addr false) s = .next (s.fset F.VLT_WATCH_REFUSED 0 1)) ∧
    exec (.watchRegisteredAtOwner source addr true) s =
      .next (s.dropWatches (fun w => w.addr == addr && w.who == .device source)) ∧
    (∀ value poison, s.side.remote.filter (fun w => w.addr == addr) = [] →
      exec (.watchNotify source addr value poison) s = .next (s.takeInbox 0x06 source)) ∧
    (∀ value poison id, s.side.remote.filter (fun w => w.addr == addr) = [⟨0, addr, .session id⟩] →
      Gives (.watchNotify source addr value poison) s (fun t =>
        t = (s.takeInbox 0x06 source).deliver ⟨C.WATCH_FIRED, 1, s.meridian, s.meridian, [addr, value, BitVec.ofNat 64 (b2n poison)]⟩
          false (fun y => y.id == id && y.isOpen) ∧ t.regs = s.regs ∧ StoresKept s t ∧ RunsKept s t)))

/-- RUN starts a run in a free slot, CANCEL stops one, QUERY says how it stands. A RUN that passes the checks of R62 is
answered OK with the slot that was free, and its run starts there; one that fails an early check is answered with that
check's code; CANCEL of a RUNNING run makes it CANCELLING and due for the cancel cycle; QUERY answers the state, slot
and counts of an active run, the completion record of one in the history, only the time for run 0, and changes
nothing. (spec/03_pipelines.md R62, spec/03_pipelines.md R64, spec/03_pipelines.md R65, spec/14_odren_port.md R351) -/
def Obligations.RunCancelQuery : Prop :=
  ∀ (s : State) (h : Hdr) (z : Session), Accepted s h z →
    (∀ b : RunBlock, s.lit = true →
      let t := s.taken h (16 + 32 * b.entries.length) z
      let starts (g : RunGrant) : Prop := Gives (.run h b) s (fun u => u = s.holdFlash
        (((g.state.startRun (z.role == .keeper) b g).respond h.session tyRun h.seq C.OK (natLe 8 g.slot)).settleAll))
      (∀ p k, ringEntries b = [] → s.runFirst z.role b = .ok p → s.freeRunSlot = some k → s.side.watches.length ≤ watchPlaces →
        starts ⟨p, [], k, t⟩) ∧
      (∀ g : RunGrant, s.indexReads b = [] → t.runCheck z.role b = .ok g → starts g ∧
        g.slot < 64 ∧ (∀ r ∈ s.runs, r.slot ≠ g.slot ∧ r.run ≠ b.run) ∧ g.pipe ∈ s.pipelines ∧ g.pipe.number = b.pipeline) ∧
      (∀ c, s.runFirst z.role b = .error c →
        Gives (.run h b) s (fun u => u = s.holdFlash ((t.respond h.session tyRun h.seq c []).settleAll)))) ∧
    (∀ n : W32,
      let t := s.taken h 8 z
      (∀ r : Run, s.runByNumber n = some r → z.role = .keeper ∨ r.keeper = false →
        Gives (.cancel h n) s (fun u =>
          u.runs = (if r.state = .running then (s.putRun { r with state := .cancelling, cancelDue := true }).runs else s.runs) ∧
          Responds t u h tyCancel C.OK [] ∧ u.disp = s.disp ∧ u.regs = s.regs ∧ StoresKept s u)) ∧
      (∀ r : Run, n ≠ 0 → s.runByNumber n = some r →
        Gives (.query h n) s (fun u =>
          Responds t u h tyQuery C.OK (natLe 1 r.state.code ++ natLe 1 r.slot ++ zeros 6 ++ r.record 0 0 ++ natLe 8 s.meridian) ∧
          u.regs = s.regs ∧ StoresKept s u ∧ RunsKept s u)) ∧
      (∀ c : Completion, n ≠ 0 → s.runByNumber n = none → s.historyOf n = some c →
        Gives (.query h n) s (fun u => Responds t u h tyQuery C.OK (natLe 1 5 ++ natLe 1 0 ++ zeros 6 ++ c ++ natLe 8 s.meridian) ∧
          u.regs = s.regs ∧ StoresKept s u ∧ RunsKept s u)) ∧
      Gives (.query h 0) s (fun u => Responds t u h tyQuery C.OK (zeros 40 ++ natLe 8 s.meridian) ∧
        u.regs = s.regs ∧ StoresKept s u ∧ RunsKept s u))

/-- ERASE and PROGRAM write a slot that is not in force and are answered when the work ends. A Keeper's ERASE of a whole
slot that is not in force empties it, clears WRITTEN and its FAILS count; PROGRAM at the offset WRITTEN stores the
bytes behind those programmed and advances WRITTEN; both are PENDING with their result ready, and FINAL_RESPONSE sends
it once and takes the command off the waiting list; memory and fuses are kept. (spec/16_pitching_and_trust.md R381,
spec/14_odren_port.md R350, spec/14_odren_port.md R351) -/
def Obligations.ImageWritesAndFinalResponse : Prop :=
  ∀ (s : State) (slot : Fin 2),
    (∀ (h : Hdr) (z : Session), Accepted s h z → z.role = .keeper → s.fget F.PCH_STATUS_SLOT ≠ slot.val →
      Gives (.erase h slot 0 0) s (fun u =>
        u.flash = s.flash.setSlot slot [] ∧
        u.regs = (((s.fset F.PCH_SLOT_WRITTEN slot 0).fset (failsField slot) 0 0)).regs ∧
        u.mem = s.mem ∧ u.fuses = s.fuses ∧ u.core = s.core ∧ u.image = s.image ∧ RunsKept s u ∧
        Responds (s.taken h 24 z) u h tyImageWrite C.PENDING []) ∧
      (∀ (offset : Nat) (data : List Byte), data.length ≤ 8192 → s.fget F.PCH_SLOT_WRITTEN slot = offset →
        offset ≠ writtenUnknown → offset + data.length ≤ slotLimit false →
        Gives (.program h slot offset data) s (fun u =>
          u.flash = s.flash.setSlot slot (s.flash.slot slot ++ data) ∧
          u.regs = (s.fset F.PCH_SLOT_WRITTEN slot (offset + data.length)).regs ∧
          u.mem = s.mem ∧ u.fuses = s.fuses ∧ u.core = s.core ∧ u.image = s.image ∧ RunsKept s u ∧
          Responds (s.taken h (24 + data.length) z) u h tyImageWrite C.PENDING []))) ∧
    (∀ (sl : Fin 8) (seq : Nat) (y : Session) (p : Pend) (c : Code) (body : List Byte),
      s.odn.sessions.find? (·.slot == sl.val) = some y → s.session? y.id = some y →
      y.pends.find? (fun q => q.seq == seq && q.result.isSome) = some p → p.result = some (c, body) →
      Gives (.finalResponse sl seq) s (fun u =>
        (∃ z, u.session? y.id = some z ∧ z.pends = y.pends.filter (·.seq != seq)) ∧
        u.outbox = s.outbox ++ [.response y.mac y.relayed ⟨p.type, y.id, seq, c, true, body⟩] ∧
        u.regs = s.regs ∧ StoresKept s u ∧ RunsKept s u))

/-- TIME reads, sets and corrects meridian time. QUERY answers with the time and changes no clock; SET by a Keeper makes
the device stratum 0 and sets the time at once when STEP is 1 or it was not stratum 0, otherwise the difference is
corrected by rate; ADJUST adds to the correction or, with STEP, to the time; a backward step while a run is active is
refused with TIME_BACKWARD. T3 lies at most 50 us after the arrival (the model's reading of R350); that SET drops a
pending correction is the model's choice (log entry 54). (spec/14_odren_port.md R352, spec/14_odren_port.md R351) -/
def Obligations.TimeCommands : Prop :=
  ∀ (s : State) (h : Hdr) (z : Session), Accepted s h z →
      let x := s.holder h 24 z; let t := s.taken h 24 z
    (∀ t1, Gives (.timeQuery h t1) s (fun u => ∃ d, d ≤ 50000 ∧
      Responds t u h tyTime C.OK (natLe 8 s.meridian ++ natLe 8 (s.meridian + d)) ∧
      u.clock = s.clock ∧ u.regs = s.regs ∧ StoresKept s u ∧ RunsKept s u)) ∧
    (x.role = .keeper →
      (∀ step value, step = true ∨ s.clock.wasZero = false → value < 2 ^ 64 →
        (s.meridian ≤ value ∨ s.runs = [] →
          Gives (.timeSet h step value) s (fun u => u.clock.meridian = value ∧ u.clock.corr = 0 ∧ u.clock.wasZero = true ∧
            u.clock.lantern = s.clock.lantern ∧ StoresKept s u ∧
            (∃ d, d ≤ 50000 ∧ Answers u h tyTime C.OK (natLe 8 s.meridian ++ natLe 8 (value + d))))) ∧
        (value < s.meridian → s.runs ≠ [] →
          Gives (.timeSet h step value) s (fun u => Responds t u h tyTime C.TIME_BACKWARD [] ∧ u.clock = s.clock ∧
            u.regs = s.regs ∧ StoresKept s u ∧ RunsKept s u))) ∧
      (∀ value, value < 2 ^ 64 → s.clock.wasZero = true →
        Gives (.timeSet h false value) s (fun u => u.clock = { s.clock with corr := s.clock.corr + ((value : Int) - s.meridian) } ∧
          u.regs = (s.fset F.TTH_TIME_STRATUM 0 0).regs ∧ StoresKept s u ∧ RunsKept s u)) ∧
      (∀ value : Int,
        Gives (.timeAdjust h false value) s (fun u => u.clock = { s.clock with corr := s.clock.corr + value } ∧
          u.regs = s.regs ∧ StoresKept s u ∧ RunsKept s u)) ∧
      (∀ value : Int, 0 ≤ value ∨ s.runs = [] →
        Gives (.timeAdjust h true value) s (fun u => u.clock.meridian = (((s.meridian : Int) + value) % (2 ^ 64 : Int)).toNat ∧
          u.clock.corr = s.clock.corr ∧ u.clock.lantern = s.clock.lantern ∧ StoresKept s u)) ∧
      (∀ value : Int, value < 0 → s.runs ≠ [] →
        Gives (.timeAdjust h true value) s (fun u => Responds t u h tyTime C.TIME_BACKWARD [] ∧ u.clock = s.clock ∧
          u.regs = s.regs ∧ StoresKept s u ∧ RunsKept s u)))

/-- SOFT, QUICK_REPITCH and COLD_REPITCH are answered before the reset takes effect, and only for a Keeper. A Keeper's
RESET command is answered OK and then the device reset of its kind takes effect; an Operator's is answered ROLE_DENIED
and resets nothing. Fuses and flash are kept. (spec/15_power_clocks_resets.md R372, spec/14_odren_port.md R351) -/
def Obligations.ResetCommandsAnswerThenReset : Prop :=
  ∀ (s : State) (h : Hdr) (z : Session), Accepted s h z →
      let x := s.holder h 8 z; let t := s.taken h 8 z
    (x.role = .keeper →
      let v := t.respond h.session tyReset h.seq C.OK []
      Gives (.soft h) s (fun u => u = s.holdFlash (v.deviceReset .soft true) ∧ u.fuses = s.fuses ∧ u.flash = s.flash) ∧
      Gives (.quickRepitch h) s (fun u => u = s.holdFlash (v.deviceReset .quickRepitch true) ∧ u.fuses = s.fuses ∧ u.flash = s.flash) ∧
      Gives (.coldRepitch h) s (fun u => u = s.holdFlash (v.deviceReset .coldRepitch true) ∧ u.fuses = s.fuses ∧ u.flash = s.flash)) ∧
    (x.role = .operator → ∀ c ∈ [Instr.soft h, .quickRepitch h, .coldRepitch h],
      Gives c s (fun u => Responds t u h tyReset C.ROLE_DENIED [] ∧ u.regs = s.regs ∧ StoresKept s u ∧ RunsKept s u ∧ u.power = s.power))

/-- What a device reset clears, and which memory it keeps. When a device reset takes effect, runs, tasks, sessions,
watches and the match store's arrays are gone and the state is that of a device being pitched; fuses, flash, the fault
log and the lantern count stay; one that loses memory leaves every byte 0 and no embedding row, one that keeps it
leaves every byte, the rows and the maps as they were. (spec/15_power_clocks_resets.md R373,
spec/15_power_clocks_resets.md R377, spec/15_power_clocks_resets.md R376) -/
def Obligations.ResetKeepsAndClears : Prop :=
  ∀ (s : State) (lost : Bool) (which : Cls → Bool),
    let t := s.wipe lost which
    t.runs = [] ∧ t.work = [] ∧ t.disp.tasks = [] ∧ t.odn.sessions = [] ∧ t.odn.occurs = [] ∧ t.side.watches = [] ∧
    t.mst = Mst.empty ∧ t.core = [] ∧ t.pat = [] ∧ t.power.state = .pitching ∧ t.power.waits = [] ∧
    t.fuses = s.fuses ∧ t.flash = s.flash ∧ t.flog = s.flog ∧ t.clock.lantern = s.clock.lantern ∧ t.clock.meridian = s.clock.meridian ∧
    (lost = true → t.mem = [] ∧ t.emb.rows = [] ∧ t.emb.maps = [] ∧ t.image = none) ∧
    (lost = false → t.mem = s.mem ∧ t.emb.rows = s.emb.rows ∧ t.emb.maps = s.emb.maps ∧ t.image = s.image ∧
      t.side.poison = s.side.poison ∧ t.side.lostVaults = s.side.lostVaults)

/-- A reset returns every field of the classes it clears to its reset value and keeps the others. After the registers are
wiped, the register at each address of the map has its Pitch and Runtime fields (at a power-on Sticky ones too) at
their reset values and every other bit as it stood; the pins, and the management bus's own register, whose address the
pins give, are left out (log entry 70). (spec/15_power_clocks_resets.md R377, spec/19_register_map.md R445) -/
def Obligations.ResetDefaultsRegisters : Prop :=
  ∀ (s : State) (which : Cls → Bool) (a : Nat) (id : RegId) (i j : Nat), RegsOrdered s → locate a = some (id, i, j) →
    id ≠ .MOD_PINS → id ≠ .MOD_MGMT →
    SMap.get (regReset id) (s.wipeRegs which).regs a =
      (regDef id).defaultCls which (SMap.get (regReset id) s.regs a)

/-- The reset pins, the supply, the watchdog and a neighbour's reset. A short low on MOD_RESET_N resets a powered device
warm; a long one, a rising PWRGOOD or 48 V coming resets it from power-on; with a falling PWRGOOD all but the lantern
domain, the fault log, fuses and flash is lost; with 48 V lost the fault log and the clocks too; a short at the input
switch is counted and the third leaves it open; the watchdog hands over to the standby supervisor or, with none,
resets the device; a neighbour's LINK_RESET WARM resets it where PEER_RESET allows. (spec/15_power_clocks_resets.md
R372, spec/15_power_clocks_resets.md R374, spec/20_module.md R453, spec/20_module.md R454, spec/13_tether_fabric.md
R328) -/
def Obligations.PinsAndSupplyReset : Prop :=
  ∀ (s : State),
    (s.power.input48 = true → s.power.pwrgood = true →
      exec .warmPin s = .next (s.holdFlash (s.deviceReset .warmPin true)) ∧
      exec (.powerOn .resetHeld) s = .next (s.holdFlash (s.deviceReset .powerOn true))) ∧
    (s.power.input48 = true → s.power.pwrgood = false →
      exec (.powerOn .pwrgoodRise) s = .next (s.holdFlash
        ((({ s with power := { s.power with pwrgood := true } } : State).fset F.MOD_PINS_PWRGOOD 0 1).deviceReset .powerOn true))) ∧
    (s.power.input48 = false ∨ s.power.state = .pitching → s.power.pwrgood = true →
      let t : State := { s with power := { s.power with input48 := true, stuckOpen := false, retries := 0 } }
      exec (.powerOn .input48V) s = .next (s.holdFlash (t.deviceReset .powerOn false)) ∧
      (s.power.input48 = false → s.power.stuckOpen = false → exec (.inputSwitchRetry false) s = .next (s.holdFlash (t.deviceReset .powerOn false)))) ∧
    (s.power.input48 = false → s.power.stuckOpen = false →
      Gives (.inputSwitchRetry true) s (fun t => t = { s with
        power := { s.power with retries := s.power.retries + 1, stuckOpen := decide (3 ≤ s.power.retries + 1) } })) ∧
    (s.power.input48 = true → s.power.pwrgood = true →
      Gives .pwrgoodFall s (fun t => t.mem = [] ∧ t.core = [] ∧ t.runs = [] ∧ t.odn.sessions = [] ∧ t.power.state = .off ∧
        t.power.pwrgood = false ∧ t.power.input48 = true ∧ t.clock.lantern = s.clock.lantern ∧ t.flog = s.flog ∧
        t.fuses = s.fuses ∧ t.flash = s.flash)) ∧
    Gives .lossOf48V s (fun t => t.mem = [] ∧ t.core = [] ∧ t.runs = [] ∧ t.odn.sessions = [] ∧ t.flog = [] ∧
      t.power.state = .off ∧ t.power.input48 = false ∧ t.power.tripped = false ∧ t.clock = ⟨0, 0, 0, 0, false⟩ ∧
      t.fuses = s.fuses ∧ t.flash = s.flash) ∧
    (s.upAndRunning = true → s.flag F.PWS_WATCHDOG_STANDBY_OK = true →
      let old := s.fget F.PWS_WATCHDOG_ACTIVE
      exec .watchdogExpiry s = .next (((((s.fset F.PWS_WATCHDOG_ACTIVE 0 (1 - old)).fset F.PWS_WATCHDOG_STANDBY_OK 0 0).bump
        F.PWS_WATCHDOG_TAKEOVERS 0 1).attn C.WATCHDOG_TAKEOVER [1 - old]).faultLog C.WATCHDOG_TAKEOVER.toNat kindSupervisor
          outReplaced 0xFF old 0xFFFF (1 - old))) ∧
    (s.upAndRunning = true → s.flag F.PWS_WATCHDOG_STANDBY_OK = false →
      exec .watchdogExpiry s = .next (s.holdFlash (s.deviceReset .watchdog true))) ∧
    (∀ l : Fin 64, s.upAndRunning = true →
      (s.flag F.TTH_CTL_PEER_RESET = true → exec (.linkResetWarm l) s = .next (s.holdFlash (s.deviceReset .warmTether true))) ∧
      (s.flag F.TTH_CTL_PEER_RESET = false → exec (.linkResetWarm l) s = .next s))

/-- BANKED and DOUSED: how they are entered and what they keep. A Keeper's BANK_REQUEST or DOUSE_REQUEST with no run
active, or with FORCE, is answered OK and the device is BANKED with its memory kept, or DOUSED with every byte of
memory lost; with runs and no FORCE it is answered RUNS_ACTIVE and nothing happens. In each case sessions and runs end
and ALARM_MS sets the alarm. (spec/15_power_clocks_resets.md R369, spec/15_power_clocks_resets.md R371,
spec/18_faults_and_redundancy.md R432) -/
def Obligations.LowPowerEntry : Prop :=
  ∀ (s : State) (h : Hdr) (force : Bool) (ms : W32) (z : Session), Accepted s h z → z.role = .keeper →
      let t := s.taken h 24 z
    let alarm : Option Nat := if ms.toNat = 0 then none else some (s.now + ms.toNat * 1000000)
    (t.runs = [] ∨ force = true →
      Gives (.bankRequest h force ms) s (fun u => u.power.state = .banked ∧ u.power.alarmAt = alarm ∧ u.mem = s.mem ∧
        u.runs = [] ∧ u.odn.sessions = []) ∧
      Gives (.douseRequest h force ms) s (fun u => u.power.state = .doused ∧ u.power.alarmAt = alarm ∧ u.mem = [] ∧
        u.runs = [] ∧ u.odn.sessions = [] ∧ u.image = none)) ∧
    (t.runs ≠ [] → force = false →
      Gives (.bankRequest h force ms) s (fun u => Responds t u h tyWriteReg C.RUNS_ACTIVE (zeros 8) ∧ u.regs = s.regs ∧
        StoresKept s u ∧ RunsKept s u ∧ u.power = s.power) ∧
      Gives (.douseRequest h force ms) s (fun u => Responds t u h tyWriteReg C.RUNS_ACTIVE (zeros 8) ∧ u.regs = s.regs ∧
        StoresKept s u ∧ RunsKept s u ∧ u.power = s.power))

/-- Dousing and waking over the management bus, the alarm, the thermal trip. DOUSE douses a LIT device and is answered OK;
WAKE wakes a BANKED or DOUSED device, but a tripped one that is still hot keeps it for later; the alarm wakes it when
its time has come unless it is tripped; a sensor at TRIP_C makes the device BANKED and tripped with memory kept, and
MOD_THERM_N's readings let a kept WAKE act once every sensor has cooled by 20 degrees. (spec/15_power_clocks_resets.md
R369, spec/15_power_clocks_resets.md R370, spec/15_power_clocks_resets.md R367, spec/18_faults_and_redundancy.md R432,
spec/20_module.md R457) -/
def Obligations.LowPowerByBusAndSensor : Prop :=
  ∀ (s : State),
    (s.onBus = true → s.power.state = .lit →
      Gives .douse s (fun u => u = s.holdFlash ((s.enterLow true 0).mgmtAnswer C.OK []) ∧ u.power.state = .doused ∧
        u.power.alarmAt = none ∧ u.mem = [] ∧ u.runs = [] ∧ u.odn.sessions = [])) ∧
    (s.onBus = true → s.power.state = .banked ∨ s.power.state = .doused →
      (s.power.tripped = false ∨ s.cooled = true → exec .wake s = .next (s.holdFlash (s.wakeNow.mgmtAnswer C.OK []))) ∧
      (s.power.tripped = true → s.cooled = false →
        exec .wake s = .next (({ s with power := { s.power with wakeHeld := true } } : State).mgmtAnswer C.OK []))) ∧
    (∀ a, s.power.alarmAt = some a →
      (a ≤ s.now → s.power.tripped = false → exec .alarm s = .next (s.holdFlash s.wakeNow)) ∧
      (s.now < a ∨ s.power.tripped = true → exec .alarm s = .next s)) ∧
    (s.power.state = .banked → s.power.copyOk = true → s.power.copyHoles = [] → ∀ im, s.image = some im →
      let a : State := { s with power := { s.power with tripped := false, wakeHeld := false, alarmAt := none } }
      let w := (((a.wipe false settingsOnly).fset F.PWS_STATE_LAST_RESET 0 7).faultEvent 7 0).pitchWith im
        (a.fget F.PCH_STATUS_SLOT) .wake
      s.wakeNow = (w.timeWake.2.leftLow .banked (some w.timeWake.1)).pinsFollow) ∧
    (∀ (sensor : Fin 64) (temp : Nat), s.upAndRunning = true → s.fget F.FLT_CTL_TRIP_C ≤ temp →
      Gives (.thermalTrip sensor temp) s (fun u => u.power.state = .banked ∧ u.power.tripped = true ∧ u.power.alarmAt = none ∧
        u.mem = s.mem ∧ u.runs = [] ∧ u.odn.sessions = [] ∧ u.flog.length = min 256 (s.flog.length + 1))) ∧
    (∀ temps, s.power.wakeHeld = true → (s.readSensors temps).cooled = true →
      exec (.modThermN temps) s = .next (s.holdFlash (s.readSensors temps).wakeNow)) ∧
    (∀ temps, s.power.wakeHeld = false →
      Gives (.modThermN temps) s (fun u => u = s.readSensors temps ∧ u.gov.hotSensors = (List.range 64).zip (s.sensorTemps temps) ∧
        StoresKept s u ∧ RunsKept s u))

/-- An idle cluster is shaded, a woken one runs again 20 us after the request. CLUSTER_SHADE of a cluster that has been
idle for SHADE_US shades it, shows it in PWS_STATE and PWS_CLUSTER and reports the mask; CLUSTER_WAKE of a shaded
cluster, not held, whose request is 20 us old lights it, counts the wake, serves the requests that waited and lets
tasks go on; neither touches memory, and before the time nothing happens. (spec/15_power_clocks_resets.md R366,
spec/15_power_clocks_resets.md R368, spec/18_faults_and_redundancy.md R433, spec/15_power_clocks_resets.md R378,
spec/02_vaults_and_memory.md R48) -/
def Obligations.ClustersShadeAndWake : Prop :=
  ∀ (s : State) (c : Fin 12),
    (s.shadeDue c = true →
      Gives (.clusterShade c) s (fun t => t = (s.shade c).attn C.WARDEN_SHADE [(s.shade c).fget F.PWS_STATE_SHADED] ∧
        t.regs = (s.showShaded c true).regs ∧ (∀ e ∈ t.power.waking, e.1 ≠ c.val) ∧ StoresKept s t ∧ RunsKept s t)) ∧
    (s.shadeDue c = false → exec (.clusterShade c) s = .next s) ∧
    (s.wakeDue c = true →
      Gives (.clusterWake c) s (fun t => t = s.holdFlash ((s.light c).settleAll.serveWaits).settleAll ∧
        (s.light c).regs = ((s.showShaded c false).bump F.PWS_CLUSTER_WAKES c 1).regs ∧
        (∀ e ∈ (s.light c).power.waking, e.1 ≠ c.val) ∧ StoresKept s (s.light c) ∧ RunsKept s (s.light c)))

/-- A cluster reset, its return, and a cluster held for heat. A Keeper's PWS_CLUSTER.RESET of a working cluster that is
not held resets it and is answered OK; a second reset within 1 s takes it out of service instead; CLUSTER_LIT within
50 us brings it back and reports CLUSTER_RESET with the tasks issued again; later the cluster has failed. A sensor at
SHADE_C holds its cluster shaded and reports it; after 1 s below SHADE_C by more than 10 degrees the hold ends and the
wake begins. (spec/15_power_clocks_resets.md R375, spec/18_faults_and_redundancy.md R422,
spec/18_faults_and_redundancy.md R431) -/
def Obligations.ClusterResetsAndHolds : Prop :=
  ∀ (s : State) (c : Fin 12),
    (∀ (h : Hdr) (z : Session), Accepted s h z → z.role = .keeper → s.lit = true →
      let t := s.taken h 24 z
      t.clusterWorks c = true → t.heldShaded c = false →
      (∀ e, t.power.lastResets.find? (fun e => e.1 == c.val) = some e → e.2 + 1000000000 < t.now) →
      (regDef .PWS_CLUSTER).writeRefusal .PWS_CLUSTER true (put (t.raw .PWS_CLUSTER c 0) F.PWS_CLUSTER_RESET 1) = none →
      Gives (.pwsClusterReset h c) s (fun u => ∃ w, u = s.holdFlash
        (((t.setRaw .PWS_CLUSTER c 0 w).resetCluster c 1).respond h.session tyWriteReg h.seq C.OK (natLe 4 1 ++ zeros 4)))) ∧
    (∀ e cause, s.lit = true → s.clusterWorks c = true → s.heldShaded c = false →
      s.power.lastResets.find? (fun e => e.1 == c.val) = some e → s.now ≤ e.2 + 1000000000 →
      s.clusterReset c cause = s.clusterFails c) ∧
    (∀ r, s.units.resetting.find? (fun e => e.cluster == c.val) = some r →
      let v := s.modUnits (fun u => { u with resetting := u.resetting.filter (fun e => e.cluster != c.val) })
      (s.now ≤ r.since + 50000 →
        let w := (v.fset F.PWS_CLUSTER_PLL_LOCKED c 1).recoveryOff c
        let w' : State := { w with power := { w.power with idleSince := assocSet w.power.idleSince c w.now } }
        exec (.clusterLit c) s = .next (s.holdFlash (w'.attn C.CLUSTER_RESET [c, r.cause, r.reissued]).settleAll)) ∧
      (r.since + 50000 < s.now → exec (.clusterLit c) s = .next (s.holdFlash ((v.recoveryOff c).clusterFails c)))) ∧
    (∀ (sensor : Fin 64) (temp : Nat), s.lit = true → s.fget F.FLT_CTL_SHADE_C ≤ temp →
      s.heldShaded c = false → s.units.lostClusters.contains c.val = false →
      Gives (.clusterHold c sensor temp) s (fun t =>
        t.regs = ((((s.showShaded c true).setBit F.FLT_GOV_HELD c).fset F.FLT_LOG_SEL_COUNT 0 (min 256 (s.flog.length + 1))).bump
          F.FLT_LOG_SEL_TOTAL 0 1).regs ∧
        (∀ e ∈ t.gov.coolSince, e.1 ≠ c.val) ∧ t.flog.length = min 256 (s.flog.length + 1) ∧ StoresKept s t ∧ RunsKept s t)) ∧
    (∀ (temp a : Nat), s.lit = true → s.heldShaded c = true → temp + 10 < s.fget F.FLT_CTL_SHADE_C →
      s.gov.coolSince.find? (fun e => e.1 == c.val) = some (c.val, a) → a + 1000000000 ≤ s.now →
      Gives (.clusterHoldRelease c temp) s (fun t =>
        t.regs = (s.clearBit F.FLT_GOV_HELD c).regs ∧ (c.val, s.now) ∈ t.power.waking ∧ (∀ e ∈ t.gov.coolSince, e.1 ≠ c.val) ∧
        StoresKept s t ∧ RunsKept s t))

/-- The governor lowers the level at once and raises it after six cool checks. A 100 us mean above the power cap lowers
the level by one, caps the match store's activations at four times the level and reports GOVERNOR_STEP; at the lowest
level the cluster under the hottest sensor is shaded instead; the check of each second shows power and temperatures,
lowers the level on heat or power, and raises it by one at the sixth check in a row that finds both below their limits
by the margins (the reading of log entry 68). (spec/18_faults_and_redundancy.md R430, spec/18_faults_and_redundancy.md
R431, spec/07_match_store.md R188) -/
def Obligations.GovernorSteps : Prop :=
  ∀ (s : State) (watts : Nat), s.lit = true →
    (s.fget F.FLT_CTL_POWER_CAP_W < watts → s.fget F.FLT_CTL_MTX_MIN_LEVEL < s.fget F.FLT_GOV_LEVEL →
      let l := s.fget F.FLT_GOV_LEVEL - 1
      let t := (s.fset F.FLT_GOV_LEVEL 0 l).fset F.FLT_GOV_MST_CAP 0 (4 * l)
      exec (.governorFastCheck watts) s =
        .next ((t.attn C.GOVERNOR_STEP [l, 0, t.fget F.FLT_GOV_POWER_W, t.fget F.FLT_GOV_TEMP_MAX]).setActLimit)) ∧
    (s.fget F.FLT_CTL_POWER_CAP_W < watts → s.fget F.FLT_GOV_LEVEL ≤ s.fget F.FLT_CTL_MTX_MIN_LEVEL →
      let c := Config.sensorCluster (s.fget F.FLT_GOV_HOT_SENSOR)
      Gives (.governorFastCheck watts) s (fun t => StoresKept s t ∧ RunsKept s t ∧
        (c < 12 → s.shaded c = false → s.clusterWorks c = true → t = s.holdData (s.shade c).reportShade) ∧
        (12 ≤ c → t = s))) ∧
    (watts ≤ s.fget F.FLT_CTL_POWER_CAP_W → exec (.governorFastCheck watts) s = .next s) ∧
    (∀ temps : List Nat,
      let r := (s.fset F.FLT_GOV_POWER_W 0 (min 4095 watts)).readSensors temps
      let wait (n : Nat) : State := { r with gov := { r.gov with coolSeconds := n } }
      (r.fget F.FLT_CTL_THROTTLE_C ≤ r.fget F.FLT_GOV_TEMP_MAX →
        exec (.governorCheck watts temps) s = .next (s.holdFlash ((wait 0).levelFall 1))) ∧
      (r.fget F.FLT_GOV_TEMP_MAX < r.fget F.FLT_CTL_THROTTLE_C → r.fget F.FLT_CTL_POWER_CAP_W < watts →
        exec (.governorCheck watts temps) s = .next (s.holdFlash ((wait 0).levelFall 0))) ∧
      (r.fget F.FLT_GOV_TEMP_MAX + 5 < r.fget F.FLT_CTL_THROTTLE_C → watts + 50 < r.fget F.FLT_CTL_POWER_CAP_W →
        (r.gov.coolSeconds < 5 → exec (.governorCheck watts temps) s = .next (wait (r.gov.coolSeconds + 1))) ∧
        (5 ≤ r.gov.coolSeconds → r.fget F.FLT_GOV_LEVEL < 8 →
          exec (.governorCheck watts temps) s = .next (s.holdFlash ((wait 1).levelTo (r.fget F.FLT_GOV_LEVEL + 1) 1)))))

/-- Probes, declared failures and replacements. A probed unit that has missed its third probe in a row fails and fewer
misses are counted; a declared failure acts as the unit's kind says; a core's spare slot, a cleared spare vault and
the spare cluster take the number of the unit they replace, requests that waited are served, and the missing part of
the pitch copy is written again; clearing the log empties it and keeps TOTAL, and clearing the Sticky set waits for a
pitch. (spec/18_faults_and_redundancy.md R422, spec/18_faults_and_redundancy.md R424, spec/18_faults_and_redundancy.md
R425, spec/18_faults_and_redundancy.md R426, spec/18_faults_and_redundancy.md R434) -/
def Obligations.UnitsFailAndAreReplaced : Prop :=
  ∀ (s : State),
    (∀ (missed : List HwUnit), s.lit = true →
      (∀ u ∈ missed, ((s.units.missed.find? (fun e => e.1 == u)).map (·.2)).getD 0 < 2) →
      Gives (.probe missed) s (fun t => t.regs = s.regs ∧ StoresKept s t ∧ RunsKept s t ∧
        t.units.missed = ((missed.filter HwUnit.probed).eraseDups).map
          (fun u => (u, ((s.units.missed.find? (fun e => e.1 == u)).map (·.2)).getD 0 + 1)))) ∧
    (∀ u : HwUnit, s.lit = true → HwUnit.probed u = true → ((s.units.missed.find? (fun e => e.1 == u)).map (·.2)).getD 0 = 2 →
      s.silentClusters [u] = [] →
      Gives (.probe [u]) s (fun t => t = s.holdFlash ((s.modUnits (fun x => { x with missed := [] })).unitFails u))) ∧
    (∀ u : HwUnit, u ≠ .supervisor → s.lit = true →
      Gives (.unitFailed u) s (fun t => t = s.holdFlash ((s.unitFails u).serveWaits).settleAll)) ∧
    (s.upAndRunning = true → Gives (.unitFailed .supervisor) s (fun t => t = s.holdFlash (s.supervisorFails.serveWaits).settleAll)) ∧
    (∀ n : Fin 192, s.units.coresOut.contains n.val = true → s.units.orphans.contains n.val = false →
      s.units.lostClusters.contains (n.val / 16) = false →
      Gives (.coreReplace n) s (fun t => t = s.holdFlash ((s.coreTaken n).settleAll) ∧
        (s.coreTaken n).physSlot n = 16 ∧ (s.coreTaken n).units.coresOut.contains n.val = false ∧ (s.coreTaken n).mem = s.mem)) ∧
    (∀ v : Fin 192, s.units.clearing.contains v.val = true →
      Gives (.vaultReplace v) s (fun t => ∃ w : State, t = s.holdFlash (w.serveWaits).settleAll ∧ w.physVault v = 16 ∧
        w.units.clearing.contains v.val = false ∧ w.mem = s.mem ∧ RunsKept s w)) ∧
    (∀ c : Fin 12, s.units.replacing.contains c.val = true →
      Gives (.clusterReplace c) s (fun t => ∃ w : State, t = s.holdFlash ((w.settleAll).serveWaits).settleAll ∧ w.physCluster c = 12 ∧
        w.units.replacing.contains c.val = false ∧ w.mem = s.mem ∧ RunsKept s w)) ∧
    (s.lit = true → exec .pitchCopyRewrite s = .next { s with power := { s.power with copyHoles := [] } }) ∧
    (∀ (h : Hdr) (z : Session), Accepted s h z → z.role = .keeper → s.lit = true →
      let t := s.taken h 24 z
      ((regDef .FLT_LOG_SEL).writeRefusal .FLT_LOG_SEL true (put (put 0 F.FLT_LOG_SEL_INDEX (t.fget F.FLT_LOG_SEL_INDEX))
          F.FLT_LOG_SEL_CLEAR 1) = none →
        Gives (.logClear h) s (fun u => u.flog = [] ∧
          (RegsOrdered s → u.fget F.FLT_LOG_SEL_TOTAL = s.fget F.FLT_LOG_SEL_TOTAL ∧ u.fget F.FLT_LOG_SEL_COUNT = 0) ∧
          Responds t u h tyWriteReg C.OK (natLe 4 1 ++ zeros 4) ∧ StoresKept s u ∧ RunsKept s u)) ∧
      Gives (.unitClear h) s (fun u => (RegsOrdered s → u.fget F.FLT_UNIT_CLEAR_PENDING = 1) ∧
        Responds t u h tyWriteReg C.OK (natLe 4 1 ++ zeros 4) ∧ u.units = { s.units with clearAsked := true } ∧
        StoresKept s u ∧ RunsKept s u))

/-- Scrub, rebuild and refresh. SCRUB_READ of a unit that the patrol scrub visits reads 64 bytes at its position and moves
the position on, back to 0 with a pass counted at the unit's end; the forced turn does so once 1 ms has passed without
an idle cycle and nothing before; a rebuilt copy holds the survivor's bytes and is reported; a vault refresh shows the
temperature and its multiplier, an LPDDR6 refresh the rate; fuses, flash and runs are kept.
(spec/02_vaults_and_memory.md R38, spec/02_vaults_and_memory.md R39, spec/02_vaults_and_memory.md R40,
spec/02_vaults_and_memory.md R41, spec/02_vaults_and_memory.md R42) -/
def Obligations.MemoryMaintenance : Prop :=
  ∀ (s : State),
    (∀ u : MemUnit, s.scrubs u = true →
      let next := s.fget (scrubPos u) (unitIndex u) / 64 * 64 + 64
      Gives (.scrubRead u) s (fun t => RunsKept s t ∧ t.fuses = s.fuses ∧ t.flash = s.flash ∧
        (SMap.risingFrom 0 s.side.idleSince = true → SMap.get 0 t.side.idleSince (unitKey u) = s.now)) ∧
      (RegsOrdered s → Gives (.scrubRead u) s (fun t =>
        t.fget (scrubPos u) (unitIndex u) = (if next < unitSize u then next else 0))) ∧
      (SMap.get 0 s.side.idleSince (unitKey u) + 1000000 ≤ s.now → exec (.scrubForcedTurn u) s = exec (.scrubRead u) s) ∧
      (s.now < SMap.get 0 s.side.idleSince (unitKey u) + 1000000 → exec (.scrubForcedTurn u) s = .next s)) ∧
    (∀ u : MemUnit, s.scrubs u = false → exec (.scrubRead u) s = .next s ∧ exec (.scrubForcedTurn u) s = .next s) ∧
    (∀ u : MemUnit, s.side.rebuilding.contains u = true →
      Gives (.mirrorRebuilt u) s (fun t => t.mem = (s.copyMirror u).mem ∧ u ∉ t.side.rebuilding ∧
        (s.side.flaky = [] → t.regs = s.regs ∧ ∀ p, inUnit u p = false → t.byteAt p = s.byteAt p) ∧ (Memory.wf s.mem = true → Memory.wf t.mem = true) ∧ RunsKept s t)) ∧
    (∀ (v : Fin 192) (temp : Nat), s.lit = true → s.side.lostVaults.contains v.val = false →
      s.flag F.VLT_STATUS_SELF_REFRESH v = false →
      exec (.vaultRefresh v temp) s = .next (((s.fset F.VLT_STATUS_TEMP v (min temp 255)).fset F.VLT_STATUS_REFRESH_MULT v
        (if temp < 85 then 0 else if temp ≤ 95 then 1 else 2)).event 0x103 v 1)) ∧
    (∀ (ch : Fin 32) (rate : BitVec 4), s.lit = true → bitAt (s.fget F.LPT_AVAIL_CHANNELS) ch = true →
      exec (.lpddr6Refresh ch rate) s = .next (s.fset F.LPT_CH_STATUS_REFRESH_RATE ch rate.toNat))

/-- The interleaved alias is a bijection onto the exposed vaults. Byte a of the interleaved range, a below 96 GiB, is byte
v * 0x2000_0000 + o of the vault-linear range, with granule g = a >> 12, vault v = g mod 192, offset o = (g div 192) *
4096 + (a & 0xFFF); that byte lies in the exposed vaults, and every byte of the exposed vaults is reached from exactly
one interleaved address. (spec/02_vaults_and_memory.md R28) -/
def Obligations.InterleavedAlias : Prop :=
  (∀ a, a < 96 * 2 ^ 30 →
      let g := a >>> 12
      let v := g % 192
      let o := (g / 192) * 4096 + (a &&& 0xFFF)
      physOf (0x04000000000 + a) = some (v * 0x20000000 + o) ∧ v * 0x20000000 + o < 96 * 2 ^ 30) ∧
    (∀ p, p < 96 * 2 ^ 30 → ∃ a, a < 96 * 2 ^ 30 ∧ physOf (0x04000000000 + a) = some p ∧
      ∀ b, b < 96 * 2 ^ 30 → physOf (0x04000000000 + b) = some p → b = a)

/-- A bucket index takes an equal share of the hash range. For N from 1 to 2^32: the bucket of a Cairn-64 hash h is ((h >>
32) * N) >> 32 and that of a CRC-32C hash is (h * N) >> 32, both below N; each index from 0 to N - 1 is given by one
interval of hashes, whose length differs from an N-th of the hash range by at most one part in 2^32 of that range.
(spec/04_vault_operators.md R93) -/
def Obligations.BucketShares : Prop :=
  ∀ n, 1 ≤ n → n ≤ 2 ^ 32 →
    (∀ h, h < 2 ^ 64 → bucketOf 2 h n = ((h >>> 32) * n) >>> 32 ∧ bucketOf 2 h n < n) ∧
    (∀ h, h < 2 ^ 32 → bucketOf 1 h n = (h * n) >>> 32 ∧ bucketOf 1 h n < n) ∧
    (∀ i, i < n →
      (∃ lo hi, lo ≤ hi ∧ (∀ h, h < 2 ^ 64 → (bucketOf 2 h n = i ↔ lo ≤ h ∧ h < hi)) ∧ hi ≤ 2 ^ 64 ∧
        (hi - lo) * n ≤ 2 ^ 64 + n * 2 ^ 32 ∧ 2 ^ 64 ≤ (hi - lo) * n + n * 2 ^ 32) ∧
      (∃ lo hi, lo ≤ hi ∧ (∀ h, h < 2 ^ 32 → (bucketOf 1 h n = i ↔ lo ≤ h ∧ h < hi)) ∧ hi ≤ 2 ^ 32 ∧
        (hi - lo) * n ≤ 2 ^ 32 + n ∧ 2 ^ 32 ≤ (hi - lo) * n + n))

/-- A link accepts DATA flits in order, answers, and never holds more than 512 for retry. On a link in service a DATA flit
whose checksum is right and whose SEQ is the next one is accepted, any other DATA flit is not; a flit with a wrong
checksum is answered by a NAK and accepted no further; on any other link, and on one closed by a FENCE, a flit changes
nothing; the replay buffer never passes 512 flits; ACK_TIMER sends an IDLE with ACK when flits were received since the
last one, and else changes nothing; PACKET_DEQUEUE on a link that does not send changes nothing, and a packet for
another device that is too old is discarded and counted at the head of its queue; stores and runs are kept.
(spec/13_tether_fabric.md R321, spec/13_tether_fabric.md R323, spec/13_tether_fabric.md R324, spec/13_tether_fabric.md
R330) -/
def Obligations.FlitsInOrder : Prop :=
  ∀ (s : State) (link : Fin 64) (f : Flit),
    let x := s.linkx link
    let serves := (s.linkState link = lnkActive ∨ s.linkState link = lnkStandby ∨ s.linkState link = lnkMaintenance) ∧ x.closed = false
    (¬ serves → exec (.flitReceive link f) s = .next s) ∧
    (serves → flitGood f = false →
      Gives (.flitReceive link f) s (fun u =>
        u.outbox = s.outbox ++ [.flit link (x.control 2 none)] ∧
        (u.linkx link).nakSent = true ∧ (u.linkx link).rxNext = x.rxNext ∧
        u.regs = (s.bump F.TTH_LINK_ERR_UNCORRECTED link f.fecBad).regs ∧ u.odn = s.odn ∧ StoresKept s u ∧ RunsKept s u)) ∧
    (serves → flitGood f = true → f.kind = 0 →
      Gives (.flitReceive link f) s (fun u =>
        (f.seq.toNat = x.rxNext → (u.linkx link).rxNext = (x.rxNext + 1) % 4096 ∧ (u.linkx link).nakSent = false) ∧
        (f.seq.toNat ≠ x.rxNext → (u.linkx link).rxNext = x.rxNext ∧ (u.linkx link).parts = x.parts) ∧
        (x.replay.length ≤ 512 → (u.linkx link).replay.length ≤ 512) ∧ StoresKept s u ∧ RunsKept s u ∧ u.emb = s.emb ∧ u.mst = s.mst)) ∧
    (0 < x.rxCount → Gives (.ackTimer link) s (fun u => u.outbox = s.outbox ++ [.flit link (x.control 1 none)] ∧
      (u.linkx link).rxCount = 0 ∧ u.regs = s.regs ∧ u.odn = s.odn ∧ StoresKept s u ∧ RunsKept s u)) ∧
    (x.rxCount = 0 → exec (.ackTimer link) s = .next s) ∧
    (∀ cls vc, (s.sends link = false → exec (.packetDequeue link cls vc) s = .next s) ∧
      (s.sends link = true →
        Gives (.packetDequeue link cls vc) s (fun u => (x.replay.length ≤ 512 → (u.linkx link).replay.length ≤ 512) ∧
          StoresKept s u ∧ RunsKept s u ∧ u.emb = s.emb ∧ u.mst = s.mst)) ∧
      (∀ p, s.sends link = true → x.queues = [(vcKey cls vc, [p])] → x.sending = [] → s.tooOld p = true → p.hdr.dest.toNat ≠ 0xFFFFF →
        Gives (.packetDequeue link cls vc) s (fun u => (u.linkx link).queue (vcKey cls vc) = [] ∧ u.outbox = s.outbox ∧
          u.regs = (s.bump F.TTH_DISCARD_DISCARD_AGE 0 1).regs)))

/-- How a link trains, fails and comes into service. LINK_TRAIN on a training link records the lanes found short, open,
inverted or swapped, and the widths that follow; TRAINING_FAILED takes it DOWN, reported only at the first failure
since a success; a DOWN and enabled link trains again after 1 s; LINK_INIT gives the link MAINTENANCE when the epochs
do not fit or the device is the same, else STANDBY when either side asks for it, else ACTIVE (always MAINTENANCE in
bivouac mode), and records the peer; each changes nothing on a link in another state. Stores are kept by all, runs by
LINK_TRAIN and TRAINING_RETRY. (spec/13_tether_fabric.md R325, spec/13_tether_fabric.md R326, spec/13_tether_fabric.md
R327, spec/16_pitching_and_trust.md R394) -/
def Obligations.LinkTraining : Prop :=
  ∀ (s : State) (link : Fin 64),
    let st := s.linkState link
    let training := st = lnkTraining ∨ st = lnkRetraining
    (∀ z : LaneSense,
      (¬ training → exec (.linkTrain link z) s = .next s) ∧
      (training → Gives (.linkTrain link z) s (fun u =>
        (RegsOrdered s → u.linkState link = st ∧
          u.fget F.TTH_LINK_STATUS_TX_WIDTH link = 2 - b2n z.short0 - b2n z.short1 ∧
          u.fget F.TTH_LINK_STATUS_RX_WIDTH link = 2 - b2n z.open0 - b2n z.open1 ∧
          u.fget F.TTH_LINK_STATUS_SHORT link = b2n z.short0 + 2 * b2n z.short1 ∧
          u.fget F.TTH_LINK_STATUS_OPEN link = b2n z.open0 + 2 * b2n z.open1 ∧
          u.fget F.TTH_LINK_STATUS_POLARITY link = b2n z.invert0 + 2 * b2n z.invert1 ∧
          u.fget F.TTH_LINK_STATUS_REVERSED link = b2n z.swapped) ∧
        (z.short0 = false → z.short1 = false → z.open0 = false → z.open1 = false →
          RegsKept s u [regAddr .TTH_LINK_STATUS link 0] ∧ u.outbox = s.outbox ∧ u.odn = s.odn ∧ u.flog = s.flog) ∧
        StoresKept s u ∧ RunsKept s u))) ∧
    (∀ step : Fin 7,
      (¬ training → s.tth.joining = none → s.runs = [] → exec (.trainingFailed link step) s = .next s) ∧
      (training → Gives (.trainingFailed link step) s (fun u => ∃ v : State,
        u = s.holdFlash (v.joinCheck.settleAll) ∧ v.regs = (s.fset F.TTH_LINK_STATUS_STATE link lnkDown).regs ∧
        (v.linkx link).failedOnce = true ∧ (v.linkx link).downAt = s.now ∧ StoresKept s v ∧ RunsKept s v ∧
        ((s.linkx link).failedOnce = true → v.odn = s.odn ∧ v.outbox = s.outbox) ∧
        ((s.linkx link).failedOnce = false → ∃ w : State, v = w.attn C.TRAINING_FAILED [link, step])))) ∧
    (st = lnkDown → s.flag F.TTH_LINK_CTL_ENABLE link = true → (s.linkx link).downAt + 1000000000 ≤ s.now →
      exec (.trainingRetry link) s = .next (s.fset F.TTH_LINK_STATUS_STATE link lnkTraining)) ∧
    (st ≠ lnkDown ∨ s.flag F.TTH_LINK_CTL_ENABLE link = false ∨ s.now < (s.linkx link).downAt + 1000000000 →
      exec (.trainingRetry link) s = .next s) ∧
    (∀ b : LinkInitBody,
      (¬ training → exec (.linkInit link b) s = .next s) ∧
      (training → s.fget F.TTH_LINK_STATUS_TX_WIDTH link ≠ 0 → s.fget F.TTH_LINK_STATUS_RX_WIDTH link ≠ 0 → RegsOrdered s →
        Gives (.linkInit link b) s (fun u => ∃ v : State, u = s.holdFlash ((v.joinAsk link).joinCheck) ∧ v = linkInit link b s ∧
          StoresKept s v ∧ RunsKept s v ∧ (v.linkx link).failedOnce = false ∧
          (v.linkState link = (
              if s.power.state = .bivouac then lnkMaintenance
              else if b.epoch.toNat < s.fget F.TTH_ID_EPOCH_MIN ∨ s.fget F.TTH_ID_EPOCH_MAX < b.epoch.toNat ∨
                  s.fget F.TTH_ID_EPOCH < b.epochMin.toNat ∨ b.epochMax.toNat < s.fget F.TTH_ID_EPOCH ∨
                  b.device.toNat = s.device then lnkMaintenance
              else if s.flag F.TTH_LINK_CTL_STANDBY link = true ∨ (s.linkx link).replaced = true ∨ b.standby = true then lnkStandby
              else lnkActive) ∧
            v.fget F.TTH_LINK_STATUS_PEER_DEVICE link = b.device.toNat ∧ v.fget F.TTH_LINK_STATUS_PEER_LINK link = b.link.val ∧
            v.fget F.TTH_LINK_STATUS_PEER_EPOCH link = b.epoch.toNat))))

/-- How a Keeper, a neighbour and a failure move a link. A Keeper's RETRAIN, a neighbour's LINK_RESET RETRAIN and a
failure put a link that is not held DISABLED into training (RETRAINING after a failure) and answer OK where it was a
command; clearing ENABLE holds it DISABLED and setting it starts training; SEND_RESET puts one LINK_RESET of its kind
behind what waits for the neighbour of a trained link and changes no register; the failure of the last ACTIVE link to
a neighbour is its departure, under the next number; a reason that does not hold, and a link on which no packet may
arrive, change nothing. Stores are kept. (spec/13_tether_fabric.md R321, spec/13_tether_fabric.md R328,
spec/13_tether_fabric.md R335, spec/13_tether_fabric.md R343) -/
def Obligations.LinkControl : Prop :=
  ∀ (s : State) (link : Fin 64),
    (∀ (h : Hdr) (z : Session), Accepted s h z → z.role = .keeper → s.power.state ≠ .bivouac →
      let t := s.taken h 24 z
      Gives (.retrain h link) s (fun u => StoresKept s u ∧ u.emb = s.emb ∧ u.mst = s.mst ∧ u.units = s.units ∧ u.power = s.power ∧
        (RegsOrdered s → u.linkState link = if s.linkState link = lnkDisabled then lnkDisabled else lnkTraining) ∧
        Answers u h tyWriteReg C.OK (natLe 4 1 ++ zeros 4)) ∧
      (∀ enable : Bool, s.flag F.TTH_LINK_CTL_ENABLE link ≠ enable →
        Gives (.linkDisable h link enable) s (fun u => StoresKept s u ∧ u.emb = s.emb ∧ u.mst = s.mst ∧ u.units = s.units ∧ u.power = s.power ∧
          (RegsOrdered s → u.linkState link = (if enable then lnkTraining else lnkDisabled) ∧ u.flag F.TTH_LINK_CTL_ENABLE link = enable) ∧
          Answers u h tyWriteReg C.OK (natLe 4 1 ++ zeros 4))) ∧
      (∀ c kind, (c, kind) ∈ [(Instr.sendResetRetrain h link, 0), (Instr.sendResetWarm h link, 1)] →
        s.linkState link = lnkActive ∨ s.linkState link = lnkStandby ∨ s.linkState link = lnkMaintenance →
        Gives c s (fun u => (RegsOrdered s → RegsKept s u []) ∧ StoresKept s u ∧ RunsKept s u ∧ u.emb = s.emb ∧ u.mst = s.mst ∧
          (∃ rest, (u.linkx link).queue 4 =
            (s.linkx link).queue 4 ++ [⟨s.header 0xFFFFF 2 0x0C 8 0, natLe 1 kind ++ zeros 7⟩] ++ rest) ∧
          Responds t u h tyWriteReg C.OK (natLe 4 1 ++ zeros 4)))) ∧
    (s.mayArrive link 0x0C = false → exec (.linkResetRetrain link) s = .next s) ∧
    (s.mayArrive link 0x0C = true → Gives (.linkResetRetrain link) s (fun u => StoresKept s u ∧ RunsKept s u ∧ u.emb = s.emb ∧
      u.mst = s.mst ∧ u.units = s.units ∧ u.power = s.power ∧ (RegsOrdered s → u.linkState link = lnkTraining))) ∧
    (∀ why : DownReason,
      let serves := s.linkState link = lnkActive ∨ s.linkState link = lnkStandby ∨ s.linkState link = lnkMaintenance
      let holds := (why = .eightNaks ∧ 8 ≤ (s.linkx link).nakCount) ∨
        (why = .noProgress ∧ (s.linkx link).replay ≠ [] ∧ (s.linkx link).ackAt + 10000 ≤ s.now) ∨ why = .lossOfSignal
      (¬ (serves ∧ holds) → s.runs = [] → exec (.linkDown link why) s = .next s) ∧
      (serves ∧ holds → Gives (.linkDown link why) s (fun u => ∃ v : State, StoresKept s v ∧ RunsKept s v ∧
        (RegsOrdered s → v.linkState link = lnkRetraining ∧
          v.fget F.TTH_LINK_ERR_RETRAINS link = satAdd F.TTH_LINK_ERR_RETRAINS.max (s.fget F.TTH_LINK_ERR_RETRAINS link) 1) ∧
        (let peer := s.fget F.TTH_LINK_STATUS_PEER_DEVICE link
         u = s.holdFlash (if s.linkState link = lnkActive ∧
             v.activeLinks.all (fun k => v.fget F.TTH_LINK_STATUS_PEER_DEVICE k != peer) = true then
           (v.departs (BitVec.ofNat 20 peer) (s.lastSeen (BitVec.ofNat 20 peer) + 1) none).settleAll
           else v.settleAll)))))

/-- Packets are delivered, discarded or sent on; routes change under fences. A received packet for this device is
delivered (a part of a train joins it), one without hops left, too old, or without a usable entry is discarded and
counted, the last with ROUTE_MISS; a Keeper's write of both words of a routing entry takes them, or is ROUTE_INVALID
and changes no register; FENCE closes the named link of the neighbour and is answered with the last whole SEQ;
FENCE_ACK and, after LIFETIME_US, FENCE_TIMEOUT end the fence and release its pairs, the latter counting what is lost;
without such a fence they change nothing. Stores and runs are kept. (spec/13_tether_fabric.md R329,
spec/13_tether_fabric.md R330, spec/13_tether_fabric.md R331, spec/13_tether_fabric.md R336, spec/13_tether_fabric.md
R343) -/
def Obligations.PacketsAndFences : Prop :=
  ∀ (s : State),
    (∀ (link : Fin 64) (p : Packet), s.mayArrive link p.hdr.kind = true → s.upAndRunning = true →
      (p.hdr.dest.toNat = s.device ∨ p.hdr.dest.toNat = 0xFFFFF → p.hdr.more = false →
        (∀ q ∈ s.tth.trains, ¬ (q.1 = p.hdr.source ∧ q.2.1 = p.hdr.tag)) →
        exec (.packetReceive (some link) p) s = .next ({ s with tth := { s.tth with inbox := s.tth.inbox ++ [p] } })) ∧
      (p.hdr.dest.toNat ≠ s.device → p.hdr.dest.toNat ≠ 0xFFFFF →
        (p.hdr.hopsLeft = 0 → exec (.packetReceive (some link) p) s = .next (s.bump F.TTH_DISCARD_DISCARD_HOPS 0 1)) ∧
        (p.hdr.hopsLeft ≠ 0 → s.tooOld p = true →
          exec (.packetReceive (some link) p) s = .next (s.bump F.TTH_DISCARD_DISCARD_AGE 0 1)) ∧
        (p.hdr.hopsLeft ≠ 0 → s.tooOld p = false → p.hdr.sourceRouted = false →
          (∀ r ∈ s.routeTable, r.covers p.hdr.dest.toNat = true → s.usable false r = false) →
          exec (.packetReceive (some link) p) s =
            .next ((s.bump F.TTH_DISCARD_DISCARD_ROUTE 0 1).attn C.ROUTE_MISS [p.hdr.dest.toNat])))) ∧
    (∀ (arrival : Option (Fin 64)) (p : Packet),
      Gives (.packetReceive arrival p) s (fun u => StoresKept s u ∧ RunsKept s u ∧ u.emb = s.emb ∧ u.mst = s.mst)) ∧
    (∀ (h : Hdr) (e : Fin 4096) (w0 w1 : W64) (z : Session), Accepted s h z → z.role = .keeper → s.power.state ≠ .bivouac →
      let t := s.taken h 32 z
      (regDef .TTH_ROUTE0).writeRefusal .TTH_ROUTE0 true w0 = none →
      (regDef .TTH_ROUTE1).writeRefusal .TTH_ROUTE1 true w1 = none →
      (routeBad w0 w1 = false → Gives (.tthRouteWrite h e w0 w1) s (fun u =>
        (RegsOrdered s → u.raw .TTH_ROUTE0 e 0 = w0 ∧ u.raw .TTH_ROUTE1 e 0 = w1) ∧
        RegsKept s u [regAddr .TTH_ROUTE0 e 0, regAddr .TTH_ROUTE1 e 0] ∧ StoresKept s u ∧ RunsKept s u ∧
        Answers u h tyWriteReg C.OK (natLe 4 2 ++ zeros 4))) ∧
      (routeBad w0 w1 = true → Gives (.tthRouteWrite h e w0 w1) s (fun u => u.regs = s.regs ∧ StoresKept s u ∧ RunsKept s u ∧
        Responds t u h tyWriteReg C.ROUTE_INVALID (zeros 8)))) ∧
    (∀ (link old l : Fin 64), s.linkState link = lnkActive →
      (List.range 64).find? (fun k => s.fget F.TTH_LINK_STATUS_PEER_DEVICE k == s.fget F.TTH_LINK_STATUS_PEER_DEVICE link &&
        s.fget F.TTH_LINK_STATUS_PEER_LINK k == old.val) = some l.val → l ≠ link →
      Gives (.fence link old) s (fun u => (u.linkx l).closed = true ∧ (u.linkx l).parts = [] ∧
        (u.linkx link).queue 4 = (s.linkx link).queue 4 ++
          [⟨s.header 0xFFFFF 2 0x0A 8 0, natLe 1 old ++ [0] ++ natLe 2 (s.linkx l).lastWhole ++ zeros 4⟩] ∧
        u.regs = s.regs ∧ StoresKept s u ∧ RunsKept s u)) ∧
    (∀ (link old : Fin 64) (seq : BitVec 12),
      ((∀ f ∈ s.tth.fences, ¬ (f.old = old.val ∧ f.new = some link.val)) → exec (.fenceAck link old seq) s = .next s) ∧
      (∀ f, s.tth.fences.find? (fun f => f.old == old.val && f.new == some link.val) = some f → f.held = [] →
        Gives (.fenceAck link old seq) s (fun u => (∀ g ∈ u.tth.fences, g.old ≠ old.val) ∧ u.regs = s.regs ∧ u.outbox = s.outbox ∧
          StoresKept s u ∧ RunsKept s u))) ∧
    (∀ old : Fin 64,
      ((∀ f ∈ s.tth.fences, f.old ≠ old.val) → exec (.fenceTimeout old) s = .next s) ∧
      (∀ f, s.tth.fences.find? (·.old == old.val) = some f →
        (s.now < f.startedAt + s.fget F.TTH_CTL_LIFETIME_US * 1000 → exec (.fenceTimeout old) s = .next s) ∧
        (f.startedAt + s.fget F.TTH_CTL_LIFETIME_US * 1000 ≤ s.now → f.held = [] →
          exec (.fenceTimeout old) s = .next (({ s with tth := { s.tth with
            fences := s.tth.fences.filter (·.old != old.val) } } : State).bump F.TTH_LINK_ERR_LOST old f.unacked.length))))

/-- Meridian time is asked of the parent and corrected by its answer. Every 1 ms of LIT a device with a parent sends it
TIME_SYNC with T1; before that, or without a parent, nothing happens; a request is answered on its link with T1 and
the device's own times; an answer from the parent gives an offset of half the difference of the two one-way
differences; an answer below 1 us counts toward the eight that lock the time, a larger one starts the count again.
(spec/13_tether_fabric.md R339, spec/13_tether_fabric.md R340, spec/13_tether_fabric.md R344) -/
def Obligations.FabricTime : Prop :=
  ∀ (s : State),
    (s.parentLink = none ∨ s.lit = false ∨ s.now < s.tth.syncAt + 1000000 → exec .timeSyncTimer s = .next s) ∧
    (∀ l, s.parentLink = some l → s.lit = true → s.tth.syncAt + 1000000 ≤ s.now →
      Gives .timeSyncTimer s (fun u => u.tth.syncAt = s.now ∧
        (u.linkx l).queue 4 = (s.linkx l).queue 4 ++ [⟨s.header 0xFFFFF 2 0x08 24 0, natLe 8 s.meridian ++ zeros 16⟩] ∧
        u.regs = s.regs ∧ u.outbox = s.outbox ∧ StoresKept s u ∧ RunsKept s u)) ∧
    (∀ (link : Fin 64) (answer : Bool) (t1 t2 t3 stratum : Nat),
      (s.linkState link ≠ lnkActive → exec (.timeSync link answer t1 t2 t3 stratum) s = .next s) ∧
      (s.linkState link = lnkActive →
        Gives (.timeSync link answer t1 t2 t3 stratum) s (fun u => ∃ v : State,
          v = ({ s.takeInbox 0x08 (BitVec.ofNat 20 (s.fget F.TTH_LINK_STATUS_PEER_DEVICE link)) with
            tth := { (s.takeInbox 0x08 (BitVec.ofNat 20 (s.fget F.TTH_LINK_STATUS_PEER_DEVICE link))).tth with
              peerStrata := assocSet s.tth.peerStrata link stratum } } : State).chooseParent ∧
          StoresKept s u ∧ RunsKept s u ∧ u.emb = s.emb ∧ u.mst = s.mst ∧
          (answer = false → (u.linkx link).queue 4 = (v.linkx link).queue 4 ++
            [⟨v.header 0xFFFFF 2 0x08 24 0, natLe 8 t1 ++ natLe 8 s.meridian ++ natLe 8 s.meridian⟩]) ∧
          (answer = true → v.parentLink = some link.val → ∃ offset : Int,
            let twice := ((t2 : Int) - t1) - ((s.meridian : Int) - t3)
            (2 * offset = twice ∨ 2 * offset = twice + 1 ∨ 2 * offset = twice - 1) ∧
            (RegsOrdered s → u.fget F.TTH_TIME_OFFSET_NS = (offset % 2 ^ 32).toNat) ∧
            u.tth.exchanges = (if offset.natAbs < 1000 then s.tth.exchanges + 1 else 0) ∧
            (u.tth.everLocked = true ↔ s.tth.everLocked = true ∨ 8 ≤ u.tth.exchanges)) ∧
          (answer = true → v.parentLink ≠ some link.val → u = s.holdData v))))

/-- A departure is passed on once; a device that joins waits for its neighbours. DEPARTED with a device and number already
passed on changes nothing but the inbox (and, from that device itself, its links' standby reserve); a new one is
remembered, so that it is passed on once; JOIN REQUEST on an ACTIVE link is answered with every newer map and ends the
record of the departure where its number is higher; JOIN REPLY keeps its maps until every neighbour asked has replied;
the wait ends 2 ms after the last REQUEST with JOIN_TIMEOUT for each link left, and nothing happens before or when
nothing is waited for. (spec/13_tether_fabric.md R338, spec/16_pitching_and_trust.md R398, spec/09_embedding_pool.md
R227) -/
def Obligations.DeparturesAndJoining : Prop :=
  ∀ (s : State) (link : Fin 64) (d : BitVec 20) (n : Nat),
    (s.mayArrive link 0x0D = false → s.runs = [] → exec (.departed link d n) s = .next s) ∧
    (s.mayArrive link 0x0D = true → s.runs = [] →
      let peer := BitVec.ofNat 20 (s.fget F.TTH_LINK_STATUS_PEER_DEVICE link)
      let a := if d = peer then (s.takeInbox 0x0D peer).peerResets d else s.takeInbox 0x0D peer
      ((d, n) ∈ s.tth.departures → exec (.departed link d n) s = .next a) ∧
      ((d, n) ∉ s.tth.departures → Gives (.departed link d n) s (fun u => (d, n) ∈ u.tth.departures ∧
        (d ≠ s.self → d ∈ u.tth.gone) ∧ u.fuses = s.fuses ∧ u.flash = s.flash ∧ u.image = s.image))) ∧
    (∀ versions,
      (s.linkState link ≠ lnkActive → exec (.joinRequest link d n versions) s = .next s) ∧
      (s.linkState link = lnkActive → Gives (.joinRequest link d n versions) s (fun u => ∃ ps : List Packet,
        (u.linkx link).queue 4 = (s.linkx link).queue 4 ++ ps ∧ ps ≠ [] ∧
        ps.flatMap Packet.body = joinBody 1 s.device s.tth.departure []
          ((s.emb.maps.filter (fun m => versions.getD m.map 0xFFFFFFFF#32 < m.version)).flatMap mapBytes) ∧
        (s.lastSeen d < n → d ∉ u.tth.gone) ∧ (n ≤ s.lastSeen d → u.tth.gone = s.tth.gone) ∧
        u.regs = (if s.lastSeen d < n then (s.peerResets d).regs else s.regs) ∧ u.outbox = s.outbox ∧ StoresKept s u ∧ RunsKept s u ∧ u.emb = s.emb))) ∧
    (∀ maps,
      (s.linkState link ≠ lnkActive → exec (.joinReply link d n maps) s = .next s) ∧
      (s.linkState link = lnkActive → s.tth.joining.isSome = true → (∃ l ∈ s.tth.joinWaiting, l ≠ link.val) →
        link.val ∈ s.tth.joinWaiting →
        Gives (.joinReply link d n maps) s (fun u => u.tth.joinMaps = s.tth.joinMaps ++ maps ∧
          u.tth.joinWaiting = s.tth.joinWaiting.filter (fun l => l != link.val) ∧ u.tth.joining = s.tth.joining ∧
          u.emb = s.emb ∧ u.regs = s.regs ∧ u.outbox = s.outbox ∧ StoresKept s u ∧ RunsKept s u))) ∧
    (∀ at_, s.tth.joining = some at_ →
      (at_ + 2000000 ≤ s.now → s.tth.joinWaiting ≠ [] → Gives .joinWaitExpiry s (fun u => u.tth.joining = none ∧
        u.tth.joinWaiting = [] ∧ u.tth.joinMaps = [] ∧ u.regs = s.regs ∧ StoresKept s u ∧ RunsKept s u ∧
        u.emb.maps.length = s.emb.maps.length)) ∧
      (s.now < at_ + 2000000 ∨ s.tth.joinWaiting = [] → exec .joinWaitExpiry s = .next s)) ∧
    (s.tth.joining = none → exec .joinWaitExpiry s = .next s)

/-- A slot is checked without pitching, and the next slot is chosen. SLOT_CHECK by a Keeper verifies the slot and sets
CHECK_OK when it passes, or clears it, records the refusal and reports SLOT_REFUSED when it does not; a pair of
versions that has not been tested is recorded and not reported (the model's choice, log entry 69); NEXT_SLOT takes 0,
1 or 2, clears the FAILS count of the slot it names, and 3 is refused. Memory, fuses, flash and runs are kept.
(spec/16_pitching_and_trust.md R382, spec/16_pitching_and_trust.md R392, spec/16_pitching_and_trust.md R401) -/
def Obligations.SlotAndBootCommands : Prop :=
  ∀ (s : State) (h : Hdr) (z : Session), Accepted s h z → z.role = .keeper →
      let t := s.taken h 24 z
    (∀ slot : Fin 2,
      let v := t.setRaw .PCH_SLOT slot 0 (t.raw .PCH_SLOT slot 0)
      Gives (.slotCheck h slot) s (fun u =>
        (match t.fuses.verify (t.flash.slot slot) false with
         | .good _ _ => u.regs = (v.fset F.PCH_SLOT_CHECK_OK slot 1).regs
         | .untested _ => u.regs = ((v.fset F.PCH_SLOT_CHECK_OK slot 0).recordRefusal slot (bad C.VERSION_UNTESTED)).regs
         | .refused b => u.regs = ((v.fset F.PCH_SLOT_CHECK_OK slot 0).recordRefusal slot b).regs) ∧
        StoresKept s u ∧ RunsKept s u ∧ u.units = s.units ∧ u.power = s.power)) ∧
    (∀ value : BitVec 2, value.toNat ≤ 2 →
      Gives (.nextSlot h value) s (fun u =>
        (RegsOrdered s → u.fget F.PCH_BOOT_NEXT_SLOT = value.toNat ∧
          u.fget F.PCH_BOOT_FAILS_0 = (if value.toNat = 1 then 0 else s.fget F.PCH_BOOT_FAILS_0) ∧
          u.fget F.PCH_BOOT_FAILS_1 = (if value.toNat = 2 then 0 else s.fget F.PCH_BOOT_FAILS_1) ∧
          u.fget F.PCH_BOOT_BOOT_COUNT = s.fget F.PCH_BOOT_BOOT_COUNT) ∧
        RegsKept s u [regAddr .PCH_BOOT 0 0] ∧ Responds t u h tyWriteReg C.OK (natLe 4 1 ++ zeros 4) ∧
        StoresKept s u ∧ RunsKept s u)) ∧
    Gives (.nextSlot h 3) s (fun u => u.regs = s.regs ∧ Responds t u h tyWriteReg C.VALUE_REFUSED (zeros 8) ∧
      StoresKept s u ∧ RunsKept s u)

/-- COMMIT, ENROLL and REVOKE burn fuses only as the rules allow. COMMIT raises each fuse counter to the SVN of the
manifest in force, at most 64, and lowers none; ENROLL burns the staged digest into an empty position and is
FUSE_REFUSED on one that holds a digest; REVOKE burns the position's bit unless it is the last live position or signed
the image in force; ENROLL_FIRST over the management bus enrols while ENROLL_EN is high and no position is enrolled,
and is MGMT_REFUSED otherwise. Memory, flash and runs are kept. (spec/16_pitching_and_trust.md R390,
spec/16_pitching_and_trust.md R391, spec/20_module.md R457) -/
def Obligations.FuseCommands : Prop :=
  ∀ (s : State) (h : Hdr),
    (∀ z : Session, Accepted s h z → z.role = .keeper →
      let t := s.taken h 24 z
      (∀ im, s.image = some im →
        Gives (.rollbackCommit h) s (fun u => u.fuses = s.fuses.commit im.man ∧ u.mem = s.mem ∧ u.flash = s.flash ∧ RunsKept s u)) ∧
      (∀ p : Fin 4,
        (s.fuses.owners.getD p none = none →
          Gives (.enroll h p) s (fun u => u.fuses = s.fuses.enroll p t.stagedDigest ∧ u.mem = s.mem ∧ u.flash = s.flash ∧
            RunsKept s u ∧ Responds t u h tyWriteReg C.OK (natLe 4 1 ++ zeros 4))) ∧
        ((s.fuses.owners.getD p none).isSome = true →
          Gives (.enroll h p) s (fun u => u.fuses = s.fuses ∧ u.mem = s.mem ∧ u.flash = s.flash ∧ RunsKept s u ∧
            Responds t u h tyWriteReg C.FUSE_REFUSED (zeros 8))) ∧
        (s.fuses.live ≠ [p.val] → (∀ im, s.image = some im → im.man.owner = false ∨ im.man.signer ≠ p.val) →
          Gives (.revoke h p) s (fun u => u.fuses = s.fuses.revoke p ∧ u.mem = s.mem ∧ u.flash = s.flash ∧
            RunsKept s u ∧ Responds t u h tyWriteReg C.OK (natLe 4 1 ++ zeros 4))) ∧
        (s.fuses.live = [p.val] ∨ (∃ im, s.image = some im ∧ im.man.owner = true ∧ im.man.signer = p.val) →
          Gives (.revoke h p) s (fun u => u.fuses = s.fuses ∧ u.mem = s.mem ∧ u.flash = s.flash ∧ RunsKept s u ∧
            Responds t u h tyWriteReg C.FUSE_REFUSED (zeros 8))))) ∧
    (∀ (position : Nat) (digest : List Byte), s.onBus = true → digest.length = 64 →
      (s.flag F.MOD_PINS_ENROLL_EN = true → s.fuses.enrolled = false → position < 4 →
        exec (.enrollFirst position digest) s =
          .next (({ s with fuses := s.fuses.enroll position digest } : State).mgmtAnswer C.OK [])) ∧
      (s.flag F.MOD_PINS_ENROLL_EN = false ∨ s.fuses.enrolled = true ∨ 4 ≤ position →
        exec (.enrollFirst position digest) s = .next (s.mgmtAnswer C.MGMT_REFUSED [])))

/-- A quote is asked for, formed and shown; the certificate fills the same window. GO begins a quote: READY and LENGTH are
0 and one is pending; QUOTE_READY forms it over the device's identity, nonce and measurements, 3,888 bytes whose first
512 are the body, and sets READY; GO with SELECT puts the certificate into the window at once with its length, at most
4,096. (spec/16_pitching_and_trust.md R399, spec/16_pitching_and_trust.md R400) -/
def Obligations.QuoteCommands : Prop :=
  ∀ (s : State),
    (∀ (h : Hdr) (z : Session), Accepted s h z →
      let t := s.taken h 24 z
      Gives (.quoteGo h) s (fun u =>
        (RegsOrdered s → u.trust = ⟨true, []⟩ ∧ u.fget F.PCH_QUOTE_CTL_READY = 0 ∧ u.fget F.PCH_QUOTE_CTL_LENGTH = 0) ∧
        RegsKept s u [regAddr .PCH_QUOTE_CTL 0 0] ∧ Responds t u h tyWriteReg C.OK (natLe 4 1 ++ zeros 4) ∧ StoresKept s u ∧ RunsKept s u) ∧
      (Gives (.certificateLoad h) s (fun u => RegsKept s u [regAddr .PCH_QUOTE_CTL 0 0] ∧
        (RegsOrdered s → u.trust = ⟨false, s.flash.certificate⟩ ∧ u.fget F.PCH_QUOTE_CTL_READY = 1 ∧
          u.fget F.PCH_QUOTE_CTL_LENGTH = min 4096 s.flash.certificate.length) ∧
        Responds t u h tyWriteReg C.OK (natLe 4 1 ++ zeros 4) ∧ StoresKept s u ∧ RunsKept s u))) ∧
    (s.upAndRunning = true → s.trust.quotePending = true →
      Gives .quoteReady s (fun u => u.trust.quotePending = false ∧
        u.trust.quote = s.quoteBody ++ fitTo 64 (Config.ed25519Sign s.quoteBody) ++ fitTo 3309 (Config.mldsaSign s.free s.quoteBody) ++
          zeros 3 ∧
        u.trust.quote.length = 3888)) ∧
    (s.upAndRunning = true → s.trust.quotePending = true →
      Gives .quoteReady s (fun u => u.regs = ((s.fset F.PCH_QUOTE_CTL_READY 0 1).fset F.PCH_QUOTE_CTL_LENGTH 0 3888).regs ∧
        StoresKept s u ∧ RunsKept s u ∧ u.outbox = s.outbox)) ∧
    (s.trust.quotePending = false → exec .quoteReady s = .next s)

/-- The counters and the top-down account. COUNTER_WRITE replaces the count and leaves OVF; an increment of a counter at
2^48 - 1 that counts makes it 0, sets OVF, names the event and reports if ATTN is set; at a window boundary the meters
and the energy are published, WINDOWS counts one more, the settings that waited take effect and the next window
starts; an energy sample adds to the total and to the window. A Keeper's TD_TEST with no run active sets MODE to TEST
with its clusters and every chosen cluster's bank is taken; with a run active it is TEST_REFUSED and changes nothing;
TD_OFF clears MODE and CLUSTERS and the banks are given back. (spec/17_counters_and_limits.md R407,
spec/17_counters_and_limits.md R408, spec/17_counters_and_limits.md R410, spec/17_counters_and_limits.md R411,
spec/17_counters_and_limits.md R413, spec/17_counters_and_limits.md R414, spec/17_counters_and_limits.md R416) -/
def Obligations.CounterCommands : Prop :=
  (∀ (s : State),
    (∀ (h : Hdr) (r : CounterRef) (value : BitVec 48) (z : Session), Accepted s h z → z.role = .keeper →
      let t := s.taken h 24 z
      t.lit = true → (∀ c i, r = .cluster c i → t.units.lostClusters.contains c.val = false) →
      Gives (.counterWrite h r value) s (fun u =>
        (RegsOrdered s → u.fget2 (r.cntField F.PMC_CNT_VALUE) r.i r.j = value.toNat ∧
          u.fget2 (r.cntField F.PMC_CNT_OVF) r.i r.j = s.fget2 (r.cntField F.PMC_CNT_OVF) r.i r.j) ∧
        Responds t u h tyWriteReg C.OK (natLe 4 1 ++ zeros 4) ∧ StoresKept s u ∧ RunsKept s u)) ∧
    (∀ r : CounterRef, s.lit = true → s.counting r = true → s.fget2 (r.cntField F.PMC_CNT_VALUE) r.i r.j = 2 ^ 48 - 1 →
      let v := (s.fset2 (r.cntField F.PMC_CNT_VALUE) r.i r.j 0).fset2 (r.cntField F.PMC_CNT_OVF) r.i r.j 1
      Gives (.counterOverflow r) s (fun u => StoresKept s u ∧ RunsKept s u ∧ ∃ ev,
        u.regs = (v.fset2 (r.ctlField F.PMC_CNT_CTL_OVF_EVENT) r.i r.j ev).regs)) ∧
    (s.lit = true → s.windowEnd ≤ s.meridian → s.pmc.gap = false →
      Gives .pmcWindow s (fun u => u.pmc.energy = 0 ∧ u.pmc.ports = [] ∧ u.pmc.active = [] ∧ u.pmc.windowStart = s.meridian ∧
        u.pmc.gap = false ∧ StoresKept s u ∧ RunsKept s u ∧
        (RegsOrdered s → u.fget F.PMC_ENERGY_WINDOW_UJ = min (2 ^ 40 - 1) s.pmc.energy ∧ u.fget F.PMC_WINDOW_SHORT = 0 ∧
          u.fget F.PMC_WINDOW_WINDOWS = satAdd F.PMC_WINDOW_WINDOWS.max (s.fget F.PMC_WINDOW_WINDOWS) 1))) ∧
    (s.lit = false ∨ s.meridian < s.windowEnd → exec .pmcWindow s = .next s) ∧
    (∀ uj, s.lit = true →
      exec (.energySample uj) s = .next ({ s.bump F.PMC_ENERGY_TOTAL_UJ 0 uj with
        pmc := { s.pmc with energy := s.pmc.energy + uj } }))) ∧
    (∀ (s : State) (h : Hdr) (z : Session), Accepted s h z → z.role = .keeper → s.lit = true →
      let t := s.taken h 24 z
    (∀ clusters : BitVec 12, t.runs = [] →
      Gives (.tdTest h clusters) s (fun u => ∃ w : W64,
        (bitsOf w.toNat 1 0 = 2 ∧ bitsOf w.toNat 27 16 = clusters.toNat ∧
          bitsOf w.toNat 39 28 = bitsOf (t.raw .PMC_TD_CTL 0 0).toNat 39 28) ∧
        u.regs = (t.setRaw .PMC_TD_CTL 0 0 w).banksFollow.regs ∧ u.pmc.saved = (t.setRaw .PMC_TD_CTL 0 0 w).banksFollow.pmc.saved ∧
        Responds t u h tyWriteReg C.OK (natLe 4 1 ++ zeros 4) ∧ StoresKept s u ∧ RunsKept s u)) ∧
    (∀ clusters : BitVec 12, t.runs ≠ [] →
      Gives (.tdTest h clusters) s (fun u => u.regs = s.regs ∧ Responds t u h tyWriteReg C.TEST_REFUSED (zeros 8) ∧
        StoresKept s u ∧ RunsKept s u)) ∧
    Gives (.tdOff h) s (fun u => ∃ w : W64,
      (bitsOf w.toNat 1 0 = 0 ∧ bitsOf w.toNat 27 16 = 0 ∧ bitsOf w.toNat 39 28 = bitsOf (t.raw .PMC_TD_CTL 0 0).toNat 39 28) ∧
      u.regs = (t.setRaw .PMC_TD_CTL 0 0 w).banksFollow.regs ∧ Responds t u h tyWriteReg C.OK (natLe 4 1 ++ zeros 4) ∧
      StoresKept s u ∧ RunsKept s u))

/-- What the management bus reads, how it leaves and joins, and what the module measures. READ_REG over the bus answers OK
with the Operator view's word of a register in the four blocks it reaches, REG_UNMAPPED for another block and the
refusal of the register otherwise; STATUS answers three registers; a stuck line is counted, reported and isolates the
module, losing the response; reconnecting ends the isolation; a dynamic address is noted; every JTAG instruction but
Grenog's private ones leaves the state, and so do those while JTAG_DEBUG is 0. A module sample shows coolant
temperatures and the input's voltage, current and power; the first inlet reading above 40 degrees counts a warning and
reports COOLANT_WARN, one below leaves the count; an input inside 40 to 60 V never warns; without 48 V nothing is
sampled. (spec/20_module.md R455, spec/20_module.md R456, spec/20_module.md R457, spec/20_module.md R458,
spec/20_module.md R462) -/
def Obligations.ManagementBusCommands : Prop :=
  (∀ (s : State),
    (∀ addr : W64, s.onBus = true → mgmtBlock addr.toNat = true → ∀ w, (s.draws 4).2.readOne false addr.toNat s.free = .ok w →
      Gives (.mgmtReadReg addr) s (fun u => u.mgmt.response = some (C.OK, natLe 8 w.toNat) ∧
        u.outbox = s.outbox ++ [.mgmt C.OK (natLe 8 w.toNat)] ∧ u.regs = s.regs ∧ StoresKept s u ∧ RunsKept s u)) ∧
    (∀ addr : W64, s.onBus = true → mgmtBlock addr.toNat = false →
      exec (.mgmtReadReg addr) s = .next (s.mgmtAnswer C.REG_UNMAPPED [])) ∧
    (s.onBus = true →
      exec .mgmtStatus s = .next (s.mgmtAnswer C.OK (natLe 8 (s.regWord .PCH_STATUS 0 0 0).toNat ++
        natLe 8 (s.regWord .PWS_STATE 0 0 0).toNat ++ natLe 8 (s.regWord .FLT_GOV 0 0 0).toNat)) ∧
      exec .mgmtStuck s = .next (((({ s with mgmt := ⟨none⟩ } : State).bump F.MOD_MGMT_STUCK 0 1).fset F.MOD_MGMT_ISOLATED 0 1).attn
        C.MGMT_STUCK []) ∧
      exec .dynamicAddress s = .next (s.fset F.MOD_MGMT_DYNAMIC 0 1)) ∧
    (s.onBus = false → ∀ c ∈ [Instr.mgmtStatus, .mgmtStuck, .dynamicAddress, .wake, .douse], exec c s = .next s) ∧
    exec .mgmtReconnect s = .next (s.fset F.MOD_MGMT_ISOLATED 0 0) ∧
    (∀ i ∈ [JtagInstr.idcode, .bypass, .extest, .extestPulse, .extestTrain], exec (.jtagInstruction i) s = .next s) ∧
    (∀ n, s.flag F.MOD_MGMT_JTAG_DEBUG = false → exec (.jtagInstruction (.grenogPrivate n)) s = .next s) ∧
    (∀ n, s.flag F.MOD_MGMT_JTAG_DEBUG = true → exec (.jtagInstruction (.grenogPrivate n)) s = .refused .jtagPrivate)) ∧
    (∀ (s : State) (inlet outlet mv ma w : Nat),
    (s.power.input48 = false → exec (.moduleSample inlet outlet mv ma w) s = .next s) ∧
    (s.power.input48 = true →
      let shown := ((((s.fset F.MOD_COOLANT_INLET_C 0 (min 255 inlet)).fset F.MOD_COOLANT_OUTLET_C 0 (min 255 outlet)).fset
        F.MOD_INPUT_MILLIVOLTS 0 (min 65535 mv)).fset F.MOD_INPUT_MILLIAMPS 0 (min 65535 ma)).fset F.MOD_INPUT_WATTS 0 (min 4095 w)
      (inlet ≤ 40 → 40000 ≤ mv → mv ≤ 60000 →
        Gives (.moduleSample inlet outlet mv ma w) s (fun u => u.regs = shown.regs ∧ u.odn = s.odn ∧ StoresKept s u ∧ RunsKept s u)) ∧
      (40 < inlet → s.gov.coolantBad = false → 40000 ≤ mv → mv ≤ 60000 →
        Gives (.moduleSample inlet outlet mv ma w) s (fun u => u.gov.coolantBad = true ∧ u.gov.coolantOkAt = none ∧
          u.regs = (((((((s.fset F.MOD_COOLANT_INLET_C 0 (min 255 inlet)).fset F.MOD_COOLANT_OUTLET_C 0 (min 255 outlet)).bump
            F.MOD_COOLANT_WARNINGS 0 1).fset F.MOD_INPUT_MILLIVOLTS 0 (min 65535 mv)).fset F.MOD_INPUT_MILLIAMPS 0 (min 65535 ma)).fset
            F.MOD_INPUT_WATTS 0 (min 4095 w))).regs ∧ StoresKept s u ∧ RunsKept s u))))

/-- No step clears a fuse. Whatever command or tick a step runs, in any state: a digest burned into a position stays
there, a revocation stays, no SVN counter falls or passes 64, and the fuses of manufacture stand; every reset, power
loss and pitch included. (spec/16_pitching_and_trust.md R390, spec/16_pitching_and_trust.md R391,
spec/15_power_clocks_resets.md R377) -/
def Obligations.FusesNeverClear : Prop :=
  ∀ (f : Fuses) (s t : State), FusesSince f s.fuses → step s = .next t → FusesSince f t.fuses

/-- The fuses of the reset state meet the invariant. At reset no position is enrolled or revoked (the model's choice of
blank fuses, log entry 5), the counters are at most 64, and the fuses are those that FusesNeverClear speaks of.
(spec/16_pitching_and_trust.md R390, spec/16_pitching_and_trust.md R391) -/
def Obligations.FusesAtReset : Prop :=
  FusesSince Fuses.blank State.reset.fuses ∧ State.reset.fuses.owners.all Option.isNone = true

/-- A step never faults, and refuses only Grenog's private JTAG instructions. Every step answers a next state, but for a
JTAG_INSTRUCTION with one of Grenog's private instructions at the front of the queue while JTAG_DEBUG is 1, for which
the spec gives no effect. (spec/20_module.md R458, spec/opcode_table.json) -/
def Obligations.StepsComplete : Prop :=
  ∀ (s : State), (∃ t, step s = .next t) ∨
    (∃ n r, s.pending = .jtagInstruction (.grenogPrivate n) :: r ∧ s.flag F.MOD_MGMT_JTAG_DEBUG = true ∧
      step s = .refused .jtagPrivate)

/-- A command of the match store is checked in order, then queued. A Keeper's write of MST_CMD for an undefined table is
TABLE_UNKNOWN, for an address at or above the size ENTRY_RANGE (not SEARCH), with staged bits above a width of 160
STAGE_INVALID, with 16 operations queued QUEUE_FULL (not SEARCH), in that order, and queues nothing; otherwise it is
OK, DONE is 0, and a WRITE, INSERT, REMOVE or READ joins the table's queue with the staged entry and the next ordinal,
a SEARCH the Keeper port's queue with the staged key. The entries, stores and runs are kept. (spec/07_match_store.md
R189, spec/07_match_store.md R190) -/
def Obligations.MatchStoreCommands : Prop :=
  ∀ (s : State) (h : Hdr) (z : Session) (table : BitVec 4) (addr : BitVec 19), Accepted s h z → z.role = .keeper → s.power.state ≠ .bivouac →
      let t := s.taken h 24 z
    ∀ c op, (c, op) ∈ [(Instr.mstWrite h table addr, some MstOp.write), (Instr.mstInsert h table addr, some MstOp.insert),
        (Instr.mstRemove h table addr, some MstOp.remove), (Instr.mstRead h table addr, some MstOp.read),
        (Instr.mstSearch h table, none)] →
      let keeps (u : State) : Prop := u.mst.entries = s.mst.entries ∧ StoresKept s u ∧ RunsKept s u ∧ u.emb = s.emb
      let refused (code : Code) : Prop := Gives c s (fun u => u.mst = s.mst ∧ (RegsOrdered s → RegsKept s u []) ∧
        Responds t u h tyWriteReg code (zeros 8) ∧ StoresKept s u ∧ RunsKept s u)
      (s.mstTab? table.toNat = none → refused C.TABLE_UNKNOWN) ∧
      (∀ tab, s.mstTab? table.toNat = some tab →
        let outside := op.isSome = true ∧ tab.size ≤ addr.toNat
        let wrong := s.staged.fits tab.wide = false
        let full := op.isSome = true ∧ 16 ≤ (s.mstQueue table.toNat).length
        (outside → refused C.ENTRY_RANGE) ∧
        (¬ outside → wrong → refused C.STAGE_INVALID) ∧
        (¬ outside → ¬ wrong → full → refused C.QUEUE_FULL) ∧
        (¬ outside → ¬ wrong → ¬ full →
          Gives c s (fun u => keeps u ∧ Responds t u h tyWriteReg C.OK (natLe 4 1 ++ zeros 4) ∧
            (RegsOrdered s → u.fget F.MST_RESULT_DONE = 0) ∧
            (∀ o, op = some o → u.mstQueue table.toNat = s.mstQueue table.toNat ++
                [⟨o, addr.toNat, s.fget F.MST_TABLE_OPS_ISSUED table.toNat + 1, s.staged⟩] ∧ u.mst.ports = s.mst.ports) ∧
            (op = none → u.portQueue 12 = s.portQueue 12 ++ [⟨table.toNat, s.staged.key, tab.blocks, false, none⟩] ∧
              u.mst.queues = s.mst.queues))))

/-- Operations at the head of a queue write, read, begin shifts and finish them. With no shift, nothing of the table held
and its shadows in service: a WRITE replaces its whole entry and no other and leaves the queue; a READ shows the entry
and changes none; an INSERT into a full table fails with TABLE_FULL and changes no entry, one at or past the used end
writes its entry, any other begins a shift of U - p moves; a REMOVE of the last used entry invalidates it, any other
begins a shift of U - 1 - p moves. A move copies the entry one place on, poison and all, and suppresses its old copy;
after the last move the commit writes or invalidates; SHIFT_END then ends the shift and takes the operation from the
queue. That an operation which writes fails with VAULT_UNAVAILABLE while a shadow is out of service is the model's
choice (log entry 186). Without an operation, a shift, or LIT, nothing changes. (spec/07_match_store.md R190,
spec/07_match_store.md R191, spec/07_match_store.md R192, spec/07_match_store.md R193, spec/07_match_store.md R194,
spec/07_match_store.md R195) -/
def Obligations.MatchStoreOperations : Prop :=
  ∀ (s : State) (table : Fin 16) (tab : MstTab), s.mstTab? table = some tab → s.lit = true →
    SMap.risingFrom 0 s.mst.entries = true → RegsOrdered s → (∀ a, a < tab.size → (s.mstKey tab a).isSome = true) →
    let whole (a : Nat) (w : Wide) (u : State) : Prop := u.mstRead tab a = w ∧
      ∀ b, b < tab.size → b ≠ a → u.mstRead tab b = s.mstRead tab b
    let done (u : State) : Prop := u.mstQueue table = (s.mstQueue table).drop 1 ∧
      u.fget F.MST_TABLE_OPS_DONE table = satAdd F.MST_TABLE_OPS_DONE.max (s.fget F.MST_TABLE_OPS_DONE table) 1
    let end_ := s.fget F.MST_TABLE_STATE_USED_END table
    (∀ q, (s.mstQueue table).head? = some q → s.shiftOf table = none → s.tableHeld tab q.op = false →
      q.addr < tab.size → q.staged.fits tab.wide = true →
      (q.op ≠ .read → s.shadowsServe tab = false → Gives (.mstOpHead table) s (fun u => u.mst.entries = s.mst.entries ∧ done u ∧
        u.fget F.MST_TABLE_ERR_CODE table = C.VAULT_UNAVAILABLE.toNat ∧ StoresKept s u ∧ RunsKept s u)) ∧
      (q.op = .read ∨ s.shadowsServe tab = true →
      (q.op = .write → Gives (.mstOpHead table) s (fun u => whole q.addr q.staged.wide u ∧ done u ∧ RunsKept s u ∧ u.core = s.core)) ∧
      (q.op = .read → Gives (.mstOpHead table) s (fun u => u.mst.entries = s.mst.entries ∧ done u ∧
        u.fget F.MST_RESULT_HIT = b2n (s.mstRead tab q.addr).valid ∧ u.fget F.MST_RESULT_ADDR = q.addr ∧ u.fget F.MST_RESULT_DONE = 1 ∧
        u.staged.key = (s.mstRead tab q.addr).key ∧ u.staged.result = (s.mstRead tab q.addr).result ∧ StoresKept s u ∧ RunsKept s u)) ∧
      (q.op = .insert →
        ((s.mstRead tab (tab.size - 1)).valid = true → Gives (.mstOpHead table) s (fun u => u.mst.entries = s.mst.entries ∧ done u ∧
          u.fget F.MST_TABLE_ERR_CODE table = C.TABLE_FULL.toNat ∧ StoresKept s u ∧ RunsKept s u)) ∧
        ((s.mstRead tab (tab.size - 1)).valid = false →
          (end_ ≤ q.addr → Gives (.mstOpHead table) s (fun u => whole q.addr q.staged.wide u ∧ done u)) ∧
          (q.addr < end_ → Gives (.mstOpHead table) s (fun u => u.mst.entries = s.mst.entries ∧ u.mst.queues = s.mst.queues ∧
            u.shiftOf table = some ⟨true, q.addr, end_ - 1, end_ - q.addr, end_, none, q.staged, false⟩ ∧ StoresKept s u ∧ RunsKept s u)))) ∧
      (q.op = .remove →
        (end_ ≤ q.addr + 1 → Gives (.mstOpHead table) s (fun u => (u.mstRead tab q.addr).valid = false ∧ done u ∧
          ∀ b, b < tab.size → b ≠ q.addr → u.mstRead tab b = s.mstRead tab b)) ∧
        (q.addr + 1 < end_ → Gives (.mstOpHead table) s (fun u => u.mst.entries = s.mst.entries ∧ u.mst.queues = s.mst.queues ∧
          u.shiftOf table = some ⟨false, q.addr, q.addr + 1, end_ - 1 - q.addr, end_, none, q.staged, false⟩ ∧ StoresKept s u ∧ RunsKept s u))))) ∧
    (∀ x, s.shiftOf table = some x →
      exec (.mstOpHead table) s = .next s ∧
      (x.done = false → exec (.shiftEnd table) s = .next s ∧ (s.rebuildHeld tab = true → exec (.shiftMove table) s = .next s) ∧
        (s.rebuildHeld tab = false →
          (x.left ≠ 0 → x.insert = true → x.next + 1 < tab.size → Gives (.shiftMove table) s (fun u =>
            whole (x.next + 1) (s.mstRead tab x.next) u ∧
            u.shiftOf table = some { x with next := x.next - 1, left := x.left - 1, suppress := some x.next })) ∧
          (x.left ≠ 0 → x.insert = false → x.next < tab.size → 0 < x.next → Gives (.shiftMove table) s (fun u =>
            whole (x.next - 1) (s.mstRead tab x.next) u ∧
            u.shiftOf table = some { x with next := x.next + 1, left := x.left - 1, suppress := some x.next })) ∧
          (x.left = 0 → x.insert = true → x.addr < tab.size → x.staged.fits tab.wide = true → Gives (.shiftMove table) s (fun u =>
            whole x.addr x.staged.wide u ∧ u.shiftOf table = some { x with suppress := none, done := true })) ∧
          (x.left = 0 → x.insert = false → x.usedEnd - 1 < tab.size → Gives (.shiftMove table) s (fun u =>
            (u.mstRead tab (x.usedEnd - 1)).valid = false ∧ u.shiftOf table = some { x with suppress := none, done := true })))) ∧
      (x.done = true → exec (.shiftMove table) s = .next s ∧
        Gives (.shiftEnd table) s (fun u => u.shiftOf table = none ∧ done u ∧ u.mst.entries = s.mst.entries ∧ StoresKept s u ∧
          RunsKept s u))) ∧
    (s.mstQueue table = [] → exec (.mstOpHead table) s = .next s) ∧
    (s.shiftOf table = none → exec (.shiftMove table) s = .next s ∧ exec (.shiftEnd table) s = .next s)

/-- Searches are granted, the limit follows the temperature, the scrub repairs, spares take over. SEARCH_GRANT completes a
waiting Keeper search that fits the activations left beside maintenance and shows its result; a hotter sample lowers
the step at once and sets the limit to the least of cap, governor and step; a scrub visit leaves an entry that equals
its shadow and takes the shadow's record otherwise; a block whose repairs within 1 s reach the limit begins to load a
spare, or says once that none is left; SPARE_SWAP loads the new block from the shadow, retires the old one and reports
it; SHADOW_REBUILT leaves the array's records in the shadow and ends the rebuild. Outside LIT nothing changes.
(spec/07_match_store.md R186, spec/07_match_store.md R187, spec/07_match_store.md R188, spec/07_match_store.md R189,
spec/07_match_store.md R197, spec/07_match_store.md R198, spec/07_match_store.md R199) -/
def Obligations.MatchStoreCare : Prop :=
  ∀ (s : State),
    (s.lit = false → exec .searchGrant s = .next s ∧ (∀ temp, exec (.mstTempSample temp) s = .next s) ∧
      ∀ b : Fin 64, (∀ i, exec (.mstScrubVisit b i) s = .next s) ∧ exec (.blockRetire b) s = .next s ∧
        exec (.spareSwap b) s = .next s ∧ exec (.shadowRebuilt b) s = .next s) ∧
    (∀ x tab, s.lit = true → s.mst.ports = [(12, [x])] → s.mst.asking = [] → x.owner = none → s.mstTab? x.table = some tab →
      x.need ≠ 0 → x.need ≤ s.fget F.MST_STATUS_ACT_LIMIT - b2n s.maintenance.1 → RegsOrdered s →
      Gives .searchGrant s (fun u => u.portQueue 12 = [] ∧ u.fget F.MST_RESULT_DONE = 1 ∧
        u.fget F.MST_RESULT_HIT = b2n (s.mstFind tab x.key).hit ∧ u.fget F.MST_RESULT_MULTI = b2n (s.mstFind tab x.key).multi ∧
        u.fget F.MST_RESULT_TIE = b2n (s.mstFind tab x.key).tie ∧ RunsKept s u ∧
        ((∀ e ∈ s.mst.entries, e.2.flaky = 0) → u.mst.entries = s.mst.entries ∧ StoresKept s u))) ∧
    (∀ temp, s.lit = true → RegsOrdered s →
      Gives (.mstTempSample temp) s (fun u => u.fget F.MST_STATUS_TEMP = min temp 255 ∧
        (tempStep temp < s.mstStep → u.mst.step = tempStep temp) ∧ (s.mst.cool = [] → s.mstStep ≤ tempStep temp → u.mst.step = s.mstStep) ∧
        u.fget F.MST_STATUS_ACT_LIMIT = min (min (s.fget F.MST_CTL_ACT_CAP) (s.fget F.FLT_GOV_MST_CAP)) (min 63 u.mst.step) ∧
        u.mst.entries = s.mst.entries ∧ StoresKept s u ∧ RunsKept s u)) ∧
    (∀ (l : Fin 64) (i : Fin 8192) (b : Nat) (bs : List Byte) (v : State), s.lit = true → s.flag F.MST_CTL_SCRUB_ENABLE = true →
      s.scrubbable l = true → s.physBlock l = some b → s.shadowRead l i = (bs, false, v) →
      SMap.risingFrom 0 s.mst.entries = true →
      let e := s.mstAt (b * blockEntries + i)
      Gives (.mstScrubVisit l i) s (fun u =>
        u.mstAt (b * blockEntries + i) = (if e.bad = false ∧ e.record = bs then { e with flaky := 0 } else entryOfRecord bs) ∧
        (∀ k, k ≠ b * blockEntries + i → u.mstAt k = s.mstAt k) ∧
        u.mem = v.mem ∧ u.core = s.core ∧ RunsKept s u)) ∧
    (∀ l : Fin 64, s.lit = true → (∀ r ∈ s.mst.retiring, r.1 ≠ l.val) →
      s.fget F.MST_CTL_RETIRE_LIMIT ≤
        (s.mst.repairTimes.filter (fun e => e.1 == l.val && decide (s.now ≤ e.2 + 1000000000))).length →
      (∀ b, (List.range 68).find? (fun b => s.fget F.MST_BLOCK_STATUS_STATE b == blkSpare) = some b →
        Gives (.blockRetire l) s (fun u => u.mst.retiring = s.mst.retiring ++ [(l.val, b)] ∧ u.mst.entries = s.mst.entries ∧
          (RegsOrdered s → u.fget F.MST_BLOCK_STATUS_STATE b = blkCopying ∧ u.fget F.MST_BLOCK_STATUS_LOGICAL b = l.val) ∧
          u.outbox = s.outbox ∧ StoresKept s u ∧ RunsKept s u)) ∧
      ((∀ b, b < 68 → s.fget F.MST_BLOCK_STATUS_STATE b ≠ blkSpare) →
        (s.mst.exhausted = true → exec (.blockRetire l) s = .next s) ∧
        (s.mst.exhausted = false → exec (.blockRetire l) s =
          .next (({ s with mst := { s.mst with exhausted := true } } : State).attn C.SPARES_EXHAUSTED [l.val])))) ∧
    (∀ (l : Fin 64) (n b old : Nat), s.lit = true → s.mst.retiring.find? (·.1 == l.val) = some (n, b) → s.physBlock l = some old →
      s.blockHeld l = false → l.val ∉ s.mst.rebuilding → s.bankServes (.vault l 0) = true → s.side.flaky = [] →
      old ≠ b → b < 68 → SMap.risingFrom 0 s.mst.entries = true → RegsOrdered s →
      Gives (.spareSwap l) s (fun u => u.fget F.MST_BLOCK_STATUS_STATE old = blkRetired ∧ u.fget F.MST_BLOCK_STATUS_STATE b = blkActive ∧
        (∀ i, i < blockEntries → u.mstAt (b * blockEntries + i) =
          { entryOfRecord (s.shadowRead l i).1 with flaky := 4 * b2n (s.shadowRead l i).2.1 }) ∧
        (∀ r ∈ u.mst.retiring, r.1 ≠ l.val) ∧ StoresKept s u ∧ RunsKept s u)) ∧
    (∀ (l : Fin 64) (b : Nat), s.lit = true → l.val ∈ s.mst.rebuilding → s.physBlock l = some b →
      Gives (.shadowRebuilt l) s (fun u => l.val ∉ u.mst.rebuilding ∧ u.core = s.core ∧ RunsKept s u ∧
        ((∀ e ∈ s.mst.entries, e.2.flaky = 0) → u.mst.entries = s.mst.entries ∧
          (s.bankServes (.vault l 0) = true → s.regions = [] → Memory.wf s.mem = true →
            ∀ i, i < blockEntries → u.bytesAt (shadowAt l i) 64 = (s.mstAt (b * blockEntries + i)).record))))

/-- ROW_WRITE replaces one row under its gate and answers with its version. A ROW_WRITE to an undeclared table is
EMB_TABLE_UNKNOWN, an Operator's to a table it may not write ROLE_DENIED, one of the wrong length ROW_SIZE, and none
of them changes a row; one for a row of this device whose vault serves replaces the row (version one higher, or 1 for
a new row while its slice has room, else TABLE_SPACE) and no other, and is answered OK with the version; while the
vault does not serve, it waits and is PENDING. A ROW_WRITE passed on by another device is written likewise and
acknowledged. Memory, core stores, fuses, flash, image and runs are kept. (spec/09_embedding_pool.md R240,
spec/09_embedding_pool.md R223, spec/09_embedding_pool.md R239, spec/14_odren_port.md R356, spec/14_odren_port.md
R350, spec/18_faults_and_redundancy.md R431) -/
def Obligations.RowWrites : Prop :=
  ∀ (s : State) (table : Nat) (id : W64) (scale : W32) (row : List Byte),
    let written (g : EmbTable) (u : State) : Prop :=
      u.row? table id = some ⟨table, id, (match s.row? table id with | some r => r.version + 1 | none => 1),
        (if g.scaled then scale else match s.row? table id with | some r => r.scale | none => 0x3F800000#32), row, false, 0⟩ ∧
      ∀ n i, ¬ (n = table ∧ i = id) → u.row? n i = s.row? n i
    let here (g : EmbTable) (by_ : Option (BitVec 20)) : Prop := s.embTable? table = some g ∧ s.serves g id by_ = .here ∧ s.rowServed g id = true ∧
      s.hotRow? table id = none ∧ s.migAt g.map (s.position g id) = none
    let room (g : EmbTable) : Prop := (s.row? table id).isSome = true ∨ s.sliceFull g id = false
    (∀ (h : Hdr) (z : Session), Accepted s h z → s.lit = true →
      let x := s.holder h (16 + row.length) z; let t := s.taken h (16 + row.length) z
      (∀ c, s.rowWriteCheck (x.role == .keeper) table row = .error c →
        Gives (.rowWrite h table id scale row) s (fun u => Responds t u h tyRowWrite c [] ∧ u.emb = s.emb ∧ u.regs = s.regs ∧
          StoresKept s u ∧ RunsKept s u)) ∧
      (s.embTable? table = none → s.rowWriteCheck (x.role == .keeper) table row = .error C.EMB_TABLE_UNKNOWN) ∧
      (∀ g, here g none → s.rowWriteCheck (x.role == .keeper) table row = .ok g →
        let w : VaultWait := .row x.id h.seq table id scale row
        (s.queues w (s.rowWaits g id) = false → room g →
          Gives (.rowWrite h table id scale row) s (fun u => written g u ∧ StoresKept s u ∧ RunsKept s u ∧
            Responds t u h tyRowWrite C.OK
              (natLe 4 (match s.row? table id with | some r => r.version + 1 | none => 1#32).toNat))) ∧
        (s.queues w (s.rowWaits g id) = false → ¬ room g →
          Gives (.rowWrite h table id scale row) s (fun u => Responds t u h tyRowWrite C.TABLE_SPACE [] ∧ u.emb = s.emb ∧
            StoresKept s u ∧ RunsKept s u)) ∧
        (s.queues w (s.rowWaits g id) = true →
          Gives (.rowWrite h table id scale row) s (fun u => u.power.waits = s.power.waits ++ [w] ∧ u.emb = s.emb ∧
            Responds t u h tyRowWrite C.PENDING [] ∧ StoresKept s u ∧ RunsKept s u)))) ∧
    (∀ (source : BitVec 20) (tag : Nat),
      (s.lit = false → exec (.rowWriteForwarded source tag table id scale row) s = .next s) ∧
      (∀ g, s.lit = true → here g (some source) → s.rowWriteCheck true table row = .ok g → room g →
        s.queues (.peerRow source tag table id scale row) (s.rowWaits g id) = false →
        Gives (.rowWriteForwarded source tag table id scale row) s (fun u => ∃ v : State, written g u ∧ v.emb = u.emb ∧
          u = s.holdFlash (v.injectBody source.toNat 0 0x05 tag (natLe 2 C.OK.toNat ++ zeros 6)) ∧ StoresKept s u ∧ RunsKept s u)))

/-- Request bundles read rows, update rows under their gate, and are answered. Outside LIT a bundle changes nothing; one
for a table that is not declared here is answered NO_TABLE for each entry; a bundle for rows whose vaults serve is
carried out at once, any other waits; a LOOKUP_REQ changes no row, and neither do forwarded lookups, but for what a
read finds of a word that fails and passes on a replay; an UPDATE of one row of this device whose words read well, or
that is stored whole, leaves the row that R237 gives and no other row changed, a missing row only with CREATE and
room. Memory, core stores, fuses, flash, image and runs are kept. (spec/09_embedding_pool.md R232,
spec/09_embedding_pool.md R237, spec/09_embedding_pool.md R239, spec/09_embedding_pool.md R245,
spec/09_embedding_pool.md R234, spec/18_faults_and_redundancy.md R431) -/
def Obligations.RequestsServed : Prop :=
  ∀ (s : State) (b : BundleHdr) (es : List Entry),
    let a := s.takeInbox 0x01 b.source
    let cs := [(Instr.lookupReq b es, false, false, numbered es), (.updateReq b es, true, false, numbered es), (.forwardReq b es, b.update, true, es)]
    (s.lit = false → ∀ c ∈ cs, exec c.1 s = .next s) ∧
    (s.lit = true →
      (s.embTable? b.table = none → s.queues (.bundle b false false (numbered es)) false = false →
        ∀ c ∈ cs, Gives c.1 s (fun u => u = s.holdFlash (a.answerBundle b.requester b.table b.round b.part c.2.1 c.2.2.1
          (c.2.2.2.map (fun e => statusEntry e.id e.index stNoTable))) ∧ u.emb = s.emb ∧ StoresKept s u ∧ RunsKept s u)) ∧
      (∀ g, s.embTable? b.table = some g → ∀ c ∈ cs,
        let w : VaultWait := .bundle b c.2.1 c.2.2.1 c.2.2.2
        let closed := es.any (fun e => s.rowWaits g e.id)
        (s.queues w closed = true → Gives c.1 s (fun u => u.power.waits = s.power.waits ++ [w] ∧ u.emb = s.emb ∧ u.regs = s.regs ∧
          StoresKept s u ∧ RunsKept s u)) ∧
        (s.queues w closed = false → Gives c.1 s (fun u => u.emb.maps = s.emb.maps ∧ u.emb.rounds = s.emb.rounds ∧
          (c.2.1 = false → (∀ n i, (u.row? n i).map (fun r => { r with flaky := 0 }) = (s.row? n i).map (fun r => { r with flaky := 0 })) ∧
            ((∀ r ∈ s.emb.rows, r.flaky = 0) → u.emb.rows = s.emb.rows)) ∧ StoresKept s u ∧ RunsKept s u)) ∧
        (∀ e, es = [e] → s.queues w closed = false → c.2.1 = true → s.serves g e.id (if c.2.2.1 then some b.source else none) = .here → s.rowServed g e.id = true →
          let old := s.row? b.table e.id
          let others (u : State) : Prop := ∀ n i, ¬ (n = b.table ∧ i = e.id) → u.row? n i = s.row? n i
          (∀ r, old = some r → (s.readStored g r).1 = false ∨ b.op = 3 →
            Gives c.1 s (fun u => u.row? b.table e.id = some (g.applyUpdate b.op r e.values) ∧ others u)) ∧
          (∀ r, old = some r → (s.readStored g r).1 = true → b.op ≠ 3 → Gives c.1 s (fun u => u.emb.rows = s.emb.rows)) ∧
          (old = none → b.create = true → s.sliceFull g e.id = false →
            Gives c.1 s (fun u => u.row? b.table e.id = some (g.applyUpdate b.op (g.zeroRow e.id) e.values) ∧ others u)) ∧
          (old = none → b.create = false ∨ s.sliceFull g e.id = true → Gives c.1 s (fun u => u.emb.rows = s.emb.rows)))))

/-- A round closes for its causes, takes the answers that name it, and fails in time. A round closes when its gathering
time is over, its ids reach the limit, or no further task is ready, once its tasks have handed their ids over; it then
holds every distinct id that they named once, and the time of its close; a cause that does not hold closes nothing; a
round open past its timeout is counted and every task in it fails with ROUND_TIMEOUT; the answer with status OK of an
entry reaches the id it was sent for and no other; an answer that names no round changes nothing but the inbox where
no round has anything left to send, nothing to end and no failed round awaits an answer. Waits and queues of the runs
then settle. Fuses, flash, image are kept. (spec/09_embedding_pool.md R230, spec/09_embedding_pool.md R231,
spec/09_embedding_pool.md R232, spec/09_embedding_pool.md R233, spec/09_embedding_pool.md R234) -/
def Obligations.RoundsCloseAndEnd : Prop :=
  ∀ (s : State) (k : Fin 16),
    let kept (u : State) : Prop := u.fuses = s.fuses ∧ u.flash = s.flash
    let quiet : Prop := s.emb.unanswered = [] ∧ (s.emb.rounds.map Round.slot).Nodup ∧ ∀ r ∈ s.emb.rounds, r.closedAt.isSome = true →
      r.ids.any RoundId.deferredSend = false ∧ r.ids.any (fun x => x.answer.isNone) = true
    ((∀ r ∈ s.emb.rounds, r.slot ≠ k.val) → (∀ why, exec (.roundClose k why) s = .next (s.holdFlash s.settleAll)) ∧
      exec (.roundTimeout k) s = .next (s.holdFlash s.settleAll)) ∧
    (∀ r why, s.emb.rounds.find? (fun r => r.slot == k.val && r.closedAt.isNone) = some r →
      let holds := (why = .gathered ∧ r.openedAt + s.fget F.EMB_GATHER_GATHER_NS ≤ s.now) ∨
        (why = .idsReached ∧ s.fget F.EMB_CTL_ROUND_IDS ≤ r.distinct.length) ∨
        (why = .noFurtherTask ∧ ∀ t ∈ s.disp.tasks, ¬ (t.slot = r.runSlot ∧ t.stage = r.stage ∧ t.state = .ready))
      (¬ holds ∨ (∃ x ∈ r.tasks, x.ids = none) → exec (.roundClose k why) s = .next (s.holdFlash s.settleAll)) ∧
      (∀ st, holds → r.tasks ≠ [] → (∀ x ∈ r.tasks, x.ids ≠ none) → s.stage? r.runSlot r.stage = some st →
        Gives (.roundClose k why) s (fun u => kept u ∧ ∃ v : State, u = s.holdFlash v.settleAll ∧
          ∀ q ∈ v.emb.rounds, q.slot = k.val → q.closedAt = some s.now ∧ q.ids.map RoundId.id = r.distinct))) ∧
    (∀ r at_, s.emb.rounds.find? (fun r => r.slot == k.val) = some r → r.closedAt = some at_ →
      (s.now < at_ + r.timeout * 1000 → exec (.roundTimeout k) s = .next (s.holdFlash s.settleAll)) ∧
      (at_ + r.timeout * 1000 ≤ s.now → Gives (.roundTimeout k) s (fun u => kept u ∧ ∃ v : State,
        v = (s.bump F.EMB_ROUND_COUNT_TIMEOUTS 0 1).failRound r C.ROUND_TIMEOUT ∧ u = s.holdFlash v.settleAll ∧
        ∀ q ∈ v.emb.rounds, q.slot ≠ k.val))) ∧
    (∀ (b : BundleHdr) (es : List Entry),
      let a := s.takeInbox 0x01 b.source
      (s.lit = true → quiet → b.round ≠ 0 → (∀ r ∈ s.emb.rounds, r.number ≠ b.round) →
        ∀ c ∈ [Instr.lookupResp b es, .updateAck b es, .forwardResp b es], exec c s = .next (s.holdFlash a.settleAll)) ∧
      (∀ r x y e st g, s.lit = true → s.emb.rounds = [r] → r.number = b.round → r.closedAt.isSome = true → r.ids = [x, y] →
        s.embTable? r.table = some g → s.stage? r.runSlot r.stage = some st → es = [e] → e.status = stOk → b.round ≠ 0 →
        x.answer = none → y.answer = none → x.deferredSend = false → y.deferredSend = false → x.id ≠ y.id → x.sent = true →
        let answered : List Round := [{ r with ids := [{ x with answer := some { e with id := x.id } }, y] }]
        (x.owner = b.source → x.part = b.part → x.index = 0 → e.hot = false →
          (r.update = false → Gives (.lookupResp b es) s (fun u => kept u ∧ ∃ v : State, u = s.holdFlash v.settleAll ∧ v.emb.rounds = answered)) ∧
          (r.update = true → Gives (.updateAck b es) s (fun u => kept u ∧ ∃ v : State, u = s.holdFlash v.settleAll ∧ v.emb.rounds = answered))) ∧
        (x.owner ≠ b.source → x.part = b.part → x.index = e.index → x.forwarded = true → y.sent = false → e.hot = false →
          Gives (.forwardResp b es) s (fun u => kept u ∧ ∃ v : State, u = s.holdFlash v.settleAll ∧ v.emb.rounds = answered))))

/-- Holders keep, replace and drop hot rows and acknowledge; counters decay. HOT_PUSH replaces the copy of a cached row
and adds none, HOT_INVALIDATE drops the copies of the rows it names, and both are acknowledged with HOT_ACK; the last
HOT_ACK of a row write lets it go on; HOT_DECAY, once DECAY_US have passed since the last and not before, halves every
counter, and a row below half the threshold is no longer hot; outside LIT nothing changes. No row in its home changes,
and memory, core stores, fuses, flash and image are kept. (spec/09_embedding_pool.md R242, spec/09_embedding_pool.md
R243) -/
def Obligations.HotRows : Prop :=
  ∀ (s : State) (b : BundleHdr) (es : List Entry),
    let a := s.takeInbox 0x01 b.source
    (s.lit = false → exec (.hotPush b es) s = .next s ∧ exec (.hotInvalidate b es) s = .next s ∧ exec .hotDecay s = .next s ∧
      exec (.hotAck b) s = .next (s.holdFlash s.settleAll)) ∧
    (s.lit = true →
      (∀ e, es = [e] → Gives (.hotPush b es) s (fun u => ∃ v : State,
        u = s.holdFlash (v.sendBundle b.source 0 tyHotAck b.table 0 s.self 0 0 0 0 []) ∧ v.emb = u.emb ∧ u.emb.rows = s.emb.rows ∧
        (s.emb.cache.any (fun q => q.table == b.table && q.id == e.id) = false → u.emb = s.emb) ∧
        (s.emb.cache.any (fun q => q.table == b.table && q.id == e.id) = true → ∀ g, s.hotRegion = some g → 16 + e.row.length ≤ g.size →
          u.emb.cache.head? = some ⟨b.table, e.id, e.version, e.scale, e.row, false, 0⟩ ∧
          (∀ q ∈ u.emb.cache, q.table = b.table ∧ q.id = e.id → q.bytes = e.row)) ∧ StoresKept s u ∧ RunsKept s u)) ∧
      Gives (.hotInvalidate b es) s (fun u => ∃ v : State,
        u = s.holdFlash (v.sendBundle b.source 0 tyHotAck b.table 0 s.self 0 0 0 0 []) ∧
        (∀ q, q ∈ u.emb.cache ↔ q ∈ s.emb.cache ∧ ¬ (q.table = b.table ∧ ∃ e ∈ es, e.id = q.id)) ∧
        u.emb.rows = s.emb.rows ∧ u.emb.hot = s.emb.hot ∧ StoresKept s u ∧ RunsKept s u) ∧
      ((∀ w ∈ s.emb.waits, ¬ (w.table = b.table ∧ b.source ∈ w.awaiting)) → exec (.hotAck b) s = .next (s.holdFlash a.settleAll)) ∧
      (∀ w r, s.emb.waits = w :: r → w.table = b.table →
        (w.awaiting = [b.source] → Gives (.hotAck b) s (fun u => ∃ v : State, v.emb.waits = r ∧ v.emb.rows = s.emb.rows ∧
          u = s.holdFlash ((v.acked { w with awaiting := [] }).settleAll))) ∧
        (∀ d l, w.awaiting = b.source :: d :: l → Gives (.hotAck b) s (fun u => ∃ v : State,
          v.emb = { s.emb with waits := ({ w with awaiting := d :: l } : HotWait) :: r } ∧ u = s.holdFlash v.settleAll))) ∧
      (s.now < s.emb.decayedAt + s.fget F.EMB_HOT_CTL_DECAY_US * 1000 → exec .hotDecay s = .next s) ∧
      (s.emb.decayedAt + s.fget F.EMB_HOT_CTL_DECAY_US * 1000 ≤ s.now → SMap.risingFrom 0 s.emb.sketch = true → (∀ h ∈ s.emb.hot, (s.embTable? h.table).isSome = true) →
        Gives .hotDecay s (fun u => u.emb.decayedAt = s.now ∧ (∀ k, SMap.get 0 u.emb.sketch k = SMap.get 0 s.emb.sketch k / 2) ∧
          (∀ h ∈ u.emb.hot, s.fget F.EMB_HOT_CTL_THRESHOLD ≤ 2 * u.estimate h.table h.id) ∧ u.emb.rows = s.emb.rows ∧
          u.emb.maps = s.emb.maps ∧ StoresKept s u ∧ RunsKept s u)))

/-- A position migrates, is cut over, forwarded and freed. EMB_MIGRATE is refused with VALUE_REFUSED, MIGRATE_REFUSED or
MIGRATE_BUSY as the map, owners and running migrations say, and changes nothing then; else the position's rows are
streamed from a slot of their own, or with FORCE the map changes at once; the Warden looks at a map once in 100 ms and
moves a movable position of it to the device that served least, where AUTO_MIGRATE is set and the imbalance is passed,
and nothing otherwise; the new owner installs a row unless it holds a version at least as high; the last
acknowledgement cuts over; a newer map version is adopted and an older one is not, but for the notice of an aborted
migration, which discards the rows installed here; FORWARDING ends after two rounds and its time; a redirecting slot
is freed with its rows; a migration not complete in time is aborted. (spec/09_embedding_pool.md R227,
spec/09_embedding_pool.md R244, spec/09_embedding_pool.md R245, spec/09_embedding_pool.md R247,
spec/09_embedding_pool.md R249) -/
def Obligations.Migrations : Prop :=
  ∀ (s : State),
    (∀ (h : Hdr) (z : Session) (pos : BitVec 16) (map : BitVec 4) (new : BitVec 20) (force : Bool),
      Accepted s h z → z.role = .keeper → s.power.state ≠ .bivouac →
      let t := s.taken h 24 z
      let c := if force then Instr.migrateForce h pos map new else Instr.migrate h pos map new
      (migrateWord pos map new force = 0 → Gives c s (fun u => u.emb = s.emb ∧ Responds t u h tyWriteReg C.OK (natLe 4 1 ++ zeros 4) ∧
        StoresKept s u ∧ RunsKept s u)) ∧
      (∀ code, migrateWord pos map new force ≠ 0 → s.migrateCheck pos.toNat map.toNat new force = .error code →
        (code = C.VALUE_REFUSED ∨ code = C.MIGRATE_REFUSED ∨ code = C.MIGRATE_BUSY) ∧
        Gives c s (fun u => u.emb = s.emb ∧ Responds t u h tyWriteReg code (zeros 8) ∧ StoresKept s u ∧ RunsKept s u)) ∧
      (∀ k, migrateWord pos map new force ≠ 0 → s.migrateCheck pos.toNat map.toNat new force = .ok k →
        Gives c s (fun u => StoresKept s u ∧ RunsKept s u ∧ (force = false ∨ new ≠ s.self → u.emb.rows = s.emb.rows) ∧
          (force = true → new = s.self → u.rowsAt map.toNat pos.toNat = [] ∧
            ∀ r ∈ s.emb.rows, r ∉ s.rowsAt map.toNat pos.toNat → r ∈ u.emb.rows) ∧
          (force = false → (∀ m ∈ s.emb.migs, m.slot ≠ k) ∧ (s.rowsAt map.toNat pos.toNat ≠ [] → u.emb.maps = s.emb.maps) ∧
            ∃ m ∈ u.emb.migs, m.slot = k ∧ m.map = map.toNat ∧ m.position = pos.toNat ∧ m.peer = new ∧
              m.phase = (if s.rowsAt map.toNat pos.toNat = [] then .forwarding else .streaming) ∧
              m.total = (s.rowsAt map.toNat pos.toNat).length) ∧
          (force = true → u.emb.migs = s.emb.migs ∧ (s.mapVersion map.toNat ≠ BitVec.allOnes 32 →
            u.ownerAt map.toNat pos.toNat = new ∧ u.mapVersion map.toNat = s.mapVersion map.toNat + 1))))) ∧
    (∀ (map : BitVec 4) (served : List (BitVec 20 × Nat)),
      let due := SMap.get 0 s.emb.balancedAt map.toNat + balancePeriod
      let of_ (d : BitVec 20) : Nat := ((served.find? (fun e => e.1 == d)).map (·.2)).getD 0
      let c := Instr.autoMigrateCheck ⟨map, served⟩
      (s.lit = false ∨ s.flag F.EMB_CTL_AUTO_MIGRATE = false ∨ s.map? map.toNat = none ∨ s.now < due → exec c s = .next s) ∧
      Gives c s (fun u => u.emb.rows = s.emb.rows ∧ StoresKept s u ∧ RunsKept s u) ∧
      (∀ m, s.lit = true → s.flag F.EMB_CTL_AUTO_MIGRATE = true → s.map? map.toNat = some m → due ≤ s.now →
        let devices := m.devices.eraseDups
        let exceeded := (devices.map of_).sum * s.fget F.EMB_CTL_IMBALANCE < of_ s.self * devices.length
        let looked := { s.emb with balancedAt := SMap.set 0 s.emb.balancedAt map.toNat s.now }
        (¬ exceeded → exec c s = .next { s with emb := looked }) ∧
        (∀ dst, exceeded → leastServed (devices.map (fun x => (x, of_ x))) = some dst → s.movable m ≠ [] →
          Gives c s (fun u => ∃ pos ∈ s.movable m,
            u = s.holdFlash (({ s with free := s.free + 1, emb := looked } : State).startMigration pos map.toNat dst false).2)))) ∧
    (∀ (b : BundleHdr) (e : Entry) (g : EmbTable), s.lit = true → s.embTable? b.table = some g →
      Gives (.migrateRows b [e]) s (fun u => StoresKept s u ∧ RunsKept s u ∧ u.emb.maps = s.emb.maps ∧
        (∀ n i, ¬ (n = b.table ∧ i = e.id) → u.row? n i = s.row? n i) ∧
        (∀ r, s.row? b.table e.id = some r → u.row? b.table e.id =
          if r.version < e.version then some ⟨b.table, e.id, e.version, e.scale, e.row, false, 0⟩ else some r) ∧
        (s.row? b.table e.id = none → u.row? b.table e.id =
          if s.sliceFull g e.id then none else some ⟨b.table, e.id, e.version, e.scale, e.row, false, 0⟩))) ∧
    (∀ (b : BundleHdr) (m : Mig) (last : W64), s.lit = true →
      s.emb.migs.find? (fun m => m.peer == b.source && m.phase == .streaming && m.unacked.contains (b.table, last)) = some m →
      (m.unacked = [(b.table, last)] → Gives (.migrateAck b last) s (fun u => ∃ v : State, u = s.holdFlash v.settleAll ∧
        (∀ q ∈ v.emb.migs, q.slot = m.slot → q.phase = .forwarding ∧ q.cutoverAt = s.now) ∧ v.emb.rows = s.emb.rows)) ∧
      (∀ i l, m.unacked = (b.table, last) :: i :: l → Gives (.migrateAck b last) s (fun u => ∃ v : State, u = s.holdFlash v.settleAll ∧
        v.emb.migs = updWhere (fun q => q.slot == m.slot)
          (fun _ => { m with unacked := i :: l, sent := min m.total (m.sent + 1) }) s.emb.migs ∧ v.emb.maps = s.emb.maps))) ∧
    (∀ (b : BundleHdr) (pos : Nat) (d : BitVec 20) (version : W32), s.lit = true →
      (version ≤ s.mapVersion b.table → d = s.self ∨ (b.table, pos, b.source) ∉ s.emb.incoming →
        exec (.mapUpdate b pos d version) s = .next (s.holdFlash ((s.takeInbox 0x01 b.source).settleAll))) ∧
      (version ≤ s.mapVersion b.table → d ≠ s.self → (b.table, pos, b.source) ∈ s.emb.incoming →
        Gives (.mapUpdate b pos d version) s (fun u => ∃ v : State, u = s.holdFlash v.settleAll ∧ v.rowsAt b.table pos = [] ∧
          (b.table, pos, b.source) ∉ v.emb.incoming ∧ v.emb.maps = s.emb.maps)) ∧
      (∀ m, s.map? b.table = some m → m.version < version → pos < m.devices.length →
        Gives (.mapUpdate b pos d version) s (fun u => ∃ v : State, u = s.holdFlash v.settleAll ∧ v.ownerAt b.table pos = d ∧
          v.mapVersion b.table = version ∧ (s.emb.rounds = [] → d ≠ s.self ∨ b.source = s.ownerAt b.table pos → v.emb.rows = s.emb.rows)))) ∧
    (∀ (k : Fin 8), ((∀ m ∈ s.emb.migs, m.slot ≠ k.val) →
        exec (.forwardingEnd k) s = .next s ∧ exec (.migrateFree k) s = .next s ∧ exec (.migrationTimeout k) s = .next s) ∧
      ∀ m, s.emb.migs.find? (fun m => m.slot == k.val) = some m →
        let rest := s.emb.migs.filter (fun m => m.slot != k.val)
        (m.phase = .forwarding → m.roundsAtCutover + 2 ≤ s.emb.roundsDone →
            m.cutoverAt + s.fget F.EMB_HOT_CTL_FORWARD_MIN_US * 1000 ≤ s.now →
          Gives (.forwardingEnd k) s (fun u => u.emb = { s.emb with
              migs := updWhere (fun q => q.slot == k.val) (fun q => { q with phase := .redirecting }) s.emb.migs } ∧ u.regs = s.regs ∧
            StoresKept s u ∧ RunsKept s u)) ∧
        (m.phase ≠ .forwarding ∨ s.emb.roundsDone < m.roundsAtCutover + 2 ∨
            s.now < m.cutoverAt + s.fget F.EMB_HOT_CTL_FORWARD_MIN_US * 1000 → exec (.forwardingEnd k) s = .next s) ∧
        (m.phase = .redirecting → Gives (.migrateFree k) s (fun u => u.emb.migs = rest ∧ u.rowsAt m.map m.position = [] ∧
          (∀ r ∈ s.emb.rows, r ∉ s.rowsAt m.map m.position → r ∈ u.emb.rows) ∧ u.regs = s.regs ∧ StoresKept s u ∧ RunsKept s u)) ∧
        (m.phase ≠ .redirecting → exec (.migrateFree k) s = .next s) ∧
        (m.phase = .streaming → m.startedAt + 100 * s.fget F.EMB_CTL_ROUND_DEFAULT * 1000 ≤ s.now →
          Gives (.migrationTimeout k) s (fun u => u.emb = { s.emb with migs := rest } ∧ (m.peer ∈ s.tth.gone → u.regs = s.regs) ∧ StoresKept s u ∧ RunsKept s u)) ∧
        (m.phase ≠ .streaming ∨ s.now < m.startedAt + 100 * s.fget F.EMB_CTL_ROUND_DEFAULT * 1000 →
          exec (.migrationTimeout k) s = .next s))

/-- Rows and markers of another device reach the run they name. END_OF_BUILD and PARTITION_ROWS for a run that is not
active here change nothing and wait; for an active run END_OF_BUILD marks its sender once in the build it names;
PARTITION_ROWS of a JOIN_PROBE stage become one chunk of that stage's input queue with as many rows as came, under the
next ordinal; the runs then settle. Fuses, flash and image are kept. (spec/04_vault_operators.md R112,
spec/04_vault_operators.md R119, spec/04_vault_operators.md R116) -/
def Obligations.RowsOfOtherDevices : Prop :=
  ∀ (s : State) (b : BundleHdr),
    (s.runByNumber b.run = none → exec (.endOfBuild b) s = .next (s.holdFlash s.settleAll) ∧
      ∀ stage rows, exec (.partitionRows b stage rows) s = .next (s.holdFlash s.settleAll)) ∧
    (∀ r, s.runByNumber b.run = some r →
      Gives (.endOfBuild b) s (fun u => u.fuses = s.fuses ∧ u.flash = s.flash ∧ ∃ v : State, u = s.holdFlash v.settleAll ∧
        v.runs = s.runs ∧ v.mem = s.mem ∧
        (∀ j, s.build? r.slot b.part = some j → ∃ j', v.build? r.slot b.part = some j' ∧ b.source ∈ j'.markersFrom ∧ j'.rows = j.rows ∧
          (b.source ∈ j.markersFrom → j' = j))) ∧
      (∀ stage rows, Gives (.partitionRows b stage rows) s (fun u => u.fuses = s.fuses ∧ u.flash = s.flash ∧ u.image = s.image)) ∧
      (∀ (stage : Nat) (rows : List (List (List Byte × Bool × Bool))) (st : StageRec) (q : Nat), s.stage? r.slot stage = some st →
        st.op = .joinProbe → st.inQ.head? = some q →
        Gives (.partitionRows b stage rows) s (fun u => u.fuses = s.fuses ∧ u.flash = s.flash ∧ ∃ v : State, u = s.holdFlash v.settleAll ∧
          v.runs = s.runs ∧ v.mem = s.mem ∧ ∃ c : Chunk, c.rows.n = rows.length ∧ v.disp =
            (s.modCtx r.slot q (fun x => { x with
              nextOrd := x.nextOrd + 1
              rel := x.rel ++ [⟨0, x.nextOrd, 0, [QItem.chunk { c with ordinal := x.nextOrd, sub := 0 }], true, false, false, none⟩] })).disp)))

/-- Row operators pass on the chunk that their parameters say. For a RUNNING task of FILTER, HASH, BUCKET, NORMALISE,
STATS or PROJECT whose columns are read and hold no poison: FILTER adds the selection column of its program, HASH the
hash column, BUCKET the index column, NORMALISE its normalised columns, STATS leaves the rows and folds them into its
partials, PROJECT keeps the selected rows and columns and passes on no chunk when none is selected; a poisoned column
fails the task with OPERAND_POISON; a command for a task that does not run that operator changes nothing but what
settles, and while a vault that an operator needs does not serve, nothing of its step has happened.
(spec/04_vault_operators.md R81, spec/04_vault_operators.md R86, spec/04_vault_operators.md R89,
spec/04_vault_operators.md R95, spec/04_vault_operators.md R96, spec/04_vault_operators.md R101,
spec/04_vault_operators.md R109, spec/12_dispatcher.md R301, spec/18_faults_and_redundancy.md R431) -/
def Obligations.RowOperators : Prop :=
  ∀ (s : State) (task : Nat),
    (∀ c ∈ operators task, s.runningTask task c.2.1 = none → exec c.1 s = .next (s.holdFlash (Unblocked s).settleAll)) ∧
    (∀ c ∈ operators task, (c.2.2 (Unblocked s)).power.blocked = true → ∃ woken idle, exec c.1 s =
      .next (s.holdFlash ({ s with power := { s.power with waking := woken, idleSince := idle } } : State).settleAll)) ∧
    (∀ (t : Task) (st : StageRec) (p : Pipeline) (r : Run) (rows : Rows) (a : State),
      let counted := a.bump F.VLT_OPS_ROWS_ROWS t.chunk.vault rows.n
      let good (reads : List Nat) : Prop := (rows.pick reads).any Column.poisoned = false
      let whole (b : Chunk) (out : Rows) (u : State) : Prop := ∃ v : State,
        PassesOn s u v t [{ b.withRows out with inCore := decide (colBytes out.cols ≤ s.fget F.VLT_OPS_CTL_CORE_CHUNK * 1024) }] ∧
        v.disp.tasks = s.disp.tasks ∧ v.disp.ctxs = s.disp.ctxs ∧ v.runs = s.runs ∧ v.image = s.image
      let poisoned (u : State) : Prop := FailsWith s u counted t st.op C.OPERAND_POISON
      (s.runningTask task .filter = some (t, st, p, r) →
        let g := filterProg s.pipeBytes r st.param
        let reads := g.cols.filter (· != 0xFF)
        Reads (s.pairProject t st p) r t reads rows a →
          (good reads → Gives (.filter task) s (whole t.chunk (rows.put ⟨g.out, tBool, 0, 0,
            (List.range rows.n).map (fun i => boolCell (selectRow g (g.cols.map (colAt rows.cols)) i))⟩))) ∧
          (¬ good reads → Gives (.filter task) s poisoned)) ∧
      (s.runningTask task .hash = some (t, st, p, r) →
        let reads := (colList (slice 16 8 st.param)).take (u8 st.param 2)
        let crc := u8 st.param 0 = 1
        Reads s r t reads rows a →
          (good reads → Gives (.hash task) s (whole t.chunk (rows.put
            ⟨u8 st.param 1, if crc then tUint32 else tUint64, 0, 0, (List.range rows.n).map (fun i =>
              match rowKey (rows.pick reads) (bitAt (u8 st.param 3) 0) i with
              | none => ⟨false, zeros (if crc then 4 else 8), false⟩
              | some k => ⟨true, natLe (if crc then 4 else 8)
                  (hashKey (u8 st.param 0) (BitVec.ofNat 64 (u64 st.param 8)) k), false⟩)⟩))) ∧
          (¬ good reads → Gives (.hash task) s poisoned)) ∧
      (∀ c idx w, s.runningTask task .bucket = some (t, st, p, r) → (u8 st.param 0 = 2 → s.mstTab? (u64 st.param 8 % 16) = none) →
        Reads s r t [u8 st.param 1] rows a →
          (good [u8 st.param 1] → colAt rows.cols (u8 st.param 1) = some c →
            counted.bucketIndices t st.param c (c.cells.map (nanNull c)) = .ok (idx, w) → w.power.blocked = false →
            Gives (.bucket task) s (whole t.chunk (rows.put (bucketColumn st.param (c.cells.map (nanNull c)) idx)))) ∧
          (¬ good [u8 st.param 1] → Gives (.bucket task) s poisoned)) ∧
      (∀ out w, s.runningTask task .normalise = some (t, st, p, r) →
        let slots := (List.range 4).filter (fun i => u8 st.param i != 0xFF)
        let reads := slots.map (u8 st.param)
        Reads s r t reads rows a →
          (good reads → counted.normAll t st.param rows slots = .ok (out, w) → w.power.blocked = false →
            Gives (.normalise task) s (whole t.chunk out)) ∧
          (¬ good reads → Gives (.normalise task) s poisoned)) ∧
      (s.runningTask task .stats = some (t, st, p, r) →
        let reads := (colList (slice 0 8 st.param)).eraseDups
        Reads s r t reads rows a →
          (good reads → Gives (.stats task) s (fun u => whole t.chunk rows u ∧ ∃ v : State,
            PassesOn s u v t [{ t.chunk.withRows rows with
              inCore := decide (colBytes rows.cols ≤ s.fget F.VLT_OPS_CTL_CORE_CHUNK * 1024) }] ∧
            v.work = (a.modWork t.slot (fun k => { k with
              parts := foldStats k.parts t.stage t.chunk.vault (u16 st.param 10) (u8 st.param 8) (rows.pick reads) rows.n })).work)) ∧
          (¬ good reads → Gives (.stats task) s poisoned)) ∧
      (s.runningTask task .project = some (t, st, p, r) →
        let keep := bitList 64 (u64 st.param 8)
        let reads := if u8 st.param 0 = 0xFF then [] else [u8 st.param 0]
        let picked := match colAt rows.cols (u8 st.param 0) with
          | some c => (List.range rows.n).filter (fun i => (c.cell i).valid && leNat (c.cell i).bytes == 1)
          | none => List.range rows.n
        Reads s r t (reads ++ keep) rows a →
          (good reads → picked ≠ [] → Gives (.project task) s (whole { t.chunk with sources := pickSources picked t.chunk }
            ⟨pickRows picked (rows.pick keep), picked.length, none⟩)) ∧
          (good reads → picked = [] → Gives (.project task) s (fun u => PassesOn s u counted t [])) ∧
          (¬ good reads → Gives (.project task) s poisoned)))

/-- Partitions, joins, dictionary joins and merged statistics. For a RUNNING task whose columns are read and hold no
poison: PARTITION over VAULTS passes on the chunks of rows placed by their hash; a JOIN_BUILD within the device enters
every row whose key is not null in its table and passes nothing on, or fails with JOIN_SPACE; a JOIN_PROBE passes on
the joined rows; a DICT_JOIN passes on the rows that its kind keeps, or no chunk; a poisoned key fails the task with
OPERAND_POISON. STATS_MERGE writes the records of a STATS stage that has ended and marks it done, once.
(spec/04_vault_operators.md R112, spec/04_vault_operators.md R115, spec/04_vault_operators.md R116,
spec/04_vault_operators.md R120, spec/04_vault_operators.md R124, spec/04_vault_operators.md R101) -/
def Obligations.JoinOperators : Prop :=
  ∀ (s : State) (task : Nat) (t : Task) (st : StageRec) (p : Pipeline) (r : Run) (rows : Rows) (a : State),
    let b := a.bump F.VLT_OPS_ROWS_ROWS t.chunk.vault rows.n
    let good (reads : List Nat) : Prop := (rows.pick reads).any Column.poisoned = false
    let par := st.param
    let poisoned (u : State) : Prop := FailsWith s u b t st.op C.OPERAND_POISON
    (s.runningTask task .partition = some (t, st, p, r) →
      let keys := colList (slice 0 8 par)
      Reads s r t (keys ++ t.chunk.rows.present) rows a →
        (good keys → u8 par 9 ≠ 1 →
          let placed := b.placeAll (placedChunks t.chunk rows.cols (u8 par 8) ((List.range rows.n).map (fun i =>
            let h := rowHash (rows.pick keys) (bitAt (u8 par 10) 0) (BitVec.ofNat 64 (u64 par 16)) i
            (i, (match h with | some k => bucketOf 2 k 192 | none => 0), h))))
          Gives (.partition task) s (fun u => PassesOn s u placed.2 t placed.1)) ∧
        (¬ good keys → Gives (.partition task) s poisoned)) ∧
    (∀ full v, s.runningTask task .joinBuild = some (t, st, p, r) →
      let keys := colList (slice 0 4 par)
      let payload := colList (slice 4 8 par)
      let places := (List.range rows.n).filterMap (fun i =>
        (rowHash (rows.pick keys) false (BitVec.ofNat 64 (u64 par 24)) i).map (fun h => (i, bucketOf 2 h 192)))
      Reads s r t (keys ++ payload) rows a →
        (good keys → u16 par 14 = 0xFFFF →
          b.insertBuild t.slot t.stage st (buildRows (rows.pick keys) (rows.pick payload) places) = (full, v) → v.power.blocked = false →
          (full = none → Gives (.joinBuild task) s (fun u => PassesOn s u v t [])) ∧
          (∀ vault, full = some vault → Gives (.joinBuild task) s (fun u =>
            u = s.holdFlash (((v.joinSpace vault).failTask t C.JOIN_SPACE).settleAll)))) ∧
        (¬ good keys → Gives (.joinBuild task) s poisoned)) ∧
    (∀ bst outs v, s.runningTask task .joinProbe = some (t, st, p, r) →
      let keys := colList (slice 4 4 par)
      Reads s r t (keys ++ t.chunk.rows.present) rows a →
        (good keys → p.stages[u8 par 1]? = some bst → u16 bst.param 14 = 0xFFFF → outs.length ≤ 65536 →
          b.probeRows ((s.build? t.slot (u8 par 1)).getD (JoinBuild.empty (u8 par 1))) (u8 par 0) (BitVec.ofNat 64 (u64 bst.param 24))
            (rows.pick keys) none (List.range rows.n) = (outs, v) → outs ≠ [] → v.power.blocked = false →
          Gives (.joinProbe task) s (fun u => ∃ c : Chunk, PassesOn s u (v.placeAll [c]).2 t (v.placeAll [c]).1 ∧ c.rows.n = outs.length ∧
            c.sources = pickSources (outs.map (·.1)) t.chunk ∧ c.vault = t.chunk.vault)) ∧
        (¬ good keys → Gives (.joinProbe task) s poisoned)) ∧
    (∀ m, s.runningTask task .dictJoin = some (t, st, p, r) → s.mstTab? (u8 par 0) = some m →
      let keys := (colList (slice 4 4 par)).take (u8 par 2)
      let keyed := (List.range rows.n).map (rowKey (rows.pick keys) false)
      (s.askingOf t.id = none → Reads s r t (keys ++ t.chunk.rows.present) rows a →
        (¬ good keys → Gives (.dictJoin task) s poisoned) ∧
        (good keys → (∃ k ∈ keyed, k.isSome = true) → Gives (.dictJoin task) s (fun u => u = s.holdFlash ((b.ask
          ⟨t.id, t.home / 16, m.t, keyed.filterMap (Option.map searchKey), 0, [], false, t.chunk.withRows rows⟩).settleAll)))) ∧
      (∀ q, s.askingOf t.id = some q → Reads s r { t with chunk := q.chunk } (keys ++ t.chunk.rows.present) rows a → good keys →
        (q.done = false → Gives (.dictJoin task) s (fun u => u = s.holdFlash a.settleAll)) ∧
        (q.done = true → q.hits.any Hit.poison = true → Gives (.dictJoin task) s (fun u =>
          FailsWith s u (a.dropAsking t.id) t st.op C.OPERAND_POISON)) ∧
        (q.done = true → q.hits.any Hit.poison = false →
          let hits := dealHits keyed q.hits
          let kept := (List.range rows.n).filter (fun i => joinKeeps (u8 par 1) ((hits.getD i none).any Hit.hit))
          (kept = [] → Gives (.dictJoin task) s (fun u => ∃ v : State, PassesOn s u v t [] ∧ v.runs = a.runs)) ∧
          (kept ≠ [] → Gives (.dictJoin task) s (fun u => ∃ (c : Chunk) (v : State), PassesOn s u v t [c] ∧ c.rows.n = kept.length ∧
            c.sources = pickSources kept t.chunk ∧ v.disp = a.disp ∧ v.runs = a.runs))))) ∧
    (∀ (k stage : Fin 64) (q : Run) (pl : Pipeline), s.run? k = some q → s.pipelineOf k = some pl →
      let due := q.state = .running ∧ (s.ended q.slot pl).contains stage.val = true ∧
        (s.workOf q.slot).statsDone.contains stage.val = false ∧ ((pl.stages[stage.val]?).map StageRec.op) = some .stats
      let v := (Unblocked s).mergeStats q.slot stage
      (due → q.slot ∈ s.work.map RunWork.slot → v.power.blocked = false →
        Gives (.statsMerge k stage) s (fun u => u = s.holdFlash v.settleAll ∧ (v.workOf q.slot).statsDone.contains stage.val = true ∧
          v.runs.length = s.runs.length ∧ v.disp = s.disp)) ∧
      (¬ due → exec (.statsMerge k stage) s = .next (s.holdFlash (Unblocked s).settleAll)))

/-- Tables, tensors, ids, compressed values, samples and models. For a RUNNING task: SCAN passes its range on when the
table fits its schema, else fails with SCHEMA_MISMATCH; a GATHER whose indices are good passes its chunk on with the
picked slices, written where it has an output; an index fault or a poisoned index fails GATHER, and SCATTER of good
indices passes its chunk on; LOOKUP and UPDATE hand their ids over once; COMPRESS and DECOMPRESS replace a column's
values by their jobs' results or fail with a job's code; a text DECODE passes on its record or its LOST marker; a
PYRAMID passes on its levels or its sample is lost as SIZE; a MODEL passes on the output batch of its graph or fails
with its node's code. (spec/04_vault_operators.md R83, spec/04_vault_operators.md R128, spec/06_tensor_layout.md R169,
spec/06_tensor_layout.md R170, spec/06_tensor_layout.md R172, spec/09_embedding_pool.md R231,
spec/09_embedding_pool.md R236, spec/10_compression.md R259, spec/10_compression.md R267,
spec/05_ingest_and_batching.md R132, spec/05_ingest_and_batching.md R135, spec/11_matrix_and_numerics.md R288) -/
def Obligations.TensorOperators : Prop :=
  ∀ (s : State) (task : Nat) (t : Task) (st : StageRec) (p : Pipeline) (r : Run),
    let par := st.param
    (∀ q tab sch n a, s.runningTask task .scan = some (t, st, p, r) → t.chunk.rows.rest = some q →
      s.tableOf r q.arg = some tab → s.schema? q.schema = some sch → (Unblocked s).sliceRows tab t.chunk.vault = (n, a) →
      a.power.blocked = false →
      (tableFits tab sch n = true → Gives (.scan task) s (fun u => PassesOn s u
        (a.modRun t.slot (fun r => { r with rowsIn := r.rowsIn + t.chunk.rows.n })) t [t.chunk])) ∧
      (tableFits tab sch n = false → Gives (.scan task) s (fun u => FailsWith s u a t st.op C.SCHEMA_MISMATCH))) ∧
    (∀ data is a, s.runningTask task .gather = some (t, st, p, r) → s.seat t.slot (u16 par 0) t.home = some data →
      u16 par 4 = 0xFFFF → (Unblocked s).readIndices t r (u16 par 2) (u8 par 12) (u32 par 8) = .ok (is, a) → a.power.blocked = false →
      let picks := is.map (resolveIndex (policyOf par data.d) (data.d.ext (u8 par 6)))
      (picks.contains .fault = false → ∀ bs v, (((a.countPicks t.home picks).bump F.LAY_COMBINE_SAVED t.home
          (savedFetches picks)).event 0x401 t.home (savedFetches picks)).gatherRun t data none (u8 par 6) picks = .ok (some bs, v) →
        v.power.blocked = false →
        Gives (.gather task) s (fun u => PassesOn s u v t [{ t.chunk with tensor := some ⟨data.d.typ, bs⟩ }])) ∧
      (picks.contains .fault = true → Gives (.gather task) s (fun u =>
        u = s.holdFlash ((a.failTask t C.INDEX_FAULT).settleAll)))) ∧
    (∀ dest is a v, s.runningTask task .scatter = some (t, st, p, r) → s.seat t.slot (u16 par 0) t.home = some dest →
      u16 par 4 = 0xFFFF → (u16 par 2 = 0xFFFF ∨ ∃ ix, s.seat t.slot (u16 par 2) t.home = some ix ∧ dest.overlaps ix = false) →
      (Unblocked s).readIndices t r (u16 par 2) (u8 par 12) (u32 par 8) = .ok (is, a) →
      let picks := is.map (resolveIndex (policyOf par dest.d) (dest.d.ext (u8 par 6)))
      picks.contains .fault = false →
      State.scatterWindows none ((t.chunk.tensor.map FreshTensor.bytes).getD []) dest (u8 par 13) (u8 par 6) picks.length t.home
        (windows ((List.range picks.length).zip picks)) (a.countPicks t.home picks) = .ok v → v.power.blocked = false →
      Gives (.scatter task) s (fun u => PassesOn s u v t [t.chunk])) ∧
    (∀ c ∈ [(Instr.lookup task, Op.lookup), (.update task, .update)], s.runningTask task c.2 = some (t, st, p, r) →
      (t.taken = true → exec c.1 s = .next (s.holdFlash (Unblocked s).settleAll)) ∧
      (∀ code, t.taken = false → (Unblocked s).contribution t r st c.2 = .error code →
        Gives c.1 s (fun u => u = s.holdFlash (((Unblocked s).failTask t code).settleAll))) ∧
      (∀ ids vs v, t.taken = false → (Unblocked s).contribution t r st c.2 = .ok (ids, vs, v) → v.power.blocked = false →
        Gives c.1 s (fun u => u = s.holdFlash ((v.takeContribution t ids vs).settleAll)))) ∧
    (∀ c ∈ [(Instr.compress task, Op.compress, u8 par 2, u8 par 3, ([] : List Nat),
          fun (_ : Rows) (s : State) (_ : Nat) (x : CellV) => s.compressJob par t.slot (t.chunk.vault / 16) x),
        (.decompress task, .decompress, u8 par 1, u8 par 2, if u8 par 3 = 0xFF then [] else [u8 par 3],
          fun rows s row x => s.decompressJob par t.slot (t.chunk.vault / 16) x (expectedSize rows (u8 par 3) row))],
      ∀ rows a x, s.runningTask task c.2.1 = some (t, st, p, r) → Reads s r t (c.2.2.1 :: c.2.2.2.2.1) rows a →
        colAt rows.cols c.2.2.1 = some x →
        (∀ cells v, State.jobs (c.2.2.2.2.2 rows) a 0 x.cells = (.ok cells, v) → v.power.blocked = false →
          Gives c.1 s (fun u => cells.length = x.cells.length ∧ PassesOn s u v t
            ((t.chunk.withRows (rows.put ⟨c.2.2.2.1, tBinary, 0, 0, cells⟩)).cut
              (cutSizes (cells.map (fun x => x.bytes.length)) 0 0) 0))) ∧
        (∀ code v, State.jobs (c.2.2.2.2.2 rows) a 0 x.cells = (.error code, v) → v.power.blocked = false →
          Gives c.1 s (fun u => u = s.holdFlash ((v.failTask t code).settleAll)))) ∧
    (∀ sch bytes poison, s.runningTask task .decode = some (t, st, p, r) →
      (decPar par).format = 2 ∨ (decPar par).format = 3 → s.schema? (decPar par).schema = some sch → t.chunk.payload = .raw bytes poison →
      let a := ((Unblocked s).takeUp t).bump F.PAT_ENG_BYTES_BYTES (t.stream.elim (t.chunk.vault / 16) Prod.fst) (bytes.getD []).length
      Gives (.decode task) s (fun u => u = s.holdFlash
        ((match textRecord sch (s.automaton? (decPar par).automaton) (decPar par) bytes poison with
          | .error w => a.loseTask t (t.chunk.sources.headD 0) w
          | .ok cols => a.endSample t st p [t.chunk.withRows ⟨cols, 1, none⟩]).settleAll))) ∧
    (∀ px, s.runningTask task .pyramid = some (t, st, p, r) → t.chunk.payload = .image px →
      let norm := (List.range 7).map (fun i => u32 s.pipeBytes ((pyrPar par).normOff + 4 * i))
      let a : State := { Unblocked s with free := s.free + pyramidDraws (pyrPar par) px }
      Gives (.pyramid task) s (fun u =>
        (∀ ts, pyramidOf s.free (pyrPar par) norm px = some ts →
          u = s.holdFlash ((a.endSample t st p [{ t.chunk with payload := .levels ts }]).settleAll)) ∧
        (pyramidOf s.free (pyrPar par) norm px = none →
          u = s.holdFlash ((a.loseTask t (t.chunk.sources.headD 0) .size).settleAll)))) ∧
    (∀ g b lin lout, s.runningTask task .model = some (t, st, p, r) → s.graph? (modelPar par).graph = some g → t.chunk.payload = .batch b →
      s.layout? g.inLayout = some lin → s.layout? g.outLayout = some lout →
      let cores := if t.cores.isEmpty then [t.home] else t.cores
      (∀ e c, (Unblocked s).copyAll t.slot t.home g.copies = .error (e, c) → Gives (.model task) s (fun u =>
        u = s.holdFlash (((Unblocked s).copyFail t (modelPar par).graph c e).settleAll))) ∧
      (∀ a, (Unblocked s).copyAll t.slot t.home g.copies = .ok a →
        let ran := a.runGroup t.slot (!a.isResident p.number t.stage) g cores b.slots.length
          (fun k => (b.slots[k]?.map (fun x => x.kind.masked)).getD false) (inputEnv g lin b) cores
        (∀ envs v, ran = (.ok envs, v) → v.power.blocked = false → Gives (.model task) s (fun u =>
          PassesOn s u { v with free := v.free + 64 * b.slots.length } t
            [{ t.chunk with payload := .batch (outBatch g envs ⟨cores, b.slots.length, t.home⟩ v.free lout b) }])) ∧
        (∀ code n c v, ran = (.error (code, n, c), v) → v.power.blocked = false → Gives (.model task) s (fun u =>
          u = s.holdFlash ((v.modelFail t c (modelPar par).graph n code).settleAll)))))

/-- Batches fill and close, rings publish, frames are admitted, streams wait. BATCH and EMIT wait for the earlier tasks of
their stage; an EMIT with room publishes its batch and counts it, one without room waits; READ_INDEX never falls and
never passes WRITE_INDEX, and a value beyond that is reported; a batch timeout does nothing before its time; a frame
for a bound stream is admitted and numbered, one for no run is counted; a straggler at its limit is deferred or
abandoned and within it is not; a blocked stream is suspended after its time, and resumed on a free stream when the
ring has room. (spec/05_ingest_and_batching.md R139, spec/05_ingest_and_batching.md R140,
spec/05_ingest_and_batching.md R141, spec/05_ingest_and_batching.md R142, spec/05_ingest_and_batching.md R145,
spec/03_pipelines.md R72, spec/03_pipelines.md R73, spec/08_pattern_engines.md R207, spec/08_pattern_engines.md R213) -/
def Obligations.BatchesAndStreams : Prop :=
  ∀ (s : State),
    (∀ task t st p r, s.runningTask task .batch = some (t, st, p, r) →
      (s.firstOfStage t = false → exec (.batch task) s = .next (s.holdFlash (Unblocked s).settleAll)) ∧
      (∀ lay levels cs v, s.firstOfStage t = true → s.layout? (u16 st.param 0) = some lay → t.chunk.payload = .levels levels →
        (Unblocked s).offer t.slot t.stage t.chunk.flow t.chunk.vault st t.id t.readyAt
          ((Unblocked s).sampleSlot (batchPar st.param) t.chunk) = (cs, v) → v.power.blocked = false →
        Gives (.batch task) s (fun u => u = s.holdFlash ((v.endBatch t st cs).settleAll))) ∧
      (∀ lay rows a cs v, s.firstOfStage t = true → s.layout? (u16 st.param 0) = some lay → (∃ x y z, t.chunk.payload = .rows x y z) →
        Reads s r t (bitList 64 allColumns) rows a → a.batchRows t st rows lay = (cs, v) → v.power.blocked = false →
        Gives (.batch task) s (fun u => u = s.holdFlash ((v.endBatch t st cs).settleAll)))) ∧
    (∀ task t st p r b g lay, s.runningTask task .emit = some (t, st, p, r) → t.chunk.payload = .batch b →
      r.ring? (u8 st.param 0) = some g → s.layout? b.layout = some lay →
      let at_ := g.slot0 + BitVec.ofNat 64 (g.writeIndex % g.count * g.size)
      let waits := s.disp.publishing.any (fun e => e.task == some task)
      (s.firstOfStage t = false ∨ r.state ≠ .running ∨ waits = true ∨ g.room = false →
        exec (.emit task) s = .next (s.holdFlash (Unblocked s).settleAll)) ∧
      (∀ stands v, s.firstOfStage t = true → r.state = .running → waits = false → g.room = true →
        (Unblocked s).ringPublish t.slot g (b.bytes lay s.free g.writeIndex r.run at_.toNat) (some task) = .ok (stands, v) →
        v.power.blocked = false →
        (stands = true → Gives (.emit task) s (fun u => PassesOn s u (({ v with free := v.free + 1 } : State).modRun t.slot (fun r =>
          { r with rowsOut := r.rowsOut + b.valid, replaced := r.replaced + b.replaced, batches := r.batches + 1 })) t [])) ∧
        (stands = false → Gives (.emit task) s (fun u => u = s.holdFlash (({ v with free := v.free + 1 } : State).settleAll) ∧
          ∃ e ∈ v.disp.publishing, e.task = some task ∧ e.seq = g.writeIndex))) ∧
      (∀ code, s.firstOfStage t = true → r.state = .running → waits = false → g.room = true →
        (Unblocked s).ringPublish t.slot g (b.bytes lay s.free g.writeIndex r.run at_.toNat) (some task) = .error code →
        Gives (.emit task) s (fun u => u = s.holdFlash (((Unblocked s).failTask t code).settleAll)))) ∧
    (∀ (k arg : Fin 64) (value : W64) (poison : Bool) (g : Ring), (s.run? k).bind (fun r => r.ring? arg.val) = some g →
      (poison = true ∨ value.toNat < g.readIndex → exec (.readIndexUpdate k arg value poison) s = .next (s.holdFlash s.settleAll)) ∧
      (poison = false → g.readIndex ≤ value.toNat → value.toNat ≤ g.writeIndex → exec (.readIndexUpdate k arg value poison) s =
        .next (s.holdFlash ((s.putRing k { g with readIndex := value.toNat }).settleAll))) ∧
      (poison = false → g.readIndex ≤ value.toNat → g.writeIndex < value.toNat → exec (.readIndexUpdate k arg value poison) s =
        .next (s.holdFlash (((s.putRing k { g with readIndex := g.writeIndex }).attn C.READ_INDEX_AHEAD
          [g.ctl.toNat, value.toNat, g.writeIndex]).settleAll)))) ∧
    (∀ (k stage : Fin 64) (st : StageRec) (p : Pipeline), s.stage? k stage = some st → s.pipelineOf k = some p →
      (st.op ≠ .batch ∨ s.running k = false ∨ (batchPar st.param).timeout = 0 ∨
          (∀ b ∈ (s.workOf k).opens, ∀ t0, b.firstAt = some t0 → s.now < t0 + (batchPar st.param).timeout * 1000) →
        exec (.batchTimeout k stage) s = .next (s.holdFlash s.settleAll)) ∧
      (∀ b t0, st.op = .batch → s.running k = true → (batchPar st.param).timeout ≠ 0 → (s.workOf k).opens = [b] → b.firstAt = some t0 →
        b.stage = stage.val → p.isOrdered b.flow = false → t0 + (batchPar st.param).timeout * 1000 ≤ s.now →
        Gives (.batchTimeout k stage) s (fun u => ∃ (cs : List Chunk) (v : State),
          s.closeBatch k stage b.flow 0 st .timeout 0 = (cs, v) ∧ u = s.holdFlash ((v.putBatches k st cs).settleAll)))) ∧
    (∀ (f : Frame),
      (s.lit = false ∨ s.boundTo f.hdr.stream = none → exec (.admission f) s = .next (s.holdFlash s.settleAll)) ∧
      (s.lit = false ∨ (s.boundTo f.hdr.stream).isSome = true → exec (.frameNoRun f) s = .next s) ∧
      (s.lit = true → s.boundTo f.hdr.stream = none → exec (.frameNoRun f) s =
        .next ((s.takeFrame f.hdr.stream).bump F.ING_STREAM_COUNT_NO_RUN f.hdr.stream 1)) ∧
      (∀ r n last stage st a, s.lit = true → s.boundTo f.hdr.stream = some (r, n, last) →
        s.streamStage r f.hdr.stream = some (stage, st, a) → s.running r.slot = true →
        Gives (.admission f) s (fun u => ∃ v : State, u = s.holdFlash v.settleAll ∧
          (frameLoss f s.meridian (s.staleLimit a) = none → v.runs = (s.modRun r.slot (fun r => { r with
              rowsIn := r.rowsIn + 1
              streams := updWhere (fun e => e.1 == f.hdr.stream) (fun e => (e.1, n + 1, some f.hdr.frameSeq)) r.streams })).runs ∧
            ∃ c : Chunk, c.payload = .frame f ∧ c.ordinal = n % 2 ^ 32 ∧
              c.vault = s.frameVault n ∧ v.work = (s.modWork r.slot (fun w => { w with
                sourcesLeft := w.sourcesLeft ++ [(stage, .chunk c)] })).work) ∧
          (∀ why, frameLoss f s.meridian (s.staleLimit a) = some why → ∃ w : State, v.work = (w.modWork r.slot (fun w => { w with
              sourcesLeft := w.sourcesLeft ++ [(stage, .hole st.outFlow n 0 (.lost n why))] })).work ∧ v.mem = s.mem)))) ∧
    (∀ task, s.sampleTask task = none → exec (.stragglerDefer task) s = .next (s.holdFlash s.settleAll) ∧
      exec (.stragglerAbandon task) s = .next (s.holdFlash (Unblocked s).settleAll)) ∧
    (∀ task t st p, s.sampleTask task = some (t, st, p) →
      ((s.limit t st p).1 = .defer → exec (.stragglerDefer task) s = .next (s.holdFlash ((s.putTask { t with deferred := true }).settleAll))) ∧
      ((s.limit t st p).1 ≠ .defer → exec (.stragglerDefer task) s = .next (s.holdFlash s.settleAll)) ∧
      ((s.limit t st p).1 ≠ .abandon → exec (.stragglerAbandon task) s = .next (s.holdFlash (Unblocked s).settleAll)) ∧
      (∀ l, s.limit t st p = (.abandon, l) → st.op ≠ .parse → Gives (.stragglerAbandon task) s (fun u =>
        u = s.holdFlash (((Unblocked s).abandonTask t st p l (t.chunk.sources.headD 0)).settleAll)))) ∧
    (∀ task t st p r a c i x bytes poison v, s.runningTask task .parse = some (t, st, p, r) → (s.limit t st p).1 ≠ .abandon →
      s.automaton? (parsePar st.param).automaton = some a → t.stream = some (c, i) →
      (Unblocked s).inputOf t r (parsePar st.param).column = .ok (bytes, poison, v) → s.patOf task = some x → x.stream.isSome = true →
      ((Unblocked s).parseGo t st p (parsePar st.param) a (bytes.getD []) x).power.blocked = false →
      Gives (.parse task) s (fun u =>
        u = s.holdFlash (((Unblocked s).parseGo t st p (parsePar st.param) a (bytes.getD []) x).settleAll))) ∧
    (∀ (c : Fin 12) (i : Fin 16) x t r p g b, s.pat.find? (fun x => x.cluster == c.val && x.stream == some i.val) = some x →
      s.patRing x = some (t, r, p, g) → x.blockedAt = some b →
      (g.room = true ∨ s.now < b + s.suspendNs p ∨ 64 ≤ s.suspended c → exec (.streamSuspend c i) s = .next (s.holdFlash s.settleAll)) ∧
      (g.room = false → b + s.suspendNs p ≤ s.now → s.suspended c < 64 → Gives (.streamSuspend c i) s (fun u => ∃ v : State,
        u = s.holdFlash v.settleAll ∧ v.pat = (s.putPat { x with stream := none }).pat ∧
        v.disp = (s.putTask { t with units := t.units.filter (· != unitStream c i) }).disp ∧
        v.regs = (s.bump F.PAT_ENG_COUNT_SUSPENSIONS c 1).regs ∧ v.runs = s.runs))) ∧
    (∀ (c : Fin 12) task x t r p g i, s.patOf task = some x → s.patRing x = some (t, r, p, g) → s.freeStream c = some i →
      (x.stream.isSome = true ∨ x.cluster ≠ c.val ∨ g.room = false → exec (.streamResume c task) s = .next (s.holdFlash (Unblocked s).settleAll)) ∧
      (∀ v, x.stream = none → x.cluster = c.val → g.room = true →
        v = parse task (((Unblocked s).putPat { x with stream := some i }).putTask { t with units := t.units ++ [unitStream c i] }) →
        v.power.blocked = false → Gives (.streamResume c task) s (fun u => u = s.holdFlash v.settleAll)))

/-- The dispatcher sends one task, ends cancelled ones, and keeps its census and logbook. In LIT TASK_DISPATCH sends the
first ready task that may go to a free unit: it is RUNNING there since now; with no ready task nothing but settling
happens; the cancel cycle of a run drops every task of it that is not RUNNING, empties its queues and stops the
others; TASK_STOP stops a RUNNING task that was told to and has not handed its contribution over; weights of a graph
in use become resident once; a census window closes at its end and not before, and one that only waits for its start
publishes nothing; a LOG_ENABLE that keeps the logbook's settings is accepted; a Keeper's release takes an engine out
of quarantine with its count at 0. (spec/12_dispatcher.md R303, spec/12_dispatcher.md R304, spec/12_dispatcher.md
R310, spec/12_dispatcher.md R311, spec/12_dispatcher.md R314, spec/12_dispatcher.md R315,
spec/11_matrix_and_numerics.md R291, spec/10_compression.md R261) -/
def Obligations.DispatcherCommands : Prop :=
  ∀ (s : State),
    (s.lit = false → exec .taskDispatch s = .next s) ∧
    (s.lit = true → s.settleAll.readyTasks = [] → exec .taskDispatch s = .next (s.holdFlash s.settleAll)) ∧
    (∀ t rest st p r w, s.lit = true → s.settleAll.triedTasks = t :: rest → s.settleAll.goable t = some (st, p, r) →
      s.settleAll.wayNow t st = some w → Gives .taskDispatch s (fun u =>
        (∃ x, u.task? t.id = some x ∧ x.state = .running ∧ x.sentAt = s.settleAll.now ∧ x.units = w.units ∧ x.core = w.core ∧ x.chunk = t.chunk) ∧
        u.disp.tasks.length = s.settleAll.disp.tasks.length ∧ u.runs = s.settleAll.runs)) ∧
    (∀ (k : Fin 64),
      (∀ r, s.run? k = some r → r.cancelDue = true → Gives (.cancelApply k) s (fun u => ∃ v : State,
        u = s.holdFlash ((v.settle r.slot).settleAll) ∧
        (∀ t, t ∈ v.disp.tasks → t.slot = r.slot → t.state = .running ∧ t.stop = true) ∧
        (∀ c ∈ v.disp.ctxs, c.slot = r.slot → c.items = [] ∧ c.rel = []) ∧
        (∀ q, v.run? k = some q → q.cancelDue = false))) ∧
      ((∀ r, s.run? k = some r → r.cancelDue = false) → exec (.cancelApply k) s = .next (s.holdFlash s.settleAll))) ∧
    (∀ task,
      (∀ t, s.task? task = some t → t.stop = true → t.state = .running → t.taken = false →
        exec (.taskStop task) s = .next (s.holdFlash (((s.stopTask t).settle t.slot).settleAll)) ∧ (s.stopTask t).task? t.id = none) ∧
      ((∀ t, s.task? task = some t → t.stop = false ∨ t.state ≠ .running ∨ t.taken = true) →
        exec (.taskStop task) s = .next (s.holdFlash s.settleAll))) ∧
    (∀ graph : Fin 256,
      (∀ im g, s.lit = true → s.image = some im → s.graph? graph = some g → s.loaded graph = false → s.graphUsed graph = true →
        Gives (.weightLoad graph) s (fun u => ∃ v : State, u = s.holdFlash v.settleAll ∧ v.runs = s.runs ∧ v.disp = s.disp ∧
          ∃ data, v.resident = s.resident ++ [⟨graph.val, im.residentCores (s.fget F.MTX_CTL_WEIGHT_KIB) graph.val, data⟩])) ∧
      (s.lit = false ∨ s.loaded graph = true ∨ s.graphUsed graph = false ∨ s.image = none →
        exec (.weightLoad graph) s = .next (s.holdFlash s.settleAll))) ∧
    (s.lit = true → s.gov.windowEnd ≤ s.meridian → Gives .censusWindow s (fun u => u.gov.busy = [] ∧ u.gov.censusTasks = [] ∧
      u.gov.windowStart = s.now ∧ u.gov.windowWaits = false ∧ u.outbox = s.outbox ∧ u.odn = s.odn ∧ StoresKept s u ∧ RunsKept s u ∧
      (s.gov.windowWaits = true → u.regs = s.regs) ∧
      (RegsOrdered s → s.gov.windowWaits = false → s.gov.windowStart < s.now → ∀ n, n < 192 →
        s.units.lostClusters.contains (n / 16) = false → s.units.orphans.contains n = false → u.fget F.DSP_CENSUS_LOAD_TASKS n = min 0xFFFFFFFF (lookupD 0 s.gov.censusTasks n)))) ∧
    (s.lit = false ∨ s.meridian < s.gov.windowEnd → exec .censusWindow s = .next s) ∧
    (∀ (h : Hdr) (z : Session), Accepted s h z → z.role = .keeper →
      let t := s.taken h 24 z
      (∀ value : W64, (regDef .DSP_LOG_CTL).writeRefusal .DSP_LOG_CTL true value = none → t.power.state ≠ .bivouac →
        let new := (regDef .DSP_LOG_CTL).written true (s.raw .DSP_LOG_CTL 0 0) value
        (s.logRefusal .DSP_LOG_CTL (s.raw .DSP_LOG_CTL 0 0) new = false → Gives (.logEnable h value) s (fun u =>
          (RegsOrdered s → u.raw .DSP_LOG_CTL 0 0 = new) ∧ Responds t u h tyWriteReg C.OK (natLe 4 1 ++ zeros 4) ∧ StoresKept s u ∧ RunsKept s u)) ∧
        (s.logRefusal .DSP_LOG_CTL (s.raw .DSP_LOG_CTL 0 0) new = true → Gives (.logEnable h value) s (fun u =>
          RegsKept s u [regAddr .DSP_LOG_STATUS 0 0] ∧ Responds t u h tyWriteReg C.LOG_INVALID (zeros 8) ∧ StoresKept s u ∧ RunsKept s u))) ∧
      (∀ (c : Fin 12) (e : Fin 2), t.power.state ≠ .bivouac → t.units.lostClusters.contains c.val = false → s.runs = [] → RegsOrdered s →
        s.fget2 F.CMP_ENG_STATUS_QUARANTINED c e = 1 →
        Gives (.engineRelease h c e) s (fun u => u.fget2 F.CMP_ENG_STATUS_VERIFY_FAILS c e = 0 ∧ (c.val, e.val) ∉ u.units.cmpOut ∧
          Answers u h tyWriteReg C.OK (natLe 4 1 ++ zeros 4) ∧ StoresKept s u)))

/-- Each vault operator completes on columns at hand that hold no poison. A RUNNING task whose chunk has all its columns
at hand, none of those it reads poisoned, ends and passes on the rows its operator makes: SCAN over a table that is no
hash table and fits its schema; FILTER, HASH, STATS and PROJECT always; BUCKET by boundaries, by hash, by a record
already read, and by range classes once its searches are answered; NORMALISE whose columns need no record or have read
theirs; PARTITION over the vaults; JOIN_BUILD within the device in a slice of the stated size; JOIN_PROBE within the
device of a flow that is not ORDERED; DICT_JOIN, which asks first and ends once it is answered. STATS_MERGE of an
ended stage completes when no vault waits. (spec/04_vault_operators.md R83, spec/04_vault_operators.md R86,
spec/04_vault_operators.md R89, spec/04_vault_operators.md R95, spec/04_vault_operators.md R96,
spec/04_vault_operators.md R99, spec/04_vault_operators.md R109, spec/04_vault_operators.md R112,
spec/04_vault_operators.md R116, spec/04_vault_operators.md R120, spec/04_vault_operators.md R124,
spec/04_vault_operators.md R101) -/
def Obligations.RowStepsComplete : Prop :=
  ∀ (s : State) (task : Nat) (t : Task) (st : StageRec) (p : Pipeline) (r : Run),
    let par := st.param
    let rows := t.chunk.rows
    let counted := (Unblocked s).bump F.VLT_OPS_ROWS_ROWS t.chunk.vault rows.n
    let good (reads : List Nat) : Prop := (rows.pick reads).any Column.poisoned = false
    let record (key : Nat) : Option (Nat × List Byte) := (s.workOf t.slot).statsRead.find? (fun e => e.1 == t.stage * 8 + key)
    (∀ q tab sch, s.runningTask task .scan = some (t, st, p, r) → rows.rest = some q → s.tableOf r q.arg = some tab →
      s.schema? q.schema = some sch → tab.region.kind ≠ .vaultHash →
      tableFits tab sch (if tab.region.kind = .vaultRange then shareRows tab.b t.chunk.vault else tab.b) = true →
      Gives (.scan task) s (fun u => PassesOn s u
        ((Unblocked s).modRun t.slot (fun r => { r with rowsIn := r.rowsIn + rows.n })) t [t.chunk])) ∧
    (AtHand s task .filter t st p r →
      let g := filterProg s.pipeBytes r par
      good (g.cols.filter (· != 0xFF)) → Gives (.filter task) s (fun u => PlacesOn s u
        (((Unblocked s).pairProject t st p).bump F.VLT_OPS_ROWS_ROWS t.chunk.vault rows.n) t (t.chunk.withRows
          (rows.put ⟨g.out, tBool, 0, 0, (List.range rows.n).map (fun i => boolCell (selectRow g (g.cols.map (colAt rows.cols)) i))⟩)))) ∧
    (AtHand s task .hash t st p r →
      let reads := (colList (slice 16 8 par)).take (u8 par 2)
      let crc := u8 par 0 = 1
      good reads → Gives (.hash task) s (fun u => PlacesOn s u counted t (t.chunk.withRows (rows.put
        ⟨u8 par 1, if crc then tUint32 else tUint64, 0, 0, (List.range rows.n).map (fun i =>
          match rowKey (rows.pick reads) (bitAt (u8 par 3) 0) i with
          | none => ⟨false, zeros (if crc then 4 else 8), false⟩
          | some k => ⟨true, natLe (if crc then 4 else 8) (hashKey (u8 par 0) (BitVec.ofNat 64 (u64 par 8)) k), false⟩)⟩)))) ∧
    (∀ c, AtHand s task .bucket t st p r → colAt rows.cols (u8 par 1) = some c → good [u8 par 1] →
      let cells := c.cells.map (nanNull c)
      (u8 par 0 ≤ 1 ∨ (u8 par 0 = 3 ∧ u8 par 26 = 0xFF ∧ ∃ e, record 0 = some e ∧
          bitAt (statRecOf e.2).measures 2 = true ∧ (statRecOf e.2).kind = statKind c.typ) →
        Gives (.bucket task) s (fun u => ∃ idx, counted.bucketIndices t par c cells = .ok (idx, counted) ∧
          PlacesOn s u counted t (t.chunk.withRows (rows.put (bucketColumn par cells idx))))) ∧
      (∀ m, u8 par 0 = 2 → s.mstTab? (u64 par 8 % 16) = some m → s.askingOf t.id = none → (∃ x ∈ cells, x.valid = true) →
        Gives (.bucket task) s (fun u => u = s.holdFlash ((counted.ask ⟨t.id, t.home / 16, m.t,
          (cells.filter CellV.valid).map (fun x => searchKey x.bytes), 0, [], false, t.chunk.withRows rows⟩).settleAll)))) ∧
    (∀ c m q, s.runningTask task .bucket = some (t, st, p, r) → u8 par 0 = 2 → s.mstTab? (u64 par 8 % 16) = some m →
      s.askingOf t.id = some q → q.done = true → q.hits.any Hit.poison = false → q.chunk.rows.rest = none →
      colAt q.chunk.rows.cols (u8 par 1) = some c → (q.chunk.rows.pick [u8 par 1]).any Column.poisoned = false →
      let cells := c.cells.map (nanNull c)
      let hits := dealHits (cells.map (fun x => if x.valid then some x else none)) q.hits
      Gives (.bucket task) s (fun u => PlacesOn s u (((Unblocked s).dropAsking t.id).bump F.VLT_OPS_EXC_RANGE_NOMATCH t.chunk.vault
          (hits.countP (fun h => h.any (fun x => !x.hit)))) t (t.chunk.withRows (q.chunk.rows.put (bucketColumn par cells
            (hits.map (fun h => h.bind (fun x => if x.hit then some (x.result.toNat % 2 ^ 32) else none)))))))) ∧
    (AtHand s task .normalise t st p r →
      let slots := (List.range 4).filter (fun i => u8 par i != 0xFF)
      good (slots.map (u8 par)) →
      (∀ i ∈ slots, normNeeds (u8 par (8 + i)) = [] ∨ (u8 par 14 = 0xFF ∧ ∃ e, record i = some e ∧ (statRecOf e.2).kind ≤ 2 ∧
        ∀ b ∈ normNeeds (u8 par (8 + i)), bitAt (statRecOf e.2).measures b = true)) →
      Gives (.normalise task) s (fun u => ∃ out v, counted.normAll t par rows slots = .ok (out, v) ∧
        PlacesOn s u v t (t.chunk.withRows out))) ∧
    (AtHand s task .stats t st p r →
      let reads := (colList (slice 0 8 par)).eraseDups
      good reads → Gives (.stats task) s (fun u => ∃ bad, PlacesOn s u
        ((counted.bump F.VLT_OPS_EXC_NONFINITE t.chunk.vault bad).modWork t.slot (fun k => { k with
          parts := foldStats k.parts t.stage t.chunk.vault (u16 par 10) (u8 par 8) (rows.pick reads) rows.n }))
        t (t.chunk.withRows rows))) ∧
    (AtHand s task .project t st p r →
      let keep := bitList 64 (u64 par 8)
      let picked := match colAt rows.cols (u8 par 0) with
        | some c => (List.range rows.n).filter (fun i => (c.cell i).valid && leNat (c.cell i).bytes == 1)
        | none => List.range rows.n
      good (if u8 par 0 = 0xFF then [] else [u8 par 0]) →
        (picked = [] → Gives (.project task) s (fun u => PassesOn s u counted t [])) ∧
        (picked ≠ [] → Gives (.project task) s (fun u => PlacesOn s u counted t
          ({ t.chunk with sources := pickSources picked t.chunk }.withRows ⟨pickRows picked (rows.pick keep), picked.length, none⟩)))) ∧
    (AtHand s task .partition t st p r →
      let keys := colList (slice 0 8 par)
      good keys → u8 par 9 ≠ 1 →
        let placed := counted.placeAll (placedChunks t.chunk rows.cols (u8 par 8) ((List.range rows.n).map (fun i =>
          let h := rowHash (rows.pick keys) (bitAt (u8 par 10) 0) (BitVec.ofNat 64 (u64 par 16)) i
          (i, (match h with | some k => bucketOf 2 k 192 | none => 0), h))))
        Gives (.partition task) s (fun u => PassesOn s u placed.2 t placed.1)) ∧
    (AtHand s task .joinBuild t st p r →
      let keys := colList (slice 0 4 par)
      let payload := colList (slice 4 8 par)
      let new := buildRows (rows.pick keys) (rows.pick payload) ((List.range rows.n).filterMap (fun i =>
        (rowHash (rows.pick keys) false (BitVec.ofNat 64 (u64 par 24)) i).map (fun h => (i, bucketOf 2 h 192))))
      let all := ((s.build? t.slot t.stage).getD (JoinBuild.empty t.stage)).rows ++ new
      good keys → u16 par 14 = 0xFFFF →
      (∀ v, let n := all.countP (fun x => x.vault == v)
        64 * 2 ^ joinBuckets (u64 par 16) + joinRowBytes (s.colsIn t.slot t.stage) keys payload * n + 64 * ceilDiv n 8 ≤
          ((s.region? (u16 par 12)).map Region.size).getD 0) →
      Gives (.joinBuild task) s (fun u => ∃ v, counted.insertBuild t.slot t.stage st new = (none, v) ∧ PassesOn s u v t [])) ∧
    (∀ bst, AtHand s task .joinProbe t st p r → p.stages[u8 par 1]? = some bst → u16 bst.param 14 = 0xFFFF →
      let keys := colList (slice 4 4 par)
      good keys → p.isOrdered t.chunk.flow = false → p.isOrdered (st.flowOf t.chunk.flow) = false →
        let x := counted.probeRows ((s.build? t.slot (u8 par 1)).getD (JoinBuild.empty (u8 par 1))) (u8 par 0)
          (BitVec.ofNat 64 (u64 bst.param 24)) (rows.pick keys) none (List.range rows.n)
        Gives (.joinProbe task) s (fun u => ∃ cs : List Chunk, PassesOn s u (x.2.placeAll cs).2 t (x.2.placeAll cs).1 ∧
          cs.flatMap Chunk.sources = pickSources (x.1.map (·.1)) t.chunk ∧ ∀ c ∈ cs, c.rows.n = c.sources.length ∧ c.rows.n ≤ 65536)) ∧
    (∀ m, AtHand s task .dictJoin t st p r → s.mstTab? (u8 par 0) = some m → s.askingOf t.id = none →
      let keys := (colList (slice 4 4 par)).take (u8 par 2)
      let keyed := (List.range rows.n).map (rowKey (rows.pick keys) false)
      good keys → (∃ k ∈ keyed, k.isSome = true) → Gives (.dictJoin task) s (fun u => u = s.holdFlash ((counted.ask
        ⟨t.id, t.home / 16, m.t, keyed.filterMap (Option.map searchKey), 0, [], false, t.chunk.withRows rows⟩).settleAll))) ∧
    (∀ m q, s.runningTask task .dictJoin = some (t, st, p, r) → s.mstTab? (u8 par 0) = some m → s.askingOf t.id = some q →
      q.done = true → q.hits.any Hit.poison = false → q.chunk.rows.rest = none →
      let keys := (colList (slice 4 4 par)).take (u8 par 2)
      (q.chunk.rows.pick keys).any Column.poisoned = false →
        let hits := dealHits ((List.range q.chunk.rows.n).map (rowKey (q.chunk.rows.pick keys) false)) q.hits
        let kept := (List.range q.chunk.rows.n).filter (fun i => joinKeeps (u8 par 1) ((hits.getD i none).any Hit.hit))
        Gives (.dictJoin task) s (fun u => ∃ (cs : List Chunk) (v : State), PassesOn s u v t cs ∧ v.runs = s.runs ∧
          cs.map Chunk.sources = if kept = [] then [] else [pickSources kept t.chunk])) ∧
    (∀ (k stage : Fin 64) (q : Run) (pl : Pipeline), s.run? k = some q → s.pipelineOf k = some pl → q.state = .running →
      (s.ended q.slot pl).contains stage.val = true → (s.workOf q.slot).statsDone.contains stage.val = false →
      ((pl.stages[stage.val]?).map StageRec.op) = some .stats → NoneWaits s →
      Gives (.statsMerge k stage) s (fun u => u = s.holdFlash (((Unblocked s).mergeStats q.slot stage).settleAll)))

/-- The tensor, embedding, compression and model steps complete on operands at hand. A RUNNING task completes: GATHER of a
tensor in a core store by an index column at hand without poison whose indices give no fault, into a fresh buffer or a
core-store tensor of the slices' shape that it does not overlap; SCATTER into a core-store tensor, in every mode;
LOOKUP and UPDATE of an id column at hand, and values of the chunk's tensor, hand both over; COMPRESS and DECOMPRESS
without dictionaries end with the jobs' results or fail with a job's code; MODEL of a graph without copies and bags,
whose weights are none or resident and good, runs its nodes and passes its batch on. (spec/06_tensor_layout.md R169,
spec/06_tensor_layout.md R171, spec/06_tensor_layout.md R172, spec/09_embedding_pool.md R231,
spec/09_embedding_pool.md R236, spec/10_compression.md R259, spec/10_compression.md R263, spec/10_compression.md R267,
spec/11_matrix_and_numerics.md R283, spec/11_matrix_and_numerics.md R288, spec/11_matrix_and_numerics.md R290) -/
def Obligations.TensorStepsComplete : Prop :=
  ∀ (s : State) (task : Nat) (t : Task) (st : StageRec) (p : Pipeline) (r : Run),
    let par := st.param
    let rows := t.chunk.rows
    let indices (c : Column) : List Int :=
      let all := c.cells.map (fun x => toSigned (8 * x.bytes.length) (leNat x.bytes))
      if u32 par 8 = 0 then all else all.take (u32 par 8)
    (∀ data c out, AtHand s task .gather t st p r → s.seat t.slot (u16 par 0) t.home = some data → data.region = none →
      u16 par 2 = 0xFFFF → colAt rows.cols (u8 par 12) = some c → c.poisoned = false →
      out = (if u16 par 4 = 0xFFFF then none else s.seat t.slot (u16 par 4) t.home) →
      let picks := (indices c).map (resolveIndex (policyOf par data.d) (data.d.ext (u8 par 6)))
      picks.contains .fault = false →
      (∀ o, out = some o → o.region = none ∧ data.overlaps o = false ∧ slicesFit data.d o.d (u8 par 6) picks.length = true) →
      Gives (.gather task) s (fun u => ∃ bs v, (((((Unblocked s).countPicks t.home picks).bump F.LAY_COMBINE_SAVED t.home
          (savedFetches picks)).event 0x401 t.home (savedFetches picks)).gatherRun t data out (u8 par 6) picks) = .ok (bs, v) ∧
        (out = none ↔ bs.isSome = true) ∧
        PassesOn s u v t [match bs with | some b => { t.chunk with tensor := some ⟨data.d.typ, b⟩ } | none => t.chunk])) ∧
    (∀ dest c, AtHand s task .scatter t st p r → s.seat t.slot (u16 par 0) t.home = some dest → dest.region = none →
      u16 par 2 = 0xFFFF → u16 par 4 = 0xFFFF → colAt rows.cols (u8 par 12) = some c → c.poisoned = false →
      let picks := (indices c).map (resolveIndex (policyOf par dest.d) (dest.d.ext (u8 par 6)))
      picks.contains .fault = false →
      Gives (.scatter task) s (fun u => ∃ v, State.scatterWindows none ((t.chunk.tensor.map FreshTensor.bytes).getD []) dest
          (u8 par 13) (u8 par 6) picks.length t.home (windows ((List.range picks.length).zip picks))
          ((Unblocked s).countPicks t.home picks) = .ok v ∧ v.mem = s.mem ∧ PassesOn s u v t [t.chunk])) ∧
    (∀ c, AtHand s task .lookup t st p r → t.taken = false → u8 par 1 ≠ 0xFF → colAt rows.cols (u8 par 1) = some c →
      c.poisoned = false → Gives (.lookup task) s (fun u =>
        u = s.holdFlash (((Unblocked s).takeContribution t (columnIds c) []).settleAll))) ∧
    (∀ c x, AtHand s task .update t st p r → t.taken = false → u8 par 1 ≠ 0xFF → colAt rows.cols (u8 par 1) = some c →
      c.poisoned = false → u16 par 4 = 0xFFFF → t.chunk.tensor = some x → x.bytes.any (·.2) = false →
      let dim := ((s.embTable? (u8 par 0)).map EmbTable.dim).getD 0
      let words := (unpack (elemBits x.typ) (x.bytes.map (·.1))).map (toFp32 x.typ)
      Gives (.update task) s (fun u => u = s.holdFlash (((Unblocked s).takeContribution t (columnIds c)
        (chunksOf dim ((columnIds c).length + 1) words)).settleAll))) ∧
    (∀ x, s.dicts = [] → ∀ c ∈ [(Instr.compress task, Op.compress, u8 par 2, u8 par 3,
          fun (s : State) (_ : Nat) (x : CellV) => s.compressJob par t.slot (t.chunk.vault / 16) x),
        (.decompress task, .decompress, u8 par 1, u8 par 2,
          fun s row x => s.decompressJob par t.slot (t.chunk.vault / 16) x (expectedSize rows (u8 par 3) row))],
      AtHand s task c.2.1 t st p r → colAt rows.cols c.2.2.1 = some x →
      Gives c.1 s (fun u => ∃ res v, State.jobs c.2.2.2.2 (Unblocked s) 0 x.cells = (res, v) ∧
        (∀ cells, res = .ok cells → cells.length = x.cells.length ∧ PassesOn s u v t
          ((t.chunk.withRows (rows.put ⟨c.2.2.2.1, tBinary, 0, 0, cells⟩)).cut (cutSizes (cells.map (fun x => x.bytes.length)) 0 0) 0)) ∧
        (∀ code, res = .error code → u = s.holdFlash ((v.failTask t code).settleAll)))) ∧
    (∀ g b lin lout, s.runningTask task .model = some (t, st, p, r) → s.graph? (modelPar par).graph = some g → t.chunk.payload = .batch b →
      s.layout? g.inLayout = some lin → s.layout? g.outLayout = some lout → g.copies = [] →
      (∀ n ∈ g.nodes, n.op < 0x40 ∨ 0x42 < n.op) →
      (∀ x ∈ g.tensors, x.kind = 2 → s.isResident p.number t.stage = true ∧ ∀ m, (m = x.desc ∨ (m = x.scale ∧ m ≠ 0xFFFF)) →
        ∃ k old, (((s.resident.find? (·.graph == g.number)).map Resident.data).getD []).find? (·.1 == m) = some (k, old) ∧
          old.any (·.2) = false) →
      let cores := if t.cores.isEmpty then [t.home] else t.cores
      Gives (.model task) s (fun u => ∃ envs v, (Unblocked s).runGroup t.slot (!s.isResident p.number t.stage) g cores b.slots.length
          (fun k => (b.slots[k]?.map (fun x => x.kind.masked)).getD false) (inputEnv g lin b) cores = (.ok envs, v) ∧
        PassesOn s u { v with free := v.free + 64 * b.slots.length } t
          [{ t.chunk with payload := .batch (outBatch g envs ⟨cores, b.slots.length, t.home⟩ v.free lout b) }]))

/-- Samples are decoded, parsed, batched and emitted. A RUNNING task completes: DECODE of a RAW live frame within
MAX_BYTES and without poison passes its image on or loses it; PARSE of an input in which no pattern matches passes on
its row and writes no record; BATCH of the first task of its stage places its levels, or its rows at hand, and ends;
EMIT with room in a ring of this device whose memory serves publishes its batch and counts it; a suspended stream with
room goes on with its PARSE when no vault waits. (spec/05_ingest_and_batching.md R131, spec/05_ingest_and_batching.md
R132, spec/05_ingest_and_batching.md R141, spec/05_ingest_and_batching.md R142, spec/03_pipelines.md R67,
spec/03_pipelines.md R72, spec/08_pattern_engines.md R207, spec/08_pattern_engines.md R210, spec/08_pattern_engines.md
R213, spec/08_pattern_engines.md R215) -/
def Obligations.SampleStepsComplete : Prop :=
  ∀ (s : State) (task : Nat) (t : Task) (st : StageRec) (p : Pipeline) (r : Run),
    (∀ f, s.runningTask task .decode = some (t, st, p, r) → 3 < (decPar st.param).format → t.chunk.payload = .frame f →
      f.hdr.format ≠ 3 → f.hdr.format ≠ 4 → f.payload.length ≤ (decPar st.param).maxBytes → f.poison = false →
      Gives (.decode task) s (fun u => u = s.holdFlash (((Unblocked s).imageEnd t st p
        (decodeRaw f.hdr.width f.hdr.height f.hdr.format (decPar st.param).maxW (decPar st.param).maxH f.payload)).settleAll))) ∧
    (∀ a c i bs, s.runningTask task .parse = some (t, st, p, r) → (s.limit t st p).1 ≠ .abandon →
      s.automaton? (parsePar st.param).automaton = some a → t.stream = some (c, i) → t.chunk.payload = .raw (some bs) false →
      s.patOf task = none → s.askingOf task = none → (parsePar st.param).prefilter = false → (parsePar st.param).format ≠ 1 →
      (parsePar st.param).endMarkers = false → bs.length ≤ (parsePar st.param).maxBytes → a.scanFrom bs 0 0 noTags = [] →
      let outs := if (parsePar st.param).out = 0xFF ∨ st.outQ.isEmpty then []
        else [parseRow t (parsePar st.param) (t.chunk.sources.headD 0) 0 0xFFFF]
      Gives (.parse task) s (fun u => ∃ v : State, u = s.holdFlash ((v.endSample t st p outs).settleAll) ∧ v.mem = s.mem ∧
        v.runs = (s.takeUp t).runs ∧ v.disp = s.disp)) ∧
    (∀ lay, s.runningTask task .batch = some (t, st, p, r) → s.firstOfStage t = true → s.layout? (u16 st.param 0) = some lay →
      (∀ levels, t.chunk.payload = .levels levels →
        let x := (Unblocked s).offer t.slot t.stage t.chunk.flow t.chunk.vault st t.id t.readyAt
          ((Unblocked s).sampleSlot (batchPar st.param) t.chunk)
        Gives (.batch task) s (fun u => u = s.holdFlash ((x.2.endBatch t st x.1).settleAll))) ∧
      (∀ cols n, t.chunk.payload = .rows cols n none →
        let x := (Unblocked s).batchRows t st ⟨cols, n, none⟩ lay
        Gives (.batch task) s (fun u => u = s.holdFlash ((x.2.endBatch t st x.1).settleAll)))) ∧
    (∀ b g lay, s.runningTask task .emit = some (t, st, p, r) → s.firstOfStage t = true → r.state = .running →
      s.disp.publishing.any (fun e => e.task == some task) = false → t.chunk.payload = .batch b → r.ring? (u8 st.param 0) = some g →
      s.layout? b.layout = some lay → g.room = true → NoneWaits s →
      let at_ := g.slot0 + BitVec.ofNat 64 (g.writeIndex % g.count * g.size)
      let bs := b.bytes lay s.free g.writeIndex r.run at_.toNat
      poolDevice at_ = s.device → poolDevice g.ctl = s.device → (∃ ps, s.accessCheck (poolLocal at_) bs.length = .ok ps) →
      (∃ ps, s.accessCheck (poolLocal g.ctl) 8 = .ok ps) →
      Gives (.emit task) s (fun u => ∃ v, (Unblocked s).ringPublish t.slot g bs (some task) = .ok (true, v) ∧
        PassesOn s u (({ v with free := v.free + 1 } : State).modRun t.slot (fun r => { r with
          rowsOut := r.rowsOut + b.valid, replaced := r.replaced + b.replaced, batches := r.batches + 1 })) t [])) ∧
    (∀ (c : Fin 12) x y g i, s.patOf task = some x → s.patRing x = some (t, r, y, g) → s.freeStream c = some i → x.stream = none →
      x.cluster = c.val → g.room = true → NoneWaits s →
      Gives (.streamResume c task) s (fun u => u = s.holdFlash ((parse task (((Unblocked s).putPat { x with stream := some i }).putTask
        { t with units := t.units ++ [unitStream c i] })).settleAll)))
end

