-- ==== Sys2Proof/Laws/State.lean ====
section
/-!
SUPPORT. The fields of the state that each plain update leaves as they are, one lemma per field per update.
-/
namespace Sys2Proof.Machine
open Sys2Proof

@[simp] theorem State.setRaw_pending (s : State) (id : RegId) (i j : Nat) (w : W64) :
    (s.setRaw id i j w).pending = s.pending := rfl
@[simp] theorem State.setRaw_free (s : State) (id : RegId) (i j : Nat) (w : W64) :
    (s.setRaw id i j w).free = s.free := rfl
@[simp] theorem State.setRaw_mem (s : State) (id : RegId) (i j : Nat) (w : W64) :
    (s.setRaw id i j w).mem = s.mem := rfl
@[simp] theorem State.setRaw_core (s : State) (id : RegId) (i j : Nat) (w : W64) :
    (s.setRaw id i j w).core = s.core := rfl
@[simp] theorem State.setRaw_side (s : State) (id : RegId) (i j : Nat) (w : W64) :
    (s.setRaw id i j w).side = s.side := rfl
@[simp] theorem State.setRaw_clock (s : State) (id : RegId) (i j : Nat) (w : W64) :
    (s.setRaw id i j w).clock = s.clock := rfl
@[simp] theorem State.setRaw_power (s : State) (id : RegId) (i j : Nat) (w : W64) :
    (s.setRaw id i j w).power = s.power := rfl
@[simp] theorem State.setRaw_fuses (s : State) (id : RegId) (i j : Nat) (w : W64) :
    (s.setRaw id i j w).fuses = s.fuses := rfl
@[simp] theorem State.setRaw_flash (s : State) (id : RegId) (i j : Nat) (w : W64) :
    (s.setRaw id i j w).flash = s.flash := rfl
@[simp] theorem State.setRaw_trust (s : State) (id : RegId) (i j : Nat) (w : W64) :
    (s.setRaw id i j w).trust = s.trust := rfl
@[simp] theorem State.setRaw_image (s : State) (id : RegId) (i j : Nat) (w : W64) :
    (s.setRaw id i j w).image = s.image := rfl
@[simp] theorem State.setRaw_odn (s : State) (id : RegId) (i j : Nat) (w : W64) :
    (s.setRaw id i j w).odn = s.odn := rfl
@[simp] theorem State.setRaw_runs (s : State) (id : RegId) (i j : Nat) (w : W64) :
    (s.setRaw id i j w).runs = s.runs := rfl
@[simp] theorem State.setRaw_work (s : State) (id : RegId) (i j : Nat) (w : W64) :
    (s.setRaw id i j w).work = s.work := rfl
@[simp] theorem State.setRaw_runDescs (s : State) (id : RegId) (i j : Nat) (w : W64) :
    (s.setRaw id i j w).runDescs = s.runDescs := rfl
@[simp] theorem State.setRaw_heldRegions (s : State) (id : RegId) (i j : Nat) (w : W64) :
    (s.setRaw id i j w).heldRegions = s.heldRegions := rfl
@[simp] theorem State.setRaw_resident (s : State) (id : RegId) (i j : Nat) (w : W64) :
    (s.setRaw id i j w).resident = s.resident := rfl
@[simp] theorem State.setRaw_disp (s : State) (id : RegId) (i j : Nat) (w : W64) :
    (s.setRaw id i j w).disp = s.disp := rfl
@[simp] theorem State.setRaw_emb (s : State) (id : RegId) (i j : Nat) (w : W64) :
    (s.setRaw id i j w).emb = s.emb := rfl
@[simp] theorem State.setRaw_mst (s : State) (id : RegId) (i j : Nat) (w : W64) :
    (s.setRaw id i j w).mst = s.mst := rfl
@[simp] theorem State.setRaw_pat (s : State) (id : RegId) (i j : Nat) (w : W64) :
    (s.setRaw id i j w).pat = s.pat := rfl
@[simp] theorem State.setRaw_tth (s : State) (id : RegId) (i j : Nat) (w : W64) :
    (s.setRaw id i j w).tth = s.tth := rfl
@[simp] theorem State.setRaw_units (s : State) (id : RegId) (i j : Nat) (w : W64) :
    (s.setRaw id i j w).units = s.units := rfl
@[simp] theorem State.setRaw_pmc (s : State) (id : RegId) (i j : Nat) (w : W64) :
    (s.setRaw id i j w).pmc = s.pmc := rfl
@[simp] theorem State.setRaw_gov (s : State) (id : RegId) (i j : Nat) (w : W64) :
    (s.setRaw id i j w).gov = s.gov := rfl
@[simp] theorem State.setRaw_mgmt (s : State) (id : RegId) (i j : Nat) (w : W64) :
    (s.setRaw id i j w).mgmt = s.mgmt := rfl
@[simp] theorem State.setRaw_flog (s : State) (id : RegId) (i j : Nat) (w : W64) :
    (s.setRaw id i j w).flog = s.flog := rfl
@[simp] theorem State.setRaw_outbox (s : State) (id : RegId) (i j : Nat) (w : W64) :
    (s.setRaw id i j w).outbox = s.outbox := rfl
@[simp] theorem State.fset2_pending (s : State) (f : FRef) (i j x : Nat) :
    (s.fset2 f i j x).pending = s.pending := rfl
@[simp] theorem State.fset2_free (s : State) (f : FRef) (i j x : Nat) :
    (s.fset2 f i j x).free = s.free := rfl
@[simp] theorem State.fset2_mem (s : State) (f : FRef) (i j x : Nat) :
    (s.fset2 f i j x).mem = s.mem := rfl
@[simp] theorem State.fset2_core (s : State) (f : FRef) (i j x : Nat) :
    (s.fset2 f i j x).core = s.core := rfl
@[simp] theorem State.fset2_side (s : State) (f : FRef) (i j x : Nat) :
    (s.fset2 f i j x).side = s.side := rfl
@[simp] theorem State.fset2_clock (s : State) (f : FRef) (i j x : Nat) :
    (s.fset2 f i j x).clock = s.clock := rfl
@[simp] theorem State.fset2_power (s : State) (f : FRef) (i j x : Nat) :
    (s.fset2 f i j x).power = s.power := rfl
@[simp] theorem State.fset2_fuses (s : State) (f : FRef) (i j x : Nat) :
    (s.fset2 f i j x).fuses = s.fuses := rfl
@[simp] theorem State.fset2_flash (s : State) (f : FRef) (i j x : Nat) :
    (s.fset2 f i j x).flash = s.flash := rfl
@[simp] theorem State.fset2_trust (s : State) (f : FRef) (i j x : Nat) :
    (s.fset2 f i j x).trust = s.trust := rfl
@[simp] theorem State.fset2_image (s : State) (f : FRef) (i j x : Nat) :
    (s.fset2 f i j x).image = s.image := rfl
@[simp] theorem State.fset2_odn (s : State) (f : FRef) (i j x : Nat) :
    (s.fset2 f i j x).odn = s.odn := rfl
@[simp] theorem State.fset2_runs (s : State) (f : FRef) (i j x : Nat) :
    (s.fset2 f i j x).runs = s.runs := rfl
@[simp] theorem State.fset2_work (s : State) (f : FRef) (i j x : Nat) :
    (s.fset2 f i j x).work = s.work := rfl
@[simp] theorem State.fset2_runDescs (s : State) (f : FRef) (i j x : Nat) :
    (s.fset2 f i j x).runDescs = s.runDescs := rfl
@[simp] theorem State.fset2_heldRegions (s : State) (f : FRef) (i j x : Nat) :
    (s.fset2 f i j x).heldRegions = s.heldRegions := rfl
@[simp] theorem State.fset2_resident (s : State) (f : FRef) (i j x : Nat) :
    (s.fset2 f i j x).resident = s.resident := rfl
@[simp] theorem State.fset2_disp (s : State) (f : FRef) (i j x : Nat) :
    (s.fset2 f i j x).disp = s.disp := rfl
@[simp] theorem State.fset2_emb (s : State) (f : FRef) (i j x : Nat) :
    (s.fset2 f i j x).emb = s.emb := rfl
@[simp] theorem State.fset2_mst (s : State) (f : FRef) (i j x : Nat) :
    (s.fset2 f i j x).mst = s.mst := rfl
@[simp] theorem State.fset2_pat (s : State) (f : FRef) (i j x : Nat) :
    (s.fset2 f i j x).pat = s.pat := rfl
@[simp] theorem State.fset2_tth (s : State) (f : FRef) (i j x : Nat) :
    (s.fset2 f i j x).tth = s.tth := rfl
@[simp] theorem State.fset2_units (s : State) (f : FRef) (i j x : Nat) :
    (s.fset2 f i j x).units = s.units := rfl
@[simp] theorem State.fset2_pmc (s : State) (f : FRef) (i j x : Nat) :
    (s.fset2 f i j x).pmc = s.pmc := rfl
@[simp] theorem State.fset2_gov (s : State) (f : FRef) (i j x : Nat) :
    (s.fset2 f i j x).gov = s.gov := rfl
@[simp] theorem State.fset2_mgmt (s : State) (f : FRef) (i j x : Nat) :
    (s.fset2 f i j x).mgmt = s.mgmt := rfl
@[simp] theorem State.fset2_flog (s : State) (f : FRef) (i j x : Nat) :
    (s.fset2 f i j x).flog = s.flog := rfl
@[simp] theorem State.fset2_outbox (s : State) (f : FRef) (i j x : Nat) :
    (s.fset2 f i j x).outbox = s.outbox := rfl
@[simp] theorem State.fset_pending (s : State) (f : FRef) (i x : Nat) :
    (s.fset f i x).pending = s.pending := rfl
@[simp] theorem State.fset_free (s : State) (f : FRef) (i x : Nat) :
    (s.fset f i x).free = s.free := rfl
@[simp] theorem State.fset_mem (s : State) (f : FRef) (i x : Nat) :
    (s.fset f i x).mem = s.mem := rfl
@[simp] theorem State.fset_core (s : State) (f : FRef) (i x : Nat) :
    (s.fset f i x).core = s.core := rfl
@[simp] theorem State.fset_side (s : State) (f : FRef) (i x : Nat) :
    (s.fset f i x).side = s.side := rfl
@[simp] theorem State.fset_clock (s : State) (f : FRef) (i x : Nat) :
    (s.fset f i x).clock = s.clock := rfl
@[simp] theorem State.fset_power (s : State) (f : FRef) (i x : Nat) :
    (s.fset f i x).power = s.power := rfl
@[simp] theorem State.fset_fuses (s : State) (f : FRef) (i x : Nat) :
    (s.fset f i x).fuses = s.fuses := rfl
@[simp] theorem State.fset_flash (s : State) (f : FRef) (i x : Nat) :
    (s.fset f i x).flash = s.flash := rfl
@[simp] theorem State.fset_trust (s : State) (f : FRef) (i x : Nat) :
    (s.fset f i x).trust = s.trust := rfl
@[simp] theorem State.fset_image (s : State) (f : FRef) (i x : Nat) :
    (s.fset f i x).image = s.image := rfl
@[simp] theorem State.fset_odn (s : State) (f : FRef) (i x : Nat) :
    (s.fset f i x).odn = s.odn := rfl
@[simp] theorem State.fset_runs (s : State) (f : FRef) (i x : Nat) :
    (s.fset f i x).runs = s.runs := rfl
@[simp] theorem State.fset_work (s : State) (f : FRef) (i x : Nat) :
    (s.fset f i x).work = s.work := rfl
@[simp] theorem State.fset_runDescs (s : State) (f : FRef) (i x : Nat) :
    (s.fset f i x).runDescs = s.runDescs := rfl
@[simp] theorem State.fset_heldRegions (s : State) (f : FRef) (i x : Nat) :
    (s.fset f i x).heldRegions = s.heldRegions := rfl
@[simp] theorem State.fset_resident (s : State) (f : FRef) (i x : Nat) :
    (s.fset f i x).resident = s.resident := rfl
@[simp] theorem State.fset_disp (s : State) (f : FRef) (i x : Nat) :
    (s.fset f i x).disp = s.disp := rfl
@[simp] theorem State.fset_emb (s : State) (f : FRef) (i x : Nat) :
    (s.fset f i x).emb = s.emb := rfl
@[simp] theorem State.fset_mst (s : State) (f : FRef) (i x : Nat) :
    (s.fset f i x).mst = s.mst := rfl
@[simp] theorem State.fset_pat (s : State) (f : FRef) (i x : Nat) :
    (s.fset f i x).pat = s.pat := rfl
@[simp] theorem State.fset_tth (s : State) (f : FRef) (i x : Nat) :
    (s.fset f i x).tth = s.tth := rfl
@[simp] theorem State.fset_units (s : State) (f : FRef) (i x : Nat) :
    (s.fset f i x).units = s.units := rfl
@[simp] theorem State.fset_pmc (s : State) (f : FRef) (i x : Nat) :
    (s.fset f i x).pmc = s.pmc := rfl
@[simp] theorem State.fset_gov (s : State) (f : FRef) (i x : Nat) :
    (s.fset f i x).gov = s.gov := rfl
@[simp] theorem State.fset_mgmt (s : State) (f : FRef) (i x : Nat) :
    (s.fset f i x).mgmt = s.mgmt := rfl
@[simp] theorem State.fset_flog (s : State) (f : FRef) (i x : Nat) :
    (s.fset f i x).flog = s.flog := rfl
@[simp] theorem State.fset_outbox (s : State) (f : FRef) (i x : Nat) :
    (s.fset f i x).outbox = s.outbox := rfl
@[simp] theorem State.bump2_pending (s : State) (f : FRef) (i j n : Nat) :
    (s.bump2 f i j n).pending = s.pending := rfl
@[simp] theorem State.bump2_free (s : State) (f : FRef) (i j n : Nat) :
    (s.bump2 f i j n).free = s.free := rfl
@[simp] theorem State.bump2_mem (s : State) (f : FRef) (i j n : Nat) :
    (s.bump2 f i j n).mem = s.mem := rfl
@[simp] theorem State.bump2_core (s : State) (f : FRef) (i j n : Nat) :
    (s.bump2 f i j n).core = s.core := rfl
@[simp] theorem State.bump2_side (s : State) (f : FRef) (i j n : Nat) :
    (s.bump2 f i j n).side = s.side := rfl
@[simp] theorem State.bump2_clock (s : State) (f : FRef) (i j n : Nat) :
    (s.bump2 f i j n).clock = s.clock := rfl
@[simp] theorem State.bump2_power (s : State) (f : FRef) (i j n : Nat) :
    (s.bump2 f i j n).power = s.power := rfl
@[simp] theorem State.bump2_fuses (s : State) (f : FRef) (i j n : Nat) :
    (s.bump2 f i j n).fuses = s.fuses := rfl
@[simp] theorem State.bump2_flash (s : State) (f : FRef) (i j n : Nat) :
    (s.bump2 f i j n).flash = s.flash := rfl
@[simp] theorem State.bump2_trust (s : State) (f : FRef) (i j n : Nat) :
    (s.bump2 f i j n).trust = s.trust := rfl
@[simp] theorem State.bump2_image (s : State) (f : FRef) (i j n : Nat) :
    (s.bump2 f i j n).image = s.image := rfl
@[simp] theorem State.bump2_odn (s : State) (f : FRef) (i j n : Nat) :
    (s.bump2 f i j n).odn = s.odn := rfl
@[simp] theorem State.bump2_runs (s : State) (f : FRef) (i j n : Nat) :
    (s.bump2 f i j n).runs = s.runs := rfl
@[simp] theorem State.bump2_work (s : State) (f : FRef) (i j n : Nat) :
    (s.bump2 f i j n).work = s.work := rfl
@[simp] theorem State.bump2_runDescs (s : State) (f : FRef) (i j n : Nat) :
    (s.bump2 f i j n).runDescs = s.runDescs := rfl
@[simp] theorem State.bump2_heldRegions (s : State) (f : FRef) (i j n : Nat) :
    (s.bump2 f i j n).heldRegions = s.heldRegions := rfl
@[simp] theorem State.bump2_resident (s : State) (f : FRef) (i j n : Nat) :
    (s.bump2 f i j n).resident = s.resident := rfl
@[simp] theorem State.bump2_disp (s : State) (f : FRef) (i j n : Nat) :
    (s.bump2 f i j n).disp = s.disp := rfl
@[simp] theorem State.bump2_emb (s : State) (f : FRef) (i j n : Nat) :
    (s.bump2 f i j n).emb = s.emb := rfl
@[simp] theorem State.bump2_mst (s : State) (f : FRef) (i j n : Nat) :
    (s.bump2 f i j n).mst = s.mst := rfl
@[simp] theorem State.bump2_pat (s : State) (f : FRef) (i j n : Nat) :
    (s.bump2 f i j n).pat = s.pat := rfl
@[simp] theorem State.bump2_tth (s : State) (f : FRef) (i j n : Nat) :
    (s.bump2 f i j n).tth = s.tth := rfl
@[simp] theorem State.bump2_units (s : State) (f : FRef) (i j n : Nat) :
    (s.bump2 f i j n).units = s.units := rfl
@[simp] theorem State.bump2_pmc (s : State) (f : FRef) (i j n : Nat) :
    (s.bump2 f i j n).pmc = s.pmc := rfl
@[simp] theorem State.bump2_gov (s : State) (f : FRef) (i j n : Nat) :
    (s.bump2 f i j n).gov = s.gov := rfl
@[simp] theorem State.bump2_mgmt (s : State) (f : FRef) (i j n : Nat) :
    (s.bump2 f i j n).mgmt = s.mgmt := rfl
@[simp] theorem State.bump2_flog (s : State) (f : FRef) (i j n : Nat) :
    (s.bump2 f i j n).flog = s.flog := rfl
@[simp] theorem State.bump2_outbox (s : State) (f : FRef) (i j n : Nat) :
    (s.bump2 f i j n).outbox = s.outbox := rfl
@[simp] theorem State.bump_pending (s : State) (f : FRef) (i n : Nat) :
    (s.bump f i n).pending = s.pending := rfl
@[simp] theorem State.bump_free (s : State) (f : FRef) (i n : Nat) :
    (s.bump f i n).free = s.free := rfl
@[simp] theorem State.bump_mem (s : State) (f : FRef) (i n : Nat) :
    (s.bump f i n).mem = s.mem := rfl
@[simp] theorem State.bump_core (s : State) (f : FRef) (i n : Nat) :
    (s.bump f i n).core = s.core := rfl
@[simp] theorem State.bump_side (s : State) (f : FRef) (i n : Nat) :
    (s.bump f i n).side = s.side := rfl
@[simp] theorem State.bump_clock (s : State) (f : FRef) (i n : Nat) :
    (s.bump f i n).clock = s.clock := rfl
@[simp] theorem State.bump_power (s : State) (f : FRef) (i n : Nat) :
    (s.bump f i n).power = s.power := rfl
@[simp] theorem State.bump_fuses (s : State) (f : FRef) (i n : Nat) :
    (s.bump f i n).fuses = s.fuses := rfl
@[simp] theorem State.bump_flash (s : State) (f : FRef) (i n : Nat) :
    (s.bump f i n).flash = s.flash := rfl
@[simp] theorem State.bump_trust (s : State) (f : FRef) (i n : Nat) :
    (s.bump f i n).trust = s.trust := rfl
@[simp] theorem State.bump_image (s : State) (f : FRef) (i n : Nat) :
    (s.bump f i n).image = s.image := rfl
@[simp] theorem State.bump_odn (s : State) (f : FRef) (i n : Nat) :
    (s.bump f i n).odn = s.odn := rfl
@[simp] theorem State.bump_runs (s : State) (f : FRef) (i n : Nat) :
    (s.bump f i n).runs = s.runs := rfl
@[simp] theorem State.bump_work (s : State) (f : FRef) (i n : Nat) :
    (s.bump f i n).work = s.work := rfl
@[simp] theorem State.bump_runDescs (s : State) (f : FRef) (i n : Nat) :
    (s.bump f i n).runDescs = s.runDescs := rfl
@[simp] theorem State.bump_heldRegions (s : State) (f : FRef) (i n : Nat) :
    (s.bump f i n).heldRegions = s.heldRegions := rfl
@[simp] theorem State.bump_resident (s : State) (f : FRef) (i n : Nat) :
    (s.bump f i n).resident = s.resident := rfl
@[simp] theorem State.bump_disp (s : State) (f : FRef) (i n : Nat) :
    (s.bump f i n).disp = s.disp := rfl
@[simp] theorem State.bump_emb (s : State) (f : FRef) (i n : Nat) :
    (s.bump f i n).emb = s.emb := rfl
@[simp] theorem State.bump_mst (s : State) (f : FRef) (i n : Nat) :
    (s.bump f i n).mst = s.mst := rfl
@[simp] theorem State.bump_pat (s : State) (f : FRef) (i n : Nat) :
    (s.bump f i n).pat = s.pat := rfl
@[simp] theorem State.bump_tth (s : State) (f : FRef) (i n : Nat) :
    (s.bump f i n).tth = s.tth := rfl
@[simp] theorem State.bump_units (s : State) (f : FRef) (i n : Nat) :
    (s.bump f i n).units = s.units := rfl
@[simp] theorem State.bump_pmc (s : State) (f : FRef) (i n : Nat) :
    (s.bump f i n).pmc = s.pmc := rfl
@[simp] theorem State.bump_gov (s : State) (f : FRef) (i n : Nat) :
    (s.bump f i n).gov = s.gov := rfl
@[simp] theorem State.bump_mgmt (s : State) (f : FRef) (i n : Nat) :
    (s.bump f i n).mgmt = s.mgmt := rfl
@[simp] theorem State.bump_flog (s : State) (f : FRef) (i n : Nat) :
    (s.bump f i n).flog = s.flog := rfl
@[simp] theorem State.bump_outbox (s : State) (f : FRef) (i n : Nat) :
    (s.bump f i n).outbox = s.outbox := rfl
@[simp] theorem State.drop_pending (s : State) (f : FRef) (i n : Nat) :
    (s.drop f i n).pending = s.pending := rfl
@[simp] theorem State.drop_free (s : State) (f : FRef) (i n : Nat) :
    (s.drop f i n).free = s.free := rfl
@[simp] theorem State.drop_mem (s : State) (f : FRef) (i n : Nat) :
    (s.drop f i n).mem = s.mem := rfl
@[simp] theorem State.drop_core (s : State) (f : FRef) (i n : Nat) :
    (s.drop f i n).core = s.core := rfl
@[simp] theorem State.drop_side (s : State) (f : FRef) (i n : Nat) :
    (s.drop f i n).side = s.side := rfl
@[simp] theorem State.drop_clock (s : State) (f : FRef) (i n : Nat) :
    (s.drop f i n).clock = s.clock := rfl
@[simp] theorem State.drop_power (s : State) (f : FRef) (i n : Nat) :
    (s.drop f i n).power = s.power := rfl
@[simp] theorem State.drop_fuses (s : State) (f : FRef) (i n : Nat) :
    (s.drop f i n).fuses = s.fuses := rfl
@[simp] theorem State.drop_flash (s : State) (f : FRef) (i n : Nat) :
    (s.drop f i n).flash = s.flash := rfl
@[simp] theorem State.drop_trust (s : State) (f : FRef) (i n : Nat) :
    (s.drop f i n).trust = s.trust := rfl
@[simp] theorem State.drop_image (s : State) (f : FRef) (i n : Nat) :
    (s.drop f i n).image = s.image := rfl
@[simp] theorem State.drop_odn (s : State) (f : FRef) (i n : Nat) :
    (s.drop f i n).odn = s.odn := rfl
@[simp] theorem State.drop_runs (s : State) (f : FRef) (i n : Nat) :
    (s.drop f i n).runs = s.runs := rfl
@[simp] theorem State.drop_work (s : State) (f : FRef) (i n : Nat) :
    (s.drop f i n).work = s.work := rfl
@[simp] theorem State.drop_runDescs (s : State) (f : FRef) (i n : Nat) :
    (s.drop f i n).runDescs = s.runDescs := rfl
@[simp] theorem State.drop_heldRegions (s : State) (f : FRef) (i n : Nat) :
    (s.drop f i n).heldRegions = s.heldRegions := rfl
@[simp] theorem State.drop_resident (s : State) (f : FRef) (i n : Nat) :
    (s.drop f i n).resident = s.resident := rfl
@[simp] theorem State.drop_disp (s : State) (f : FRef) (i n : Nat) :
    (s.drop f i n).disp = s.disp := rfl
@[simp] theorem State.drop_emb (s : State) (f : FRef) (i n : Nat) :
    (s.drop f i n).emb = s.emb := rfl
@[simp] theorem State.drop_mst (s : State) (f : FRef) (i n : Nat) :
    (s.drop f i n).mst = s.mst := rfl
@[simp] theorem State.drop_pat (s : State) (f : FRef) (i n : Nat) :
    (s.drop f i n).pat = s.pat := rfl
@[simp] theorem State.drop_tth (s : State) (f : FRef) (i n : Nat) :
    (s.drop f i n).tth = s.tth := rfl
@[simp] theorem State.drop_units (s : State) (f : FRef) (i n : Nat) :
    (s.drop f i n).units = s.units := rfl
@[simp] theorem State.drop_pmc (s : State) (f : FRef) (i n : Nat) :
    (s.drop f i n).pmc = s.pmc := rfl
@[simp] theorem State.drop_gov (s : State) (f : FRef) (i n : Nat) :
    (s.drop f i n).gov = s.gov := rfl
@[simp] theorem State.drop_mgmt (s : State) (f : FRef) (i n : Nat) :
    (s.drop f i n).mgmt = s.mgmt := rfl
@[simp] theorem State.drop_flog (s : State) (f : FRef) (i n : Nat) :
    (s.drop f i n).flog = s.flog := rfl
@[simp] theorem State.drop_outbox (s : State) (f : FRef) (i n : Nat) :
    (s.drop f i n).outbox = s.outbox := rfl
@[simp] theorem State.out_pending (s : State) (o : Output) :
    (s.out o).pending = s.pending := rfl
@[simp] theorem State.out_free (s : State) (o : Output) :
    (s.out o).free = s.free := rfl
@[simp] theorem State.out_regs (s : State) (o : Output) :
    (s.out o).regs = s.regs := rfl
@[simp] theorem State.out_mem (s : State) (o : Output) :
    (s.out o).mem = s.mem := rfl
@[simp] theorem State.out_core (s : State) (o : Output) :
    (s.out o).core = s.core := rfl
@[simp] theorem State.out_side (s : State) (o : Output) :
    (s.out o).side = s.side := rfl
@[simp] theorem State.out_clock (s : State) (o : Output) :
    (s.out o).clock = s.clock := rfl
@[simp] theorem State.out_power (s : State) (o : Output) :
    (s.out o).power = s.power := rfl
@[simp] theorem State.out_fuses (s : State) (o : Output) :
    (s.out o).fuses = s.fuses := rfl
@[simp] theorem State.out_flash (s : State) (o : Output) :
    (s.out o).flash = s.flash := rfl
@[simp] theorem State.out_trust (s : State) (o : Output) :
    (s.out o).trust = s.trust := rfl
@[simp] theorem State.out_image (s : State) (o : Output) :
    (s.out o).image = s.image := rfl
@[simp] theorem State.out_odn (s : State) (o : Output) :
    (s.out o).odn = s.odn := rfl
@[simp] theorem State.out_runs (s : State) (o : Output) :
    (s.out o).runs = s.runs := rfl
@[simp] theorem State.out_work (s : State) (o : Output) :
    (s.out o).work = s.work := rfl
@[simp] theorem State.out_runDescs (s : State) (o : Output) :
    (s.out o).runDescs = s.runDescs := rfl
@[simp] theorem State.out_heldRegions (s : State) (o : Output) :
    (s.out o).heldRegions = s.heldRegions := rfl
@[simp] theorem State.out_resident (s : State) (o : Output) :
    (s.out o).resident = s.resident := rfl
@[simp] theorem State.out_disp (s : State) (o : Output) :
    (s.out o).disp = s.disp := rfl
@[simp] theorem State.out_emb (s : State) (o : Output) :
    (s.out o).emb = s.emb := rfl
@[simp] theorem State.out_mst (s : State) (o : Output) :
    (s.out o).mst = s.mst := rfl
@[simp] theorem State.out_pat (s : State) (o : Output) :
    (s.out o).pat = s.pat := rfl
@[simp] theorem State.out_tth (s : State) (o : Output) :
    (s.out o).tth = s.tth := rfl
@[simp] theorem State.out_units (s : State) (o : Output) :
    (s.out o).units = s.units := rfl
@[simp] theorem State.out_pmc (s : State) (o : Output) :
    (s.out o).pmc = s.pmc := rfl
@[simp] theorem State.out_gov (s : State) (o : Output) :
    (s.out o).gov = s.gov := rfl
@[simp] theorem State.out_mgmt (s : State) (o : Output) :
    (s.out o).mgmt = s.mgmt := rfl
@[simp] theorem State.out_flog (s : State) (o : Output) :
    (s.out o).flog = s.flog := rfl
@[simp] theorem State.meter_pending (s : State) (port bytes : Nat) :
    (s.meter port bytes).pending = s.pending := rfl
@[simp] theorem State.meter_free (s : State) (port bytes : Nat) :
    (s.meter port bytes).free = s.free := rfl
@[simp] theorem State.meter_regs (s : State) (port bytes : Nat) :
    (s.meter port bytes).regs = s.regs := rfl
@[simp] theorem State.meter_mem (s : State) (port bytes : Nat) :
    (s.meter port bytes).mem = s.mem := rfl
@[simp] theorem State.meter_core (s : State) (port bytes : Nat) :
    (s.meter port bytes).core = s.core := rfl
@[simp] theorem State.meter_side (s : State) (port bytes : Nat) :
    (s.meter port bytes).side = s.side := rfl
@[simp] theorem State.meter_clock (s : State) (port bytes : Nat) :
    (s.meter port bytes).clock = s.clock := rfl
@[simp] theorem State.meter_power (s : State) (port bytes : Nat) :
    (s.meter port bytes).power = s.power := rfl
@[simp] theorem State.meter_fuses (s : State) (port bytes : Nat) :
    (s.meter port bytes).fuses = s.fuses := rfl
@[simp] theorem State.meter_flash (s : State) (port bytes : Nat) :
    (s.meter port bytes).flash = s.flash := rfl
@[simp] theorem State.meter_trust (s : State) (port bytes : Nat) :
    (s.meter port bytes).trust = s.trust := rfl
@[simp] theorem State.meter_image (s : State) (port bytes : Nat) :
    (s.meter port bytes).image = s.image := rfl
@[simp] theorem State.meter_odn (s : State) (port bytes : Nat) :
    (s.meter port bytes).odn = s.odn := rfl
@[simp] theorem State.meter_runs (s : State) (port bytes : Nat) :
    (s.meter port bytes).runs = s.runs := rfl
@[simp] theorem State.meter_work (s : State) (port bytes : Nat) :
    (s.meter port bytes).work = s.work := rfl
@[simp] theorem State.meter_runDescs (s : State) (port bytes : Nat) :
    (s.meter port bytes).runDescs = s.runDescs := rfl
@[simp] theorem State.meter_heldRegions (s : State) (port bytes : Nat) :
    (s.meter port bytes).heldRegions = s.heldRegions := rfl
@[simp] theorem State.meter_resident (s : State) (port bytes : Nat) :
    (s.meter port bytes).resident = s.resident := rfl
@[simp] theorem State.meter_disp (s : State) (port bytes : Nat) :
    (s.meter port bytes).disp = s.disp := rfl
@[simp] theorem State.meter_emb (s : State) (port bytes : Nat) :
    (s.meter port bytes).emb = s.emb := rfl
@[simp] theorem State.meter_mst (s : State) (port bytes : Nat) :
    (s.meter port bytes).mst = s.mst := rfl
@[simp] theorem State.meter_pat (s : State) (port bytes : Nat) :
    (s.meter port bytes).pat = s.pat := rfl
@[simp] theorem State.meter_tth (s : State) (port bytes : Nat) :
    (s.meter port bytes).tth = s.tth := rfl
@[simp] theorem State.meter_units (s : State) (port bytes : Nat) :
    (s.meter port bytes).units = s.units := rfl
@[simp] theorem State.meter_gov (s : State) (port bytes : Nat) :
    (s.meter port bytes).gov = s.gov := rfl
@[simp] theorem State.meter_mgmt (s : State) (port bytes : Nat) :
    (s.meter port bytes).mgmt = s.mgmt := rfl
@[simp] theorem State.meter_flog (s : State) (port bytes : Nat) :
    (s.meter port bytes).flog = s.flog := rfl
@[simp] theorem State.meter_outbox (s : State) (port bytes : Nat) :
    (s.meter port bytes).outbox = s.outbox := rfl
@[simp] theorem State.setLinkx_pending (s : State) (x : LinkX) :
    (s.setLinkx x).pending = s.pending := rfl
@[simp] theorem State.setLinkx_free (s : State) (x : LinkX) :
    (s.setLinkx x).free = s.free := rfl
@[simp] theorem State.setLinkx_regs (s : State) (x : LinkX) :
    (s.setLinkx x).regs = s.regs := rfl
@[simp] theorem State.setLinkx_mem (s : State) (x : LinkX) :
    (s.setLinkx x).mem = s.mem := rfl
@[simp] theorem State.setLinkx_core (s : State) (x : LinkX) :
    (s.setLinkx x).core = s.core := rfl
@[simp] theorem State.setLinkx_side (s : State) (x : LinkX) :
    (s.setLinkx x).side = s.side := rfl
@[simp] theorem State.setLinkx_clock (s : State) (x : LinkX) :
    (s.setLinkx x).clock = s.clock := rfl
@[simp] theorem State.setLinkx_power (s : State) (x : LinkX) :
    (s.setLinkx x).power = s.power := rfl
@[simp] theorem State.setLinkx_fuses (s : State) (x : LinkX) :
    (s.setLinkx x).fuses = s.fuses := rfl
@[simp] theorem State.setLinkx_flash (s : State) (x : LinkX) :
    (s.setLinkx x).flash = s.flash := rfl
@[simp] theorem State.setLinkx_trust (s : State) (x : LinkX) :
    (s.setLinkx x).trust = s.trust := rfl
@[simp] theorem State.setLinkx_image (s : State) (x : LinkX) :
    (s.setLinkx x).image = s.image := rfl
@[simp] theorem State.setLinkx_odn (s : State) (x : LinkX) :
    (s.setLinkx x).odn = s.odn := rfl
@[simp] theorem State.setLinkx_runs (s : State) (x : LinkX) :
    (s.setLinkx x).runs = s.runs := rfl
@[simp] theorem State.setLinkx_work (s : State) (x : LinkX) :
    (s.setLinkx x).work = s.work := rfl
@[simp] theorem State.setLinkx_runDescs (s : State) (x : LinkX) :
    (s.setLinkx x).runDescs = s.runDescs := rfl
@[simp] theorem State.setLinkx_heldRegions (s : State) (x : LinkX) :
    (s.setLinkx x).heldRegions = s.heldRegions := rfl
@[simp] theorem State.setLinkx_resident (s : State) (x : LinkX) :
    (s.setLinkx x).resident = s.resident := rfl
@[simp] theorem State.setLinkx_disp (s : State) (x : LinkX) :
    (s.setLinkx x).disp = s.disp := rfl
@[simp] theorem State.setLinkx_emb (s : State) (x : LinkX) :
    (s.setLinkx x).emb = s.emb := rfl
@[simp] theorem State.setLinkx_mst (s : State) (x : LinkX) :
    (s.setLinkx x).mst = s.mst := rfl
@[simp] theorem State.setLinkx_pat (s : State) (x : LinkX) :
    (s.setLinkx x).pat = s.pat := rfl
@[simp] theorem State.setLinkx_units (s : State) (x : LinkX) :
    (s.setLinkx x).units = s.units := rfl
@[simp] theorem State.setLinkx_pmc (s : State) (x : LinkX) :
    (s.setLinkx x).pmc = s.pmc := rfl
@[simp] theorem State.setLinkx_gov (s : State) (x : LinkX) :
    (s.setLinkx x).gov = s.gov := rfl
@[simp] theorem State.setLinkx_mgmt (s : State) (x : LinkX) :
    (s.setLinkx x).mgmt = s.mgmt := rfl
@[simp] theorem State.setLinkx_flog (s : State) (x : LinkX) :
    (s.setLinkx x).flog = s.flog := rfl
@[simp] theorem State.setLinkx_outbox (s : State) (x : LinkX) :
    (s.setLinkx x).outbox = s.outbox := rfl
@[simp] theorem State.enqueue_pending (s : State) (l : Nat) (p : Packet) :
    (s.enqueue l p).pending = s.pending := rfl
@[simp] theorem State.enqueue_free (s : State) (l : Nat) (p : Packet) :
    (s.enqueue l p).free = s.free := rfl
@[simp] theorem State.enqueue_regs (s : State) (l : Nat) (p : Packet) :
    (s.enqueue l p).regs = s.regs := rfl
@[simp] theorem State.enqueue_mem (s : State) (l : Nat) (p : Packet) :
    (s.enqueue l p).mem = s.mem := rfl
@[simp] theorem State.enqueue_core (s : State) (l : Nat) (p : Packet) :
    (s.enqueue l p).core = s.core := rfl
@[simp] theorem State.enqueue_side (s : State) (l : Nat) (p : Packet) :
    (s.enqueue l p).side = s.side := rfl
@[simp] theorem State.enqueue_clock (s : State) (l : Nat) (p : Packet) :
    (s.enqueue l p).clock = s.clock := rfl
@[simp] theorem State.enqueue_power (s : State) (l : Nat) (p : Packet) :
    (s.enqueue l p).power = s.power := rfl
@[simp] theorem State.enqueue_fuses (s : State) (l : Nat) (p : Packet) :
    (s.enqueue l p).fuses = s.fuses := rfl
@[simp] theorem State.enqueue_flash (s : State) (l : Nat) (p : Packet) :
    (s.enqueue l p).flash = s.flash := rfl
@[simp] theorem State.enqueue_trust (s : State) (l : Nat) (p : Packet) :
    (s.enqueue l p).trust = s.trust := rfl
@[simp] theorem State.enqueue_image (s : State) (l : Nat) (p : Packet) :
    (s.enqueue l p).image = s.image := rfl
@[simp] theorem State.enqueue_odn (s : State) (l : Nat) (p : Packet) :
    (s.enqueue l p).odn = s.odn := rfl
@[simp] theorem State.enqueue_runs (s : State) (l : Nat) (p : Packet) :
    (s.enqueue l p).runs = s.runs := rfl
@[simp] theorem State.enqueue_work (s : State) (l : Nat) (p : Packet) :
    (s.enqueue l p).work = s.work := rfl
@[simp] theorem State.enqueue_runDescs (s : State) (l : Nat) (p : Packet) :
    (s.enqueue l p).runDescs = s.runDescs := rfl
@[simp] theorem State.enqueue_heldRegions (s : State) (l : Nat) (p : Packet) :
    (s.enqueue l p).heldRegions = s.heldRegions := rfl
@[simp] theorem State.enqueue_resident (s : State) (l : Nat) (p : Packet) :
    (s.enqueue l p).resident = s.resident := rfl
@[simp] theorem State.enqueue_disp (s : State) (l : Nat) (p : Packet) :
    (s.enqueue l p).disp = s.disp := rfl
@[simp] theorem State.enqueue_emb (s : State) (l : Nat) (p : Packet) :
    (s.enqueue l p).emb = s.emb := rfl
@[simp] theorem State.enqueue_mst (s : State) (l : Nat) (p : Packet) :
    (s.enqueue l p).mst = s.mst := rfl
@[simp] theorem State.enqueue_pat (s : State) (l : Nat) (p : Packet) :
    (s.enqueue l p).pat = s.pat := rfl
@[simp] theorem State.enqueue_units (s : State) (l : Nat) (p : Packet) :
    (s.enqueue l p).units = s.units := rfl
@[simp] theorem State.enqueue_pmc (s : State) (l : Nat) (p : Packet) :
    (s.enqueue l p).pmc = s.pmc := rfl
@[simp] theorem State.enqueue_gov (s : State) (l : Nat) (p : Packet) :
    (s.enqueue l p).gov = s.gov := rfl
@[simp] theorem State.enqueue_mgmt (s : State) (l : Nat) (p : Packet) :
    (s.enqueue l p).mgmt = s.mgmt := rfl
@[simp] theorem State.enqueue_flog (s : State) (l : Nat) (p : Packet) :
    (s.enqueue l p).flog = s.flog := rfl
@[simp] theorem State.enqueue_outbox (s : State) (l : Nat) (p : Packet) :
    (s.enqueue l p).outbox = s.outbox := rfl
@[simp] theorem State.sendRelay_pending (s : State) (l : Nat) (b : RelayBody) :
    (s.sendRelay l b).pending = s.pending := rfl
@[simp] theorem State.sendRelay_free (s : State) (l : Nat) (b : RelayBody) :
    (s.sendRelay l b).free = s.free := rfl
@[simp] theorem State.sendRelay_regs (s : State) (l : Nat) (b : RelayBody) :
    (s.sendRelay l b).regs = s.regs := rfl
@[simp] theorem State.sendRelay_mem (s : State) (l : Nat) (b : RelayBody) :
    (s.sendRelay l b).mem = s.mem := rfl
@[simp] theorem State.sendRelay_core (s : State) (l : Nat) (b : RelayBody) :
    (s.sendRelay l b).core = s.core := rfl
@[simp] theorem State.sendRelay_side (s : State) (l : Nat) (b : RelayBody) :
    (s.sendRelay l b).side = s.side := rfl
@[simp] theorem State.sendRelay_clock (s : State) (l : Nat) (b : RelayBody) :
    (s.sendRelay l b).clock = s.clock := rfl
@[simp] theorem State.sendRelay_power (s : State) (l : Nat) (b : RelayBody) :
    (s.sendRelay l b).power = s.power := rfl
@[simp] theorem State.sendRelay_fuses (s : State) (l : Nat) (b : RelayBody) :
    (s.sendRelay l b).fuses = s.fuses := rfl
@[simp] theorem State.sendRelay_flash (s : State) (l : Nat) (b : RelayBody) :
    (s.sendRelay l b).flash = s.flash := rfl
@[simp] theorem State.sendRelay_trust (s : State) (l : Nat) (b : RelayBody) :
    (s.sendRelay l b).trust = s.trust := rfl
@[simp] theorem State.sendRelay_image (s : State) (l : Nat) (b : RelayBody) :
    (s.sendRelay l b).image = s.image := rfl
@[simp] theorem State.sendRelay_odn (s : State) (l : Nat) (b : RelayBody) :
    (s.sendRelay l b).odn = s.odn := rfl
@[simp] theorem State.sendRelay_runs (s : State) (l : Nat) (b : RelayBody) :
    (s.sendRelay l b).runs = s.runs := rfl
@[simp] theorem State.sendRelay_work (s : State) (l : Nat) (b : RelayBody) :
    (s.sendRelay l b).work = s.work := rfl
@[simp] theorem State.sendRelay_runDescs (s : State) (l : Nat) (b : RelayBody) :
    (s.sendRelay l b).runDescs = s.runDescs := rfl
@[simp] theorem State.sendRelay_heldRegions (s : State) (l : Nat) (b : RelayBody) :
    (s.sendRelay l b).heldRegions = s.heldRegions := rfl
@[simp] theorem State.sendRelay_resident (s : State) (l : Nat) (b : RelayBody) :
    (s.sendRelay l b).resident = s.resident := rfl
@[simp] theorem State.sendRelay_disp (s : State) (l : Nat) (b : RelayBody) :
    (s.sendRelay l b).disp = s.disp := rfl
@[simp] theorem State.sendRelay_emb (s : State) (l : Nat) (b : RelayBody) :
    (s.sendRelay l b).emb = s.emb := rfl
@[simp] theorem State.sendRelay_mst (s : State) (l : Nat) (b : RelayBody) :
    (s.sendRelay l b).mst = s.mst := rfl
@[simp] theorem State.sendRelay_pat (s : State) (l : Nat) (b : RelayBody) :
    (s.sendRelay l b).pat = s.pat := rfl
@[simp] theorem State.sendRelay_units (s : State) (l : Nat) (b : RelayBody) :
    (s.sendRelay l b).units = s.units := rfl
@[simp] theorem State.sendRelay_pmc (s : State) (l : Nat) (b : RelayBody) :
    (s.sendRelay l b).pmc = s.pmc := rfl
@[simp] theorem State.sendRelay_gov (s : State) (l : Nat) (b : RelayBody) :
    (s.sendRelay l b).gov = s.gov := rfl
@[simp] theorem State.sendRelay_mgmt (s : State) (l : Nat) (b : RelayBody) :
    (s.sendRelay l b).mgmt = s.mgmt := rfl
@[simp] theorem State.sendRelay_flog (s : State) (l : Nat) (b : RelayBody) :
    (s.sendRelay l b).flog = s.flog := rfl
@[simp] theorem State.sendRelay_outbox (s : State) (l : Nat) (b : RelayBody) :
    (s.sendRelay l b).outbox = s.outbox := rfl
@[simp] theorem State.putSession_pending (s : State) (x : Session) :
    (s.putSession x).pending = s.pending := rfl
@[simp] theorem State.putSession_free (s : State) (x : Session) :
    (s.putSession x).free = s.free := rfl
@[simp] theorem State.putSession_regs (s : State) (x : Session) :
    (s.putSession x).regs = s.regs := rfl
@[simp] theorem State.putSession_mem (s : State) (x : Session) :
    (s.putSession x).mem = s.mem := rfl
@[simp] theorem State.putSession_core (s : State) (x : Session) :
    (s.putSession x).core = s.core := rfl
@[simp] theorem State.putSession_side (s : State) (x : Session) :
    (s.putSession x).side = s.side := rfl
@[simp] theorem State.putSession_clock (s : State) (x : Session) :
    (s.putSession x).clock = s.clock := rfl
@[simp] theorem State.putSession_power (s : State) (x : Session) :
    (s.putSession x).power = s.power := rfl
@[simp] theorem State.putSession_fuses (s : State) (x : Session) :
    (s.putSession x).fuses = s.fuses := rfl
@[simp] theorem State.putSession_flash (s : State) (x : Session) :
    (s.putSession x).flash = s.flash := rfl
@[simp] theorem State.putSession_trust (s : State) (x : Session) :
    (s.putSession x).trust = s.trust := rfl
@[simp] theorem State.putSession_image (s : State) (x : Session) :
    (s.putSession x).image = s.image := rfl
@[simp] theorem State.putSession_runs (s : State) (x : Session) :
    (s.putSession x).runs = s.runs := rfl
@[simp] theorem State.putSession_work (s : State) (x : Session) :
    (s.putSession x).work = s.work := rfl
@[simp] theorem State.putSession_runDescs (s : State) (x : Session) :
    (s.putSession x).runDescs = s.runDescs := rfl
@[simp] theorem State.putSession_heldRegions (s : State) (x : Session) :
    (s.putSession x).heldRegions = s.heldRegions := rfl
@[simp] theorem State.putSession_resident (s : State) (x : Session) :
    (s.putSession x).resident = s.resident := rfl
@[simp] theorem State.putSession_disp (s : State) (x : Session) :
    (s.putSession x).disp = s.disp := rfl
@[simp] theorem State.putSession_emb (s : State) (x : Session) :
    (s.putSession x).emb = s.emb := rfl
@[simp] theorem State.putSession_mst (s : State) (x : Session) :
    (s.putSession x).mst = s.mst := rfl
@[simp] theorem State.putSession_pat (s : State) (x : Session) :
    (s.putSession x).pat = s.pat := rfl
@[simp] theorem State.putSession_tth (s : State) (x : Session) :
    (s.putSession x).tth = s.tth := rfl
@[simp] theorem State.putSession_units (s : State) (x : Session) :
    (s.putSession x).units = s.units := rfl
@[simp] theorem State.putSession_pmc (s : State) (x : Session) :
    (s.putSession x).pmc = s.pmc := rfl
@[simp] theorem State.putSession_gov (s : State) (x : Session) :
    (s.putSession x).gov = s.gov := rfl
@[simp] theorem State.putSession_mgmt (s : State) (x : Session) :
    (s.putSession x).mgmt = s.mgmt := rfl
@[simp] theorem State.putSession_flog (s : State) (x : Session) :
    (s.putSession x).flog = s.flog := rfl
@[simp] theorem State.putSession_outbox (s : State) (x : Session) :
    (s.putSession x).outbox = s.outbox := rfl
@[simp] theorem State.settlePend_pending (s : State) (p : PendWork → Bool) (c : Code) (body : List Byte) :
    (s.settlePend p c body).pending = s.pending := rfl
@[simp] theorem State.settlePend_free (s : State) (p : PendWork → Bool) (c : Code) (body : List Byte) :
    (s.settlePend p c body).free = s.free := rfl
@[simp] theorem State.settlePend_regs (s : State) (p : PendWork → Bool) (c : Code) (body : List Byte) :
    (s.settlePend p c body).regs = s.regs := rfl
@[simp] theorem State.settlePend_mem (s : State) (p : PendWork → Bool) (c : Code) (body : List Byte) :
    (s.settlePend p c body).mem = s.mem := rfl
@[simp] theorem State.settlePend_core (s : State) (p : PendWork → Bool) (c : Code) (body : List Byte) :
    (s.settlePend p c body).core = s.core := rfl
@[simp] theorem State.settlePend_side (s : State) (p : PendWork → Bool) (c : Code) (body : List Byte) :
    (s.settlePend p c body).side = s.side := rfl
@[simp] theorem State.settlePend_clock (s : State) (p : PendWork → Bool) (c : Code) (body : List Byte) :
    (s.settlePend p c body).clock = s.clock := rfl
@[simp] theorem State.settlePend_power (s : State) (p : PendWork → Bool) (c : Code) (body : List Byte) :
    (s.settlePend p c body).power = s.power := rfl
@[simp] theorem State.settlePend_fuses (s : State) (p : PendWork → Bool) (c : Code) (body : List Byte) :
    (s.settlePend p c body).fuses = s.fuses := rfl
@[simp] theorem State.settlePend_flash (s : State) (p : PendWork → Bool) (c : Code) (body : List Byte) :
    (s.settlePend p c body).flash = s.flash := rfl
@[simp] theorem State.settlePend_trust (s : State) (p : PendWork → Bool) (c : Code) (body : List Byte) :
    (s.settlePend p c body).trust = s.trust := rfl
@[simp] theorem State.settlePend_image (s : State) (p : PendWork → Bool) (c : Code) (body : List Byte) :
    (s.settlePend p c body).image = s.image := rfl
@[simp] theorem State.settlePend_runs (s : State) (p : PendWork → Bool) (c : Code) (body : List Byte) :
    (s.settlePend p c body).runs = s.runs := rfl
@[simp] theorem State.settlePend_work (s : State) (p : PendWork → Bool) (c : Code) (body : List Byte) :
    (s.settlePend p c body).work = s.work := rfl
@[simp] theorem State.settlePend_runDescs (s : State) (p : PendWork → Bool) (c : Code) (body : List Byte) :
    (s.settlePend p c body).runDescs = s.runDescs := rfl
@[simp] theorem State.settlePend_heldRegions (s : State) (p : PendWork → Bool) (c : Code) (body : List Byte) :
    (s.settlePend p c body).heldRegions = s.heldRegions := rfl
@[simp] theorem State.settlePend_resident (s : State) (p : PendWork → Bool) (c : Code) (body : List Byte) :
    (s.settlePend p c body).resident = s.resident := rfl
@[simp] theorem State.settlePend_disp (s : State) (p : PendWork → Bool) (c : Code) (body : List Byte) :
    (s.settlePend p c body).disp = s.disp := rfl
@[simp] theorem State.settlePend_emb (s : State) (p : PendWork → Bool) (c : Code) (body : List Byte) :
    (s.settlePend p c body).emb = s.emb := rfl
@[simp] theorem State.settlePend_mst (s : State) (p : PendWork → Bool) (c : Code) (body : List Byte) :
    (s.settlePend p c body).mst = s.mst := rfl
@[simp] theorem State.settlePend_pat (s : State) (p : PendWork → Bool) (c : Code) (body : List Byte) :
    (s.settlePend p c body).pat = s.pat := rfl
@[simp] theorem State.settlePend_tth (s : State) (p : PendWork → Bool) (c : Code) (body : List Byte) :
    (s.settlePend p c body).tth = s.tth := rfl
@[simp] theorem State.settlePend_units (s : State) (p : PendWork → Bool) (c : Code) (body : List Byte) :
    (s.settlePend p c body).units = s.units := rfl
@[simp] theorem State.settlePend_pmc (s : State) (p : PendWork → Bool) (c : Code) (body : List Byte) :
    (s.settlePend p c body).pmc = s.pmc := rfl
@[simp] theorem State.settlePend_gov (s : State) (p : PendWork → Bool) (c : Code) (body : List Byte) :
    (s.settlePend p c body).gov = s.gov := rfl
@[simp] theorem State.settlePend_mgmt (s : State) (p : PendWork → Bool) (c : Code) (body : List Byte) :
    (s.settlePend p c body).mgmt = s.mgmt := rfl
@[simp] theorem State.settlePend_flog (s : State) (p : PendWork → Bool) (c : Code) (body : List Byte) :
    (s.settlePend p c body).flog = s.flog := rfl
@[simp] theorem State.settlePend_outbox (s : State) (p : PendWork → Bool) (c : Code) (body : List Byte) :
    (s.settlePend p c body).outbox = s.outbox := rfl
@[simp] theorem State.setSide_pending (s : State) (x : MemSide) :
    (s.setSide x).pending = s.pending := rfl
@[simp] theorem State.setSide_free (s : State) (x : MemSide) :
    (s.setSide x).free = s.free := rfl
@[simp] theorem State.setSide_regs (s : State) (x : MemSide) :
    (s.setSide x).regs = s.regs := rfl
@[simp] theorem State.setSide_mem (s : State) (x : MemSide) :
    (s.setSide x).mem = s.mem := rfl
@[simp] theorem State.setSide_core (s : State) (x : MemSide) :
    (s.setSide x).core = s.core := rfl
@[simp] theorem State.setSide_clock (s : State) (x : MemSide) :
    (s.setSide x).clock = s.clock := rfl
@[simp] theorem State.setSide_power (s : State) (x : MemSide) :
    (s.setSide x).power = s.power := rfl
@[simp] theorem State.setSide_fuses (s : State) (x : MemSide) :
    (s.setSide x).fuses = s.fuses := rfl
@[simp] theorem State.setSide_flash (s : State) (x : MemSide) :
    (s.setSide x).flash = s.flash := rfl
@[simp] theorem State.setSide_trust (s : State) (x : MemSide) :
    (s.setSide x).trust = s.trust := rfl
@[simp] theorem State.setSide_image (s : State) (x : MemSide) :
    (s.setSide x).image = s.image := rfl
@[simp] theorem State.setSide_odn (s : State) (x : MemSide) :
    (s.setSide x).odn = s.odn := rfl
@[simp] theorem State.setSide_runs (s : State) (x : MemSide) :
    (s.setSide x).runs = s.runs := rfl
@[simp] theorem State.setSide_work (s : State) (x : MemSide) :
    (s.setSide x).work = s.work := rfl
@[simp] theorem State.setSide_runDescs (s : State) (x : MemSide) :
    (s.setSide x).runDescs = s.runDescs := rfl
@[simp] theorem State.setSide_heldRegions (s : State) (x : MemSide) :
    (s.setSide x).heldRegions = s.heldRegions := rfl
@[simp] theorem State.setSide_resident (s : State) (x : MemSide) :
    (s.setSide x).resident = s.resident := rfl
@[simp] theorem State.setSide_disp (s : State) (x : MemSide) :
    (s.setSide x).disp = s.disp := rfl
@[simp] theorem State.setSide_emb (s : State) (x : MemSide) :
    (s.setSide x).emb = s.emb := rfl
@[simp] theorem State.setSide_mst (s : State) (x : MemSide) :
    (s.setSide x).mst = s.mst := rfl
@[simp] theorem State.setSide_pat (s : State) (x : MemSide) :
    (s.setSide x).pat = s.pat := rfl
@[simp] theorem State.setSide_tth (s : State) (x : MemSide) :
    (s.setSide x).tth = s.tth := rfl
@[simp] theorem State.setSide_units (s : State) (x : MemSide) :
    (s.setSide x).units = s.units := rfl
@[simp] theorem State.setSide_pmc (s : State) (x : MemSide) :
    (s.setSide x).pmc = s.pmc := rfl
@[simp] theorem State.setSide_gov (s : State) (x : MemSide) :
    (s.setSide x).gov = s.gov := rfl
@[simp] theorem State.setSide_mgmt (s : State) (x : MemSide) :
    (s.setSide x).mgmt = s.mgmt := rfl
@[simp] theorem State.setSide_flog (s : State) (x : MemSide) :
    (s.setSide x).flog = s.flog := rfl
@[simp] theorem State.setSide_outbox (s : State) (x : MemSide) :
    (s.setSide x).outbox = s.outbox := rfl
@[simp] theorem State.dropWatches_pending (s : State) (p : Watch → Bool) :
    (s.dropWatches p).pending = s.pending := rfl
@[simp] theorem State.dropWatches_free (s : State) (p : Watch → Bool) :
    (s.dropWatches p).free = s.free := rfl
@[simp] theorem State.dropWatches_regs (s : State) (p : Watch → Bool) :
    (s.dropWatches p).regs = s.regs := rfl
@[simp] theorem State.dropWatches_mem (s : State) (p : Watch → Bool) :
    (s.dropWatches p).mem = s.mem := rfl
@[simp] theorem State.dropWatches_core (s : State) (p : Watch → Bool) :
    (s.dropWatches p).core = s.core := rfl
@[simp] theorem State.dropWatches_clock (s : State) (p : Watch → Bool) :
    (s.dropWatches p).clock = s.clock := rfl
@[simp] theorem State.dropWatches_power (s : State) (p : Watch → Bool) :
    (s.dropWatches p).power = s.power := rfl
@[simp] theorem State.dropWatches_fuses (s : State) (p : Watch → Bool) :
    (s.dropWatches p).fuses = s.fuses := rfl
@[simp] theorem State.dropWatches_flash (s : State) (p : Watch → Bool) :
    (s.dropWatches p).flash = s.flash := rfl
@[simp] theorem State.dropWatches_trust (s : State) (p : Watch → Bool) :
    (s.dropWatches p).trust = s.trust := rfl
@[simp] theorem State.dropWatches_image (s : State) (p : Watch → Bool) :
    (s.dropWatches p).image = s.image := rfl
@[simp] theorem State.dropWatches_odn (s : State) (p : Watch → Bool) :
    (s.dropWatches p).odn = s.odn := rfl
@[simp] theorem State.dropWatches_runs (s : State) (p : Watch → Bool) :
    (s.dropWatches p).runs = s.runs := rfl
@[simp] theorem State.dropWatches_work (s : State) (p : Watch → Bool) :
    (s.dropWatches p).work = s.work := rfl
@[simp] theorem State.dropWatches_runDescs (s : State) (p : Watch → Bool) :
    (s.dropWatches p).runDescs = s.runDescs := rfl
@[simp] theorem State.dropWatches_heldRegions (s : State) (p : Watch → Bool) :
    (s.dropWatches p).heldRegions = s.heldRegions := rfl
@[simp] theorem State.dropWatches_resident (s : State) (p : Watch → Bool) :
    (s.dropWatches p).resident = s.resident := rfl
@[simp] theorem State.dropWatches_disp (s : State) (p : Watch → Bool) :
    (s.dropWatches p).disp = s.disp := rfl
@[simp] theorem State.dropWatches_emb (s : State) (p : Watch → Bool) :
    (s.dropWatches p).emb = s.emb := rfl
@[simp] theorem State.dropWatches_mst (s : State) (p : Watch → Bool) :
    (s.dropWatches p).mst = s.mst := rfl
@[simp] theorem State.dropWatches_pat (s : State) (p : Watch → Bool) :
    (s.dropWatches p).pat = s.pat := rfl
@[simp] theorem State.dropWatches_tth (s : State) (p : Watch → Bool) :
    (s.dropWatches p).tth = s.tth := rfl
@[simp] theorem State.dropWatches_units (s : State) (p : Watch → Bool) :
    (s.dropWatches p).units = s.units := rfl
@[simp] theorem State.dropWatches_pmc (s : State) (p : Watch → Bool) :
    (s.dropWatches p).pmc = s.pmc := rfl
@[simp] theorem State.dropWatches_gov (s : State) (p : Watch → Bool) :
    (s.dropWatches p).gov = s.gov := rfl
@[simp] theorem State.dropWatches_mgmt (s : State) (p : Watch → Bool) :
    (s.dropWatches p).mgmt = s.mgmt := rfl
@[simp] theorem State.dropWatches_flog (s : State) (p : Watch → Bool) :
    (s.dropWatches p).flog = s.flog := rfl
@[simp] theorem State.dropWatches_outbox (s : State) (p : Watch → Bool) :
    (s.dropWatches p).outbox = s.outbox := rfl
@[simp] theorem State.cleanWord_pending (s : State) (w : Nat) :
    (s.cleanWord w).pending = s.pending := rfl
@[simp] theorem State.cleanWord_free (s : State) (w : Nat) :
    (s.cleanWord w).free = s.free := rfl
@[simp] theorem State.cleanWord_regs (s : State) (w : Nat) :
    (s.cleanWord w).regs = s.regs := rfl
@[simp] theorem State.cleanWord_mem (s : State) (w : Nat) :
    (s.cleanWord w).mem = s.mem := rfl
@[simp] theorem State.cleanWord_core (s : State) (w : Nat) :
    (s.cleanWord w).core = s.core := rfl
@[simp] theorem State.cleanWord_clock (s : State) (w : Nat) :
    (s.cleanWord w).clock = s.clock := rfl
@[simp] theorem State.cleanWord_power (s : State) (w : Nat) :
    (s.cleanWord w).power = s.power := rfl
@[simp] theorem State.cleanWord_fuses (s : State) (w : Nat) :
    (s.cleanWord w).fuses = s.fuses := rfl
@[simp] theorem State.cleanWord_flash (s : State) (w : Nat) :
    (s.cleanWord w).flash = s.flash := rfl
@[simp] theorem State.cleanWord_trust (s : State) (w : Nat) :
    (s.cleanWord w).trust = s.trust := rfl
@[simp] theorem State.cleanWord_image (s : State) (w : Nat) :
    (s.cleanWord w).image = s.image := rfl
@[simp] theorem State.cleanWord_odn (s : State) (w : Nat) :
    (s.cleanWord w).odn = s.odn := rfl
@[simp] theorem State.cleanWord_runs (s : State) (w : Nat) :
    (s.cleanWord w).runs = s.runs := rfl
@[simp] theorem State.cleanWord_work (s : State) (w : Nat) :
    (s.cleanWord w).work = s.work := rfl
@[simp] theorem State.cleanWord_runDescs (s : State) (w : Nat) :
    (s.cleanWord w).runDescs = s.runDescs := rfl
@[simp] theorem State.cleanWord_heldRegions (s : State) (w : Nat) :
    (s.cleanWord w).heldRegions = s.heldRegions := rfl
@[simp] theorem State.cleanWord_resident (s : State) (w : Nat) :
    (s.cleanWord w).resident = s.resident := rfl
@[simp] theorem State.cleanWord_disp (s : State) (w : Nat) :
    (s.cleanWord w).disp = s.disp := rfl
@[simp] theorem State.cleanWord_emb (s : State) (w : Nat) :
    (s.cleanWord w).emb = s.emb := rfl
@[simp] theorem State.cleanWord_mst (s : State) (w : Nat) :
    (s.cleanWord w).mst = s.mst := rfl
@[simp] theorem State.cleanWord_pat (s : State) (w : Nat) :
    (s.cleanWord w).pat = s.pat := rfl
@[simp] theorem State.cleanWord_tth (s : State) (w : Nat) :
    (s.cleanWord w).tth = s.tth := rfl
@[simp] theorem State.cleanWord_units (s : State) (w : Nat) :
    (s.cleanWord w).units = s.units := rfl
@[simp] theorem State.cleanWord_pmc (s : State) (w : Nat) :
    (s.cleanWord w).pmc = s.pmc := rfl
@[simp] theorem State.cleanWord_gov (s : State) (w : Nat) :
    (s.cleanWord w).gov = s.gov := rfl
@[simp] theorem State.cleanWord_mgmt (s : State) (w : Nat) :
    (s.cleanWord w).mgmt = s.mgmt := rfl
@[simp] theorem State.cleanWord_flog (s : State) (w : Nat) :
    (s.cleanWord w).flog = s.flog := rfl
@[simp] theorem State.cleanWord_outbox (s : State) (w : Nat) :
    (s.cleanWord w).outbox = s.outbox := rfl
@[simp] theorem State.storeBytes_pending (s : State) (p : Nat) (bs : List Byte) :
    (s.storeBytes p bs).pending = s.pending := rfl
@[simp] theorem State.storeBytes_free (s : State) (p : Nat) (bs : List Byte) :
    (s.storeBytes p bs).free = s.free := rfl
@[simp] theorem State.storeBytes_regs (s : State) (p : Nat) (bs : List Byte) :
    (s.storeBytes p bs).regs = s.regs := rfl
@[simp] theorem State.storeBytes_core (s : State) (p : Nat) (bs : List Byte) :
    (s.storeBytes p bs).core = s.core := rfl
@[simp] theorem State.storeBytes_side (s : State) (p : Nat) (bs : List Byte) :
    (s.storeBytes p bs).side = s.side := rfl
@[simp] theorem State.storeBytes_clock (s : State) (p : Nat) (bs : List Byte) :
    (s.storeBytes p bs).clock = s.clock := rfl
@[simp] theorem State.storeBytes_power (s : State) (p : Nat) (bs : List Byte) :
    (s.storeBytes p bs).power = s.power := rfl
@[simp] theorem State.storeBytes_fuses (s : State) (p : Nat) (bs : List Byte) :
    (s.storeBytes p bs).fuses = s.fuses := rfl
@[simp] theorem State.storeBytes_flash (s : State) (p : Nat) (bs : List Byte) :
    (s.storeBytes p bs).flash = s.flash := rfl
@[simp] theorem State.storeBytes_trust (s : State) (p : Nat) (bs : List Byte) :
    (s.storeBytes p bs).trust = s.trust := rfl
@[simp] theorem State.storeBytes_image (s : State) (p : Nat) (bs : List Byte) :
    (s.storeBytes p bs).image = s.image := rfl
@[simp] theorem State.storeBytes_odn (s : State) (p : Nat) (bs : List Byte) :
    (s.storeBytes p bs).odn = s.odn := rfl
@[simp] theorem State.storeBytes_runs (s : State) (p : Nat) (bs : List Byte) :
    (s.storeBytes p bs).runs = s.runs := rfl
@[simp] theorem State.storeBytes_work (s : State) (p : Nat) (bs : List Byte) :
    (s.storeBytes p bs).work = s.work := rfl
@[simp] theorem State.storeBytes_runDescs (s : State) (p : Nat) (bs : List Byte) :
    (s.storeBytes p bs).runDescs = s.runDescs := rfl
@[simp] theorem State.storeBytes_heldRegions (s : State) (p : Nat) (bs : List Byte) :
    (s.storeBytes p bs).heldRegions = s.heldRegions := rfl
@[simp] theorem State.storeBytes_resident (s : State) (p : Nat) (bs : List Byte) :
    (s.storeBytes p bs).resident = s.resident := rfl
@[simp] theorem State.storeBytes_disp (s : State) (p : Nat) (bs : List Byte) :
    (s.storeBytes p bs).disp = s.disp := rfl
@[simp] theorem State.storeBytes_emb (s : State) (p : Nat) (bs : List Byte) :
    (s.storeBytes p bs).emb = s.emb := rfl
@[simp] theorem State.storeBytes_mst (s : State) (p : Nat) (bs : List Byte) :
    (s.storeBytes p bs).mst = s.mst := rfl
@[simp] theorem State.storeBytes_pat (s : State) (p : Nat) (bs : List Byte) :
    (s.storeBytes p bs).pat = s.pat := rfl
@[simp] theorem State.storeBytes_tth (s : State) (p : Nat) (bs : List Byte) :
    (s.storeBytes p bs).tth = s.tth := rfl
@[simp] theorem State.storeBytes_units (s : State) (p : Nat) (bs : List Byte) :
    (s.storeBytes p bs).units = s.units := rfl
@[simp] theorem State.storeBytes_pmc (s : State) (p : Nat) (bs : List Byte) :
    (s.storeBytes p bs).pmc = s.pmc := rfl
@[simp] theorem State.storeBytes_gov (s : State) (p : Nat) (bs : List Byte) :
    (s.storeBytes p bs).gov = s.gov := rfl
@[simp] theorem State.storeBytes_mgmt (s : State) (p : Nat) (bs : List Byte) :
    (s.storeBytes p bs).mgmt = s.mgmt := rfl
@[simp] theorem State.storeBytes_flog (s : State) (p : Nat) (bs : List Byte) :
    (s.storeBytes p bs).flog = s.flog := rfl
@[simp] theorem State.storeBytes_outbox (s : State) (p : Nat) (bs : List Byte) :
    (s.storeBytes p bs).outbox = s.outbox := rfl
@[simp] theorem State.putWait_pending (s : State) (w : VaultWait) :
    (s.putWait w).pending = s.pending := rfl
@[simp] theorem State.putWait_free (s : State) (w : VaultWait) :
    (s.putWait w).free = s.free := rfl
@[simp] theorem State.putWait_regs (s : State) (w : VaultWait) :
    (s.putWait w).regs = s.regs := rfl
@[simp] theorem State.putWait_mem (s : State) (w : VaultWait) :
    (s.putWait w).mem = s.mem := rfl
@[simp] theorem State.putWait_core (s : State) (w : VaultWait) :
    (s.putWait w).core = s.core := rfl
@[simp] theorem State.putWait_side (s : State) (w : VaultWait) :
    (s.putWait w).side = s.side := rfl
@[simp] theorem State.putWait_clock (s : State) (w : VaultWait) :
    (s.putWait w).clock = s.clock := rfl
@[simp] theorem State.putWait_fuses (s : State) (w : VaultWait) :
    (s.putWait w).fuses = s.fuses := rfl
@[simp] theorem State.putWait_flash (s : State) (w : VaultWait) :
    (s.putWait w).flash = s.flash := rfl
@[simp] theorem State.putWait_trust (s : State) (w : VaultWait) :
    (s.putWait w).trust = s.trust := rfl
@[simp] theorem State.putWait_image (s : State) (w : VaultWait) :
    (s.putWait w).image = s.image := rfl
@[simp] theorem State.putWait_odn (s : State) (w : VaultWait) :
    (s.putWait w).odn = s.odn := rfl
@[simp] theorem State.putWait_runs (s : State) (w : VaultWait) :
    (s.putWait w).runs = s.runs := rfl
@[simp] theorem State.putWait_work (s : State) (w : VaultWait) :
    (s.putWait w).work = s.work := rfl
@[simp] theorem State.putWait_runDescs (s : State) (w : VaultWait) :
    (s.putWait w).runDescs = s.runDescs := rfl
@[simp] theorem State.putWait_heldRegions (s : State) (w : VaultWait) :
    (s.putWait w).heldRegions = s.heldRegions := rfl
@[simp] theorem State.putWait_resident (s : State) (w : VaultWait) :
    (s.putWait w).resident = s.resident := rfl
@[simp] theorem State.putWait_disp (s : State) (w : VaultWait) :
    (s.putWait w).disp = s.disp := rfl
@[simp] theorem State.putWait_emb (s : State) (w : VaultWait) :
    (s.putWait w).emb = s.emb := rfl
@[simp] theorem State.putWait_mst (s : State) (w : VaultWait) :
    (s.putWait w).mst = s.mst := rfl
@[simp] theorem State.putWait_pat (s : State) (w : VaultWait) :
    (s.putWait w).pat = s.pat := rfl
@[simp] theorem State.putWait_tth (s : State) (w : VaultWait) :
    (s.putWait w).tth = s.tth := rfl
@[simp] theorem State.putWait_units (s : State) (w : VaultWait) :
    (s.putWait w).units = s.units := rfl
@[simp] theorem State.putWait_pmc (s : State) (w : VaultWait) :
    (s.putWait w).pmc = s.pmc := rfl
@[simp] theorem State.putWait_gov (s : State) (w : VaultWait) :
    (s.putWait w).gov = s.gov := rfl
@[simp] theorem State.putWait_mgmt (s : State) (w : VaultWait) :
    (s.putWait w).mgmt = s.mgmt := rfl
@[simp] theorem State.putWait_flog (s : State) (w : VaultWait) :
    (s.putWait w).flog = s.flog := rfl
@[simp] theorem State.putWait_outbox (s : State) (w : VaultWait) :
    (s.putWait w).outbox = s.outbox := rfl
@[simp] theorem State.putRun_pending (s : State) (r : Run) :
    (s.putRun r).pending = s.pending := rfl
@[simp] theorem State.putRun_free (s : State) (r : Run) :
    (s.putRun r).free = s.free := rfl
@[simp] theorem State.putRun_regs (s : State) (r : Run) :
    (s.putRun r).regs = s.regs := rfl
@[simp] theorem State.putRun_mem (s : State) (r : Run) :
    (s.putRun r).mem = s.mem := rfl
@[simp] theorem State.putRun_core (s : State) (r : Run) :
    (s.putRun r).core = s.core := rfl
@[simp] theorem State.putRun_side (s : State) (r : Run) :
    (s.putRun r).side = s.side := rfl
@[simp] theorem State.putRun_clock (s : State) (r : Run) :
    (s.putRun r).clock = s.clock := rfl
@[simp] theorem State.putRun_power (s : State) (r : Run) :
    (s.putRun r).power = s.power := rfl
@[simp] theorem State.putRun_fuses (s : State) (r : Run) :
    (s.putRun r).fuses = s.fuses := rfl
@[simp] theorem State.putRun_flash (s : State) (r : Run) :
    (s.putRun r).flash = s.flash := rfl
@[simp] theorem State.putRun_trust (s : State) (r : Run) :
    (s.putRun r).trust = s.trust := rfl
@[simp] theorem State.putRun_image (s : State) (r : Run) :
    (s.putRun r).image = s.image := rfl
@[simp] theorem State.putRun_odn (s : State) (r : Run) :
    (s.putRun r).odn = s.odn := rfl
@[simp] theorem State.putRun_work (s : State) (r : Run) :
    (s.putRun r).work = s.work := rfl
@[simp] theorem State.putRun_runDescs (s : State) (r : Run) :
    (s.putRun r).runDescs = s.runDescs := rfl
@[simp] theorem State.putRun_heldRegions (s : State) (r : Run) :
    (s.putRun r).heldRegions = s.heldRegions := rfl
@[simp] theorem State.putRun_resident (s : State) (r : Run) :
    (s.putRun r).resident = s.resident := rfl
@[simp] theorem State.putRun_disp (s : State) (r : Run) :
    (s.putRun r).disp = s.disp := rfl
@[simp] theorem State.putRun_emb (s : State) (r : Run) :
    (s.putRun r).emb = s.emb := rfl
@[simp] theorem State.putRun_mst (s : State) (r : Run) :
    (s.putRun r).mst = s.mst := rfl
@[simp] theorem State.putRun_pat (s : State) (r : Run) :
    (s.putRun r).pat = s.pat := rfl
@[simp] theorem State.putRun_tth (s : State) (r : Run) :
    (s.putRun r).tth = s.tth := rfl
@[simp] theorem State.putRun_units (s : State) (r : Run) :
    (s.putRun r).units = s.units := rfl
@[simp] theorem State.putRun_pmc (s : State) (r : Run) :
    (s.putRun r).pmc = s.pmc := rfl
@[simp] theorem State.putRun_gov (s : State) (r : Run) :
    (s.putRun r).gov = s.gov := rfl
@[simp] theorem State.putRun_mgmt (s : State) (r : Run) :
    (s.putRun r).mgmt = s.mgmt := rfl
@[simp] theorem State.putRun_flog (s : State) (r : Run) :
    (s.putRun r).flog = s.flog := rfl
@[simp] theorem State.putRun_outbox (s : State) (r : Run) :
    (s.putRun r).outbox = s.outbox := rfl
@[simp] theorem State.modRun_pending (s : State) (slot : Nat) (f : Run → Run) :
    (s.modRun slot f).pending = s.pending := rfl
@[simp] theorem State.modRun_free (s : State) (slot : Nat) (f : Run → Run) :
    (s.modRun slot f).free = s.free := rfl
@[simp] theorem State.modRun_regs (s : State) (slot : Nat) (f : Run → Run) :
    (s.modRun slot f).regs = s.regs := rfl
@[simp] theorem State.modRun_mem (s : State) (slot : Nat) (f : Run → Run) :
    (s.modRun slot f).mem = s.mem := rfl
@[simp] theorem State.modRun_core (s : State) (slot : Nat) (f : Run → Run) :
    (s.modRun slot f).core = s.core := rfl
@[simp] theorem State.modRun_side (s : State) (slot : Nat) (f : Run → Run) :
    (s.modRun slot f).side = s.side := rfl
@[simp] theorem State.modRun_clock (s : State) (slot : Nat) (f : Run → Run) :
    (s.modRun slot f).clock = s.clock := rfl
@[simp] theorem State.modRun_power (s : State) (slot : Nat) (f : Run → Run) :
    (s.modRun slot f).power = s.power := rfl
@[simp] theorem State.modRun_fuses (s : State) (slot : Nat) (f : Run → Run) :
    (s.modRun slot f).fuses = s.fuses := rfl
@[simp] theorem State.modRun_flash (s : State) (slot : Nat) (f : Run → Run) :
    (s.modRun slot f).flash = s.flash := rfl
@[simp] theorem State.modRun_trust (s : State) (slot : Nat) (f : Run → Run) :
    (s.modRun slot f).trust = s.trust := rfl
@[simp] theorem State.modRun_image (s : State) (slot : Nat) (f : Run → Run) :
    (s.modRun slot f).image = s.image := rfl
@[simp] theorem State.modRun_odn (s : State) (slot : Nat) (f : Run → Run) :
    (s.modRun slot f).odn = s.odn := rfl
@[simp] theorem State.modRun_work (s : State) (slot : Nat) (f : Run → Run) :
    (s.modRun slot f).work = s.work := rfl
@[simp] theorem State.modRun_runDescs (s : State) (slot : Nat) (f : Run → Run) :
    (s.modRun slot f).runDescs = s.runDescs := rfl
@[simp] theorem State.modRun_heldRegions (s : State) (slot : Nat) (f : Run → Run) :
    (s.modRun slot f).heldRegions = s.heldRegions := rfl
@[simp] theorem State.modRun_resident (s : State) (slot : Nat) (f : Run → Run) :
    (s.modRun slot f).resident = s.resident := rfl
@[simp] theorem State.modRun_disp (s : State) (slot : Nat) (f : Run → Run) :
    (s.modRun slot f).disp = s.disp := rfl
@[simp] theorem State.modRun_emb (s : State) (slot : Nat) (f : Run → Run) :
    (s.modRun slot f).emb = s.emb := rfl
@[simp] theorem State.modRun_mst (s : State) (slot : Nat) (f : Run → Run) :
    (s.modRun slot f).mst = s.mst := rfl
@[simp] theorem State.modRun_pat (s : State) (slot : Nat) (f : Run → Run) :
    (s.modRun slot f).pat = s.pat := rfl
@[simp] theorem State.modRun_tth (s : State) (slot : Nat) (f : Run → Run) :
    (s.modRun slot f).tth = s.tth := rfl
@[simp] theorem State.modRun_units (s : State) (slot : Nat) (f : Run → Run) :
    (s.modRun slot f).units = s.units := rfl
@[simp] theorem State.modRun_pmc (s : State) (slot : Nat) (f : Run → Run) :
    (s.modRun slot f).pmc = s.pmc := rfl
@[simp] theorem State.modRun_gov (s : State) (slot : Nat) (f : Run → Run) :
    (s.modRun slot f).gov = s.gov := rfl
@[simp] theorem State.modRun_mgmt (s : State) (slot : Nat) (f : Run → Run) :
    (s.modRun slot f).mgmt = s.mgmt := rfl
@[simp] theorem State.modRun_flog (s : State) (slot : Nat) (f : Run → Run) :
    (s.modRun slot f).flog = s.flog := rfl
@[simp] theorem State.modRun_outbox (s : State) (slot : Nat) (f : Run → Run) :
    (s.modRun slot f).outbox = s.outbox := rfl
@[simp] theorem State.failRun_pending (s : State) (slot : Nat) (code : Code) :
    (s.failRun slot code).pending = s.pending := rfl
@[simp] theorem State.failRun_free (s : State) (slot : Nat) (code : Code) :
    (s.failRun slot code).free = s.free := rfl
@[simp] theorem State.failRun_regs (s : State) (slot : Nat) (code : Code) :
    (s.failRun slot code).regs = s.regs := rfl
@[simp] theorem State.failRun_mem (s : State) (slot : Nat) (code : Code) :
    (s.failRun slot code).mem = s.mem := rfl
@[simp] theorem State.failRun_core (s : State) (slot : Nat) (code : Code) :
    (s.failRun slot code).core = s.core := rfl
@[simp] theorem State.failRun_side (s : State) (slot : Nat) (code : Code) :
    (s.failRun slot code).side = s.side := rfl
@[simp] theorem State.failRun_clock (s : State) (slot : Nat) (code : Code) :
    (s.failRun slot code).clock = s.clock := rfl
@[simp] theorem State.failRun_power (s : State) (slot : Nat) (code : Code) :
    (s.failRun slot code).power = s.power := rfl
@[simp] theorem State.failRun_fuses (s : State) (slot : Nat) (code : Code) :
    (s.failRun slot code).fuses = s.fuses := rfl
@[simp] theorem State.failRun_flash (s : State) (slot : Nat) (code : Code) :
    (s.failRun slot code).flash = s.flash := rfl
@[simp] theorem State.failRun_trust (s : State) (slot : Nat) (code : Code) :
    (s.failRun slot code).trust = s.trust := rfl
@[simp] theorem State.failRun_image (s : State) (slot : Nat) (code : Code) :
    (s.failRun slot code).image = s.image := rfl
@[simp] theorem State.failRun_odn (s : State) (slot : Nat) (code : Code) :
    (s.failRun slot code).odn = s.odn := rfl
@[simp] theorem State.failRun_work (s : State) (slot : Nat) (code : Code) :
    (s.failRun slot code).work = s.work := rfl
@[simp] theorem State.failRun_runDescs (s : State) (slot : Nat) (code : Code) :
    (s.failRun slot code).runDescs = s.runDescs := rfl
@[simp] theorem State.failRun_heldRegions (s : State) (slot : Nat) (code : Code) :
    (s.failRun slot code).heldRegions = s.heldRegions := rfl
@[simp] theorem State.failRun_resident (s : State) (slot : Nat) (code : Code) :
    (s.failRun slot code).resident = s.resident := rfl
@[simp] theorem State.failRun_disp (s : State) (slot : Nat) (code : Code) :
    (s.failRun slot code).disp = s.disp := rfl
@[simp] theorem State.failRun_emb (s : State) (slot : Nat) (code : Code) :
    (s.failRun slot code).emb = s.emb := rfl
@[simp] theorem State.failRun_mst (s : State) (slot : Nat) (code : Code) :
    (s.failRun slot code).mst = s.mst := rfl
@[simp] theorem State.failRun_pat (s : State) (slot : Nat) (code : Code) :
    (s.failRun slot code).pat = s.pat := rfl
@[simp] theorem State.failRun_tth (s : State) (slot : Nat) (code : Code) :
    (s.failRun slot code).tth = s.tth := rfl
@[simp] theorem State.failRun_units (s : State) (slot : Nat) (code : Code) :
    (s.failRun slot code).units = s.units := rfl
@[simp] theorem State.failRun_pmc (s : State) (slot : Nat) (code : Code) :
    (s.failRun slot code).pmc = s.pmc := rfl
@[simp] theorem State.failRun_gov (s : State) (slot : Nat) (code : Code) :
    (s.failRun slot code).gov = s.gov := rfl
@[simp] theorem State.failRun_mgmt (s : State) (slot : Nat) (code : Code) :
    (s.failRun slot code).mgmt = s.mgmt := rfl
@[simp] theorem State.failRun_flog (s : State) (slot : Nat) (code : Code) :
    (s.failRun slot code).flog = s.flog := rfl
@[simp] theorem State.failRun_outbox (s : State) (slot : Nat) (code : Code) :
    (s.failRun slot code).outbox = s.outbox := rfl
@[simp] theorem State.modWork_pending (s : State) (slot : Nat) (f : RunWork → RunWork) :
    (s.modWork slot f).pending = s.pending := rfl
@[simp] theorem State.modWork_free (s : State) (slot : Nat) (f : RunWork → RunWork) :
    (s.modWork slot f).free = s.free := rfl
@[simp] theorem State.modWork_regs (s : State) (slot : Nat) (f : RunWork → RunWork) :
    (s.modWork slot f).regs = s.regs := rfl
@[simp] theorem State.modWork_mem (s : State) (slot : Nat) (f : RunWork → RunWork) :
    (s.modWork slot f).mem = s.mem := rfl
@[simp] theorem State.modWork_core (s : State) (slot : Nat) (f : RunWork → RunWork) :
    (s.modWork slot f).core = s.core := rfl
@[simp] theorem State.modWork_side (s : State) (slot : Nat) (f : RunWork → RunWork) :
    (s.modWork slot f).side = s.side := rfl
@[simp] theorem State.modWork_clock (s : State) (slot : Nat) (f : RunWork → RunWork) :
    (s.modWork slot f).clock = s.clock := rfl
@[simp] theorem State.modWork_power (s : State) (slot : Nat) (f : RunWork → RunWork) :
    (s.modWork slot f).power = s.power := rfl
@[simp] theorem State.modWork_fuses (s : State) (slot : Nat) (f : RunWork → RunWork) :
    (s.modWork slot f).fuses = s.fuses := rfl
@[simp] theorem State.modWork_flash (s : State) (slot : Nat) (f : RunWork → RunWork) :
    (s.modWork slot f).flash = s.flash := rfl
@[simp] theorem State.modWork_trust (s : State) (slot : Nat) (f : RunWork → RunWork) :
    (s.modWork slot f).trust = s.trust := rfl
@[simp] theorem State.modWork_image (s : State) (slot : Nat) (f : RunWork → RunWork) :
    (s.modWork slot f).image = s.image := rfl
@[simp] theorem State.modWork_odn (s : State) (slot : Nat) (f : RunWork → RunWork) :
    (s.modWork slot f).odn = s.odn := rfl
@[simp] theorem State.modWork_runs (s : State) (slot : Nat) (f : RunWork → RunWork) :
    (s.modWork slot f).runs = s.runs := rfl
@[simp] theorem State.modWork_runDescs (s : State) (slot : Nat) (f : RunWork → RunWork) :
    (s.modWork slot f).runDescs = s.runDescs := rfl
@[simp] theorem State.modWork_heldRegions (s : State) (slot : Nat) (f : RunWork → RunWork) :
    (s.modWork slot f).heldRegions = s.heldRegions := rfl
@[simp] theorem State.modWork_resident (s : State) (slot : Nat) (f : RunWork → RunWork) :
    (s.modWork slot f).resident = s.resident := rfl
@[simp] theorem State.modWork_disp (s : State) (slot : Nat) (f : RunWork → RunWork) :
    (s.modWork slot f).disp = s.disp := rfl
@[simp] theorem State.modWork_emb (s : State) (slot : Nat) (f : RunWork → RunWork) :
    (s.modWork slot f).emb = s.emb := rfl
@[simp] theorem State.modWork_mst (s : State) (slot : Nat) (f : RunWork → RunWork) :
    (s.modWork slot f).mst = s.mst := rfl
@[simp] theorem State.modWork_pat (s : State) (slot : Nat) (f : RunWork → RunWork) :
    (s.modWork slot f).pat = s.pat := rfl
@[simp] theorem State.modWork_tth (s : State) (slot : Nat) (f : RunWork → RunWork) :
    (s.modWork slot f).tth = s.tth := rfl
@[simp] theorem State.modWork_units (s : State) (slot : Nat) (f : RunWork → RunWork) :
    (s.modWork slot f).units = s.units := rfl
@[simp] theorem State.modWork_pmc (s : State) (slot : Nat) (f : RunWork → RunWork) :
    (s.modWork slot f).pmc = s.pmc := rfl
@[simp] theorem State.modWork_gov (s : State) (slot : Nat) (f : RunWork → RunWork) :
    (s.modWork slot f).gov = s.gov := rfl
@[simp] theorem State.modWork_mgmt (s : State) (slot : Nat) (f : RunWork → RunWork) :
    (s.modWork slot f).mgmt = s.mgmt := rfl
@[simp] theorem State.modWork_flog (s : State) (slot : Nat) (f : RunWork → RunWork) :
    (s.modWork slot f).flog = s.flog := rfl
@[simp] theorem State.modWork_outbox (s : State) (slot : Nat) (f : RunWork → RunWork) :
    (s.modWork slot f).outbox = s.outbox := rfl
@[simp] theorem State.putOpen_pending (s : State) (slot : Nat) (b : OpenBatch) :
    (s.putOpen slot b).pending = s.pending := rfl
@[simp] theorem State.putOpen_free (s : State) (slot : Nat) (b : OpenBatch) :
    (s.putOpen slot b).free = s.free := rfl
@[simp] theorem State.putOpen_regs (s : State) (slot : Nat) (b : OpenBatch) :
    (s.putOpen slot b).regs = s.regs := rfl
@[simp] theorem State.putOpen_mem (s : State) (slot : Nat) (b : OpenBatch) :
    (s.putOpen slot b).mem = s.mem := rfl
@[simp] theorem State.putOpen_core (s : State) (slot : Nat) (b : OpenBatch) :
    (s.putOpen slot b).core = s.core := rfl
@[simp] theorem State.putOpen_side (s : State) (slot : Nat) (b : OpenBatch) :
    (s.putOpen slot b).side = s.side := rfl
@[simp] theorem State.putOpen_clock (s : State) (slot : Nat) (b : OpenBatch) :
    (s.putOpen slot b).clock = s.clock := rfl
@[simp] theorem State.putOpen_power (s : State) (slot : Nat) (b : OpenBatch) :
    (s.putOpen slot b).power = s.power := rfl
@[simp] theorem State.putOpen_fuses (s : State) (slot : Nat) (b : OpenBatch) :
    (s.putOpen slot b).fuses = s.fuses := rfl
@[simp] theorem State.putOpen_flash (s : State) (slot : Nat) (b : OpenBatch) :
    (s.putOpen slot b).flash = s.flash := rfl
@[simp] theorem State.putOpen_trust (s : State) (slot : Nat) (b : OpenBatch) :
    (s.putOpen slot b).trust = s.trust := rfl
@[simp] theorem State.putOpen_image (s : State) (slot : Nat) (b : OpenBatch) :
    (s.putOpen slot b).image = s.image := rfl
@[simp] theorem State.putOpen_odn (s : State) (slot : Nat) (b : OpenBatch) :
    (s.putOpen slot b).odn = s.odn := rfl
@[simp] theorem State.putOpen_runs (s : State) (slot : Nat) (b : OpenBatch) :
    (s.putOpen slot b).runs = s.runs := rfl
@[simp] theorem State.putOpen_runDescs (s : State) (slot : Nat) (b : OpenBatch) :
    (s.putOpen slot b).runDescs = s.runDescs := rfl
@[simp] theorem State.putOpen_heldRegions (s : State) (slot : Nat) (b : OpenBatch) :
    (s.putOpen slot b).heldRegions = s.heldRegions := rfl
@[simp] theorem State.putOpen_resident (s : State) (slot : Nat) (b : OpenBatch) :
    (s.putOpen slot b).resident = s.resident := rfl
@[simp] theorem State.putOpen_disp (s : State) (slot : Nat) (b : OpenBatch) :
    (s.putOpen slot b).disp = s.disp := rfl
@[simp] theorem State.putOpen_emb (s : State) (slot : Nat) (b : OpenBatch) :
    (s.putOpen slot b).emb = s.emb := rfl
@[simp] theorem State.putOpen_mst (s : State) (slot : Nat) (b : OpenBatch) :
    (s.putOpen slot b).mst = s.mst := rfl
@[simp] theorem State.putOpen_pat (s : State) (slot : Nat) (b : OpenBatch) :
    (s.putOpen slot b).pat = s.pat := rfl
@[simp] theorem State.putOpen_tth (s : State) (slot : Nat) (b : OpenBatch) :
    (s.putOpen slot b).tth = s.tth := rfl
@[simp] theorem State.putOpen_units (s : State) (slot : Nat) (b : OpenBatch) :
    (s.putOpen slot b).units = s.units := rfl
@[simp] theorem State.putOpen_pmc (s : State) (slot : Nat) (b : OpenBatch) :
    (s.putOpen slot b).pmc = s.pmc := rfl
@[simp] theorem State.putOpen_gov (s : State) (slot : Nat) (b : OpenBatch) :
    (s.putOpen slot b).gov = s.gov := rfl
@[simp] theorem State.putOpen_mgmt (s : State) (slot : Nat) (b : OpenBatch) :
    (s.putOpen slot b).mgmt = s.mgmt := rfl
@[simp] theorem State.putOpen_flog (s : State) (slot : Nat) (b : OpenBatch) :
    (s.putOpen slot b).flog = s.flog := rfl
@[simp] theorem State.putOpen_outbox (s : State) (slot : Nat) (b : OpenBatch) :
    (s.putOpen slot b).outbox = s.outbox := rfl
@[simp] theorem State.putTask_pending (s : State) (t : Task) :
    (s.putTask t).pending = s.pending := rfl
@[simp] theorem State.putTask_free (s : State) (t : Task) :
    (s.putTask t).free = s.free := rfl
@[simp] theorem State.putTask_regs (s : State) (t : Task) :
    (s.putTask t).regs = s.regs := rfl
@[simp] theorem State.putTask_mem (s : State) (t : Task) :
    (s.putTask t).mem = s.mem := rfl
@[simp] theorem State.putTask_core (s : State) (t : Task) :
    (s.putTask t).core = s.core := rfl
@[simp] theorem State.putTask_side (s : State) (t : Task) :
    (s.putTask t).side = s.side := rfl
@[simp] theorem State.putTask_clock (s : State) (t : Task) :
    (s.putTask t).clock = s.clock := rfl
@[simp] theorem State.putTask_power (s : State) (t : Task) :
    (s.putTask t).power = s.power := rfl
@[simp] theorem State.putTask_fuses (s : State) (t : Task) :
    (s.putTask t).fuses = s.fuses := rfl
@[simp] theorem State.putTask_flash (s : State) (t : Task) :
    (s.putTask t).flash = s.flash := rfl
@[simp] theorem State.putTask_trust (s : State) (t : Task) :
    (s.putTask t).trust = s.trust := rfl
@[simp] theorem State.putTask_image (s : State) (t : Task) :
    (s.putTask t).image = s.image := rfl
@[simp] theorem State.putTask_odn (s : State) (t : Task) :
    (s.putTask t).odn = s.odn := rfl
@[simp] theorem State.putTask_runs (s : State) (t : Task) :
    (s.putTask t).runs = s.runs := rfl
@[simp] theorem State.putTask_work (s : State) (t : Task) :
    (s.putTask t).work = s.work := rfl
@[simp] theorem State.putTask_runDescs (s : State) (t : Task) :
    (s.putTask t).runDescs = s.runDescs := rfl
@[simp] theorem State.putTask_heldRegions (s : State) (t : Task) :
    (s.putTask t).heldRegions = s.heldRegions := rfl
@[simp] theorem State.putTask_resident (s : State) (t : Task) :
    (s.putTask t).resident = s.resident := rfl
@[simp] theorem State.putTask_emb (s : State) (t : Task) :
    (s.putTask t).emb = s.emb := rfl
@[simp] theorem State.putTask_mst (s : State) (t : Task) :
    (s.putTask t).mst = s.mst := rfl
@[simp] theorem State.putTask_pat (s : State) (t : Task) :
    (s.putTask t).pat = s.pat := rfl
@[simp] theorem State.putTask_tth (s : State) (t : Task) :
    (s.putTask t).tth = s.tth := rfl
@[simp] theorem State.putTask_units (s : State) (t : Task) :
    (s.putTask t).units = s.units := rfl
@[simp] theorem State.putTask_pmc (s : State) (t : Task) :
    (s.putTask t).pmc = s.pmc := rfl
@[simp] theorem State.putTask_gov (s : State) (t : Task) :
    (s.putTask t).gov = s.gov := rfl
@[simp] theorem State.putTask_mgmt (s : State) (t : Task) :
    (s.putTask t).mgmt = s.mgmt := rfl
@[simp] theorem State.putTask_flog (s : State) (t : Task) :
    (s.putTask t).flog = s.flog := rfl
@[simp] theorem State.putTask_outbox (s : State) (t : Task) :
    (s.putTask t).outbox = s.outbox := rfl
@[simp] theorem State.modCtx_pending (s : State) (slot q : Nat) (f : Ctx → Ctx) :
    (s.modCtx slot q f).pending = s.pending := rfl
@[simp] theorem State.modCtx_free (s : State) (slot q : Nat) (f : Ctx → Ctx) :
    (s.modCtx slot q f).free = s.free := rfl
@[simp] theorem State.modCtx_regs (s : State) (slot q : Nat) (f : Ctx → Ctx) :
    (s.modCtx slot q f).regs = s.regs := rfl
@[simp] theorem State.modCtx_mem (s : State) (slot q : Nat) (f : Ctx → Ctx) :
    (s.modCtx slot q f).mem = s.mem := rfl
@[simp] theorem State.modCtx_core (s : State) (slot q : Nat) (f : Ctx → Ctx) :
    (s.modCtx slot q f).core = s.core := rfl
@[simp] theorem State.modCtx_side (s : State) (slot q : Nat) (f : Ctx → Ctx) :
    (s.modCtx slot q f).side = s.side := rfl
@[simp] theorem State.modCtx_clock (s : State) (slot q : Nat) (f : Ctx → Ctx) :
    (s.modCtx slot q f).clock = s.clock := rfl
@[simp] theorem State.modCtx_power (s : State) (slot q : Nat) (f : Ctx → Ctx) :
    (s.modCtx slot q f).power = s.power := rfl
@[simp] theorem State.modCtx_fuses (s : State) (slot q : Nat) (f : Ctx → Ctx) :
    (s.modCtx slot q f).fuses = s.fuses := rfl
@[simp] theorem State.modCtx_flash (s : State) (slot q : Nat) (f : Ctx → Ctx) :
    (s.modCtx slot q f).flash = s.flash := rfl
@[simp] theorem State.modCtx_trust (s : State) (slot q : Nat) (f : Ctx → Ctx) :
    (s.modCtx slot q f).trust = s.trust := rfl
@[simp] theorem State.modCtx_image (s : State) (slot q : Nat) (f : Ctx → Ctx) :
    (s.modCtx slot q f).image = s.image := rfl
@[simp] theorem State.modCtx_odn (s : State) (slot q : Nat) (f : Ctx → Ctx) :
    (s.modCtx slot q f).odn = s.odn := rfl
@[simp] theorem State.modCtx_runs (s : State) (slot q : Nat) (f : Ctx → Ctx) :
    (s.modCtx slot q f).runs = s.runs := rfl
@[simp] theorem State.modCtx_work (s : State) (slot q : Nat) (f : Ctx → Ctx) :
    (s.modCtx slot q f).work = s.work := rfl
@[simp] theorem State.modCtx_runDescs (s : State) (slot q : Nat) (f : Ctx → Ctx) :
    (s.modCtx slot q f).runDescs = s.runDescs := rfl
@[simp] theorem State.modCtx_heldRegions (s : State) (slot q : Nat) (f : Ctx → Ctx) :
    (s.modCtx slot q f).heldRegions = s.heldRegions := rfl
@[simp] theorem State.modCtx_resident (s : State) (slot q : Nat) (f : Ctx → Ctx) :
    (s.modCtx slot q f).resident = s.resident := rfl
@[simp] theorem State.modCtx_emb (s : State) (slot q : Nat) (f : Ctx → Ctx) :
    (s.modCtx slot q f).emb = s.emb := rfl
@[simp] theorem State.modCtx_mst (s : State) (slot q : Nat) (f : Ctx → Ctx) :
    (s.modCtx slot q f).mst = s.mst := rfl
@[simp] theorem State.modCtx_pat (s : State) (slot q : Nat) (f : Ctx → Ctx) :
    (s.modCtx slot q f).pat = s.pat := rfl
@[simp] theorem State.modCtx_tth (s : State) (slot q : Nat) (f : Ctx → Ctx) :
    (s.modCtx slot q f).tth = s.tth := rfl
@[simp] theorem State.modCtx_units (s : State) (slot q : Nat) (f : Ctx → Ctx) :
    (s.modCtx slot q f).units = s.units := rfl
@[simp] theorem State.modCtx_pmc (s : State) (slot q : Nat) (f : Ctx → Ctx) :
    (s.modCtx slot q f).pmc = s.pmc := rfl
@[simp] theorem State.modCtx_gov (s : State) (slot q : Nat) (f : Ctx → Ctx) :
    (s.modCtx slot q f).gov = s.gov := rfl
@[simp] theorem State.modCtx_mgmt (s : State) (slot q : Nat) (f : Ctx → Ctx) :
    (s.modCtx slot q f).mgmt = s.mgmt := rfl
@[simp] theorem State.modCtx_flog (s : State) (slot q : Nat) (f : Ctx → Ctx) :
    (s.modCtx slot q f).flog = s.flog := rfl
@[simp] theorem State.modCtx_outbox (s : State) (slot q : Nat) (f : Ctx → Ctx) :
    (s.modCtx slot q f).outbox = s.outbox := rfl
@[simp] theorem State.modEmb_pending (s : State) (f : Emb → Emb) :
    (s.modEmb f).pending = s.pending := rfl
@[simp] theorem State.modEmb_free (s : State) (f : Emb → Emb) :
    (s.modEmb f).free = s.free := rfl
@[simp] theorem State.modEmb_regs (s : State) (f : Emb → Emb) :
    (s.modEmb f).regs = s.regs := rfl
@[simp] theorem State.modEmb_mem (s : State) (f : Emb → Emb) :
    (s.modEmb f).mem = s.mem := rfl
@[simp] theorem State.modEmb_core (s : State) (f : Emb → Emb) :
    (s.modEmb f).core = s.core := rfl
@[simp] theorem State.modEmb_side (s : State) (f : Emb → Emb) :
    (s.modEmb f).side = s.side := rfl
@[simp] theorem State.modEmb_clock (s : State) (f : Emb → Emb) :
    (s.modEmb f).clock = s.clock := rfl
@[simp] theorem State.modEmb_power (s : State) (f : Emb → Emb) :
    (s.modEmb f).power = s.power := rfl
@[simp] theorem State.modEmb_fuses (s : State) (f : Emb → Emb) :
    (s.modEmb f).fuses = s.fuses := rfl
@[simp] theorem State.modEmb_flash (s : State) (f : Emb → Emb) :
    (s.modEmb f).flash = s.flash := rfl
@[simp] theorem State.modEmb_trust (s : State) (f : Emb → Emb) :
    (s.modEmb f).trust = s.trust := rfl
@[simp] theorem State.modEmb_image (s : State) (f : Emb → Emb) :
    (s.modEmb f).image = s.image := rfl
@[simp] theorem State.modEmb_odn (s : State) (f : Emb → Emb) :
    (s.modEmb f).odn = s.odn := rfl
@[simp] theorem State.modEmb_runs (s : State) (f : Emb → Emb) :
    (s.modEmb f).runs = s.runs := rfl
@[simp] theorem State.modEmb_work (s : State) (f : Emb → Emb) :
    (s.modEmb f).work = s.work := rfl
@[simp] theorem State.modEmb_runDescs (s : State) (f : Emb → Emb) :
    (s.modEmb f).runDescs = s.runDescs := rfl
@[simp] theorem State.modEmb_heldRegions (s : State) (f : Emb → Emb) :
    (s.modEmb f).heldRegions = s.heldRegions := rfl
@[simp] theorem State.modEmb_resident (s : State) (f : Emb → Emb) :
    (s.modEmb f).resident = s.resident := rfl
@[simp] theorem State.modEmb_disp (s : State) (f : Emb → Emb) :
    (s.modEmb f).disp = s.disp := rfl
@[simp] theorem State.modEmb_mst (s : State) (f : Emb → Emb) :
    (s.modEmb f).mst = s.mst := rfl
@[simp] theorem State.modEmb_pat (s : State) (f : Emb → Emb) :
    (s.modEmb f).pat = s.pat := rfl
@[simp] theorem State.modEmb_tth (s : State) (f : Emb → Emb) :
    (s.modEmb f).tth = s.tth := rfl
@[simp] theorem State.modEmb_units (s : State) (f : Emb → Emb) :
    (s.modEmb f).units = s.units := rfl
@[simp] theorem State.modEmb_pmc (s : State) (f : Emb → Emb) :
    (s.modEmb f).pmc = s.pmc := rfl
@[simp] theorem State.modEmb_gov (s : State) (f : Emb → Emb) :
    (s.modEmb f).gov = s.gov := rfl
@[simp] theorem State.modEmb_mgmt (s : State) (f : Emb → Emb) :
    (s.modEmb f).mgmt = s.mgmt := rfl
@[simp] theorem State.modEmb_flog (s : State) (f : Emb → Emb) :
    (s.modEmb f).flog = s.flog := rfl
@[simp] theorem State.modEmb_outbox (s : State) (f : Emb → Emb) :
    (s.modEmb f).outbox = s.outbox := rfl
@[simp] theorem State.putRow_pending (s : State) (r : Row) :
    (s.putRow r).pending = s.pending := rfl
@[simp] theorem State.putRow_free (s : State) (r : Row) :
    (s.putRow r).free = s.free := rfl
@[simp] theorem State.putRow_regs (s : State) (r : Row) :
    (s.putRow r).regs = s.regs := rfl
@[simp] theorem State.putRow_mem (s : State) (r : Row) :
    (s.putRow r).mem = s.mem := rfl
@[simp] theorem State.putRow_core (s : State) (r : Row) :
    (s.putRow r).core = s.core := rfl
@[simp] theorem State.putRow_side (s : State) (r : Row) :
    (s.putRow r).side = s.side := rfl
@[simp] theorem State.putRow_clock (s : State) (r : Row) :
    (s.putRow r).clock = s.clock := rfl
@[simp] theorem State.putRow_power (s : State) (r : Row) :
    (s.putRow r).power = s.power := rfl
@[simp] theorem State.putRow_fuses (s : State) (r : Row) :
    (s.putRow r).fuses = s.fuses := rfl
@[simp] theorem State.putRow_flash (s : State) (r : Row) :
    (s.putRow r).flash = s.flash := rfl
@[simp] theorem State.putRow_trust (s : State) (r : Row) :
    (s.putRow r).trust = s.trust := rfl
@[simp] theorem State.putRow_image (s : State) (r : Row) :
    (s.putRow r).image = s.image := rfl
@[simp] theorem State.putRow_odn (s : State) (r : Row) :
    (s.putRow r).odn = s.odn := rfl
@[simp] theorem State.putRow_runs (s : State) (r : Row) :
    (s.putRow r).runs = s.runs := rfl
@[simp] theorem State.putRow_work (s : State) (r : Row) :
    (s.putRow r).work = s.work := rfl
@[simp] theorem State.putRow_runDescs (s : State) (r : Row) :
    (s.putRow r).runDescs = s.runDescs := rfl
@[simp] theorem State.putRow_heldRegions (s : State) (r : Row) :
    (s.putRow r).heldRegions = s.heldRegions := rfl
@[simp] theorem State.putRow_resident (s : State) (r : Row) :
    (s.putRow r).resident = s.resident := rfl
@[simp] theorem State.putRow_disp (s : State) (r : Row) :
    (s.putRow r).disp = s.disp := rfl
@[simp] theorem State.putRow_mst (s : State) (r : Row) :
    (s.putRow r).mst = s.mst := rfl
@[simp] theorem State.putRow_pat (s : State) (r : Row) :
    (s.putRow r).pat = s.pat := rfl
@[simp] theorem State.putRow_tth (s : State) (r : Row) :
    (s.putRow r).tth = s.tth := rfl
@[simp] theorem State.putRow_units (s : State) (r : Row) :
    (s.putRow r).units = s.units := rfl
@[simp] theorem State.putRow_pmc (s : State) (r : Row) :
    (s.putRow r).pmc = s.pmc := rfl
@[simp] theorem State.putRow_gov (s : State) (r : Row) :
    (s.putRow r).gov = s.gov := rfl
@[simp] theorem State.putRow_mgmt (s : State) (r : Row) :
    (s.putRow r).mgmt = s.mgmt := rfl
@[simp] theorem State.putRow_flog (s : State) (r : Row) :
    (s.putRow r).flog = s.flog := rfl
@[simp] theorem State.putRow_outbox (s : State) (r : Row) :
    (s.putRow r).outbox = s.outbox := rfl
@[simp] theorem State.modHot_pending (s : State) (table : Nat) (id : W64) (f : HotRow → HotRow) :
    (s.modHot table id f).pending = s.pending := rfl
@[simp] theorem State.modHot_free (s : State) (table : Nat) (id : W64) (f : HotRow → HotRow) :
    (s.modHot table id f).free = s.free := rfl
@[simp] theorem State.modHot_regs (s : State) (table : Nat) (id : W64) (f : HotRow → HotRow) :
    (s.modHot table id f).regs = s.regs := rfl
@[simp] theorem State.modHot_mem (s : State) (table : Nat) (id : W64) (f : HotRow → HotRow) :
    (s.modHot table id f).mem = s.mem := rfl
@[simp] theorem State.modHot_core (s : State) (table : Nat) (id : W64) (f : HotRow → HotRow) :
    (s.modHot table id f).core = s.core := rfl
@[simp] theorem State.modHot_side (s : State) (table : Nat) (id : W64) (f : HotRow → HotRow) :
    (s.modHot table id f).side = s.side := rfl
@[simp] theorem State.modHot_clock (s : State) (table : Nat) (id : W64) (f : HotRow → HotRow) :
    (s.modHot table id f).clock = s.clock := rfl
@[simp] theorem State.modHot_power (s : State) (table : Nat) (id : W64) (f : HotRow → HotRow) :
    (s.modHot table id f).power = s.power := rfl
@[simp] theorem State.modHot_fuses (s : State) (table : Nat) (id : W64) (f : HotRow → HotRow) :
    (s.modHot table id f).fuses = s.fuses := rfl
@[simp] theorem State.modHot_flash (s : State) (table : Nat) (id : W64) (f : HotRow → HotRow) :
    (s.modHot table id f).flash = s.flash := rfl
@[simp] theorem State.modHot_trust (s : State) (table : Nat) (id : W64) (f : HotRow → HotRow) :
    (s.modHot table id f).trust = s.trust := rfl
@[simp] theorem State.modHot_image (s : State) (table : Nat) (id : W64) (f : HotRow → HotRow) :
    (s.modHot table id f).image = s.image := rfl
@[simp] theorem State.modHot_odn (s : State) (table : Nat) (id : W64) (f : HotRow → HotRow) :
    (s.modHot table id f).odn = s.odn := rfl
@[simp] theorem State.modHot_runs (s : State) (table : Nat) (id : W64) (f : HotRow → HotRow) :
    (s.modHot table id f).runs = s.runs := rfl
@[simp] theorem State.modHot_work (s : State) (table : Nat) (id : W64) (f : HotRow → HotRow) :
    (s.modHot table id f).work = s.work := rfl
@[simp] theorem State.modHot_runDescs (s : State) (table : Nat) (id : W64) (f : HotRow → HotRow) :
    (s.modHot table id f).runDescs = s.runDescs := rfl
@[simp] theorem State.modHot_heldRegions (s : State) (table : Nat) (id : W64) (f : HotRow → HotRow) :
    (s.modHot table id f).heldRegions = s.heldRegions := rfl
@[simp] theorem State.modHot_resident (s : State) (table : Nat) (id : W64) (f : HotRow → HotRow) :
    (s.modHot table id f).resident = s.resident := rfl
@[simp] theorem State.modHot_disp (s : State) (table : Nat) (id : W64) (f : HotRow → HotRow) :
    (s.modHot table id f).disp = s.disp := rfl
@[simp] theorem State.modHot_mst (s : State) (table : Nat) (id : W64) (f : HotRow → HotRow) :
    (s.modHot table id f).mst = s.mst := rfl
@[simp] theorem State.modHot_pat (s : State) (table : Nat) (id : W64) (f : HotRow → HotRow) :
    (s.modHot table id f).pat = s.pat := rfl
@[simp] theorem State.modHot_tth (s : State) (table : Nat) (id : W64) (f : HotRow → HotRow) :
    (s.modHot table id f).tth = s.tth := rfl
@[simp] theorem State.modHot_units (s : State) (table : Nat) (id : W64) (f : HotRow → HotRow) :
    (s.modHot table id f).units = s.units := rfl
@[simp] theorem State.modHot_pmc (s : State) (table : Nat) (id : W64) (f : HotRow → HotRow) :
    (s.modHot table id f).pmc = s.pmc := rfl
@[simp] theorem State.modHot_gov (s : State) (table : Nat) (id : W64) (f : HotRow → HotRow) :
    (s.modHot table id f).gov = s.gov := rfl
@[simp] theorem State.modHot_mgmt (s : State) (table : Nat) (id : W64) (f : HotRow → HotRow) :
    (s.modHot table id f).mgmt = s.mgmt := rfl
@[simp] theorem State.modHot_flog (s : State) (table : Nat) (id : W64) (f : HotRow → HotRow) :
    (s.modHot table id f).flog = s.flog := rfl
@[simp] theorem State.modHot_outbox (s : State) (table : Nat) (id : W64) (f : HotRow → HotRow) :
    (s.modHot table id f).outbox = s.outbox := rfl
@[simp] theorem State.modRound_pending (s : State) (slot : Nat) (f : Round → Round) :
    (s.modRound slot f).pending = s.pending := rfl
@[simp] theorem State.modRound_free (s : State) (slot : Nat) (f : Round → Round) :
    (s.modRound slot f).free = s.free := rfl
@[simp] theorem State.modRound_regs (s : State) (slot : Nat) (f : Round → Round) :
    (s.modRound slot f).regs = s.regs := rfl
@[simp] theorem State.modRound_mem (s : State) (slot : Nat) (f : Round → Round) :
    (s.modRound slot f).mem = s.mem := rfl
@[simp] theorem State.modRound_core (s : State) (slot : Nat) (f : Round → Round) :
    (s.modRound slot f).core = s.core := rfl
@[simp] theorem State.modRound_side (s : State) (slot : Nat) (f : Round → Round) :
    (s.modRound slot f).side = s.side := rfl
@[simp] theorem State.modRound_clock (s : State) (slot : Nat) (f : Round → Round) :
    (s.modRound slot f).clock = s.clock := rfl
@[simp] theorem State.modRound_power (s : State) (slot : Nat) (f : Round → Round) :
    (s.modRound slot f).power = s.power := rfl
@[simp] theorem State.modRound_fuses (s : State) (slot : Nat) (f : Round → Round) :
    (s.modRound slot f).fuses = s.fuses := rfl
@[simp] theorem State.modRound_flash (s : State) (slot : Nat) (f : Round → Round) :
    (s.modRound slot f).flash = s.flash := rfl
@[simp] theorem State.modRound_trust (s : State) (slot : Nat) (f : Round → Round) :
    (s.modRound slot f).trust = s.trust := rfl
@[simp] theorem State.modRound_image (s : State) (slot : Nat) (f : Round → Round) :
    (s.modRound slot f).image = s.image := rfl
@[simp] theorem State.modRound_odn (s : State) (slot : Nat) (f : Round → Round) :
    (s.modRound slot f).odn = s.odn := rfl
@[simp] theorem State.modRound_runs (s : State) (slot : Nat) (f : Round → Round) :
    (s.modRound slot f).runs = s.runs := rfl
@[simp] theorem State.modRound_work (s : State) (slot : Nat) (f : Round → Round) :
    (s.modRound slot f).work = s.work := rfl
@[simp] theorem State.modRound_runDescs (s : State) (slot : Nat) (f : Round → Round) :
    (s.modRound slot f).runDescs = s.runDescs := rfl
@[simp] theorem State.modRound_heldRegions (s : State) (slot : Nat) (f : Round → Round) :
    (s.modRound slot f).heldRegions = s.heldRegions := rfl
@[simp] theorem State.modRound_resident (s : State) (slot : Nat) (f : Round → Round) :
    (s.modRound slot f).resident = s.resident := rfl
@[simp] theorem State.modRound_disp (s : State) (slot : Nat) (f : Round → Round) :
    (s.modRound slot f).disp = s.disp := rfl
@[simp] theorem State.modRound_mst (s : State) (slot : Nat) (f : Round → Round) :
    (s.modRound slot f).mst = s.mst := rfl
@[simp] theorem State.modRound_pat (s : State) (slot : Nat) (f : Round → Round) :
    (s.modRound slot f).pat = s.pat := rfl
@[simp] theorem State.modRound_tth (s : State) (slot : Nat) (f : Round → Round) :
    (s.modRound slot f).tth = s.tth := rfl
@[simp] theorem State.modRound_units (s : State) (slot : Nat) (f : Round → Round) :
    (s.modRound slot f).units = s.units := rfl
@[simp] theorem State.modRound_pmc (s : State) (slot : Nat) (f : Round → Round) :
    (s.modRound slot f).pmc = s.pmc := rfl
@[simp] theorem State.modRound_gov (s : State) (slot : Nat) (f : Round → Round) :
    (s.modRound slot f).gov = s.gov := rfl
@[simp] theorem State.modRound_mgmt (s : State) (slot : Nat) (f : Round → Round) :
    (s.modRound slot f).mgmt = s.mgmt := rfl
@[simp] theorem State.modRound_flog (s : State) (slot : Nat) (f : Round → Round) :
    (s.modRound slot f).flog = s.flog := rfl
@[simp] theorem State.modRound_outbox (s : State) (slot : Nat) (f : Round → Round) :
    (s.modRound slot f).outbox = s.outbox := rfl
@[simp] theorem State.modMig_pending (s : State) (slot : Nat) (f : Mig → Mig) :
    (s.modMig slot f).pending = s.pending := rfl
@[simp] theorem State.modMig_free (s : State) (slot : Nat) (f : Mig → Mig) :
    (s.modMig slot f).free = s.free := rfl
@[simp] theorem State.modMig_regs (s : State) (slot : Nat) (f : Mig → Mig) :
    (s.modMig slot f).regs = s.regs := rfl
@[simp] theorem State.modMig_mem (s : State) (slot : Nat) (f : Mig → Mig) :
    (s.modMig slot f).mem = s.mem := rfl
@[simp] theorem State.modMig_core (s : State) (slot : Nat) (f : Mig → Mig) :
    (s.modMig slot f).core = s.core := rfl
@[simp] theorem State.modMig_side (s : State) (slot : Nat) (f : Mig → Mig) :
    (s.modMig slot f).side = s.side := rfl
@[simp] theorem State.modMig_clock (s : State) (slot : Nat) (f : Mig → Mig) :
    (s.modMig slot f).clock = s.clock := rfl
@[simp] theorem State.modMig_power (s : State) (slot : Nat) (f : Mig → Mig) :
    (s.modMig slot f).power = s.power := rfl
@[simp] theorem State.modMig_fuses (s : State) (slot : Nat) (f : Mig → Mig) :
    (s.modMig slot f).fuses = s.fuses := rfl
@[simp] theorem State.modMig_flash (s : State) (slot : Nat) (f : Mig → Mig) :
    (s.modMig slot f).flash = s.flash := rfl
@[simp] theorem State.modMig_trust (s : State) (slot : Nat) (f : Mig → Mig) :
    (s.modMig slot f).trust = s.trust := rfl
@[simp] theorem State.modMig_image (s : State) (slot : Nat) (f : Mig → Mig) :
    (s.modMig slot f).image = s.image := rfl
@[simp] theorem State.modMig_odn (s : State) (slot : Nat) (f : Mig → Mig) :
    (s.modMig slot f).odn = s.odn := rfl
@[simp] theorem State.modMig_runs (s : State) (slot : Nat) (f : Mig → Mig) :
    (s.modMig slot f).runs = s.runs := rfl
@[simp] theorem State.modMig_work (s : State) (slot : Nat) (f : Mig → Mig) :
    (s.modMig slot f).work = s.work := rfl
@[simp] theorem State.modMig_runDescs (s : State) (slot : Nat) (f : Mig → Mig) :
    (s.modMig slot f).runDescs = s.runDescs := rfl
@[simp] theorem State.modMig_heldRegions (s : State) (slot : Nat) (f : Mig → Mig) :
    (s.modMig slot f).heldRegions = s.heldRegions := rfl
@[simp] theorem State.modMig_resident (s : State) (slot : Nat) (f : Mig → Mig) :
    (s.modMig slot f).resident = s.resident := rfl
@[simp] theorem State.modMig_disp (s : State) (slot : Nat) (f : Mig → Mig) :
    (s.modMig slot f).disp = s.disp := rfl
@[simp] theorem State.modMig_mst (s : State) (slot : Nat) (f : Mig → Mig) :
    (s.modMig slot f).mst = s.mst := rfl
@[simp] theorem State.modMig_pat (s : State) (slot : Nat) (f : Mig → Mig) :
    (s.modMig slot f).pat = s.pat := rfl
@[simp] theorem State.modMig_tth (s : State) (slot : Nat) (f : Mig → Mig) :
    (s.modMig slot f).tth = s.tth := rfl
@[simp] theorem State.modMig_units (s : State) (slot : Nat) (f : Mig → Mig) :
    (s.modMig slot f).units = s.units := rfl
@[simp] theorem State.modMig_pmc (s : State) (slot : Nat) (f : Mig → Mig) :
    (s.modMig slot f).pmc = s.pmc := rfl
@[simp] theorem State.modMig_gov (s : State) (slot : Nat) (f : Mig → Mig) :
    (s.modMig slot f).gov = s.gov := rfl
@[simp] theorem State.modMig_mgmt (s : State) (slot : Nat) (f : Mig → Mig) :
    (s.modMig slot f).mgmt = s.mgmt := rfl
@[simp] theorem State.modMig_flog (s : State) (slot : Nat) (f : Mig → Mig) :
    (s.modMig slot f).flog = s.flog := rfl
@[simp] theorem State.modMig_outbox (s : State) (slot : Nat) (f : Mig → Mig) :
    (s.modMig slot f).outbox = s.outbox := rfl
@[simp] theorem State.modUnits_pending (s : State) (f : Units → Units) :
    (s.modUnits f).pending = s.pending := rfl
@[simp] theorem State.modUnits_free (s : State) (f : Units → Units) :
    (s.modUnits f).free = s.free := rfl
@[simp] theorem State.modUnits_regs (s : State) (f : Units → Units) :
    (s.modUnits f).regs = s.regs := rfl
@[simp] theorem State.modUnits_mem (s : State) (f : Units → Units) :
    (s.modUnits f).mem = s.mem := rfl
@[simp] theorem State.modUnits_core (s : State) (f : Units → Units) :
    (s.modUnits f).core = s.core := rfl
@[simp] theorem State.modUnits_side (s : State) (f : Units → Units) :
    (s.modUnits f).side = s.side := rfl
@[simp] theorem State.modUnits_clock (s : State) (f : Units → Units) :
    (s.modUnits f).clock = s.clock := rfl
@[simp] theorem State.modUnits_power (s : State) (f : Units → Units) :
    (s.modUnits f).power = s.power := rfl
@[simp] theorem State.modUnits_fuses (s : State) (f : Units → Units) :
    (s.modUnits f).fuses = s.fuses := rfl
@[simp] theorem State.modUnits_flash (s : State) (f : Units → Units) :
    (s.modUnits f).flash = s.flash := rfl
@[simp] theorem State.modUnits_trust (s : State) (f : Units → Units) :
    (s.modUnits f).trust = s.trust := rfl
@[simp] theorem State.modUnits_image (s : State) (f : Units → Units) :
    (s.modUnits f).image = s.image := rfl
@[simp] theorem State.modUnits_odn (s : State) (f : Units → Units) :
    (s.modUnits f).odn = s.odn := rfl
@[simp] theorem State.modUnits_runs (s : State) (f : Units → Units) :
    (s.modUnits f).runs = s.runs := rfl
@[simp] theorem State.modUnits_work (s : State) (f : Units → Units) :
    (s.modUnits f).work = s.work := rfl
@[simp] theorem State.modUnits_runDescs (s : State) (f : Units → Units) :
    (s.modUnits f).runDescs = s.runDescs := rfl
@[simp] theorem State.modUnits_heldRegions (s : State) (f : Units → Units) :
    (s.modUnits f).heldRegions = s.heldRegions := rfl
@[simp] theorem State.modUnits_resident (s : State) (f : Units → Units) :
    (s.modUnits f).resident = s.resident := rfl
@[simp] theorem State.modUnits_disp (s : State) (f : Units → Units) :
    (s.modUnits f).disp = s.disp := rfl
@[simp] theorem State.modUnits_emb (s : State) (f : Units → Units) :
    (s.modUnits f).emb = s.emb := rfl
@[simp] theorem State.modUnits_mst (s : State) (f : Units → Units) :
    (s.modUnits f).mst = s.mst := rfl
@[simp] theorem State.modUnits_pat (s : State) (f : Units → Units) :
    (s.modUnits f).pat = s.pat := rfl
@[simp] theorem State.modUnits_tth (s : State) (f : Units → Units) :
    (s.modUnits f).tth = s.tth := rfl
@[simp] theorem State.modUnits_pmc (s : State) (f : Units → Units) :
    (s.modUnits f).pmc = s.pmc := rfl
@[simp] theorem State.modUnits_gov (s : State) (f : Units → Units) :
    (s.modUnits f).gov = s.gov := rfl
@[simp] theorem State.modUnits_mgmt (s : State) (f : Units → Units) :
    (s.modUnits f).mgmt = s.mgmt := rfl
@[simp] theorem State.modUnits_flog (s : State) (f : Units → Units) :
    (s.modUnits f).flog = s.flog := rfl
@[simp] theorem State.modUnits_outbox (s : State) (f : Units → Units) :
    (s.modUnits f).outbox = s.outbox := rfl
@[simp] theorem State.mstSet_pending (s : State) (k : Nat) (e : MstEntry) :
    (s.mstSet k e).pending = s.pending := rfl
@[simp] theorem State.mstSet_free (s : State) (k : Nat) (e : MstEntry) :
    (s.mstSet k e).free = s.free := rfl
@[simp] theorem State.mstSet_regs (s : State) (k : Nat) (e : MstEntry) :
    (s.mstSet k e).regs = s.regs := rfl
@[simp] theorem State.mstSet_mem (s : State) (k : Nat) (e : MstEntry) :
    (s.mstSet k e).mem = s.mem := rfl
@[simp] theorem State.mstSet_core (s : State) (k : Nat) (e : MstEntry) :
    (s.mstSet k e).core = s.core := rfl
@[simp] theorem State.mstSet_side (s : State) (k : Nat) (e : MstEntry) :
    (s.mstSet k e).side = s.side := rfl
@[simp] theorem State.mstSet_clock (s : State) (k : Nat) (e : MstEntry) :
    (s.mstSet k e).clock = s.clock := rfl
@[simp] theorem State.mstSet_power (s : State) (k : Nat) (e : MstEntry) :
    (s.mstSet k e).power = s.power := rfl
@[simp] theorem State.mstSet_fuses (s : State) (k : Nat) (e : MstEntry) :
    (s.mstSet k e).fuses = s.fuses := rfl
@[simp] theorem State.mstSet_flash (s : State) (k : Nat) (e : MstEntry) :
    (s.mstSet k e).flash = s.flash := rfl
@[simp] theorem State.mstSet_trust (s : State) (k : Nat) (e : MstEntry) :
    (s.mstSet k e).trust = s.trust := rfl
@[simp] theorem State.mstSet_image (s : State) (k : Nat) (e : MstEntry) :
    (s.mstSet k e).image = s.image := rfl
@[simp] theorem State.mstSet_odn (s : State) (k : Nat) (e : MstEntry) :
    (s.mstSet k e).odn = s.odn := rfl
@[simp] theorem State.mstSet_runs (s : State) (k : Nat) (e : MstEntry) :
    (s.mstSet k e).runs = s.runs := rfl
@[simp] theorem State.mstSet_work (s : State) (k : Nat) (e : MstEntry) :
    (s.mstSet k e).work = s.work := rfl
@[simp] theorem State.mstSet_runDescs (s : State) (k : Nat) (e : MstEntry) :
    (s.mstSet k e).runDescs = s.runDescs := rfl
@[simp] theorem State.mstSet_heldRegions (s : State) (k : Nat) (e : MstEntry) :
    (s.mstSet k e).heldRegions = s.heldRegions := rfl
@[simp] theorem State.mstSet_resident (s : State) (k : Nat) (e : MstEntry) :
    (s.mstSet k e).resident = s.resident := rfl
@[simp] theorem State.mstSet_disp (s : State) (k : Nat) (e : MstEntry) :
    (s.mstSet k e).disp = s.disp := rfl
@[simp] theorem State.mstSet_emb (s : State) (k : Nat) (e : MstEntry) :
    (s.mstSet k e).emb = s.emb := rfl
@[simp] theorem State.mstSet_pat (s : State) (k : Nat) (e : MstEntry) :
    (s.mstSet k e).pat = s.pat := rfl
@[simp] theorem State.mstSet_tth (s : State) (k : Nat) (e : MstEntry) :
    (s.mstSet k e).tth = s.tth := rfl
@[simp] theorem State.mstSet_units (s : State) (k : Nat) (e : MstEntry) :
    (s.mstSet k e).units = s.units := rfl
@[simp] theorem State.mstSet_pmc (s : State) (k : Nat) (e : MstEntry) :
    (s.mstSet k e).pmc = s.pmc := rfl
@[simp] theorem State.mstSet_gov (s : State) (k : Nat) (e : MstEntry) :
    (s.mstSet k e).gov = s.gov := rfl
@[simp] theorem State.mstSet_mgmt (s : State) (k : Nat) (e : MstEntry) :
    (s.mstSet k e).mgmt = s.mgmt := rfl
@[simp] theorem State.mstSet_flog (s : State) (k : Nat) (e : MstEntry) :
    (s.mstSet k e).flog = s.flog := rfl
@[simp] theorem State.mstSet_outbox (s : State) (k : Nat) (e : MstEntry) :
    (s.mstSet k e).outbox = s.outbox := rfl
@[simp] theorem State.setPort_pending (s : State) (p : Nat) (q : List Search) :
    (s.setPort p q).pending = s.pending := rfl
@[simp] theorem State.setPort_free (s : State) (p : Nat) (q : List Search) :
    (s.setPort p q).free = s.free := rfl
@[simp] theorem State.setPort_regs (s : State) (p : Nat) (q : List Search) :
    (s.setPort p q).regs = s.regs := rfl
@[simp] theorem State.setPort_mem (s : State) (p : Nat) (q : List Search) :
    (s.setPort p q).mem = s.mem := rfl
@[simp] theorem State.setPort_core (s : State) (p : Nat) (q : List Search) :
    (s.setPort p q).core = s.core := rfl
@[simp] theorem State.setPort_side (s : State) (p : Nat) (q : List Search) :
    (s.setPort p q).side = s.side := rfl
@[simp] theorem State.setPort_clock (s : State) (p : Nat) (q : List Search) :
    (s.setPort p q).clock = s.clock := rfl
@[simp] theorem State.setPort_power (s : State) (p : Nat) (q : List Search) :
    (s.setPort p q).power = s.power := rfl
@[simp] theorem State.setPort_fuses (s : State) (p : Nat) (q : List Search) :
    (s.setPort p q).fuses = s.fuses := rfl
@[simp] theorem State.setPort_flash (s : State) (p : Nat) (q : List Search) :
    (s.setPort p q).flash = s.flash := rfl
@[simp] theorem State.setPort_trust (s : State) (p : Nat) (q : List Search) :
    (s.setPort p q).trust = s.trust := rfl
@[simp] theorem State.setPort_image (s : State) (p : Nat) (q : List Search) :
    (s.setPort p q).image = s.image := rfl
@[simp] theorem State.setPort_odn (s : State) (p : Nat) (q : List Search) :
    (s.setPort p q).odn = s.odn := rfl
@[simp] theorem State.setPort_runs (s : State) (p : Nat) (q : List Search) :
    (s.setPort p q).runs = s.runs := rfl
@[simp] theorem State.setPort_work (s : State) (p : Nat) (q : List Search) :
    (s.setPort p q).work = s.work := rfl
@[simp] theorem State.setPort_runDescs (s : State) (p : Nat) (q : List Search) :
    (s.setPort p q).runDescs = s.runDescs := rfl
@[simp] theorem State.setPort_heldRegions (s : State) (p : Nat) (q : List Search) :
    (s.setPort p q).heldRegions = s.heldRegions := rfl
@[simp] theorem State.setPort_resident (s : State) (p : Nat) (q : List Search) :
    (s.setPort p q).resident = s.resident := rfl
@[simp] theorem State.setPort_disp (s : State) (p : Nat) (q : List Search) :
    (s.setPort p q).disp = s.disp := rfl
@[simp] theorem State.setPort_emb (s : State) (p : Nat) (q : List Search) :
    (s.setPort p q).emb = s.emb := rfl
@[simp] theorem State.setPort_pat (s : State) (p : Nat) (q : List Search) :
    (s.setPort p q).pat = s.pat := rfl
@[simp] theorem State.setPort_tth (s : State) (p : Nat) (q : List Search) :
    (s.setPort p q).tth = s.tth := rfl
@[simp] theorem State.setPort_units (s : State) (p : Nat) (q : List Search) :
    (s.setPort p q).units = s.units := rfl
@[simp] theorem State.setPort_pmc (s : State) (p : Nat) (q : List Search) :
    (s.setPort p q).pmc = s.pmc := rfl
@[simp] theorem State.setPort_gov (s : State) (p : Nat) (q : List Search) :
    (s.setPort p q).gov = s.gov := rfl
@[simp] theorem State.setPort_mgmt (s : State) (p : Nat) (q : List Search) :
    (s.setPort p q).mgmt = s.mgmt := rfl
@[simp] theorem State.setPort_flog (s : State) (p : Nat) (q : List Search) :
    (s.setPort p q).flog = s.flog := rfl
@[simp] theorem State.setPort_outbox (s : State) (p : Nat) (q : List Search) :
    (s.setPort p q).outbox = s.outbox := rfl
@[simp] theorem State.putPat_pending (s : State) (x : PatCtx) :
    (s.putPat x).pending = s.pending := rfl
@[simp] theorem State.putPat_free (s : State) (x : PatCtx) :
    (s.putPat x).free = s.free := rfl
@[simp] theorem State.putPat_regs (s : State) (x : PatCtx) :
    (s.putPat x).regs = s.regs := rfl
@[simp] theorem State.putPat_mem (s : State) (x : PatCtx) :
    (s.putPat x).mem = s.mem := rfl
@[simp] theorem State.putPat_core (s : State) (x : PatCtx) :
    (s.putPat x).core = s.core := rfl
@[simp] theorem State.putPat_side (s : State) (x : PatCtx) :
    (s.putPat x).side = s.side := rfl
@[simp] theorem State.putPat_clock (s : State) (x : PatCtx) :
    (s.putPat x).clock = s.clock := rfl
@[simp] theorem State.putPat_power (s : State) (x : PatCtx) :
    (s.putPat x).power = s.power := rfl
@[simp] theorem State.putPat_fuses (s : State) (x : PatCtx) :
    (s.putPat x).fuses = s.fuses := rfl
@[simp] theorem State.putPat_flash (s : State) (x : PatCtx) :
    (s.putPat x).flash = s.flash := rfl
@[simp] theorem State.putPat_trust (s : State) (x : PatCtx) :
    (s.putPat x).trust = s.trust := rfl
@[simp] theorem State.putPat_image (s : State) (x : PatCtx) :
    (s.putPat x).image = s.image := rfl
@[simp] theorem State.putPat_odn (s : State) (x : PatCtx) :
    (s.putPat x).odn = s.odn := rfl
@[simp] theorem State.putPat_runs (s : State) (x : PatCtx) :
    (s.putPat x).runs = s.runs := rfl
@[simp] theorem State.putPat_work (s : State) (x : PatCtx) :
    (s.putPat x).work = s.work := rfl
@[simp] theorem State.putPat_runDescs (s : State) (x : PatCtx) :
    (s.putPat x).runDescs = s.runDescs := rfl
@[simp] theorem State.putPat_heldRegions (s : State) (x : PatCtx) :
    (s.putPat x).heldRegions = s.heldRegions := rfl
@[simp] theorem State.putPat_resident (s : State) (x : PatCtx) :
    (s.putPat x).resident = s.resident := rfl
@[simp] theorem State.putPat_disp (s : State) (x : PatCtx) :
    (s.putPat x).disp = s.disp := rfl
@[simp] theorem State.putPat_emb (s : State) (x : PatCtx) :
    (s.putPat x).emb = s.emb := rfl
@[simp] theorem State.putPat_mst (s : State) (x : PatCtx) :
    (s.putPat x).mst = s.mst := rfl
@[simp] theorem State.putPat_tth (s : State) (x : PatCtx) :
    (s.putPat x).tth = s.tth := rfl
@[simp] theorem State.putPat_units (s : State) (x : PatCtx) :
    (s.putPat x).units = s.units := rfl
@[simp] theorem State.putPat_pmc (s : State) (x : PatCtx) :
    (s.putPat x).pmc = s.pmc := rfl
@[simp] theorem State.putPat_gov (s : State) (x : PatCtx) :
    (s.putPat x).gov = s.gov := rfl
@[simp] theorem State.putPat_mgmt (s : State) (x : PatCtx) :
    (s.putPat x).mgmt = s.mgmt := rfl
@[simp] theorem State.putPat_flog (s : State) (x : PatCtx) :
    (s.putPat x).flog = s.flog := rfl
@[simp] theorem State.putPat_outbox (s : State) (x : PatCtx) :
    (s.putPat x).outbox = s.outbox := rfl
@[simp] theorem State.holdQueue_pending (s : State) (t : State) : (s.holdQueue t).pending = s.pending := rfl
@[simp] theorem State.holdQueue_free (s : State) (t : State) : (s.holdQueue t).free = t.free := rfl
@[simp] theorem State.holdQueue_regs (s : State) (t : State) : (s.holdQueue t).regs = t.regs := rfl
@[simp] theorem State.holdQueue_mem (s : State) (t : State) : (s.holdQueue t).mem = t.mem := rfl
@[simp] theorem State.holdQueue_core (s : State) (t : State) : (s.holdQueue t).core = t.core := rfl
@[simp] theorem State.holdQueue_side (s : State) (t : State) : (s.holdQueue t).side = t.side := rfl
@[simp] theorem State.holdQueue_clock (s : State) (t : State) : (s.holdQueue t).clock = t.clock := rfl
@[simp] theorem State.holdQueue_power (s : State) (t : State) : (s.holdQueue t).power = t.power := rfl
@[simp] theorem State.holdQueue_fuses (s : State) (t : State) : (s.holdQueue t).fuses = t.fuses := rfl
@[simp] theorem State.holdQueue_flash (s : State) (t : State) : (s.holdQueue t).flash = t.flash := rfl
@[simp] theorem State.holdQueue_trust (s : State) (t : State) : (s.holdQueue t).trust = t.trust := rfl
@[simp] theorem State.holdQueue_image (s : State) (t : State) : (s.holdQueue t).image = t.image := rfl
@[simp] theorem State.holdQueue_odn (s : State) (t : State) : (s.holdQueue t).odn = t.odn := rfl
@[simp] theorem State.holdQueue_runs (s : State) (t : State) : (s.holdQueue t).runs = t.runs := rfl
@[simp] theorem State.holdQueue_work (s : State) (t : State) : (s.holdQueue t).work = t.work := rfl
@[simp] theorem State.holdQueue_runDescs (s : State) (t : State) : (s.holdQueue t).runDescs = t.runDescs := rfl
@[simp] theorem State.holdQueue_heldRegions (s : State) (t : State) : (s.holdQueue t).heldRegions = t.heldRegions := rfl
@[simp] theorem State.holdQueue_resident (s : State) (t : State) : (s.holdQueue t).resident = t.resident := rfl
@[simp] theorem State.holdQueue_disp (s : State) (t : State) : (s.holdQueue t).disp = t.disp := rfl
@[simp] theorem State.holdQueue_emb (s : State) (t : State) : (s.holdQueue t).emb = t.emb := rfl
@[simp] theorem State.holdQueue_mst (s : State) (t : State) : (s.holdQueue t).mst = t.mst := rfl
@[simp] theorem State.holdQueue_pat (s : State) (t : State) : (s.holdQueue t).pat = t.pat := rfl
@[simp] theorem State.holdQueue_tth (s : State) (t : State) : (s.holdQueue t).tth = t.tth := rfl
@[simp] theorem State.holdQueue_units (s : State) (t : State) : (s.holdQueue t).units = t.units := rfl
@[simp] theorem State.holdQueue_pmc (s : State) (t : State) : (s.holdQueue t).pmc = t.pmc := rfl
@[simp] theorem State.holdQueue_gov (s : State) (t : State) : (s.holdQueue t).gov = t.gov := rfl
@[simp] theorem State.holdQueue_mgmt (s : State) (t : State) : (s.holdQueue t).mgmt = t.mgmt := rfl
@[simp] theorem State.holdQueue_flog (s : State) (t : State) : (s.holdQueue t).flog = t.flog := rfl
@[simp] theorem State.holdQueue_outbox (s : State) (t : State) : (s.holdQueue t).outbox = t.outbox := rfl
@[simp] theorem State.holdFuses_pending (s : State) (t : State) : (s.holdFuses t).pending = s.pending := rfl
@[simp] theorem State.holdFuses_free (s : State) (t : State) : (s.holdFuses t).free = t.free := rfl
@[simp] theorem State.holdFuses_regs (s : State) (t : State) : (s.holdFuses t).regs = t.regs := rfl
@[simp] theorem State.holdFuses_mem (s : State) (t : State) : (s.holdFuses t).mem = t.mem := rfl
@[simp] theorem State.holdFuses_core (s : State) (t : State) : (s.holdFuses t).core = t.core := rfl
@[simp] theorem State.holdFuses_side (s : State) (t : State) : (s.holdFuses t).side = t.side := rfl
@[simp] theorem State.holdFuses_clock (s : State) (t : State) : (s.holdFuses t).clock = t.clock := rfl
@[simp] theorem State.holdFuses_power (s : State) (t : State) : (s.holdFuses t).power = t.power := rfl
@[simp] theorem State.holdFuses_fuses (s : State) (t : State) : (s.holdFuses t).fuses = s.fuses := rfl
@[simp] theorem State.holdFuses_flash (s : State) (t : State) : (s.holdFuses t).flash = t.flash := rfl
@[simp] theorem State.holdFuses_trust (s : State) (t : State) : (s.holdFuses t).trust = t.trust := rfl
@[simp] theorem State.holdFuses_image (s : State) (t : State) : (s.holdFuses t).image = t.image := rfl
@[simp] theorem State.holdFuses_odn (s : State) (t : State) : (s.holdFuses t).odn = t.odn := rfl
@[simp] theorem State.holdFuses_runs (s : State) (t : State) : (s.holdFuses t).runs = t.runs := rfl
@[simp] theorem State.holdFuses_work (s : State) (t : State) : (s.holdFuses t).work = t.work := rfl
@[simp] theorem State.holdFuses_runDescs (s : State) (t : State) : (s.holdFuses t).runDescs = t.runDescs := rfl
@[simp] theorem State.holdFuses_heldRegions (s : State) (t : State) : (s.holdFuses t).heldRegions = t.heldRegions := rfl
@[simp] theorem State.holdFuses_resident (s : State) (t : State) : (s.holdFuses t).resident = t.resident := rfl
@[simp] theorem State.holdFuses_disp (s : State) (t : State) : (s.holdFuses t).disp = t.disp := rfl
@[simp] theorem State.holdFuses_emb (s : State) (t : State) : (s.holdFuses t).emb = t.emb := rfl
@[simp] theorem State.holdFuses_mst (s : State) (t : State) : (s.holdFuses t).mst = t.mst := rfl
@[simp] theorem State.holdFuses_pat (s : State) (t : State) : (s.holdFuses t).pat = t.pat := rfl
@[simp] theorem State.holdFuses_tth (s : State) (t : State) : (s.holdFuses t).tth = t.tth := rfl
@[simp] theorem State.holdFuses_units (s : State) (t : State) : (s.holdFuses t).units = t.units := rfl
@[simp] theorem State.holdFuses_pmc (s : State) (t : State) : (s.holdFuses t).pmc = t.pmc := rfl
@[simp] theorem State.holdFuses_gov (s : State) (t : State) : (s.holdFuses t).gov = t.gov := rfl
@[simp] theorem State.holdFuses_mgmt (s : State) (t : State) : (s.holdFuses t).mgmt = t.mgmt := rfl
@[simp] theorem State.holdFuses_flog (s : State) (t : State) : (s.holdFuses t).flog = t.flog := rfl
@[simp] theorem State.holdFuses_outbox (s : State) (t : State) : (s.holdFuses t).outbox = t.outbox := rfl
@[simp] theorem State.holdFlash_pending (s : State) (t : State) : (s.holdFlash t).pending = s.pending := rfl
@[simp] theorem State.holdFlash_free (s : State) (t : State) : (s.holdFlash t).free = t.free := rfl
@[simp] theorem State.holdFlash_regs (s : State) (t : State) : (s.holdFlash t).regs = t.regs := rfl
@[simp] theorem State.holdFlash_mem (s : State) (t : State) : (s.holdFlash t).mem = t.mem := rfl
@[simp] theorem State.holdFlash_core (s : State) (t : State) : (s.holdFlash t).core = t.core := rfl
@[simp] theorem State.holdFlash_side (s : State) (t : State) : (s.holdFlash t).side = t.side := rfl
@[simp] theorem State.holdFlash_clock (s : State) (t : State) : (s.holdFlash t).clock = t.clock := rfl
@[simp] theorem State.holdFlash_power (s : State) (t : State) : (s.holdFlash t).power = t.power := rfl
@[simp] theorem State.holdFlash_fuses (s : State) (t : State) : (s.holdFlash t).fuses = s.fuses := rfl
@[simp] theorem State.holdFlash_flash (s : State) (t : State) : (s.holdFlash t).flash = s.flash := rfl
@[simp] theorem State.holdFlash_trust (s : State) (t : State) : (s.holdFlash t).trust = t.trust := rfl
@[simp] theorem State.holdFlash_image (s : State) (t : State) : (s.holdFlash t).image = t.image := rfl
@[simp] theorem State.holdFlash_odn (s : State) (t : State) : (s.holdFlash t).odn = t.odn := rfl
@[simp] theorem State.holdFlash_runs (s : State) (t : State) : (s.holdFlash t).runs = t.runs := rfl
@[simp] theorem State.holdFlash_work (s : State) (t : State) : (s.holdFlash t).work = t.work := rfl
@[simp] theorem State.holdFlash_runDescs (s : State) (t : State) : (s.holdFlash t).runDescs = t.runDescs := rfl
@[simp] theorem State.holdFlash_heldRegions (s : State) (t : State) : (s.holdFlash t).heldRegions = t.heldRegions := rfl
@[simp] theorem State.holdFlash_resident (s : State) (t : State) : (s.holdFlash t).resident = t.resident := rfl
@[simp] theorem State.holdFlash_disp (s : State) (t : State) : (s.holdFlash t).disp = t.disp := rfl
@[simp] theorem State.holdFlash_emb (s : State) (t : State) : (s.holdFlash t).emb = t.emb := rfl
@[simp] theorem State.holdFlash_mst (s : State) (t : State) : (s.holdFlash t).mst = t.mst := rfl
@[simp] theorem State.holdFlash_pat (s : State) (t : State) : (s.holdFlash t).pat = t.pat := rfl
@[simp] theorem State.holdFlash_tth (s : State) (t : State) : (s.holdFlash t).tth = t.tth := rfl
@[simp] theorem State.holdFlash_units (s : State) (t : State) : (s.holdFlash t).units = t.units := rfl
@[simp] theorem State.holdFlash_pmc (s : State) (t : State) : (s.holdFlash t).pmc = t.pmc := rfl
@[simp] theorem State.holdFlash_gov (s : State) (t : State) : (s.holdFlash t).gov = t.gov := rfl
@[simp] theorem State.holdFlash_mgmt (s : State) (t : State) : (s.holdFlash t).mgmt = t.mgmt := rfl
@[simp] theorem State.holdFlash_flog (s : State) (t : State) : (s.holdFlash t).flog = t.flog := rfl
@[simp] theorem State.holdFlash_outbox (s : State) (t : State) : (s.holdFlash t).outbox = t.outbox := rfl
@[simp] theorem State.holdData_pending (s : State) (t : State) : (s.holdData t).pending = s.pending := rfl
@[simp] theorem State.holdData_free (s : State) (t : State) : (s.holdData t).free = t.free := rfl
@[simp] theorem State.holdData_regs (s : State) (t : State) : (s.holdData t).regs = t.regs := rfl
@[simp] theorem State.holdData_mem (s : State) (t : State) : (s.holdData t).mem = s.mem := rfl
@[simp] theorem State.holdData_core (s : State) (t : State) : (s.holdData t).core = s.core := rfl
@[simp] theorem State.holdData_side (s : State) (t : State) : (s.holdData t).side = t.side := rfl
@[simp] theorem State.holdData_clock (s : State) (t : State) : (s.holdData t).clock = t.clock := rfl
@[simp] theorem State.holdData_power (s : State) (t : State) : (s.holdData t).power = t.power := rfl
@[simp] theorem State.holdData_fuses (s : State) (t : State) : (s.holdData t).fuses = s.fuses := rfl
@[simp] theorem State.holdData_flash (s : State) (t : State) : (s.holdData t).flash = s.flash := rfl
@[simp] theorem State.holdData_trust (s : State) (t : State) : (s.holdData t).trust = t.trust := rfl
@[simp] theorem State.holdData_image (s : State) (t : State) : (s.holdData t).image = s.image := rfl
@[simp] theorem State.holdData_odn (s : State) (t : State) : (s.holdData t).odn = t.odn := rfl
@[simp] theorem State.holdData_runs (s : State) (t : State) : (s.holdData t).runs = t.runs := rfl
@[simp] theorem State.holdData_work (s : State) (t : State) : (s.holdData t).work = t.work := rfl
@[simp] theorem State.holdData_runDescs (s : State) (t : State) : (s.holdData t).runDescs = t.runDescs := rfl
@[simp] theorem State.holdData_heldRegions (s : State) (t : State) : (s.holdData t).heldRegions = t.heldRegions := rfl
@[simp] theorem State.holdData_resident (s : State) (t : State) : (s.holdData t).resident = t.resident := rfl
@[simp] theorem State.holdData_disp (s : State) (t : State) : (s.holdData t).disp = t.disp := rfl
@[simp] theorem State.holdData_emb (s : State) (t : State) : (s.holdData t).emb = t.emb := rfl
@[simp] theorem State.holdData_mst (s : State) (t : State) : (s.holdData t).mst = t.mst := rfl
@[simp] theorem State.holdData_pat (s : State) (t : State) : (s.holdData t).pat = t.pat := rfl
@[simp] theorem State.holdData_tth (s : State) (t : State) : (s.holdData t).tth = t.tth := rfl
@[simp] theorem State.holdData_units (s : State) (t : State) : (s.holdData t).units = t.units := rfl
@[simp] theorem State.holdData_pmc (s : State) (t : State) : (s.holdData t).pmc = t.pmc := rfl
@[simp] theorem State.holdData_gov (s : State) (t : State) : (s.holdData t).gov = t.gov := rfl
@[simp] theorem State.holdData_mgmt (s : State) (t : State) : (s.holdData t).mgmt = t.mgmt := rfl
@[simp] theorem State.holdData_flog (s : State) (t : State) : (s.holdData t).flog = t.flog := rfl
@[simp] theorem State.holdData_outbox (s : State) (t : State) : (s.holdData t).outbox = t.outbox := rfl

end Sys2Proof.Machine
end

