-- ==== Sys2Proof/Laws/Regs.lean ====
section
/-!
SUPPORT. The laws of sparse maps, of registers and of fields: a read after a write to the same place gives the value
written, a write leaves every other place alone, and every operation keeps the canonical form.
-/
namespace Sys2Proof.SMap

variable {α : Type}

theorem get_erase_ne (d : α) (m : SMap α) (q k : Nat) (h : k ≠ q) : get d (erase m q) k = get d m k := by
  induction m with
  | nil => rfl
  | cons e r ih =>
    obtain ⟨a, v⟩ := e
    by_cases ha : a = q
    · subst ha
      have hk : ¬ a = k := fun e => h e.symm
      simp [erase, get, hk]
    · by_cases hk : a = k
      · subst hk; simp [erase, get, ha]
      · simp [erase, get, ha, hk, ih]

theorem get_insert_ne (d : α) (m : SMap α) (q k : Nat) (x : α) (h : k ≠ q) : get d (insert m q x) k = get d m k := by
  have hq : ¬ q = k := fun e => h e.symm
  induction m with
  | nil => simp [insert, get, hq]
  | cons e r ih =>
    obtain ⟨a, v⟩ := e
    unfold insert
    split
    · simp [get, hq]
    · split
      · rename_i hqa; subst hqa; simp [get, hq]
      · simp [get, ih]

theorem get_insert_same (d : α) (m : SMap α) (q : Nat) (x : α) : get d (insert m q x) q = x := by
  induction m with
  | nil => simp [insert, get]
  | cons e r ih =>
    obtain ⟨a, v⟩ := e
    unfold insert
    split
    · simp [get]
    · split
      · simp [get]
      · rename_i h
        have : ¬ a = q := fun e => h e.symm
        simp [get, this, ih]

theorem get_of_risingFrom (d : α) (m : SMap α) (b q : Nat) (h : risingFrom b m = true) (hq : q < b) : get d m q = d := by
  induction m generalizing b with
  | nil => rfl
  | cons e r ih =>
    obtain ⟨a, v⟩ := e
    simp only [risingFrom, Bool.and_eq_true, decide_eq_true_eq] at h
    have : ¬ a = q := by omega
    simp [get, this, ih (a + 1) h.2 (by omega)]

theorem risingFrom_mono (m : SMap α) (b c : Nat) (h : risingFrom c m = true) (hb : b ≤ c) : risingFrom b m = true := by
  cases m with
  | nil => rfl
  | cons e r =>
    obtain ⟨a, v⟩ := e
    simp only [risingFrom, Bool.and_eq_true, decide_eq_true_eq] at h ⊢
    exact ⟨by omega, h.2⟩

theorem get_erase_same (d : α) (m : SMap α) (b q : Nat) (h : risingFrom b m = true) : get d (erase m q) q = d := by
  induction m generalizing b with
  | nil => rfl
  | cons e r ih =>
    obtain ⟨a, v⟩ := e
    simp only [risingFrom, Bool.and_eq_true, decide_eq_true_eq] at h
    by_cases ha : a = q
    · subst ha
      simp [erase, get_of_risingFrom d r (a + 1) a h.2 (by omega)]
    · simp [erase, get, ha, ih _ h.2]

theorem risingFrom_erase (m : SMap α) (b q : Nat) (h : risingFrom b m = true) : risingFrom b (erase m q) = true := by
  induction m generalizing b with
  | nil => rfl
  | cons e r ih =>
    obtain ⟨a, v⟩ := e
    simp only [risingFrom, Bool.and_eq_true, decide_eq_true_eq] at h
    by_cases ha : a = q
    · simp only [erase, ha, if_true]
      exact risingFrom_mono r b (a + 1) h.2 (by omega)
    · simp [erase, ha, risingFrom, h.1, ih _ h.2]

theorem risingFrom_insert (m : SMap α) (b q : Nat) (x : α) (h : risingFrom b m = true) (hq : b ≤ q) :
    risingFrom b (insert m q x) = true := by
  induction m generalizing b with
  | nil => simp [insert, risingFrom, hq]
  | cons e r ih =>
    obtain ⟨a, v⟩ := e
    simp only [risingFrom, Bool.and_eq_true, decide_eq_true_eq] at h
    unfold insert
    split
    · rename_i hlt
      simp only [risingFrom, Bool.and_eq_true, decide_eq_true_eq]
      exact ⟨hq, by omega, h.2⟩
    · split
      · rename_i _ he; subst he
        simp only [risingFrom, Bool.and_eq_true, decide_eq_true_eq]
        exact ⟨hq, h.2⟩
      · simp only [risingFrom, Bool.and_eq_true, decide_eq_true_eq]
        exact ⟨h.1, ih _ h.2 (by omega)⟩

theorem all_erase (p : Nat × α → Bool) (m : SMap α) (q : Nat) (h : m.all p = true) : (erase m q).all p = true := by
  induction m with
  | nil => rfl
  | cons e r ih =>
    obtain ⟨a, v⟩ := e
    simp only [List.all_cons, Bool.and_eq_true] at h
    unfold erase
    split
    · exact h.2
    · simp [h.1, ih h.2]

theorem all_insert (p : Nat × α → Bool) (m : SMap α) (q : Nat) (x : α) (h : m.all p = true) (hx : p (q, x) = true) :
    (insert m q x).all p = true := by
  induction m with
  | nil => simp [insert, hx]
  | cons e r ih =>
    obtain ⟨a, v⟩ := e
    simp only [List.all_cons, Bool.and_eq_true] at h
    unfold insert
    split
    · simp [hx, h.1, h.2]
    · split
      · simp [hx, h.2]
      · simp [h.1, ih h.2]

variable [DecidableEq α]

theorem get_set_ne (d : α) (m : SMap α) (q k : Nat) (x : α) (c : α) (h : k ≠ q) : get c (set d m q x) k = get c m k := by
  unfold set
  split
  · exact get_erase_ne c m q k h
  · exact get_insert_ne c m q k x h

/-- A read of the place just written, in a map whose keys rise. -/
theorem get_set_same (d : α) (m : SMap α) (b q : Nat) (x : α) (h : risingFrom b m = true) : get d (set d m q x) q = x := by
  unfold set
  split
  · rename_i hx; rw [get_erase_same d m b q h, hx]
  · exact get_insert_same d m q x

theorem risingFrom_set (d : α) (m : SMap α) (q : Nat) (x : α) (h : risingFrom 0 m = true) :
    risingFrom 0 (set d m q x) = true := by
  unfold set
  split
  · exact risingFrom_erase m 0 q h
  · exact risingFrom_insert m 0 q x h (Nat.zero_le q)

/-- A write keeps the canonical form. -/
theorem wf_set (d : α) (m : SMap α) (q : Nat) (x : α) (h : wf d m = true) : wf d (set d m q x) = true := by
  simp only [wf, Bool.and_eq_true] at h ⊢
  refine ⟨risingFrom_set d m q x h.1, ?_⟩
  unfold set
  split
  · exact all_erase _ m q h.2
  · rename_i hx; exact all_insert _ m q x h.2 (by simpa using hx)

theorem risingFrom_filter (p : Nat × α → Bool) (m : SMap α) (b : Nat) (h : risingFrom b m = true) :
    risingFrom b (m.filter p) = true := by
  induction m generalizing b with
  | nil => rfl
  | cons e r ih =>
    obtain ⟨a, v⟩ := e
    simp only [risingFrom, Bool.and_eq_true, decide_eq_true_eq] at h
    by_cases hp : p (a, v) = true
    · simp [hp, risingFrom, h.1, ih _ h.2]
    · simp only [List.filter_cons, hp]
      exact risingFrom_mono _ b (a + 1) (ih _ h.2) (by omega)

theorem wf_filter (d : α) (p : Nat × α → Bool) (m : SMap α) (h : wf d m = true) : wf d (m.filter p) = true := by
  simp only [wf, Bool.and_eq_true] at h ⊢
  refine ⟨risingFrom_filter p m 0 h.1, ?_⟩
  simp only [List.all_eq_true] at h ⊢
  intro e he
  exact h.2 e (List.mem_filter.mp he).1

end Sys2Proof.SMap

namespace Sys2Proof.Machine
open Sys2Proof

/-! ### Bit fields -/

theorem bitsOf_testBit (v msb lsb i : Nat) :
    (bitsOf v msb lsb).testBit i = (decide (i < msb + 1 - lsb) && v.testBit (lsb + i)) := by
  simp [bitsOf, Nat.testBit_mod_two_pow, Nat.testBit_shiftRight]

theorem putBits_testBit (w : W64) (msb lsb x i : Nat) (hi : i < 64) :
    (putBits w msb lsb x).toNat.testBit i =
      if lsb ≤ i ∧ i < msb + 1 then x.testBit (i - lsb) else w.toNat.testBit i := by
  have key (b : W64) : b.toNat.testBit i = b.getLsbD i := (BitVec.testBit_toNat b)
  rw [key, key]
  simp only [putBits, BitVec.getLsbD_or, BitVec.getLsbD_and, BitVec.getLsbD_not, BitVec.getLsbD_ofNat,
    Nat.testBit_shiftLeft, Nat.testBit_two_pow_sub_one, Nat.testBit_mod_two_pow, hi, decide_true, Bool.true_and]
  by_cases h1 : lsb ≤ i
  · by_cases h2 : i < msb + 1
    · have : i - lsb < msb + 1 - lsb := by omega
      simp [h1, h2, this]
    · have : ¬ i - lsb < msb + 1 - lsb := by omega
      simp [h1, h2, this]
  · simp [h1]

/-- A field just put reads as the value put, cut to the field's width. -/
theorem bitsOf_putBits_same (w : W64) (msb lsb x : Nat) (h : msb < 64) :
    bitsOf (putBits w msb lsb x).toNat msb lsb = x % 2 ^ (msb + 1 - lsb) := by
  apply Nat.eq_of_testBit_eq
  intro i
  rw [bitsOf_testBit, Nat.testBit_mod_two_pow]
  by_cases hi : i < msb + 1 - lsb
  · rw [putBits_testBit _ _ _ _ _ (by omega)]
    have : lsb ≤ lsb + i ∧ lsb + i < msb + 1 := by omega
    simp [hi, this]
  · simp [hi]

/-- A field that shares no bit with the one put keeps its value. -/
theorem bitsOf_putBits_other (w : W64) (msb lsb x m l : Nat) (hm : m < 64) (h : m < lsb ∨ msb < l) :
    bitsOf (putBits w msb lsb x).toNat m l = bitsOf w.toNat m l := by
  apply Nat.eq_of_testBit_eq
  intro i
  rw [bitsOf_testBit, bitsOf_testBit]
  by_cases hi : i < m + 1 - l
  · rw [putBits_testBit _ _ _ _ _ (by omega)]
    rw [if_neg (by omega)]
  · simp [hi]

/-! ### Registers -/

/-- A register just written reads as the word written. -/
theorem State.raw_setRaw_same (s : State) (id : RegId) (i j : Nat) (w : W64)
    (h : SMap.risingFrom 0 s.regs = true) : (s.setRaw id i j w).raw id i j = w :=
  SMap.get_set_same _ _ 0 _ _ h

/-- A register at another address keeps its word. -/
theorem State.raw_setRaw_ne (s : State) (id id' : RegId) (i j i' j' : Nat) (w : W64)
    (h : regAddr id' i' j' ≠ regAddr id i j) : (s.setRaw id i j w).raw id' i' j' = s.raw id' i' j' :=
  SMap.get_set_ne _ _ _ _ _ _ h

theorem State.setRaw_rising (s : State) (id : RegId) (i j : Nat) (w : W64) (h : SMap.risingFrom 0 s.regs = true) :
    SMap.risingFrom 0 (s.setRaw id i j w).regs = true :=
  SMap.risingFrom_set _ _ _ _ h

theorem State.fset_rising (s : State) (f : FRef) (i x : Nat) (h : SMap.risingFrom 0 s.regs = true) :
    SMap.risingFrom 0 (s.fset f i x).regs = true :=
  s.setRaw_rising _ _ _ _ h

/-- A field just written reads as the value written. -/
theorem State.fget2_fset2_same (s : State) (f : FRef) (i j x : Nat) (hf : f.msb < 64)
    (h : SMap.risingFrom 0 s.regs = true) : (s.fset2 f i j x).fget2 f i j = x % 2 ^ (f.msb + 1 - f.lsb) := by
  unfold State.fget2 State.fset2
  rw [s.raw_setRaw_same _ _ _ _ h, bitsOf_putBits_same _ _ _ _ hf]

/-- Another field of the same register keeps its value. -/
theorem State.fget2_fset2_beside (s : State) (f g : FRef) (i j x : Nat) (hr : g.reg = f.reg) (hg : g.msb < 64)
    (ho : g.msb < f.lsb ∨ f.msb < g.lsb) (h : SMap.risingFrom 0 s.regs = true) :
    (s.fset2 f i j x).fget2 g i j = s.fget2 g i j := by
  unfold State.fget2 State.fset2
  rw [hr, s.raw_setRaw_same _ _ _ _ h, bitsOf_putBits_other _ _ _ _ _ _ hg ho]

theorem State.fget2_fset2_other (s : State) (f g : FRef) (i j i' j' x : Nat)
    (h : regAddr g.reg i' j' ≠ regAddr f.reg i j) : (s.fset2 f i j x).fget2 g i' j' = s.fget2 g i' j' := by
  unfold State.fget2 State.fset2
  rw [s.raw_setRaw_ne f.reg g.reg i j i' j' _ h]

end Sys2Proof.Machine
end

