-- ==== Sys2Proof/Laws/Report.lean ====
section
/-!
SUPPORT. What reporting can touch: an answer, an attention message, a fault-log entry and a counted event leave every
part of the state as it is but the port's own records (and the registers where they say so).
-/
namespace Sys2Proof.Machine
open Sys2Proof

/-- A fold whose every step keeps an observation keeps it. -/
theorem foldl_keeps {α β : Type} (obs : State → β) (f : State → α → State) (h : ∀ s x, obs (f s x) = obs s)
    (l : List α) (s : State) : obs (l.foldl f s) = obs s := by
  induction l generalizing s with
  | nil => rfl
  | cons a r ih => rw [List.foldl_cons, ih, h]

/-- A fold whose every step keeps a property keeps it. -/
theorem foldl_keeps_prop {α : Type} (P : State → Prop) (f : State → α → State) (h : ∀ s x, P s → P (f s x))
    (l : List α) (s : State) (hs : P s) : P (l.foldl f s) := by
  induction l generalizing s with
  | nil => exact hs
  | cons a r ih => exact ih _ (h s a hs)

@[simp] theorem State.relayOut_pending (s : State) (mac : BitVec 48) (inner : List Byte) :
    (s.relayOut mac inner).pending = s.pending := by
  simp only [State.relayOut]; repeat (first | rfl | split)
@[simp] theorem State.relayOut_free (s : State) (mac : BitVec 48) (inner : List Byte) :
    (s.relayOut mac inner).free = s.free := by
  simp only [State.relayOut]; repeat (first | rfl | split)
@[simp] theorem State.relayOut_regs (s : State) (mac : BitVec 48) (inner : List Byte) :
    (s.relayOut mac inner).regs = s.regs := by
  simp only [State.relayOut]; repeat (first | rfl | split)
@[simp] theorem State.relayOut_mem (s : State) (mac : BitVec 48) (inner : List Byte) :
    (s.relayOut mac inner).mem = s.mem := by
  simp only [State.relayOut]; repeat (first | rfl | split)
@[simp] theorem State.relayOut_core (s : State) (mac : BitVec 48) (inner : List Byte) :
    (s.relayOut mac inner).core = s.core := by
  simp only [State.relayOut]; repeat (first | rfl | split)
@[simp] theorem State.relayOut_side (s : State) (mac : BitVec 48) (inner : List Byte) :
    (s.relayOut mac inner).side = s.side := by
  simp only [State.relayOut]; repeat (first | rfl | split)
@[simp] theorem State.relayOut_clock (s : State) (mac : BitVec 48) (inner : List Byte) :
    (s.relayOut mac inner).clock = s.clock := by
  simp only [State.relayOut]; repeat (first | rfl | split)
@[simp] theorem State.relayOut_power (s : State) (mac : BitVec 48) (inner : List Byte) :
    (s.relayOut mac inner).power = s.power := by
  simp only [State.relayOut]; repeat (first | rfl | split)
@[simp] theorem State.relayOut_fuses (s : State) (mac : BitVec 48) (inner : List Byte) :
    (s.relayOut mac inner).fuses = s.fuses := by
  simp only [State.relayOut]; repeat (first | rfl | split)
@[simp] theorem State.relayOut_flash (s : State) (mac : BitVec 48) (inner : List Byte) :
    (s.relayOut mac inner).flash = s.flash := by
  simp only [State.relayOut]; repeat (first | rfl | split)
@[simp] theorem State.relayOut_trust (s : State) (mac : BitVec 48) (inner : List Byte) :
    (s.relayOut mac inner).trust = s.trust := by
  simp only [State.relayOut]; repeat (first | rfl | split)
@[simp] theorem State.relayOut_image (s : State) (mac : BitVec 48) (inner : List Byte) :
    (s.relayOut mac inner).image = s.image := by
  simp only [State.relayOut]; repeat (first | rfl | split)
@[simp] theorem State.relayOut_odn (s : State) (mac : BitVec 48) (inner : List Byte) :
    (s.relayOut mac inner).odn = s.odn := by
  simp only [State.relayOut]; repeat (first | rfl | split)
@[simp] theorem State.relayOut_runs (s : State) (mac : BitVec 48) (inner : List Byte) :
    (s.relayOut mac inner).runs = s.runs := by
  simp only [State.relayOut]; repeat (first | rfl | split)
@[simp] theorem State.relayOut_work (s : State) (mac : BitVec 48) (inner : List Byte) :
    (s.relayOut mac inner).work = s.work := by
  simp only [State.relayOut]; repeat (first | rfl | split)
@[simp] theorem State.relayOut_runDescs (s : State) (mac : BitVec 48) (inner : List Byte) :
    (s.relayOut mac inner).runDescs = s.runDescs := by
  simp only [State.relayOut]; repeat (first | rfl | split)
@[simp] theorem State.relayOut_heldRegions (s : State) (mac : BitVec 48) (inner : List Byte) :
    (s.relayOut mac inner).heldRegions = s.heldRegions := by
  simp only [State.relayOut]; repeat (first | rfl | split)
@[simp] theorem State.relayOut_resident (s : State) (mac : BitVec 48) (inner : List Byte) :
    (s.relayOut mac inner).resident = s.resident := by
  simp only [State.relayOut]; repeat (first | rfl | split)
@[simp] theorem State.relayOut_disp (s : State) (mac : BitVec 48) (inner : List Byte) :
    (s.relayOut mac inner).disp = s.disp := by
  simp only [State.relayOut]; repeat (first | rfl | split)
@[simp] theorem State.relayOut_emb (s : State) (mac : BitVec 48) (inner : List Byte) :
    (s.relayOut mac inner).emb = s.emb := by
  simp only [State.relayOut]; repeat (first | rfl | split)
@[simp] theorem State.relayOut_mst (s : State) (mac : BitVec 48) (inner : List Byte) :
    (s.relayOut mac inner).mst = s.mst := by
  simp only [State.relayOut]; repeat (first | rfl | split)
@[simp] theorem State.relayOut_pat (s : State) (mac : BitVec 48) (inner : List Byte) :
    (s.relayOut mac inner).pat = s.pat := by
  simp only [State.relayOut]; repeat (first | rfl | split)
@[simp] theorem State.relayOut_units (s : State) (mac : BitVec 48) (inner : List Byte) :
    (s.relayOut mac inner).units = s.units := by
  simp only [State.relayOut]; repeat (first | rfl | split)
@[simp] theorem State.relayOut_pmc (s : State) (mac : BitVec 48) (inner : List Byte) :
    (s.relayOut mac inner).pmc = s.pmc := by
  simp only [State.relayOut]; repeat (first | rfl | split)
@[simp] theorem State.relayOut_gov (s : State) (mac : BitVec 48) (inner : List Byte) :
    (s.relayOut mac inner).gov = s.gov := by
  simp only [State.relayOut]; repeat (first | rfl | split)
@[simp] theorem State.relayOut_mgmt (s : State) (mac : BitVec 48) (inner : List Byte) :
    (s.relayOut mac inner).mgmt = s.mgmt := by
  simp only [State.relayOut]; repeat (first | rfl | split)
@[simp] theorem State.relayOut_flog (s : State) (mac : BitVec 48) (inner : List Byte) :
    (s.relayOut mac inner).flog = s.flog := by
  simp only [State.relayOut]; repeat (first | rfl | split)
@[simp] theorem State.relayOut_outbox (s : State) (mac : BitVec 48) (inner : List Byte) :
    (s.relayOut mac inner).outbox = s.outbox := by
  simp only [State.relayOut]; repeat (first | rfl | split)
@[simp] theorem State.sendResponse_pending (s : State) (mac : BitVec 48) (relayed : Bool) (r : Response) :
    (s.sendResponse mac relayed r).pending = s.pending := by
  simp only [State.sendResponse]; split <;> simp
@[simp] theorem State.sendResponse_free (s : State) (mac : BitVec 48) (relayed : Bool) (r : Response) :
    (s.sendResponse mac relayed r).free = s.free := by
  simp only [State.sendResponse]; split <;> simp
@[simp] theorem State.sendResponse_regs (s : State) (mac : BitVec 48) (relayed : Bool) (r : Response) :
    (s.sendResponse mac relayed r).regs = s.regs := by
  simp only [State.sendResponse]; split <;> simp
@[simp] theorem State.sendResponse_mem (s : State) (mac : BitVec 48) (relayed : Bool) (r : Response) :
    (s.sendResponse mac relayed r).mem = s.mem := by
  simp only [State.sendResponse]; split <;> simp
@[simp] theorem State.sendResponse_core (s : State) (mac : BitVec 48) (relayed : Bool) (r : Response) :
    (s.sendResponse mac relayed r).core = s.core := by
  simp only [State.sendResponse]; split <;> simp
@[simp] theorem State.sendResponse_side (s : State) (mac : BitVec 48) (relayed : Bool) (r : Response) :
    (s.sendResponse mac relayed r).side = s.side := by
  simp only [State.sendResponse]; split <;> simp
@[simp] theorem State.sendResponse_clock (s : State) (mac : BitVec 48) (relayed : Bool) (r : Response) :
    (s.sendResponse mac relayed r).clock = s.clock := by
  simp only [State.sendResponse]; split <;> simp
@[simp] theorem State.sendResponse_power (s : State) (mac : BitVec 48) (relayed : Bool) (r : Response) :
    (s.sendResponse mac relayed r).power = s.power := by
  simp only [State.sendResponse]; split <;> simp
@[simp] theorem State.sendResponse_fuses (s : State) (mac : BitVec 48) (relayed : Bool) (r : Response) :
    (s.sendResponse mac relayed r).fuses = s.fuses := by
  simp only [State.sendResponse]; split <;> simp
@[simp] theorem State.sendResponse_flash (s : State) (mac : BitVec 48) (relayed : Bool) (r : Response) :
    (s.sendResponse mac relayed r).flash = s.flash := by
  simp only [State.sendResponse]; split <;> simp
@[simp] theorem State.sendResponse_trust (s : State) (mac : BitVec 48) (relayed : Bool) (r : Response) :
    (s.sendResponse mac relayed r).trust = s.trust := by
  simp only [State.sendResponse]; split <;> simp
@[simp] theorem State.sendResponse_image (s : State) (mac : BitVec 48) (relayed : Bool) (r : Response) :
    (s.sendResponse mac relayed r).image = s.image := by
  simp only [State.sendResponse]; split <;> simp
@[simp] theorem State.sendResponse_odn (s : State) (mac : BitVec 48) (relayed : Bool) (r : Response) :
    (s.sendResponse mac relayed r).odn = s.odn := by
  simp only [State.sendResponse]; split <;> simp
@[simp] theorem State.sendResponse_runs (s : State) (mac : BitVec 48) (relayed : Bool) (r : Response) :
    (s.sendResponse mac relayed r).runs = s.runs := by
  simp only [State.sendResponse]; split <;> simp
@[simp] theorem State.sendResponse_work (s : State) (mac : BitVec 48) (relayed : Bool) (r : Response) :
    (s.sendResponse mac relayed r).work = s.work := by
  simp only [State.sendResponse]; split <;> simp
@[simp] theorem State.sendResponse_runDescs (s : State) (mac : BitVec 48) (relayed : Bool) (r : Response) :
    (s.sendResponse mac relayed r).runDescs = s.runDescs := by
  simp only [State.sendResponse]; split <;> simp
@[simp] theorem State.sendResponse_heldRegions (s : State) (mac : BitVec 48) (relayed : Bool) (r : Response) :
    (s.sendResponse mac relayed r).heldRegions = s.heldRegions := by
  simp only [State.sendResponse]; split <;> simp
@[simp] theorem State.sendResponse_resident (s : State) (mac : BitVec 48) (relayed : Bool) (r : Response) :
    (s.sendResponse mac relayed r).resident = s.resident := by
  simp only [State.sendResponse]; split <;> simp
@[simp] theorem State.sendResponse_disp (s : State) (mac : BitVec 48) (relayed : Bool) (r : Response) :
    (s.sendResponse mac relayed r).disp = s.disp := by
  simp only [State.sendResponse]; split <;> simp
@[simp] theorem State.sendResponse_emb (s : State) (mac : BitVec 48) (relayed : Bool) (r : Response) :
    (s.sendResponse mac relayed r).emb = s.emb := by
  simp only [State.sendResponse]; split <;> simp
@[simp] theorem State.sendResponse_mst (s : State) (mac : BitVec 48) (relayed : Bool) (r : Response) :
    (s.sendResponse mac relayed r).mst = s.mst := by
  simp only [State.sendResponse]; split <;> simp
@[simp] theorem State.sendResponse_pat (s : State) (mac : BitVec 48) (relayed : Bool) (r : Response) :
    (s.sendResponse mac relayed r).pat = s.pat := by
  simp only [State.sendResponse]; split <;> simp
@[simp] theorem State.sendResponse_units (s : State) (mac : BitVec 48) (relayed : Bool) (r : Response) :
    (s.sendResponse mac relayed r).units = s.units := by
  simp only [State.sendResponse]; split <;> simp
@[simp] theorem State.sendResponse_gov (s : State) (mac : BitVec 48) (relayed : Bool) (r : Response) :
    (s.sendResponse mac relayed r).gov = s.gov := by
  simp only [State.sendResponse]; split <;> simp
@[simp] theorem State.sendResponse_mgmt (s : State) (mac : BitVec 48) (relayed : Bool) (r : Response) :
    (s.sendResponse mac relayed r).mgmt = s.mgmt := by
  simp only [State.sendResponse]; split <;> simp
@[simp] theorem State.sendResponse_flog (s : State) (mac : BitVec 48) (relayed : Bool) (r : Response) :
    (s.sendResponse mac relayed r).flog = s.flog := by
  simp only [State.sendResponse]; split <;> simp
@[simp] theorem State.answerBare_pending (s : State) (mac : BitVec 48) (relayed : Bool) (type : Nat) (session : W32) (seq : Nat) (st : Code) (body : List Byte) :
    (s.answerBare mac relayed type session seq st body).pending = s.pending := by
  simp [State.answerBare]
@[simp] theorem State.answerBare_free (s : State) (mac : BitVec 48) (relayed : Bool) (type : Nat) (session : W32) (seq : Nat) (st : Code) (body : List Byte) :
    (s.answerBare mac relayed type session seq st body).free = s.free := by
  simp [State.answerBare]
@[simp] theorem State.answerBare_regs (s : State) (mac : BitVec 48) (relayed : Bool) (type : Nat) (session : W32) (seq : Nat) (st : Code) (body : List Byte) :
    (s.answerBare mac relayed type session seq st body).regs = s.regs := by
  simp [State.answerBare]
@[simp] theorem State.answerBare_mem (s : State) (mac : BitVec 48) (relayed : Bool) (type : Nat) (session : W32) (seq : Nat) (st : Code) (body : List Byte) :
    (s.answerBare mac relayed type session seq st body).mem = s.mem := by
  simp [State.answerBare]
@[simp] theorem State.answerBare_core (s : State) (mac : BitVec 48) (relayed : Bool) (type : Nat) (session : W32) (seq : Nat) (st : Code) (body : List Byte) :
    (s.answerBare mac relayed type session seq st body).core = s.core := by
  simp [State.answerBare]
@[simp] theorem State.answerBare_side (s : State) (mac : BitVec 48) (relayed : Bool) (type : Nat) (session : W32) (seq : Nat) (st : Code) (body : List Byte) :
    (s.answerBare mac relayed type session seq st body).side = s.side := by
  simp [State.answerBare]
@[simp] theorem State.answerBare_clock (s : State) (mac : BitVec 48) (relayed : Bool) (type : Nat) (session : W32) (seq : Nat) (st : Code) (body : List Byte) :
    (s.answerBare mac relayed type session seq st body).clock = s.clock := by
  simp [State.answerBare]
@[simp] theorem State.answerBare_power (s : State) (mac : BitVec 48) (relayed : Bool) (type : Nat) (session : W32) (seq : Nat) (st : Code) (body : List Byte) :
    (s.answerBare mac relayed type session seq st body).power = s.power := by
  simp [State.answerBare]
@[simp] theorem State.answerBare_fuses (s : State) (mac : BitVec 48) (relayed : Bool) (type : Nat) (session : W32) (seq : Nat) (st : Code) (body : List Byte) :
    (s.answerBare mac relayed type session seq st body).fuses = s.fuses := by
  simp [State.answerBare]
@[simp] theorem State.answerBare_flash (s : State) (mac : BitVec 48) (relayed : Bool) (type : Nat) (session : W32) (seq : Nat) (st : Code) (body : List Byte) :
    (s.answerBare mac relayed type session seq st body).flash = s.flash := by
  simp [State.answerBare]
@[simp] theorem State.answerBare_trust (s : State) (mac : BitVec 48) (relayed : Bool) (type : Nat) (session : W32) (seq : Nat) (st : Code) (body : List Byte) :
    (s.answerBare mac relayed type session seq st body).trust = s.trust := by
  simp [State.answerBare]
@[simp] theorem State.answerBare_image (s : State) (mac : BitVec 48) (relayed : Bool) (type : Nat) (session : W32) (seq : Nat) (st : Code) (body : List Byte) :
    (s.answerBare mac relayed type session seq st body).image = s.image := by
  simp [State.answerBare]
@[simp] theorem State.answerBare_odn (s : State) (mac : BitVec 48) (relayed : Bool) (type : Nat) (session : W32) (seq : Nat) (st : Code) (body : List Byte) :
    (s.answerBare mac relayed type session seq st body).odn = s.odn := by
  simp [State.answerBare]
@[simp] theorem State.answerBare_runs (s : State) (mac : BitVec 48) (relayed : Bool) (type : Nat) (session : W32) (seq : Nat) (st : Code) (body : List Byte) :
    (s.answerBare mac relayed type session seq st body).runs = s.runs := by
  simp [State.answerBare]
@[simp] theorem State.answerBare_work (s : State) (mac : BitVec 48) (relayed : Bool) (type : Nat) (session : W32) (seq : Nat) (st : Code) (body : List Byte) :
    (s.answerBare mac relayed type session seq st body).work = s.work := by
  simp [State.answerBare]
@[simp] theorem State.answerBare_runDescs (s : State) (mac : BitVec 48) (relayed : Bool) (type : Nat) (session : W32) (seq : Nat) (st : Code) (body : List Byte) :
    (s.answerBare mac relayed type session seq st body).runDescs = s.runDescs := by
  simp [State.answerBare]
@[simp] theorem State.answerBare_heldRegions (s : State) (mac : BitVec 48) (relayed : Bool) (type : Nat) (session : W32) (seq : Nat) (st : Code) (body : List Byte) :
    (s.answerBare mac relayed type session seq st body).heldRegions = s.heldRegions := by
  simp [State.answerBare]
@[simp] theorem State.answerBare_resident (s : State) (mac : BitVec 48) (relayed : Bool) (type : Nat) (session : W32) (seq : Nat) (st : Code) (body : List Byte) :
    (s.answerBare mac relayed type session seq st body).resident = s.resident := by
  simp [State.answerBare]
@[simp] theorem State.answerBare_disp (s : State) (mac : BitVec 48) (relayed : Bool) (type : Nat) (session : W32) (seq : Nat) (st : Code) (body : List Byte) :
    (s.answerBare mac relayed type session seq st body).disp = s.disp := by
  simp [State.answerBare]
@[simp] theorem State.answerBare_emb (s : State) (mac : BitVec 48) (relayed : Bool) (type : Nat) (session : W32) (seq : Nat) (st : Code) (body : List Byte) :
    (s.answerBare mac relayed type session seq st body).emb = s.emb := by
  simp [State.answerBare]
@[simp] theorem State.answerBare_mst (s : State) (mac : BitVec 48) (relayed : Bool) (type : Nat) (session : W32) (seq : Nat) (st : Code) (body : List Byte) :
    (s.answerBare mac relayed type session seq st body).mst = s.mst := by
  simp [State.answerBare]
@[simp] theorem State.answerBare_pat (s : State) (mac : BitVec 48) (relayed : Bool) (type : Nat) (session : W32) (seq : Nat) (st : Code) (body : List Byte) :
    (s.answerBare mac relayed type session seq st body).pat = s.pat := by
  simp [State.answerBare]
@[simp] theorem State.answerBare_units (s : State) (mac : BitVec 48) (relayed : Bool) (type : Nat) (session : W32) (seq : Nat) (st : Code) (body : List Byte) :
    (s.answerBare mac relayed type session seq st body).units = s.units := by
  simp [State.answerBare]
@[simp] theorem State.answerBare_gov (s : State) (mac : BitVec 48) (relayed : Bool) (type : Nat) (session : W32) (seq : Nat) (st : Code) (body : List Byte) :
    (s.answerBare mac relayed type session seq st body).gov = s.gov := by
  simp [State.answerBare]
@[simp] theorem State.answerBare_mgmt (s : State) (mac : BitVec 48) (relayed : Bool) (type : Nat) (session : W32) (seq : Nat) (st : Code) (body : List Byte) :
    (s.answerBare mac relayed type session seq st body).mgmt = s.mgmt := by
  simp [State.answerBare]
@[simp] theorem State.answerBare_flog (s : State) (mac : BitVec 48) (relayed : Bool) (type : Nat) (session : W32) (seq : Nat) (st : Code) (body : List Byte) :
    (s.answerBare mac relayed type session seq st body).flog = s.flog := by
  simp [State.answerBare]
@[simp] theorem State.respond_pending (s : State) (id : W32) (type seq : Nat) (st : Code) (body : List Byte) (final : Bool) :
    (s.respond id type seq st body final).pending = s.pending := by
  simp only [State.respond]; split <;> simp
@[simp] theorem State.respond_free (s : State) (id : W32) (type seq : Nat) (st : Code) (body : List Byte) (final : Bool) :
    (s.respond id type seq st body final).free = s.free := by
  simp only [State.respond]; split <;> simp
@[simp] theorem State.respond_regs (s : State) (id : W32) (type seq : Nat) (st : Code) (body : List Byte) (final : Bool) :
    (s.respond id type seq st body final).regs = s.regs := by
  simp only [State.respond]; split <;> simp
@[simp] theorem State.respond_mem (s : State) (id : W32) (type seq : Nat) (st : Code) (body : List Byte) (final : Bool) :
    (s.respond id type seq st body final).mem = s.mem := by
  simp only [State.respond]; split <;> simp
@[simp] theorem State.respond_core (s : State) (id : W32) (type seq : Nat) (st : Code) (body : List Byte) (final : Bool) :
    (s.respond id type seq st body final).core = s.core := by
  simp only [State.respond]; split <;> simp
@[simp] theorem State.respond_side (s : State) (id : W32) (type seq : Nat) (st : Code) (body : List Byte) (final : Bool) :
    (s.respond id type seq st body final).side = s.side := by
  simp only [State.respond]; split <;> simp
@[simp] theorem State.respond_clock (s : State) (id : W32) (type seq : Nat) (st : Code) (body : List Byte) (final : Bool) :
    (s.respond id type seq st body final).clock = s.clock := by
  simp only [State.respond]; split <;> simp
@[simp] theorem State.respond_power (s : State) (id : W32) (type seq : Nat) (st : Code) (body : List Byte) (final : Bool) :
    (s.respond id type seq st body final).power = s.power := by
  simp only [State.respond]; split <;> simp
@[simp] theorem State.respond_fuses (s : State) (id : W32) (type seq : Nat) (st : Code) (body : List Byte) (final : Bool) :
    (s.respond id type seq st body final).fuses = s.fuses := by
  simp only [State.respond]; split <;> simp
@[simp] theorem State.respond_flash (s : State) (id : W32) (type seq : Nat) (st : Code) (body : List Byte) (final : Bool) :
    (s.respond id type seq st body final).flash = s.flash := by
  simp only [State.respond]; split <;> simp
@[simp] theorem State.respond_trust (s : State) (id : W32) (type seq : Nat) (st : Code) (body : List Byte) (final : Bool) :
    (s.respond id type seq st body final).trust = s.trust := by
  simp only [State.respond]; split <;> simp
@[simp] theorem State.respond_image (s : State) (id : W32) (type seq : Nat) (st : Code) (body : List Byte) (final : Bool) :
    (s.respond id type seq st body final).image = s.image := by
  simp only [State.respond]; split <;> simp
@[simp] theorem State.respond_runs (s : State) (id : W32) (type seq : Nat) (st : Code) (body : List Byte) (final : Bool) :
    (s.respond id type seq st body final).runs = s.runs := by
  simp only [State.respond]; split <;> simp
@[simp] theorem State.respond_work (s : State) (id : W32) (type seq : Nat) (st : Code) (body : List Byte) (final : Bool) :
    (s.respond id type seq st body final).work = s.work := by
  simp only [State.respond]; split <;> simp
@[simp] theorem State.respond_runDescs (s : State) (id : W32) (type seq : Nat) (st : Code) (body : List Byte) (final : Bool) :
    (s.respond id type seq st body final).runDescs = s.runDescs := by
  simp only [State.respond]; split <;> simp
@[simp] theorem State.respond_heldRegions (s : State) (id : W32) (type seq : Nat) (st : Code) (body : List Byte) (final : Bool) :
    (s.respond id type seq st body final).heldRegions = s.heldRegions := by
  simp only [State.respond]; split <;> simp
@[simp] theorem State.respond_resident (s : State) (id : W32) (type seq : Nat) (st : Code) (body : List Byte) (final : Bool) :
    (s.respond id type seq st body final).resident = s.resident := by
  simp only [State.respond]; split <;> simp
@[simp] theorem State.respond_disp (s : State) (id : W32) (type seq : Nat) (st : Code) (body : List Byte) (final : Bool) :
    (s.respond id type seq st body final).disp = s.disp := by
  simp only [State.respond]; split <;> simp
@[simp] theorem State.respond_emb (s : State) (id : W32) (type seq : Nat) (st : Code) (body : List Byte) (final : Bool) :
    (s.respond id type seq st body final).emb = s.emb := by
  simp only [State.respond]; split <;> simp
@[simp] theorem State.respond_mst (s : State) (id : W32) (type seq : Nat) (st : Code) (body : List Byte) (final : Bool) :
    (s.respond id type seq st body final).mst = s.mst := by
  simp only [State.respond]; split <;> simp
@[simp] theorem State.respond_pat (s : State) (id : W32) (type seq : Nat) (st : Code) (body : List Byte) (final : Bool) :
    (s.respond id type seq st body final).pat = s.pat := by
  simp only [State.respond]; split <;> simp
@[simp] theorem State.respond_units (s : State) (id : W32) (type seq : Nat) (st : Code) (body : List Byte) (final : Bool) :
    (s.respond id type seq st body final).units = s.units := by
  simp only [State.respond]; split <;> simp
@[simp] theorem State.respond_gov (s : State) (id : W32) (type seq : Nat) (st : Code) (body : List Byte) (final : Bool) :
    (s.respond id type seq st body final).gov = s.gov := by
  simp only [State.respond]; split <;> simp
@[simp] theorem State.respond_mgmt (s : State) (id : W32) (type seq : Nat) (st : Code) (body : List Byte) (final : Bool) :
    (s.respond id type seq st body final).mgmt = s.mgmt := by
  simp only [State.respond]; split <;> simp
@[simp] theorem State.respond_flog (s : State) (id : W32) (type seq : Nat) (st : Code) (body : List Byte) (final : Bool) :
    (s.respond id type seq st body final).flog = s.flog := by
  simp only [State.respond]; split <;> simp
@[simp] theorem State.sendAttention_pending (s : State) (mac : BitVec 48) (session : W32) (m : AttnMsg) :
    (s.sendAttention mac session m).pending = s.pending := by
  simp only [State.sendAttention]; split <;> simp
@[simp] theorem State.sendAttention_free (s : State) (mac : BitVec 48) (session : W32) (m : AttnMsg) :
    (s.sendAttention mac session m).free = s.free := by
  simp only [State.sendAttention]; split <;> simp
@[simp] theorem State.sendAttention_regs (s : State) (mac : BitVec 48) (session : W32) (m : AttnMsg) :
    (s.sendAttention mac session m).regs = s.regs := by
  simp only [State.sendAttention]; split <;> simp
@[simp] theorem State.sendAttention_mem (s : State) (mac : BitVec 48) (session : W32) (m : AttnMsg) :
    (s.sendAttention mac session m).mem = s.mem := by
  simp only [State.sendAttention]; split <;> simp
@[simp] theorem State.sendAttention_core (s : State) (mac : BitVec 48) (session : W32) (m : AttnMsg) :
    (s.sendAttention mac session m).core = s.core := by
  simp only [State.sendAttention]; split <;> simp
@[simp] theorem State.sendAttention_side (s : State) (mac : BitVec 48) (session : W32) (m : AttnMsg) :
    (s.sendAttention mac session m).side = s.side := by
  simp only [State.sendAttention]; split <;> simp
@[simp] theorem State.sendAttention_clock (s : State) (mac : BitVec 48) (session : W32) (m : AttnMsg) :
    (s.sendAttention mac session m).clock = s.clock := by
  simp only [State.sendAttention]; split <;> simp
@[simp] theorem State.sendAttention_power (s : State) (mac : BitVec 48) (session : W32) (m : AttnMsg) :
    (s.sendAttention mac session m).power = s.power := by
  simp only [State.sendAttention]; split <;> simp
@[simp] theorem State.sendAttention_fuses (s : State) (mac : BitVec 48) (session : W32) (m : AttnMsg) :
    (s.sendAttention mac session m).fuses = s.fuses := by
  simp only [State.sendAttention]; split <;> simp
@[simp] theorem State.sendAttention_flash (s : State) (mac : BitVec 48) (session : W32) (m : AttnMsg) :
    (s.sendAttention mac session m).flash = s.flash := by
  simp only [State.sendAttention]; split <;> simp
@[simp] theorem State.sendAttention_trust (s : State) (mac : BitVec 48) (session : W32) (m : AttnMsg) :
    (s.sendAttention mac session m).trust = s.trust := by
  simp only [State.sendAttention]; split <;> simp
@[simp] theorem State.sendAttention_image (s : State) (mac : BitVec 48) (session : W32) (m : AttnMsg) :
    (s.sendAttention mac session m).image = s.image := by
  simp only [State.sendAttention]; split <;> simp
@[simp] theorem State.sendAttention_odn (s : State) (mac : BitVec 48) (session : W32) (m : AttnMsg) :
    (s.sendAttention mac session m).odn = s.odn := by
  simp only [State.sendAttention]; split <;> simp
@[simp] theorem State.sendAttention_runs (s : State) (mac : BitVec 48) (session : W32) (m : AttnMsg) :
    (s.sendAttention mac session m).runs = s.runs := by
  simp only [State.sendAttention]; split <;> simp
@[simp] theorem State.sendAttention_work (s : State) (mac : BitVec 48) (session : W32) (m : AttnMsg) :
    (s.sendAttention mac session m).work = s.work := by
  simp only [State.sendAttention]; split <;> simp
@[simp] theorem State.sendAttention_runDescs (s : State) (mac : BitVec 48) (session : W32) (m : AttnMsg) :
    (s.sendAttention mac session m).runDescs = s.runDescs := by
  simp only [State.sendAttention]; split <;> simp
@[simp] theorem State.sendAttention_heldRegions (s : State) (mac : BitVec 48) (session : W32) (m : AttnMsg) :
    (s.sendAttention mac session m).heldRegions = s.heldRegions := by
  simp only [State.sendAttention]; split <;> simp
@[simp] theorem State.sendAttention_resident (s : State) (mac : BitVec 48) (session : W32) (m : AttnMsg) :
    (s.sendAttention mac session m).resident = s.resident := by
  simp only [State.sendAttention]; split <;> simp
@[simp] theorem State.sendAttention_disp (s : State) (mac : BitVec 48) (session : W32) (m : AttnMsg) :
    (s.sendAttention mac session m).disp = s.disp := by
  simp only [State.sendAttention]; split <;> simp
@[simp] theorem State.sendAttention_emb (s : State) (mac : BitVec 48) (session : W32) (m : AttnMsg) :
    (s.sendAttention mac session m).emb = s.emb := by
  simp only [State.sendAttention]; split <;> simp
@[simp] theorem State.sendAttention_mst (s : State) (mac : BitVec 48) (session : W32) (m : AttnMsg) :
    (s.sendAttention mac session m).mst = s.mst := by
  simp only [State.sendAttention]; split <;> simp
@[simp] theorem State.sendAttention_pat (s : State) (mac : BitVec 48) (session : W32) (m : AttnMsg) :
    (s.sendAttention mac session m).pat = s.pat := by
  simp only [State.sendAttention]; split <;> simp
@[simp] theorem State.sendAttention_units (s : State) (mac : BitVec 48) (session : W32) (m : AttnMsg) :
    (s.sendAttention mac session m).units = s.units := by
  simp only [State.sendAttention]; split <;> simp
@[simp] theorem State.sendAttention_gov (s : State) (mac : BitVec 48) (session : W32) (m : AttnMsg) :
    (s.sendAttention mac session m).gov = s.gov := by
  simp only [State.sendAttention]; split <;> simp
@[simp] theorem State.sendAttention_mgmt (s : State) (mac : BitVec 48) (session : W32) (m : AttnMsg) :
    (s.sendAttention mac session m).mgmt = s.mgmt := by
  simp only [State.sendAttention]; split <;> simp
@[simp] theorem State.sendAttention_flog (s : State) (mac : BitVec 48) (session : W32) (m : AttnMsg) :
    (s.sendAttention mac session m).flog = s.flog := by
  simp only [State.sendAttention]; split <;> simp
@[simp] theorem State.firstSend_pending (s : State) (slot : Nat) :
    (s.firstSend slot).pending = s.pending := by
  simp only [State.firstSend]; split
  · rfl
  · generalize (_ || _) = b
    cases b
    · simp only [Bool.false_eq_true, if_false]; split <;> simp
    · rfl
@[simp] theorem State.firstSend_free (s : State) (slot : Nat) :
    (s.firstSend slot).free = s.free := by
  simp only [State.firstSend]; split
  · rfl
  · generalize (_ || _) = b
    cases b
    · simp only [Bool.false_eq_true, if_false]; split <;> simp
    · rfl
@[simp] theorem State.firstSend_regs (s : State) (slot : Nat) :
    (s.firstSend slot).regs = s.regs := by
  simp only [State.firstSend]; split
  · rfl
  · generalize (_ || _) = b
    cases b
    · simp only [Bool.false_eq_true, if_false]; split <;> simp
    · rfl
@[simp] theorem State.firstSend_mem (s : State) (slot : Nat) :
    (s.firstSend slot).mem = s.mem := by
  simp only [State.firstSend]; split
  · rfl
  · generalize (_ || _) = b
    cases b
    · simp only [Bool.false_eq_true, if_false]; split <;> simp
    · rfl
@[simp] theorem State.firstSend_core (s : State) (slot : Nat) :
    (s.firstSend slot).core = s.core := by
  simp only [State.firstSend]; split
  · rfl
  · generalize (_ || _) = b
    cases b
    · simp only [Bool.false_eq_true, if_false]; split <;> simp
    · rfl
@[simp] theorem State.firstSend_side (s : State) (slot : Nat) :
    (s.firstSend slot).side = s.side := by
  simp only [State.firstSend]; split
  · rfl
  · generalize (_ || _) = b
    cases b
    · simp only [Bool.false_eq_true, if_false]; split <;> simp
    · rfl
@[simp] theorem State.firstSend_clock (s : State) (slot : Nat) :
    (s.firstSend slot).clock = s.clock := by
  simp only [State.firstSend]; split
  · rfl
  · generalize (_ || _) = b
    cases b
    · simp only [Bool.false_eq_true, if_false]; split <;> simp
    · rfl
@[simp] theorem State.firstSend_power (s : State) (slot : Nat) :
    (s.firstSend slot).power = s.power := by
  simp only [State.firstSend]; split
  · rfl
  · generalize (_ || _) = b
    cases b
    · simp only [Bool.false_eq_true, if_false]; split <;> simp
    · rfl
@[simp] theorem State.firstSend_fuses (s : State) (slot : Nat) :
    (s.firstSend slot).fuses = s.fuses := by
  simp only [State.firstSend]; split
  · rfl
  · generalize (_ || _) = b
    cases b
    · simp only [Bool.false_eq_true, if_false]; split <;> simp
    · rfl
@[simp] theorem State.firstSend_flash (s : State) (slot : Nat) :
    (s.firstSend slot).flash = s.flash := by
  simp only [State.firstSend]; split
  · rfl
  · generalize (_ || _) = b
    cases b
    · simp only [Bool.false_eq_true, if_false]; split <;> simp
    · rfl
@[simp] theorem State.firstSend_trust (s : State) (slot : Nat) :
    (s.firstSend slot).trust = s.trust := by
  simp only [State.firstSend]; split
  · rfl
  · generalize (_ || _) = b
    cases b
    · simp only [Bool.false_eq_true, if_false]; split <;> simp
    · rfl
@[simp] theorem State.firstSend_image (s : State) (slot : Nat) :
    (s.firstSend slot).image = s.image := by
  simp only [State.firstSend]; split
  · rfl
  · generalize (_ || _) = b
    cases b
    · simp only [Bool.false_eq_true, if_false]; split <;> simp
    · rfl
@[simp] theorem State.firstSend_runs (s : State) (slot : Nat) :
    (s.firstSend slot).runs = s.runs := by
  simp only [State.firstSend]; split
  · rfl
  · generalize (_ || _) = b
    cases b
    · simp only [Bool.false_eq_true, if_false]; split <;> simp
    · rfl
@[simp] theorem State.firstSend_work (s : State) (slot : Nat) :
    (s.firstSend slot).work = s.work := by
  simp only [State.firstSend]; split
  · rfl
  · generalize (_ || _) = b
    cases b
    · simp only [Bool.false_eq_true, if_false]; split <;> simp
    · rfl
@[simp] theorem State.firstSend_runDescs (s : State) (slot : Nat) :
    (s.firstSend slot).runDescs = s.runDescs := by
  simp only [State.firstSend]; split
  · rfl
  · generalize (_ || _) = b
    cases b
    · simp only [Bool.false_eq_true, if_false]; split <;> simp
    · rfl
@[simp] theorem State.firstSend_heldRegions (s : State) (slot : Nat) :
    (s.firstSend slot).heldRegions = s.heldRegions := by
  simp only [State.firstSend]; split
  · rfl
  · generalize (_ || _) = b
    cases b
    · simp only [Bool.false_eq_true, if_false]; split <;> simp
    · rfl
@[simp] theorem State.firstSend_resident (s : State) (slot : Nat) :
    (s.firstSend slot).resident = s.resident := by
  simp only [State.firstSend]; split
  · rfl
  · generalize (_ || _) = b
    cases b
    · simp only [Bool.false_eq_true, if_false]; split <;> simp
    · rfl
@[simp] theorem State.firstSend_disp (s : State) (slot : Nat) :
    (s.firstSend slot).disp = s.disp := by
  simp only [State.firstSend]; split
  · rfl
  · generalize (_ || _) = b
    cases b
    · simp only [Bool.false_eq_true, if_false]; split <;> simp
    · rfl
@[simp] theorem State.firstSend_emb (s : State) (slot : Nat) :
    (s.firstSend slot).emb = s.emb := by
  simp only [State.firstSend]; split
  · rfl
  · generalize (_ || _) = b
    cases b
    · simp only [Bool.false_eq_true, if_false]; split <;> simp
    · rfl
@[simp] theorem State.firstSend_mst (s : State) (slot : Nat) :
    (s.firstSend slot).mst = s.mst := by
  simp only [State.firstSend]; split
  · rfl
  · generalize (_ || _) = b
    cases b
    · simp only [Bool.false_eq_true, if_false]; split <;> simp
    · rfl
@[simp] theorem State.firstSend_pat (s : State) (slot : Nat) :
    (s.firstSend slot).pat = s.pat := by
  simp only [State.firstSend]; split
  · rfl
  · generalize (_ || _) = b
    cases b
    · simp only [Bool.false_eq_true, if_false]; split <;> simp
    · rfl
@[simp] theorem State.firstSend_units (s : State) (slot : Nat) :
    (s.firstSend slot).units = s.units := by
  simp only [State.firstSend]; split
  · rfl
  · generalize (_ || _) = b
    cases b
    · simp only [Bool.false_eq_true, if_false]; split <;> simp
    · rfl
@[simp] theorem State.firstSend_gov (s : State) (slot : Nat) :
    (s.firstSend slot).gov = s.gov := by
  simp only [State.firstSend]; split
  · rfl
  · generalize (_ || _) = b
    cases b
    · simp only [Bool.false_eq_true, if_false]; split <;> simp
    · rfl
@[simp] theorem State.firstSend_mgmt (s : State) (slot : Nat) :
    (s.firstSend slot).mgmt = s.mgmt := by
  simp only [State.firstSend]; split
  · rfl
  · generalize (_ || _) = b
    cases b
    · simp only [Bool.false_eq_true, if_false]; split <;> simp
    · rfl
@[simp] theorem State.firstSend_flog (s : State) (slot : Nat) :
    (s.firstSend slot).flog = s.flog := by
  simp only [State.firstSend]; split
  · rfl
  · generalize (_ || _) = b
    cases b
    · simp only [Bool.false_eq_true, if_false]; split <;> simp
    · rfl
@[simp] theorem State.deliver_pending (s : State) (o : Occur) (backlog : Bool) (dst : Session → Bool) :
    (s.deliver o backlog dst).pending = s.pending := by
  simp only [State.deliver]; rw [foldl_keeps State.pending _ (fun s x => by simp)]
@[simp] theorem State.deliver_free (s : State) (o : Occur) (backlog : Bool) (dst : Session → Bool) :
    (s.deliver o backlog dst).free = s.free := by
  simp only [State.deliver]; rw [foldl_keeps State.free _ (fun s x => by simp)]
@[simp] theorem State.deliver_regs (s : State) (o : Occur) (backlog : Bool) (dst : Session → Bool) :
    (s.deliver o backlog dst).regs = s.regs := by
  simp only [State.deliver]; rw [foldl_keeps State.regs _ (fun s x => by simp)]
@[simp] theorem State.deliver_mem (s : State) (o : Occur) (backlog : Bool) (dst : Session → Bool) :
    (s.deliver o backlog dst).mem = s.mem := by
  simp only [State.deliver]; rw [foldl_keeps State.mem _ (fun s x => by simp)]
@[simp] theorem State.deliver_core (s : State) (o : Occur) (backlog : Bool) (dst : Session → Bool) :
    (s.deliver o backlog dst).core = s.core := by
  simp only [State.deliver]; rw [foldl_keeps State.core _ (fun s x => by simp)]
@[simp] theorem State.deliver_side (s : State) (o : Occur) (backlog : Bool) (dst : Session → Bool) :
    (s.deliver o backlog dst).side = s.side := by
  simp only [State.deliver]; rw [foldl_keeps State.side _ (fun s x => by simp)]
@[simp] theorem State.deliver_clock (s : State) (o : Occur) (backlog : Bool) (dst : Session → Bool) :
    (s.deliver o backlog dst).clock = s.clock := by
  simp only [State.deliver]; rw [foldl_keeps State.clock _ (fun s x => by simp)]
@[simp] theorem State.deliver_power (s : State) (o : Occur) (backlog : Bool) (dst : Session → Bool) :
    (s.deliver o backlog dst).power = s.power := by
  simp only [State.deliver]; rw [foldl_keeps State.power _ (fun s x => by simp)]
@[simp] theorem State.deliver_fuses (s : State) (o : Occur) (backlog : Bool) (dst : Session → Bool) :
    (s.deliver o backlog dst).fuses = s.fuses := by
  simp only [State.deliver]; rw [foldl_keeps State.fuses _ (fun s x => by simp)]
@[simp] theorem State.deliver_flash (s : State) (o : Occur) (backlog : Bool) (dst : Session → Bool) :
    (s.deliver o backlog dst).flash = s.flash := by
  simp only [State.deliver]; rw [foldl_keeps State.flash _ (fun s x => by simp)]
@[simp] theorem State.deliver_trust (s : State) (o : Occur) (backlog : Bool) (dst : Session → Bool) :
    (s.deliver o backlog dst).trust = s.trust := by
  simp only [State.deliver]; rw [foldl_keeps State.trust _ (fun s x => by simp)]
@[simp] theorem State.deliver_image (s : State) (o : Occur) (backlog : Bool) (dst : Session → Bool) :
    (s.deliver o backlog dst).image = s.image := by
  simp only [State.deliver]; rw [foldl_keeps State.image _ (fun s x => by simp)]
@[simp] theorem State.deliver_runs (s : State) (o : Occur) (backlog : Bool) (dst : Session → Bool) :
    (s.deliver o backlog dst).runs = s.runs := by
  simp only [State.deliver]; rw [foldl_keeps State.runs _ (fun s x => by simp)]
@[simp] theorem State.deliver_work (s : State) (o : Occur) (backlog : Bool) (dst : Session → Bool) :
    (s.deliver o backlog dst).work = s.work := by
  simp only [State.deliver]; rw [foldl_keeps State.work _ (fun s x => by simp)]
@[simp] theorem State.deliver_runDescs (s : State) (o : Occur) (backlog : Bool) (dst : Session → Bool) :
    (s.deliver o backlog dst).runDescs = s.runDescs := by
  simp only [State.deliver]; rw [foldl_keeps State.runDescs _ (fun s x => by simp)]
@[simp] theorem State.deliver_heldRegions (s : State) (o : Occur) (backlog : Bool) (dst : Session → Bool) :
    (s.deliver o backlog dst).heldRegions = s.heldRegions := by
  simp only [State.deliver]; rw [foldl_keeps State.heldRegions _ (fun s x => by simp)]
@[simp] theorem State.deliver_resident (s : State) (o : Occur) (backlog : Bool) (dst : Session → Bool) :
    (s.deliver o backlog dst).resident = s.resident := by
  simp only [State.deliver]; rw [foldl_keeps State.resident _ (fun s x => by simp)]
@[simp] theorem State.deliver_disp (s : State) (o : Occur) (backlog : Bool) (dst : Session → Bool) :
    (s.deliver o backlog dst).disp = s.disp := by
  simp only [State.deliver]; rw [foldl_keeps State.disp _ (fun s x => by simp)]
@[simp] theorem State.deliver_emb (s : State) (o : Occur) (backlog : Bool) (dst : Session → Bool) :
    (s.deliver o backlog dst).emb = s.emb := by
  simp only [State.deliver]; rw [foldl_keeps State.emb _ (fun s x => by simp)]
@[simp] theorem State.deliver_mst (s : State) (o : Occur) (backlog : Bool) (dst : Session → Bool) :
    (s.deliver o backlog dst).mst = s.mst := by
  simp only [State.deliver]; rw [foldl_keeps State.mst _ (fun s x => by simp)]
@[simp] theorem State.deliver_pat (s : State) (o : Occur) (backlog : Bool) (dst : Session → Bool) :
    (s.deliver o backlog dst).pat = s.pat := by
  simp only [State.deliver]; rw [foldl_keeps State.pat _ (fun s x => by simp)]
@[simp] theorem State.deliver_units (s : State) (o : Occur) (backlog : Bool) (dst : Session → Bool) :
    (s.deliver o backlog dst).units = s.units := by
  simp only [State.deliver]; rw [foldl_keeps State.units _ (fun s x => by simp)]
@[simp] theorem State.deliver_gov (s : State) (o : Occur) (backlog : Bool) (dst : Session → Bool) :
    (s.deliver o backlog dst).gov = s.gov := by
  simp only [State.deliver]; rw [foldl_keeps State.gov _ (fun s x => by simp)]
@[simp] theorem State.deliver_mgmt (s : State) (o : Occur) (backlog : Bool) (dst : Session → Bool) :
    (s.deliver o backlog dst).mgmt = s.mgmt := by
  simp only [State.deliver]; rw [foldl_keeps State.mgmt _ (fun s x => by simp)]
@[simp] theorem State.deliver_flog (s : State) (o : Occur) (backlog : Bool) (dst : Session → Bool) :
    (s.deliver o backlog dst).flog = s.flog := by
  simp only [State.deliver]; rw [foldl_keeps State.flog _ (fun s x => by simp)]
@[simp] theorem State.report_pending (s : State) (code : Code) (detail : List W64) :
    (s.report code detail).pending = s.pending := by
  simp only [State.report]; split <;> simp
@[simp] theorem State.report_free (s : State) (code : Code) (detail : List W64) :
    (s.report code detail).free = s.free := by
  simp only [State.report]; split <;> simp
@[simp] theorem State.report_regs (s : State) (code : Code) (detail : List W64) :
    (s.report code detail).regs = s.regs := by
  simp only [State.report]; split <;> simp
@[simp] theorem State.report_mem (s : State) (code : Code) (detail : List W64) :
    (s.report code detail).mem = s.mem := by
  simp only [State.report]; split <;> simp
@[simp] theorem State.report_core (s : State) (code : Code) (detail : List W64) :
    (s.report code detail).core = s.core := by
  simp only [State.report]; split <;> simp
@[simp] theorem State.report_side (s : State) (code : Code) (detail : List W64) :
    (s.report code detail).side = s.side := by
  simp only [State.report]; split <;> simp
@[simp] theorem State.report_clock (s : State) (code : Code) (detail : List W64) :
    (s.report code detail).clock = s.clock := by
  simp only [State.report]; split <;> simp
@[simp] theorem State.report_power (s : State) (code : Code) (detail : List W64) :
    (s.report code detail).power = s.power := by
  simp only [State.report]; split <;> simp
@[simp] theorem State.report_fuses (s : State) (code : Code) (detail : List W64) :
    (s.report code detail).fuses = s.fuses := by
  simp only [State.report]; split <;> simp
@[simp] theorem State.report_flash (s : State) (code : Code) (detail : List W64) :
    (s.report code detail).flash = s.flash := by
  simp only [State.report]; split <;> simp
@[simp] theorem State.report_trust (s : State) (code : Code) (detail : List W64) :
    (s.report code detail).trust = s.trust := by
  simp only [State.report]; split <;> simp
@[simp] theorem State.report_image (s : State) (code : Code) (detail : List W64) :
    (s.report code detail).image = s.image := by
  simp only [State.report]; split <;> simp
@[simp] theorem State.report_runs (s : State) (code : Code) (detail : List W64) :
    (s.report code detail).runs = s.runs := by
  simp only [State.report]; split <;> simp
@[simp] theorem State.report_work (s : State) (code : Code) (detail : List W64) :
    (s.report code detail).work = s.work := by
  simp only [State.report]; split <;> simp
@[simp] theorem State.report_runDescs (s : State) (code : Code) (detail : List W64) :
    (s.report code detail).runDescs = s.runDescs := by
  simp only [State.report]; split <;> simp
@[simp] theorem State.report_heldRegions (s : State) (code : Code) (detail : List W64) :
    (s.report code detail).heldRegions = s.heldRegions := by
  simp only [State.report]; split <;> simp
@[simp] theorem State.report_resident (s : State) (code : Code) (detail : List W64) :
    (s.report code detail).resident = s.resident := by
  simp only [State.report]; split <;> simp
@[simp] theorem State.report_disp (s : State) (code : Code) (detail : List W64) :
    (s.report code detail).disp = s.disp := by
  simp only [State.report]; split <;> simp
@[simp] theorem State.report_emb (s : State) (code : Code) (detail : List W64) :
    (s.report code detail).emb = s.emb := by
  simp only [State.report]; split <;> simp
@[simp] theorem State.report_mst (s : State) (code : Code) (detail : List W64) :
    (s.report code detail).mst = s.mst := by
  simp only [State.report]; split <;> simp
@[simp] theorem State.report_pat (s : State) (code : Code) (detail : List W64) :
    (s.report code detail).pat = s.pat := by
  simp only [State.report]; split <;> simp
@[simp] theorem State.report_units (s : State) (code : Code) (detail : List W64) :
    (s.report code detail).units = s.units := by
  simp only [State.report]; split <;> simp
@[simp] theorem State.report_gov (s : State) (code : Code) (detail : List W64) :
    (s.report code detail).gov = s.gov := by
  simp only [State.report]; split <;> simp
@[simp] theorem State.report_mgmt (s : State) (code : Code) (detail : List W64) :
    (s.report code detail).mgmt = s.mgmt := by
  simp only [State.report]; split <;> simp
@[simp] theorem State.report_flog (s : State) (code : Code) (detail : List W64) :
    (s.report code detail).flog = s.flog := by
  simp only [State.report]; split <;> simp
@[simp] theorem State.attn_pending (s : State) (code : Code) (detail : List Nat) :
    (s.attn code detail).pending = s.pending := by
  simp [State.attn]
@[simp] theorem State.attn_free (s : State) (code : Code) (detail : List Nat) :
    (s.attn code detail).free = s.free := by
  simp [State.attn]
@[simp] theorem State.attn_regs (s : State) (code : Code) (detail : List Nat) :
    (s.attn code detail).regs = s.regs := by
  simp [State.attn]
@[simp] theorem State.attn_mem (s : State) (code : Code) (detail : List Nat) :
    (s.attn code detail).mem = s.mem := by
  simp [State.attn]
@[simp] theorem State.attn_core (s : State) (code : Code) (detail : List Nat) :
    (s.attn code detail).core = s.core := by
  simp [State.attn]
@[simp] theorem State.attn_side (s : State) (code : Code) (detail : List Nat) :
    (s.attn code detail).side = s.side := by
  simp [State.attn]
@[simp] theorem State.attn_clock (s : State) (code : Code) (detail : List Nat) :
    (s.attn code detail).clock = s.clock := by
  simp [State.attn]
@[simp] theorem State.attn_power (s : State) (code : Code) (detail : List Nat) :
    (s.attn code detail).power = s.power := by
  simp [State.attn]
@[simp] theorem State.attn_fuses (s : State) (code : Code) (detail : List Nat) :
    (s.attn code detail).fuses = s.fuses := by
  simp [State.attn]
@[simp] theorem State.attn_flash (s : State) (code : Code) (detail : List Nat) :
    (s.attn code detail).flash = s.flash := by
  simp [State.attn]
@[simp] theorem State.attn_trust (s : State) (code : Code) (detail : List Nat) :
    (s.attn code detail).trust = s.trust := by
  simp [State.attn]
@[simp] theorem State.attn_image (s : State) (code : Code) (detail : List Nat) :
    (s.attn code detail).image = s.image := by
  simp [State.attn]
@[simp] theorem State.attn_runs (s : State) (code : Code) (detail : List Nat) :
    (s.attn code detail).runs = s.runs := by
  simp [State.attn]
@[simp] theorem State.attn_work (s : State) (code : Code) (detail : List Nat) :
    (s.attn code detail).work = s.work := by
  simp [State.attn]
@[simp] theorem State.attn_runDescs (s : State) (code : Code) (detail : List Nat) :
    (s.attn code detail).runDescs = s.runDescs := by
  simp [State.attn]
@[simp] theorem State.attn_heldRegions (s : State) (code : Code) (detail : List Nat) :
    (s.attn code detail).heldRegions = s.heldRegions := by
  simp [State.attn]
@[simp] theorem State.attn_resident (s : State) (code : Code) (detail : List Nat) :
    (s.attn code detail).resident = s.resident := by
  simp [State.attn]
@[simp] theorem State.attn_disp (s : State) (code : Code) (detail : List Nat) :
    (s.attn code detail).disp = s.disp := by
  simp [State.attn]
@[simp] theorem State.attn_emb (s : State) (code : Code) (detail : List Nat) :
    (s.attn code detail).emb = s.emb := by
  simp [State.attn]
@[simp] theorem State.attn_mst (s : State) (code : Code) (detail : List Nat) :
    (s.attn code detail).mst = s.mst := by
  simp [State.attn]
@[simp] theorem State.attn_pat (s : State) (code : Code) (detail : List Nat) :
    (s.attn code detail).pat = s.pat := by
  simp [State.attn]
@[simp] theorem State.attn_units (s : State) (code : Code) (detail : List Nat) :
    (s.attn code detail).units = s.units := by
  simp [State.attn]
@[simp] theorem State.attn_gov (s : State) (code : Code) (detail : List Nat) :
    (s.attn code detail).gov = s.gov := by
  simp [State.attn]
@[simp] theorem State.attn_mgmt (s : State) (code : Code) (detail : List Nat) :
    (s.attn code detail).mgmt = s.mgmt := by
  simp [State.attn]
@[simp] theorem State.attn_flog (s : State) (code : Code) (detail : List Nat) :
    (s.attn code detail).flog = s.flog := by
  simp [State.attn]
@[simp] theorem State.overflowNotice_pending (s : State) (slot : Nat) :
    (s.overflowNotice slot).pending = s.pending := by
  simp only [State.overflowNotice]; split
  · rfl
  · split <;> simp
@[simp] theorem State.overflowNotice_free (s : State) (slot : Nat) :
    (s.overflowNotice slot).free = s.free := by
  simp only [State.overflowNotice]; split
  · rfl
  · split <;> simp
@[simp] theorem State.overflowNotice_regs (s : State) (slot : Nat) :
    (s.overflowNotice slot).regs = s.regs := by
  simp only [State.overflowNotice]; split
  · rfl
  · split <;> simp
@[simp] theorem State.overflowNotice_mem (s : State) (slot : Nat) :
    (s.overflowNotice slot).mem = s.mem := by
  simp only [State.overflowNotice]; split
  · rfl
  · split <;> simp
@[simp] theorem State.overflowNotice_core (s : State) (slot : Nat) :
    (s.overflowNotice slot).core = s.core := by
  simp only [State.overflowNotice]; split
  · rfl
  · split <;> simp
@[simp] theorem State.overflowNotice_side (s : State) (slot : Nat) :
    (s.overflowNotice slot).side = s.side := by
  simp only [State.overflowNotice]; split
  · rfl
  · split <;> simp
@[simp] theorem State.overflowNotice_clock (s : State) (slot : Nat) :
    (s.overflowNotice slot).clock = s.clock := by
  simp only [State.overflowNotice]; split
  · rfl
  · split <;> simp
@[simp] theorem State.overflowNotice_power (s : State) (slot : Nat) :
    (s.overflowNotice slot).power = s.power := by
  simp only [State.overflowNotice]; split
  · rfl
  · split <;> simp
@[simp] theorem State.overflowNotice_fuses (s : State) (slot : Nat) :
    (s.overflowNotice slot).fuses = s.fuses := by
  simp only [State.overflowNotice]; split
  · rfl
  · split <;> simp
@[simp] theorem State.overflowNotice_flash (s : State) (slot : Nat) :
    (s.overflowNotice slot).flash = s.flash := by
  simp only [State.overflowNotice]; split
  · rfl
  · split <;> simp
@[simp] theorem State.overflowNotice_trust (s : State) (slot : Nat) :
    (s.overflowNotice slot).trust = s.trust := by
  simp only [State.overflowNotice]; split
  · rfl
  · split <;> simp
@[simp] theorem State.overflowNotice_image (s : State) (slot : Nat) :
    (s.overflowNotice slot).image = s.image := by
  simp only [State.overflowNotice]; split
  · rfl
  · split <;> simp
@[simp] theorem State.overflowNotice_runs (s : State) (slot : Nat) :
    (s.overflowNotice slot).runs = s.runs := by
  simp only [State.overflowNotice]; split
  · rfl
  · split <;> simp
@[simp] theorem State.overflowNotice_work (s : State) (slot : Nat) :
    (s.overflowNotice slot).work = s.work := by
  simp only [State.overflowNotice]; split
  · rfl
  · split <;> simp
@[simp] theorem State.overflowNotice_runDescs (s : State) (slot : Nat) :
    (s.overflowNotice slot).runDescs = s.runDescs := by
  simp only [State.overflowNotice]; split
  · rfl
  · split <;> simp
@[simp] theorem State.overflowNotice_heldRegions (s : State) (slot : Nat) :
    (s.overflowNotice slot).heldRegions = s.heldRegions := by
  simp only [State.overflowNotice]; split
  · rfl
  · split <;> simp
@[simp] theorem State.overflowNotice_resident (s : State) (slot : Nat) :
    (s.overflowNotice slot).resident = s.resident := by
  simp only [State.overflowNotice]; split
  · rfl
  · split <;> simp
@[simp] theorem State.overflowNotice_disp (s : State) (slot : Nat) :
    (s.overflowNotice slot).disp = s.disp := by
  simp only [State.overflowNotice]; split
  · rfl
  · split <;> simp
@[simp] theorem State.overflowNotice_emb (s : State) (slot : Nat) :
    (s.overflowNotice slot).emb = s.emb := by
  simp only [State.overflowNotice]; split
  · rfl
  · split <;> simp
@[simp] theorem State.overflowNotice_mst (s : State) (slot : Nat) :
    (s.overflowNotice slot).mst = s.mst := by
  simp only [State.overflowNotice]; split
  · rfl
  · split <;> simp
@[simp] theorem State.overflowNotice_pat (s : State) (slot : Nat) :
    (s.overflowNotice slot).pat = s.pat := by
  simp only [State.overflowNotice]; split
  · rfl
  · split <;> simp
@[simp] theorem State.overflowNotice_units (s : State) (slot : Nat) :
    (s.overflowNotice slot).units = s.units := by
  simp only [State.overflowNotice]; split
  · rfl
  · split <;> simp
@[simp] theorem State.overflowNotice_gov (s : State) (slot : Nat) :
    (s.overflowNotice slot).gov = s.gov := by
  simp only [State.overflowNotice]; split
  · rfl
  · split <;> simp
@[simp] theorem State.overflowNotice_mgmt (s : State) (slot : Nat) :
    (s.overflowNotice slot).mgmt = s.mgmt := by
  simp only [State.overflowNotice]; split
  · rfl
  · split <;> simp
@[simp] theorem State.overflowNotice_flog (s : State) (slot : Nat) :
    (s.overflowNotice slot).flog = s.flog := by
  simp only [State.overflowNotice]; split
  · rfl
  · split <;> simp
@[simp] theorem State.faultLog_pending (s : State) (code kind outcome physCluster physUnit logical detail : Nat) :
    (s.faultLog code kind outcome physCluster physUnit logical detail).pending = s.pending := by
  simp only [State.faultLog]; simp
@[simp] theorem State.faultLog_free (s : State) (code kind outcome physCluster physUnit logical detail : Nat) :
    (s.faultLog code kind outcome physCluster physUnit logical detail).free = s.free := by
  simp only [State.faultLog]; simp
@[simp] theorem State.faultLog_mem (s : State) (code kind outcome physCluster physUnit logical detail : Nat) :
    (s.faultLog code kind outcome physCluster physUnit logical detail).mem = s.mem := by
  simp only [State.faultLog]; simp
@[simp] theorem State.faultLog_core (s : State) (code kind outcome physCluster physUnit logical detail : Nat) :
    (s.faultLog code kind outcome physCluster physUnit logical detail).core = s.core := by
  simp only [State.faultLog]; simp
@[simp] theorem State.faultLog_side (s : State) (code kind outcome physCluster physUnit logical detail : Nat) :
    (s.faultLog code kind outcome physCluster physUnit logical detail).side = s.side := by
  simp only [State.faultLog]; simp
@[simp] theorem State.faultLog_clock (s : State) (code kind outcome physCluster physUnit logical detail : Nat) :
    (s.faultLog code kind outcome physCluster physUnit logical detail).clock = s.clock := by
  simp only [State.faultLog]; simp
@[simp] theorem State.faultLog_power (s : State) (code kind outcome physCluster physUnit logical detail : Nat) :
    (s.faultLog code kind outcome physCluster physUnit logical detail).power = s.power := by
  simp only [State.faultLog]; simp
@[simp] theorem State.faultLog_fuses (s : State) (code kind outcome physCluster physUnit logical detail : Nat) :
    (s.faultLog code kind outcome physCluster physUnit logical detail).fuses = s.fuses := by
  simp only [State.faultLog]; simp
@[simp] theorem State.faultLog_flash (s : State) (code kind outcome physCluster physUnit logical detail : Nat) :
    (s.faultLog code kind outcome physCluster physUnit logical detail).flash = s.flash := by
  simp only [State.faultLog]; simp
@[simp] theorem State.faultLog_trust (s : State) (code kind outcome physCluster physUnit logical detail : Nat) :
    (s.faultLog code kind outcome physCluster physUnit logical detail).trust = s.trust := by
  simp only [State.faultLog]; simp
@[simp] theorem State.faultLog_image (s : State) (code kind outcome physCluster physUnit logical detail : Nat) :
    (s.faultLog code kind outcome physCluster physUnit logical detail).image = s.image := by
  simp only [State.faultLog]; simp
@[simp] theorem State.faultLog_odn (s : State) (code kind outcome physCluster physUnit logical detail : Nat) :
    (s.faultLog code kind outcome physCluster physUnit logical detail).odn = s.odn := by
  simp only [State.faultLog]; simp
@[simp] theorem State.faultLog_runs (s : State) (code kind outcome physCluster physUnit logical detail : Nat) :
    (s.faultLog code kind outcome physCluster physUnit logical detail).runs = s.runs := by
  simp only [State.faultLog]; simp
@[simp] theorem State.faultLog_work (s : State) (code kind outcome physCluster physUnit logical detail : Nat) :
    (s.faultLog code kind outcome physCluster physUnit logical detail).work = s.work := by
  simp only [State.faultLog]; simp
@[simp] theorem State.faultLog_runDescs (s : State) (code kind outcome physCluster physUnit logical detail : Nat) :
    (s.faultLog code kind outcome physCluster physUnit logical detail).runDescs = s.runDescs := by
  simp only [State.faultLog]; simp
@[simp] theorem State.faultLog_heldRegions (s : State) (code kind outcome physCluster physUnit logical detail : Nat) :
    (s.faultLog code kind outcome physCluster physUnit logical detail).heldRegions = s.heldRegions := by
  simp only [State.faultLog]; simp
@[simp] theorem State.faultLog_resident (s : State) (code kind outcome physCluster physUnit logical detail : Nat) :
    (s.faultLog code kind outcome physCluster physUnit logical detail).resident = s.resident := by
  simp only [State.faultLog]; simp
@[simp] theorem State.faultLog_disp (s : State) (code kind outcome physCluster physUnit logical detail : Nat) :
    (s.faultLog code kind outcome physCluster physUnit logical detail).disp = s.disp := by
  simp only [State.faultLog]; simp
@[simp] theorem State.faultLog_emb (s : State) (code kind outcome physCluster physUnit logical detail : Nat) :
    (s.faultLog code kind outcome physCluster physUnit logical detail).emb = s.emb := by
  simp only [State.faultLog]; simp
@[simp] theorem State.faultLog_mst (s : State) (code kind outcome physCluster physUnit logical detail : Nat) :
    (s.faultLog code kind outcome physCluster physUnit logical detail).mst = s.mst := by
  simp only [State.faultLog]; simp
@[simp] theorem State.faultLog_pat (s : State) (code kind outcome physCluster physUnit logical detail : Nat) :
    (s.faultLog code kind outcome physCluster physUnit logical detail).pat = s.pat := by
  simp only [State.faultLog]; simp
@[simp] theorem State.faultLog_tth (s : State) (code kind outcome physCluster physUnit logical detail : Nat) :
    (s.faultLog code kind outcome physCluster physUnit logical detail).tth = s.tth := by
  simp only [State.faultLog]; simp
@[simp] theorem State.faultLog_units (s : State) (code kind outcome physCluster physUnit logical detail : Nat) :
    (s.faultLog code kind outcome physCluster physUnit logical detail).units = s.units := by
  simp only [State.faultLog]; simp
@[simp] theorem State.faultLog_pmc (s : State) (code kind outcome physCluster physUnit logical detail : Nat) :
    (s.faultLog code kind outcome physCluster physUnit logical detail).pmc = s.pmc := by
  simp only [State.faultLog]; simp
@[simp] theorem State.faultLog_gov (s : State) (code kind outcome physCluster physUnit logical detail : Nat) :
    (s.faultLog code kind outcome physCluster physUnit logical detail).gov = s.gov := by
  simp only [State.faultLog]; simp
@[simp] theorem State.faultLog_mgmt (s : State) (code kind outcome physCluster physUnit logical detail : Nat) :
    (s.faultLog code kind outcome physCluster physUnit logical detail).mgmt = s.mgmt := by
  simp only [State.faultLog]; simp
@[simp] theorem State.faultLog_outbox (s : State) (code kind outcome physCluster physUnit logical detail : Nat) :
    (s.faultLog code kind outcome physCluster physUnit logical detail).outbox = s.outbox := by
  simp only [State.faultLog]; simp
@[simp] theorem State.faultEvent_pending (s : State) (code detail : Nat) :
    (s.faultEvent code detail).pending = s.pending := by
  simp [State.faultEvent]
@[simp] theorem State.faultEvent_free (s : State) (code detail : Nat) :
    (s.faultEvent code detail).free = s.free := by
  simp [State.faultEvent]
@[simp] theorem State.faultEvent_mem (s : State) (code detail : Nat) :
    (s.faultEvent code detail).mem = s.mem := by
  simp [State.faultEvent]
@[simp] theorem State.faultEvent_core (s : State) (code detail : Nat) :
    (s.faultEvent code detail).core = s.core := by
  simp [State.faultEvent]
@[simp] theorem State.faultEvent_side (s : State) (code detail : Nat) :
    (s.faultEvent code detail).side = s.side := by
  simp [State.faultEvent]
@[simp] theorem State.faultEvent_clock (s : State) (code detail : Nat) :
    (s.faultEvent code detail).clock = s.clock := by
  simp [State.faultEvent]
@[simp] theorem State.faultEvent_power (s : State) (code detail : Nat) :
    (s.faultEvent code detail).power = s.power := by
  simp [State.faultEvent]
@[simp] theorem State.faultEvent_fuses (s : State) (code detail : Nat) :
    (s.faultEvent code detail).fuses = s.fuses := by
  simp [State.faultEvent]
@[simp] theorem State.faultEvent_flash (s : State) (code detail : Nat) :
    (s.faultEvent code detail).flash = s.flash := by
  simp [State.faultEvent]
@[simp] theorem State.faultEvent_trust (s : State) (code detail : Nat) :
    (s.faultEvent code detail).trust = s.trust := by
  simp [State.faultEvent]
@[simp] theorem State.faultEvent_image (s : State) (code detail : Nat) :
    (s.faultEvent code detail).image = s.image := by
  simp [State.faultEvent]
@[simp] theorem State.faultEvent_odn (s : State) (code detail : Nat) :
    (s.faultEvent code detail).odn = s.odn := by
  simp [State.faultEvent]
@[simp] theorem State.faultEvent_runs (s : State) (code detail : Nat) :
    (s.faultEvent code detail).runs = s.runs := by
  simp [State.faultEvent]
@[simp] theorem State.faultEvent_work (s : State) (code detail : Nat) :
    (s.faultEvent code detail).work = s.work := by
  simp [State.faultEvent]
@[simp] theorem State.faultEvent_runDescs (s : State) (code detail : Nat) :
    (s.faultEvent code detail).runDescs = s.runDescs := by
  simp [State.faultEvent]
@[simp] theorem State.faultEvent_heldRegions (s : State) (code detail : Nat) :
    (s.faultEvent code detail).heldRegions = s.heldRegions := by
  simp [State.faultEvent]
@[simp] theorem State.faultEvent_resident (s : State) (code detail : Nat) :
    (s.faultEvent code detail).resident = s.resident := by
  simp [State.faultEvent]
@[simp] theorem State.faultEvent_disp (s : State) (code detail : Nat) :
    (s.faultEvent code detail).disp = s.disp := by
  simp [State.faultEvent]
@[simp] theorem State.faultEvent_emb (s : State) (code detail : Nat) :
    (s.faultEvent code detail).emb = s.emb := by
  simp [State.faultEvent]
@[simp] theorem State.faultEvent_mst (s : State) (code detail : Nat) :
    (s.faultEvent code detail).mst = s.mst := by
  simp [State.faultEvent]
@[simp] theorem State.faultEvent_pat (s : State) (code detail : Nat) :
    (s.faultEvent code detail).pat = s.pat := by
  simp [State.faultEvent]
@[simp] theorem State.faultEvent_tth (s : State) (code detail : Nat) :
    (s.faultEvent code detail).tth = s.tth := by
  simp [State.faultEvent]
@[simp] theorem State.faultEvent_units (s : State) (code detail : Nat) :
    (s.faultEvent code detail).units = s.units := by
  simp [State.faultEvent]
@[simp] theorem State.faultEvent_pmc (s : State) (code detail : Nat) :
    (s.faultEvent code detail).pmc = s.pmc := by
  simp [State.faultEvent]
@[simp] theorem State.faultEvent_gov (s : State) (code detail : Nat) :
    (s.faultEvent code detail).gov = s.gov := by
  simp [State.faultEvent]
@[simp] theorem State.faultEvent_mgmt (s : State) (code detail : Nat) :
    (s.faultEvent code detail).mgmt = s.mgmt := by
  simp [State.faultEvent]
@[simp] theorem State.faultEvent_outbox (s : State) (code detail : Nat) :
    (s.faultEvent code detail).outbox = s.outbox := by
  simp [State.faultEvent]
@[simp] theorem State.counterWrap_pending (s : State) (r : CounterRef) :
    (s.counterWrap r).pending = s.pending := by
  simp only [State.counterWrap]; split <;> simp
@[simp] theorem State.counterWrap_free (s : State) (r : CounterRef) :
    (s.counterWrap r).free = s.free := by
  simp only [State.counterWrap]; split <;> simp
@[simp] theorem State.counterWrap_mem (s : State) (r : CounterRef) :
    (s.counterWrap r).mem = s.mem := by
  simp only [State.counterWrap]; split <;> simp
@[simp] theorem State.counterWrap_core (s : State) (r : CounterRef) :
    (s.counterWrap r).core = s.core := by
  simp only [State.counterWrap]; split <;> simp
@[simp] theorem State.counterWrap_side (s : State) (r : CounterRef) :
    (s.counterWrap r).side = s.side := by
  simp only [State.counterWrap]; split <;> simp
@[simp] theorem State.counterWrap_clock (s : State) (r : CounterRef) :
    (s.counterWrap r).clock = s.clock := by
  simp only [State.counterWrap]; split <;> simp
@[simp] theorem State.counterWrap_power (s : State) (r : CounterRef) :
    (s.counterWrap r).power = s.power := by
  simp only [State.counterWrap]; split <;> simp
@[simp] theorem State.counterWrap_fuses (s : State) (r : CounterRef) :
    (s.counterWrap r).fuses = s.fuses := by
  simp only [State.counterWrap]; split <;> simp
@[simp] theorem State.counterWrap_flash (s : State) (r : CounterRef) :
    (s.counterWrap r).flash = s.flash := by
  simp only [State.counterWrap]; split <;> simp
@[simp] theorem State.counterWrap_trust (s : State) (r : CounterRef) :
    (s.counterWrap r).trust = s.trust := by
  simp only [State.counterWrap]; split <;> simp
@[simp] theorem State.counterWrap_image (s : State) (r : CounterRef) :
    (s.counterWrap r).image = s.image := by
  simp only [State.counterWrap]; split <;> simp
@[simp] theorem State.counterWrap_runs (s : State) (r : CounterRef) :
    (s.counterWrap r).runs = s.runs := by
  simp only [State.counterWrap]; split <;> simp
@[simp] theorem State.counterWrap_work (s : State) (r : CounterRef) :
    (s.counterWrap r).work = s.work := by
  simp only [State.counterWrap]; split <;> simp
@[simp] theorem State.counterWrap_runDescs (s : State) (r : CounterRef) :
    (s.counterWrap r).runDescs = s.runDescs := by
  simp only [State.counterWrap]; split <;> simp
@[simp] theorem State.counterWrap_heldRegions (s : State) (r : CounterRef) :
    (s.counterWrap r).heldRegions = s.heldRegions := by
  simp only [State.counterWrap]; split <;> simp
@[simp] theorem State.counterWrap_resident (s : State) (r : CounterRef) :
    (s.counterWrap r).resident = s.resident := by
  simp only [State.counterWrap]; split <;> simp
@[simp] theorem State.counterWrap_disp (s : State) (r : CounterRef) :
    (s.counterWrap r).disp = s.disp := by
  simp only [State.counterWrap]; split <;> simp
@[simp] theorem State.counterWrap_emb (s : State) (r : CounterRef) :
    (s.counterWrap r).emb = s.emb := by
  simp only [State.counterWrap]; split <;> simp
@[simp] theorem State.counterWrap_mst (s : State) (r : CounterRef) :
    (s.counterWrap r).mst = s.mst := by
  simp only [State.counterWrap]; split <;> simp
@[simp] theorem State.counterWrap_pat (s : State) (r : CounterRef) :
    (s.counterWrap r).pat = s.pat := by
  simp only [State.counterWrap]; split <;> simp
@[simp] theorem State.counterWrap_units (s : State) (r : CounterRef) :
    (s.counterWrap r).units = s.units := by
  simp only [State.counterWrap]; split <;> simp
@[simp] theorem State.counterWrap_gov (s : State) (r : CounterRef) :
    (s.counterWrap r).gov = s.gov := by
  simp only [State.counterWrap]; split <;> simp
@[simp] theorem State.counterWrap_mgmt (s : State) (r : CounterRef) :
    (s.counterWrap r).mgmt = s.mgmt := by
  simp only [State.counterWrap]; split <;> simp
@[simp] theorem State.counterWrap_flog (s : State) (r : CounterRef) :
    (s.counterWrap r).flog = s.flog := by
  simp only [State.counterWrap]; split <;> simp
@[simp] theorem State.counterAdd_pending (s : State) (r : CounterRef) (n : Nat) :
    (s.counterAdd r n).pending = s.pending := by
  simp only [State.counterAdd]; split <;> simp
@[simp] theorem State.counterAdd_free (s : State) (r : CounterRef) (n : Nat) :
    (s.counterAdd r n).free = s.free := by
  simp only [State.counterAdd]; split <;> simp
@[simp] theorem State.counterAdd_mem (s : State) (r : CounterRef) (n : Nat) :
    (s.counterAdd r n).mem = s.mem := by
  simp only [State.counterAdd]; split <;> simp
@[simp] theorem State.counterAdd_core (s : State) (r : CounterRef) (n : Nat) :
    (s.counterAdd r n).core = s.core := by
  simp only [State.counterAdd]; split <;> simp
@[simp] theorem State.counterAdd_side (s : State) (r : CounterRef) (n : Nat) :
    (s.counterAdd r n).side = s.side := by
  simp only [State.counterAdd]; split <;> simp
@[simp] theorem State.counterAdd_clock (s : State) (r : CounterRef) (n : Nat) :
    (s.counterAdd r n).clock = s.clock := by
  simp only [State.counterAdd]; split <;> simp
@[simp] theorem State.counterAdd_power (s : State) (r : CounterRef) (n : Nat) :
    (s.counterAdd r n).power = s.power := by
  simp only [State.counterAdd]; split <;> simp
@[simp] theorem State.counterAdd_fuses (s : State) (r : CounterRef) (n : Nat) :
    (s.counterAdd r n).fuses = s.fuses := by
  simp only [State.counterAdd]; split <;> simp
@[simp] theorem State.counterAdd_flash (s : State) (r : CounterRef) (n : Nat) :
    (s.counterAdd r n).flash = s.flash := by
  simp only [State.counterAdd]; split <;> simp
@[simp] theorem State.counterAdd_trust (s : State) (r : CounterRef) (n : Nat) :
    (s.counterAdd r n).trust = s.trust := by
  simp only [State.counterAdd]; split <;> simp
@[simp] theorem State.counterAdd_image (s : State) (r : CounterRef) (n : Nat) :
    (s.counterAdd r n).image = s.image := by
  simp only [State.counterAdd]; split <;> simp
@[simp] theorem State.counterAdd_runs (s : State) (r : CounterRef) (n : Nat) :
    (s.counterAdd r n).runs = s.runs := by
  simp only [State.counterAdd]; split <;> simp
@[simp] theorem State.counterAdd_work (s : State) (r : CounterRef) (n : Nat) :
    (s.counterAdd r n).work = s.work := by
  simp only [State.counterAdd]; split <;> simp
@[simp] theorem State.counterAdd_runDescs (s : State) (r : CounterRef) (n : Nat) :
    (s.counterAdd r n).runDescs = s.runDescs := by
  simp only [State.counterAdd]; split <;> simp
@[simp] theorem State.counterAdd_heldRegions (s : State) (r : CounterRef) (n : Nat) :
    (s.counterAdd r n).heldRegions = s.heldRegions := by
  simp only [State.counterAdd]; split <;> simp
@[simp] theorem State.counterAdd_resident (s : State) (r : CounterRef) (n : Nat) :
    (s.counterAdd r n).resident = s.resident := by
  simp only [State.counterAdd]; split <;> simp
@[simp] theorem State.counterAdd_disp (s : State) (r : CounterRef) (n : Nat) :
    (s.counterAdd r n).disp = s.disp := by
  simp only [State.counterAdd]; split <;> simp
@[simp] theorem State.counterAdd_emb (s : State) (r : CounterRef) (n : Nat) :
    (s.counterAdd r n).emb = s.emb := by
  simp only [State.counterAdd]; split <;> simp
@[simp] theorem State.counterAdd_mst (s : State) (r : CounterRef) (n : Nat) :
    (s.counterAdd r n).mst = s.mst := by
  simp only [State.counterAdd]; split <;> simp
@[simp] theorem State.counterAdd_pat (s : State) (r : CounterRef) (n : Nat) :
    (s.counterAdd r n).pat = s.pat := by
  simp only [State.counterAdd]; split <;> simp
@[simp] theorem State.counterAdd_units (s : State) (r : CounterRef) (n : Nat) :
    (s.counterAdd r n).units = s.units := by
  simp only [State.counterAdd]; split <;> simp
@[simp] theorem State.counterAdd_gov (s : State) (r : CounterRef) (n : Nat) :
    (s.counterAdd r n).gov = s.gov := by
  simp only [State.counterAdd]; split <;> simp
@[simp] theorem State.counterAdd_mgmt (s : State) (r : CounterRef) (n : Nat) :
    (s.counterAdd r n).mgmt = s.mgmt := by
  simp only [State.counterAdd]; split <;> simp
@[simp] theorem State.counterAdd_flog (s : State) (r : CounterRef) (n : Nat) :
    (s.counterAdd r n).flog = s.flog := by
  simp only [State.counterAdd]; split <;> simp
@[simp] theorem State.event_pending (s : State) (ev inst n : Nat) :
    (s.event ev inst n).pending = s.pending := by
  simp only [State.event]; split
  · rfl
  · apply foldl_keeps State.pending
    intro s x
    simp only [State.draw]
    split
    · split <;> simp
    · rfl
@[simp] theorem State.event_mem (s : State) (ev inst n : Nat) :
    (s.event ev inst n).mem = s.mem := by
  simp only [State.event]; split
  · rfl
  · apply foldl_keeps State.mem
    intro s x
    simp only [State.draw]
    split
    · split <;> simp
    · rfl
@[simp] theorem State.event_core (s : State) (ev inst n : Nat) :
    (s.event ev inst n).core = s.core := by
  simp only [State.event]; split
  · rfl
  · apply foldl_keeps State.core
    intro s x
    simp only [State.draw]
    split
    · split <;> simp
    · rfl
@[simp] theorem State.event_side (s : State) (ev inst n : Nat) :
    (s.event ev inst n).side = s.side := by
  simp only [State.event]; split
  · rfl
  · apply foldl_keeps State.side
    intro s x
    simp only [State.draw]
    split
    · split <;> simp
    · rfl
@[simp] theorem State.event_clock (s : State) (ev inst n : Nat) :
    (s.event ev inst n).clock = s.clock := by
  simp only [State.event]; split
  · rfl
  · apply foldl_keeps State.clock
    intro s x
    simp only [State.draw]
    split
    · split <;> simp
    · rfl
@[simp] theorem State.event_power (s : State) (ev inst n : Nat) :
    (s.event ev inst n).power = s.power := by
  simp only [State.event]; split
  · rfl
  · apply foldl_keeps State.power
    intro s x
    simp only [State.draw]
    split
    · split <;> simp
    · rfl
@[simp] theorem State.event_fuses (s : State) (ev inst n : Nat) :
    (s.event ev inst n).fuses = s.fuses := by
  simp only [State.event]; split
  · rfl
  · apply foldl_keeps State.fuses
    intro s x
    simp only [State.draw]
    split
    · split <;> simp
    · rfl
@[simp] theorem State.event_flash (s : State) (ev inst n : Nat) :
    (s.event ev inst n).flash = s.flash := by
  simp only [State.event]; split
  · rfl
  · apply foldl_keeps State.flash
    intro s x
    simp only [State.draw]
    split
    · split <;> simp
    · rfl
@[simp] theorem State.event_trust (s : State) (ev inst n : Nat) :
    (s.event ev inst n).trust = s.trust := by
  simp only [State.event]; split
  · rfl
  · apply foldl_keeps State.trust
    intro s x
    simp only [State.draw]
    split
    · split <;> simp
    · rfl
@[simp] theorem State.event_image (s : State) (ev inst n : Nat) :
    (s.event ev inst n).image = s.image := by
  simp only [State.event]; split
  · rfl
  · apply foldl_keeps State.image
    intro s x
    simp only [State.draw]
    split
    · split <;> simp
    · rfl
@[simp] theorem State.event_runs (s : State) (ev inst n : Nat) :
    (s.event ev inst n).runs = s.runs := by
  simp only [State.event]; split
  · rfl
  · apply foldl_keeps State.runs
    intro s x
    simp only [State.draw]
    split
    · split <;> simp
    · rfl
@[simp] theorem State.event_work (s : State) (ev inst n : Nat) :
    (s.event ev inst n).work = s.work := by
  simp only [State.event]; split
  · rfl
  · apply foldl_keeps State.work
    intro s x
    simp only [State.draw]
    split
    · split <;> simp
    · rfl
@[simp] theorem State.event_runDescs (s : State) (ev inst n : Nat) :
    (s.event ev inst n).runDescs = s.runDescs := by
  simp only [State.event]; split
  · rfl
  · apply foldl_keeps State.runDescs
    intro s x
    simp only [State.draw]
    split
    · split <;> simp
    · rfl
@[simp] theorem State.event_heldRegions (s : State) (ev inst n : Nat) :
    (s.event ev inst n).heldRegions = s.heldRegions := by
  simp only [State.event]; split
  · rfl
  · apply foldl_keeps State.heldRegions
    intro s x
    simp only [State.draw]
    split
    · split <;> simp
    · rfl
@[simp] theorem State.event_resident (s : State) (ev inst n : Nat) :
    (s.event ev inst n).resident = s.resident := by
  simp only [State.event]; split
  · rfl
  · apply foldl_keeps State.resident
    intro s x
    simp only [State.draw]
    split
    · split <;> simp
    · rfl
@[simp] theorem State.event_disp (s : State) (ev inst n : Nat) :
    (s.event ev inst n).disp = s.disp := by
  simp only [State.event]; split
  · rfl
  · apply foldl_keeps State.disp
    intro s x
    simp only [State.draw]
    split
    · split <;> simp
    · rfl
@[simp] theorem State.event_emb (s : State) (ev inst n : Nat) :
    (s.event ev inst n).emb = s.emb := by
  simp only [State.event]; split
  · rfl
  · apply foldl_keeps State.emb
    intro s x
    simp only [State.draw]
    split
    · split <;> simp
    · rfl
@[simp] theorem State.event_mst (s : State) (ev inst n : Nat) :
    (s.event ev inst n).mst = s.mst := by
  simp only [State.event]; split
  · rfl
  · apply foldl_keeps State.mst
    intro s x
    simp only [State.draw]
    split
    · split <;> simp
    · rfl
@[simp] theorem State.event_pat (s : State) (ev inst n : Nat) :
    (s.event ev inst n).pat = s.pat := by
  simp only [State.event]; split
  · rfl
  · apply foldl_keeps State.pat
    intro s x
    simp only [State.draw]
    split
    · split <;> simp
    · rfl
@[simp] theorem State.event_units (s : State) (ev inst n : Nat) :
    (s.event ev inst n).units = s.units := by
  simp only [State.event]; split
  · rfl
  · apply foldl_keeps State.units
    intro s x
    simp only [State.draw]
    split
    · split <;> simp
    · rfl
@[simp] theorem State.event_gov (s : State) (ev inst n : Nat) :
    (s.event ev inst n).gov = s.gov := by
  simp only [State.event]; split
  · rfl
  · apply foldl_keeps State.gov
    intro s x
    simp only [State.draw]
    split
    · split <;> simp
    · rfl
@[simp] theorem State.event_mgmt (s : State) (ev inst n : Nat) :
    (s.event ev inst n).mgmt = s.mgmt := by
  simp only [State.event]; split
  · rfl
  · apply foldl_keeps State.mgmt
    intro s x
    simp only [State.draw]
    split
    · split <;> simp
    · rfl
@[simp] theorem State.event_flog (s : State) (ev inst n : Nat) :
    (s.event ev inst n).flog = s.flog := by
  simp only [State.event]; split
  · rfl
  · apply foldl_keeps State.flog
    intro s x
    simp only [State.draw]
    split
    · split <;> simp
    · rfl
@[simp] theorem State.odrenIn_pending (s : State) (relayed : Bool) (body : Nat) (isProtected : Bool) :
    (s.odrenIn relayed body isProtected).pending = s.pending := by
  simp only [State.odrenIn]; split <;> simp
@[simp] theorem State.odrenIn_free (s : State) (relayed : Bool) (body : Nat) (isProtected : Bool) :
    (s.odrenIn relayed body isProtected).free = s.free := by
  simp only [State.odrenIn]; split <;> simp
@[simp] theorem State.odrenIn_regs (s : State) (relayed : Bool) (body : Nat) (isProtected : Bool) :
    (s.odrenIn relayed body isProtected).regs = s.regs := by
  simp only [State.odrenIn]; split <;> simp
@[simp] theorem State.odrenIn_mem (s : State) (relayed : Bool) (body : Nat) (isProtected : Bool) :
    (s.odrenIn relayed body isProtected).mem = s.mem := by
  simp only [State.odrenIn]; split <;> simp
@[simp] theorem State.odrenIn_core (s : State) (relayed : Bool) (body : Nat) (isProtected : Bool) :
    (s.odrenIn relayed body isProtected).core = s.core := by
  simp only [State.odrenIn]; split <;> simp
@[simp] theorem State.odrenIn_side (s : State) (relayed : Bool) (body : Nat) (isProtected : Bool) :
    (s.odrenIn relayed body isProtected).side = s.side := by
  simp only [State.odrenIn]; split <;> simp
@[simp] theorem State.odrenIn_clock (s : State) (relayed : Bool) (body : Nat) (isProtected : Bool) :
    (s.odrenIn relayed body isProtected).clock = s.clock := by
  simp only [State.odrenIn]; split <;> simp
@[simp] theorem State.odrenIn_power (s : State) (relayed : Bool) (body : Nat) (isProtected : Bool) :
    (s.odrenIn relayed body isProtected).power = s.power := by
  simp only [State.odrenIn]; split <;> simp
@[simp] theorem State.odrenIn_fuses (s : State) (relayed : Bool) (body : Nat) (isProtected : Bool) :
    (s.odrenIn relayed body isProtected).fuses = s.fuses := by
  simp only [State.odrenIn]; split <;> simp
@[simp] theorem State.odrenIn_flash (s : State) (relayed : Bool) (body : Nat) (isProtected : Bool) :
    (s.odrenIn relayed body isProtected).flash = s.flash := by
  simp only [State.odrenIn]; split <;> simp
@[simp] theorem State.odrenIn_trust (s : State) (relayed : Bool) (body : Nat) (isProtected : Bool) :
    (s.odrenIn relayed body isProtected).trust = s.trust := by
  simp only [State.odrenIn]; split <;> simp
@[simp] theorem State.odrenIn_image (s : State) (relayed : Bool) (body : Nat) (isProtected : Bool) :
    (s.odrenIn relayed body isProtected).image = s.image := by
  simp only [State.odrenIn]; split <;> simp
@[simp] theorem State.odrenIn_odn (s : State) (relayed : Bool) (body : Nat) (isProtected : Bool) :
    (s.odrenIn relayed body isProtected).odn = s.odn := by
  simp only [State.odrenIn]; split <;> simp
@[simp] theorem State.odrenIn_runs (s : State) (relayed : Bool) (body : Nat) (isProtected : Bool) :
    (s.odrenIn relayed body isProtected).runs = s.runs := by
  simp only [State.odrenIn]; split <;> simp
@[simp] theorem State.odrenIn_work (s : State) (relayed : Bool) (body : Nat) (isProtected : Bool) :
    (s.odrenIn relayed body isProtected).work = s.work := by
  simp only [State.odrenIn]; split <;> simp
@[simp] theorem State.odrenIn_runDescs (s : State) (relayed : Bool) (body : Nat) (isProtected : Bool) :
    (s.odrenIn relayed body isProtected).runDescs = s.runDescs := by
  simp only [State.odrenIn]; split <;> simp
@[simp] theorem State.odrenIn_heldRegions (s : State) (relayed : Bool) (body : Nat) (isProtected : Bool) :
    (s.odrenIn relayed body isProtected).heldRegions = s.heldRegions := by
  simp only [State.odrenIn]; split <;> simp
@[simp] theorem State.odrenIn_resident (s : State) (relayed : Bool) (body : Nat) (isProtected : Bool) :
    (s.odrenIn relayed body isProtected).resident = s.resident := by
  simp only [State.odrenIn]; split <;> simp
@[simp] theorem State.odrenIn_disp (s : State) (relayed : Bool) (body : Nat) (isProtected : Bool) :
    (s.odrenIn relayed body isProtected).disp = s.disp := by
  simp only [State.odrenIn]; split <;> simp
@[simp] theorem State.odrenIn_emb (s : State) (relayed : Bool) (body : Nat) (isProtected : Bool) :
    (s.odrenIn relayed body isProtected).emb = s.emb := by
  simp only [State.odrenIn]; split <;> simp
@[simp] theorem State.odrenIn_mst (s : State) (relayed : Bool) (body : Nat) (isProtected : Bool) :
    (s.odrenIn relayed body isProtected).mst = s.mst := by
  simp only [State.odrenIn]; split <;> simp
@[simp] theorem State.odrenIn_pat (s : State) (relayed : Bool) (body : Nat) (isProtected : Bool) :
    (s.odrenIn relayed body isProtected).pat = s.pat := by
  simp only [State.odrenIn]; split <;> simp
@[simp] theorem State.odrenIn_tth (s : State) (relayed : Bool) (body : Nat) (isProtected : Bool) :
    (s.odrenIn relayed body isProtected).tth = s.tth := by
  simp only [State.odrenIn]; split <;> simp
@[simp] theorem State.odrenIn_units (s : State) (relayed : Bool) (body : Nat) (isProtected : Bool) :
    (s.odrenIn relayed body isProtected).units = s.units := by
  simp only [State.odrenIn]; split <;> simp
@[simp] theorem State.odrenIn_gov (s : State) (relayed : Bool) (body : Nat) (isProtected : Bool) :
    (s.odrenIn relayed body isProtected).gov = s.gov := by
  simp only [State.odrenIn]; split <;> simp
@[simp] theorem State.odrenIn_mgmt (s : State) (relayed : Bool) (body : Nat) (isProtected : Bool) :
    (s.odrenIn relayed body isProtected).mgmt = s.mgmt := by
  simp only [State.odrenIn]; split <;> simp
@[simp] theorem State.odrenIn_flog (s : State) (relayed : Bool) (body : Nat) (isProtected : Bool) :
    (s.odrenIn relayed body isProtected).flog = s.flog := by
  simp only [State.odrenIn]; split <;> simp
@[simp] theorem State.odrenIn_outbox (s : State) (relayed : Bool) (body : Nat) (isProtected : Bool) :
    (s.odrenIn relayed body isProtected).outbox = s.outbox := by
  simp only [State.odrenIn]; split <;> simp

end Sys2Proof.Machine
end

