-- ==== Sys2Proof/Laws/Memory.lean ====
section
/-!
SUPPORT. The laws of memory: a byte just stored reads back, every other byte stays, and every operation over memory keeps
its canonical form.
-/
namespace Sys2Proof.Machine
open Sys2Proof

/-! ### Storing bytes -/

theorem Mem.store_wf (bs : List Byte) (m : List Host.Cell) (p : Nat) (h : Memory.wf m = true) :
    Memory.wf (Mem.store m p bs) = true := by
  induction bs generalizing m p with
  | nil => exact h
  | cons b r ih => exact ih _ _ (SMap.wf_set _ m p b h)

/-- A byte outside the stored range stays. -/
theorem Mem.get_store_outside (bs : List Byte) (m : List Host.Cell) (p q : Nat) (h : q < p ∨ p + bs.length ≤ q) :
    SMap.get (0 : Byte) (Mem.store m p bs) q = SMap.get 0 m q := by
  induction bs generalizing m p with
  | nil => rfl
  | cons b r ih =>
    have hl : (b :: r).length = r.length + 1 := rfl
    rw [Mem.store, ih _ (p + 1) (by omega), SMap.get_set_ne _ _ _ _ _ _ (by omega)]

/-- A byte inside it reads as the byte stored there. -/
theorem Mem.get_store_inside (bs : List Byte) (m : List Host.Cell) (p k : Nat) (h : Memory.wf m = true) (hk : k < bs.length) :
    SMap.get (0 : Byte) (Mem.store m p bs) (p + k) = bs[k] := by
  induction bs generalizing m p k with
  | nil => exact absurd hk (Nat.not_lt_zero k)
  | cons b r ih =>
    have hw : Memory.wf (SMap.set (0 : Byte) m p b) = true := SMap.wf_set _ m p b h
    cases k with
    | zero =>
      have hr : SMap.risingFrom 0 m = true := by
        simp only [Memory.wf, SMap.wf, Bool.and_eq_true] at h
        exact h.1
      rw [Mem.store, show p + 0 = p from rfl, Mem.get_store_outside r _ (p + 1) p (by omega), SMap.get_set_same _ m 0 p b hr]
      rfl
    | succ k =>
      have hk' : k < r.length := Nat.lt_of_succ_lt_succ hk
      rw [Mem.store, show p + (k + 1) = p + 1 + k from by omega, ih _ (p + 1) k hw hk']
      rfl

/-- A byte of memory after a store: the byte stored there, or what stood there. -/
theorem State.byteAt_storeBytes (s : State) (p q : Nat) (bs : List Byte) (h : Memory.wf s.mem = true) :
    (s.storeBytes p bs).byteAt q = if hq : p ≤ q ∧ q < p + bs.length then bs[q - p]'(by omega) else s.byteAt q := by
  split
  · rename_i hq
    have := Mem.get_store_inside bs s.mem p (q - p) h (by omega)
    rwa [show p + (q - p) = q from by omega] at this
  · exact Mem.get_store_outside bs s.mem p q (by omega)

/-! ### The canonical form is kept -/

theorem State.reset_mem_wf : Memory.wf State.reset.mem = true := rfl

theorem State.storeBytes_wf (s : State) (p : Nat) (bs : List Byte) (h : Memory.wf s.mem = true) :
    Memory.wf (s.storeBytes p bs).mem = true := Mem.store_wf bs s.mem p h

@[simp] theorem State.bankBump_mem (s : State) (p : Nat) (fv fc : FRef) : (s.bankBump p fv fc).mem = s.mem := rfl
@[simp] theorem State.bankSet_mem (s : State) (p : Nat) (fv fc : FRef) (x : Nat) : (s.bankSet p fv fc x).mem = s.mem := rfl
@[simp] theorem State.errAddr_mem (s : State) (p : Nat) (a b : Bool) : (s.errAddr p a b).mem = s.mem := rfl

@[simp] theorem State.listPoison_mem (s : State) (w : Nat) : (s.listPoison w).mem = s.mem := by
  simp only [State.listPoison]
  split
  · rfl
  · split
    · rfl
    · simp

@[simp] theorem State.readCopy_mem (s : State) (w : Nat) : (s.readCopy w).2.mem = s.mem := by
  simp only [State.readCopy]
  split
  · rfl
  · split
    · rfl
    · split <;> split <;> simp

@[simp] theorem State.fireSession_mem (s : State) (id : W32) (a v : W64) (b : Bool) : (s.fireSession id a v b).mem = s.mem := by
  simp [State.fireSession]

@[simp] theorem State.leaveOn_mem (s : State) (l : Nat) (p : Packet) (e : Option Nat) : (s.leaveOn l p e).mem = s.mem := by
  simp only [State.leaveOn]
  split <;> simp

@[simp] theorem State.inject_mem (s : State) (p : Packet) : (s.inject p).mem = s.mem := by
  simp only [State.inject, State.follow]
  split <;> simp

@[simp] theorem State.injectParts_mem (s : State) (dest cls kind tag : Nat) (l : List (List Byte)) :
    (s.injectParts dest cls kind tag l).mem = s.mem := by
  induction l generalizing s with
  | nil => rfl
  | cons b r ih => simp [State.injectParts, ih]

@[simp] theorem State.injectBody_mem (s : State) (dest cls kind tag : Nat) (body : List Byte) :
    (s.injectBody dest cls kind tag body).mem = s.mem := by
  simp only [State.injectBody]
  split <;> simp

@[simp] theorem State.fireWatch_mem (s : State) (x : Watch) : (s.fireWatch x).mem = s.mem := by
  simp only [State.fireWatch]
  split <;> split <;> simp

@[simp] theorem State.fireWord_mem (s : State) (w : Nat) : (s.fireWord w).mem = s.mem :=
  foldl_keeps State.mem _ (fun s x => s.fireWatch_mem x) _ s

/-- One copy of a word is written: exactly its bytes change. -/
@[simp] theorem State.writeCopy_mem (s : State) (p : Nat) (bs : List Byte) (bad : Bool) :
    (s.writeCopy p bs bad).mem = Mem.store s.mem p bs := by
  simp only [State.writeCopy]
  split
  · simp [State.storeBytes]
  · split <;> simp [State.storeBytes]

@[simp] theorem State.listPoison_image (s : State) (w : Nat) : (s.listPoison w).image = s.image := by
  simp only [State.listPoison]
  split
  · rfl
  · split
    · rfl
    · simp [State.bankSet]

@[simp] theorem State.writeCopy_image (s : State) (p : Nat) (bs : List Byte) (bad : Bool) :
    (s.writeCopy p bs bad).image = s.image := by
  simp only [State.writeCopy]
  split
  · simp [State.storeBytes]
  · split <;> simp [State.storeBytes]

theorem State.mirrorOf_image (s t : State) (p : Nat) (h : t.image = s.image) : t.mirrorOf p = s.mirrorOf p := by
  simp [State.mirrorOf, State.regions, h]

/-- Writing the primary of a word, where its bank serves. -/
def State.writePrimary (s : State) (p : Nat) (bs : List Byte) (bad : Bool) : State :=
  if s.bankServes (bankOf p) then s.writeCopy p bs bad else s

theorem State.writePrimary_mem (s : State) (p : Nat) (bs : List Byte) (bad : Bool) :
    (s.writePrimary p bs bad).mem = Mem.store s.mem p bs ∨ (s.writePrimary p bs bad).mem = s.mem := by
  simp only [State.writePrimary]
  split
  · exact .inl (State.writeCopy_mem _ _ _ _)
  · exact .inr rfl

theorem State.writePrimary_image (s : State) (p : Nat) (bs : List Byte) (bad : Bool) :
    (s.writePrimary p bs bad).image = s.image := by
  simp only [State.writePrimary]
  split <;> simp

/-- A write of a word or a part of it stores at its address, and at its mirror's where it has one (R37). -/
theorem State.writeWord_mem (s : State) (p : Nat) (bs : List Byte) (bad : Bool) :
    (s.writeWord p bs bad).mem = (match s.mirrorOf p with
      | some q => (s.writePrimary p bs bad).writePrimary q bs bad
      | none => s.writePrimary p bs bad).mem := by
  have e : s.writeWord p bs bad = ((match (s.writePrimary p bs bad).mirrorOf p with
      | some q => (s.writePrimary p bs bad).writePrimary q bs bad
      | none => s.writePrimary p bs bad) : State).fireWord (p / 8 * 8) := rfl
  rw [e, State.fireWord_mem, State.mirrorOf_image _ _ p (s.writePrimary_image p bs bad)]

/-- Every byte outside the word's bytes and outside its mirror's stays. -/
theorem State.writeWord_byteAt (s : State) (p q : Nat) (bs : List Byte) (bad : Bool)
    (hp : q < p ∨ p + bs.length ≤ q) (hm : ∀ m, s.mirrorOf p = some m → q < m ∨ m + bs.length ≤ q) :
    (s.writeWord p bs bad).byteAt q = s.byteAt q := by
  have one (t : State) (p : Nat) (h : q < p ∨ p + bs.length ≤ q) : (t.writePrimary p bs bad).byteAt q = t.byteAt q := by
    simp only [State.byteAt]
    rcases t.writePrimary_mem p bs bad with e | e <;> rw [e]
    exact Mem.get_store_outside _ _ _ _ h
  have e := s.writeWord_mem p bs bad
  cases hq : s.mirrorOf p with
  | none =>
    rw [hq] at e
    calc (s.writeWord p bs bad).byteAt q = (s.writePrimary p bs bad).byteAt q := by simp only [State.byteAt, e]
      _ = s.byteAt q := one s p hp
  | some m =>
    rw [hq] at e
    calc (s.writeWord p bs bad).byteAt q = ((s.writePrimary p bs bad).writePrimary m bs bad).byteAt q := by
          simp only [State.byteAt, e]
      _ = (s.writePrimary p bs bad).byteAt q := one _ m (hm m hq)
      _ = s.byteAt q := one s p hp

theorem State.writePrimary_wf (s : State) (p : Nat) (bs : List Byte) (bad : Bool) (h : Memory.wf s.mem = true) :
    Memory.wf (s.writePrimary p bs bad).mem = true := by
  rcases s.writePrimary_mem p bs bad with e | e <;> rw [e]
  · exact Mem.store_wf bs s.mem p h
  · exact h

theorem State.writeWord_wf (s : State) (p : Nat) (bs : List Byte) (bad : Bool) (h : Memory.wf s.mem = true) :
    Memory.wf (s.writeWord p bs bad).mem = true := by
  rw [s.writeWord_mem p bs bad]
  split
  · exact State.writePrimary_wf _ _ _ _ (s.writePrimary_wf _ _ _ h)
  · exact s.writePrimary_wf _ _ _ h

theorem State.writeWords_wf (fuel : Nat) (s : State) (p : Nat) (bs : List Byte) (bad : Nat → Bool) (i : Nat)
    (h : Memory.wf s.mem = true) : Memory.wf (s.writeWords fuel p bs bad i).mem = true := by
  induction fuel generalizing s p bs i with
  | zero => exact h
  | succ k ih =>
    simp only [State.writeWords]
    split
    · exact h
    · exact ih _ _ _ _ (s.writeWord_wf _ _ _ h)

@[simp] theorem State.vaultRequest_mem (s : State) (v : Nat) : (s.vaultRequest v).mem = s.mem := by
  simp only [State.vaultRequest]
  split <;> rfl

@[simp] theorem State.portUse_mem (s : State) (p n : Nat) (w : Bool) : (s.portUse p n w).mem = s.mem := by
  simp only [State.portUse]
  split <;> simp

theorem State.writeParts_wf (l : List (Nat × Nat)) (s : State) (bs : List Byte) (bad : Nat → Bool) (i : Nat)
    (h : Memory.wf s.mem = true) : Memory.wf (s.writeParts l bs bad i).mem = true := by
  induction l generalizing s bs i with
  | nil => exact h
  | cons e r ih =>
    obtain ⟨p, n⟩ := e
    simp only [State.writeParts]
    exact ih _ _ _ (State.writeWords_wf _ _ _ _ _ _ (by simpa using h))

theorem State.writeLocal_wf (s : State) (a : Nat) (bs : List Byte) (bad : Nat → Bool) (h : Memory.wf s.mem = true) :
    Memory.wf (s.writeLocal a bs bad).mem = true := by
  simp only [State.writeLocal]
  split
  · exact State.writeParts_wf _ _ _ _ _ h
  · exact h

theorem State.checkedWrite_wf (s t : State) (a : Nat) (bs : List Byte) (bad : Nat → Bool) (h : Memory.wf s.mem = true)
    (ht : s.checkedWrite a bs bad = .ok t) : Memory.wf t.mem = true := by
  simp only [State.checkedWrite] at ht
  split at ht
  · cases ht
  · cases ht
    exact State.writeParts_wf _ _ _ _ _ h

@[simp] theorem State.wordFails_mem (s : State) (p : Nat) (scrub : Bool) : (s.wordFails p scrub).mem = s.mem := by
  simp only [State.wordFails]
  split <;> simp

@[simp] theorem State.loseWord_mem (s : State) (p q : Nat) (scrub : Bool) : (s.loseWord p q scrub).mem = s.mem := by
  simp only [State.loseWord]
  split <;> simp

/-- A repair stores the good value over the copy that failed (R37). -/
@[simp] theorem State.repairWord_mem (s : State) (p : Nat) (v : W64) (scrub : Bool) :
    (s.repairWord p v scrub).mem = Mem.store s.mem p (natLe 8 v.toNat) := by
  simp [State.repairWord, State.cleanWord, State.storeBytes]

/-- A read stores nothing, or repairs one word from its other copy (R37). -/
theorem State.readWord_mem (s : State) (w : Nat) (scrub : Bool) :
    (s.readWord w scrub).2.2.mem = s.mem ∨
    ∃ v : W64, (s.readWord w scrub).2.2.mem = Mem.store s.mem (s.primaryOf w) (natLe 8 v.toNat) := by
  have hc (t : State) (p : Nat) (r : CopyRead) (u : State) (e : t.readCopy p = (r, u)) : u.mem = t.mem := by
    rw [← t.readCopy_mem p, e]
  simp only [State.readWord]
  split
  · rename_i e; exact .inl (hc _ _ _ _ e)
  · rename_i e; exact .inl (hc _ _ _ _ e)
  · rename_i t e
    have ht := hc _ _ _ _ e
    split
    · split
      · split
        · rename_i v u e2
          exact .inr ⟨v, by rw [State.repairWord_mem, hc _ _ _ _ e2, ht]⟩
        · rename_i u _ e2
          exact .inl (by rw [State.loseWord_mem, hc _ _ _ _ e2, ht])
      · exact .inl (by rw [State.loseWord_mem, ht])
    · exact .inl (by rw [State.wordFails_mem, ht])

/-- A read keeps the form too. -/
theorem State.readWord_wf (s : State) (w : Nat) (scrub : Bool) (h : Memory.wf s.mem = true) :
    Memory.wf (s.readWord w scrub).2.2.mem = true := by
  rcases s.readWord_mem w scrub with e | ⟨v, e⟩ <;> rw [e]
  · exact h
  · exact Mem.store_wf _ _ _ h

theorem State.readWords_wf (fuel : Nat) (s : State) (p n : Nat) (h : Memory.wf s.mem = true) :
    Memory.wf (s.readWords fuel p n).2.mem = true := by
  induction fuel generalizing s p n with
  | zero => exact h
  | succ k ih =>
    simp only [State.readWords]
    split
    · exact h
    · exact ih _ _ _ (s.readWord_wf _ _ h)

theorem State.readParts_wf (l : List (Nat × Nat)) (s : State) (h : Memory.wf s.mem = true) :
    Memory.wf (s.readParts l).2.mem = true := by
  induction l generalizing s with
  | nil => exact h
  | cons e r ih =>
    obtain ⟨p, n⟩ := e
    simp only [State.readParts]
    exact ih _ (State.readWords_wf _ _ _ _ (by simpa using h))

theorem State.readLocal_wf (s : State) (a n : Nat) (h : Memory.wf s.mem = true) :
    Memory.wf (s.readLocal a n).2.mem = true := by
  simp only [State.readLocal]
  split
  · exact State.readParts_wf _ _ h
  · exact h

theorem State.wipeBanks_wf (s : State) (vs chs : List Nat) (h : Memory.wf s.mem = true) :
    Memory.wf (s.wipeBanks vs chs).mem = true := SMap.wf_filter _ _ _ h

/-- What each step of a fold keeps, the fold keeps. -/
theorem foldl_wf {α : Type} (f : State → α → State)
    (hf : ∀ s a, Memory.wf s.mem = true → Memory.wf (f s a).mem = true) (l : List α) (s : State)
    (h : Memory.wf s.mem = true) : Memory.wf (l.foldl f s).mem = true := by
  induction l generalizing s with
  | nil => exact h
  | cons a r ih => exact ih _ (hf s a h)

theorem State.rebuildReads_wf (s : State) (u : MemUnit) (h : Memory.wf s.mem = true) :
    Memory.wf (s.rebuildReads u).mem = true :=
  foldl_wf _ (fun t w ht => t.readWord_wf w false ht) _ s h

theorem State.copyMirror_wf (s : State) (u : MemUnit) (h : Memory.wf s.mem = true) :
    Memory.wf (s.copyMirror u).mem = true := by
  have go (f : List Host.Cell → Host.Cell → List Host.Cell)
      (hf : ∀ m c, Memory.wf m = true → Memory.wf (f m c) = true) (l m : List Host.Cell) (hm : Memory.wf m = true) :
      Memory.wf (l.foldl f m) = true := by
    induction l generalizing m with
    | nil => exact hm
    | cons a r ih => exact ih _ (hf m a hm)
  simp only [State.copyMirror]
  rw [foldl_keeps State.mem _ (fun s w => s.listPoison_mem w)]
  refine go _ ?_ _ _ (go _ ?_ _ _ (s.rebuildReads_wf u h))
  · intro m c hm
    split
    · split
      · exact SMap.wf_set _ _ _ _ hm
      · exact hm
    · exact hm
  · intro m c hm
    split
    · exact SMap.wf_set _ _ _ _ hm
    · exact hm

end Sys2Proof.Machine
end

