-- ==== Sys2Proof/Laws/Commands.lean ====
section
/-!
SUPPORT. What receiving and answering a command comes to, what a task's waiting step comes to, and what ending a session
or a task leaves behind.
-/
namespace Sys2Proof.Machine
open Sys2Proof

/-! ### What only the port's records show -/

/-- Only the port's sessions and records, the fabric's queues and the meters may differ. -/
def State.PortOnly (s t : State) : Prop :=
  t = { s with odn := t.odn, outbox := t.outbox, tth := t.tth, pmc := t.pmc }

theorem State.PortOnly.refl (s : State) : s.PortOnly s := rfl

theorem State.PortOnly.trans {s t u : State} (h : s.PortOnly t) (k : t.PortOnly u) : s.PortOnly u := by
  unfold State.PortOnly at *
  rw [k, h]

theorem State.PortOnly.regs {s t : State} (h : s.PortOnly t) : t.regs = s.regs := by rw [h]
theorem State.PortOnly.mem {s t : State} (h : s.PortOnly t) : t.mem = s.mem := by rw [h]
theorem State.PortOnly.core {s t : State} (h : s.PortOnly t) : t.core = s.core := by rw [h]
theorem State.PortOnly.side {s t : State} (h : s.PortOnly t) : t.side = s.side := by rw [h]
theorem State.PortOnly.image {s t : State} (h : s.PortOnly t) : t.image = s.image := by rw [h]
theorem State.PortOnly.fuses {s t : State} (h : s.PortOnly t) : t.fuses = s.fuses := by rw [h]
theorem State.PortOnly.flash {s t : State} (h : s.PortOnly t) : t.flash = s.flash := by rw [h]
theorem State.PortOnly.runs {s t : State} (h : s.PortOnly t) : t.runs = s.runs := by rw [h]
theorem State.PortOnly.work {s t : State} (h : s.PortOnly t) : t.work = s.work := by rw [h]
theorem State.PortOnly.disp {s t : State} (h : s.PortOnly t) : t.disp = s.disp := by rw [h]
theorem State.PortOnly.emb {s t : State} (h : s.PortOnly t) : t.emb = s.emb := by rw [h]
theorem State.PortOnly.mst {s t : State} (h : s.PortOnly t) : t.mst = s.mst := by rw [h]
theorem State.PortOnly.units {s t : State} (h : s.PortOnly t) : t.units = s.units := by rw [h]
theorem State.PortOnly.power {s t : State} (h : s.PortOnly t) : t.power = s.power := by rw [h]
theorem State.PortOnly.gov {s t : State} (h : s.PortOnly t) : t.gov = s.gov := by rw [h]
theorem State.PortOnly.clock {s t : State} (h : s.PortOnly t) : t.clock = s.clock := by rw [h]
theorem State.PortOnly.pending {s t : State} (h : s.PortOnly t) : t.pending = s.pending := by rw [h]

/-- A function that keeps every other field touches the port's records only. -/
theorem State.portOnly_of {s t : State} (h1 : t.pending = s.pending) (h2 : t.free = s.free) (h3 : t.regs = s.regs)
    (h4 : t.mem = s.mem) (h5 : t.core = s.core) (h6 : t.side = s.side) (h7 : t.clock = s.clock) (h8 : t.power = s.power)
    (h9 : t.fuses = s.fuses) (h10 : t.flash = s.flash) (h11 : t.trust = s.trust) (h12 : t.image = s.image)
    (h13 : t.runs = s.runs) (h14 : t.work = s.work) (h15 : t.runDescs = s.runDescs) (h16 : t.heldRegions = s.heldRegions)
    (h17 : t.resident = s.resident) (h18 : t.disp = s.disp) (h19 : t.emb = s.emb) (h20 : t.mst = s.mst)
    (h21 : t.pat = s.pat) (h22 : t.units = s.units) (h23 : t.gov = s.gov) (h24 : t.mgmt = s.mgmt) (h25 : t.flog = s.flog) :
    s.PortOnly t := by
  simp only [State.PortOnly, ← h1, ← h2, ← h3, ← h4, ← h5, ← h6, ← h7, ← h8, ← h9, ← h10, ← h11, ← h12, ← h13, ← h14,
    ← h15, ← h16, ← h17, ← h18, ← h19, ← h20, ← h21, ← h22, ← h23, ← h24, ← h25]

theorem State.sendResponse_portOnly (s : State) (mac : BitVec 48) (relayed : Bool) (r : Response) :
    s.PortOnly (s.sendResponse mac relayed r) := by
  apply State.portOnly_of <;> simp

theorem State.answerBare_portOnly (s : State) (mac : BitVec 48) (relayed : Bool) (type : Nat) (session : W32) (seq : Nat)
    (st : Code) (body : List Byte) : s.PortOnly (s.answerBare mac relayed type session seq st body) := by
  apply State.portOnly_of <;> simp

theorem State.respond_portOnly (s : State) (id : W32) (type seq : Nat) (st : Code) (body : List Byte) (final : Bool) :
    s.PortOnly (s.respond id type seq st body final) := by
  apply State.portOnly_of <;> simp

theorem State.attn_portOnly (s : State) (code : Code) (detail : List Nat) : s.PortOnly (s.attn code detail) := by
  apply State.portOnly_of <;> simp

theorem State.firstSend_portOnly (s : State) (slot : Nat) : s.PortOnly (s.firstSend slot) := by
  apply State.portOnly_of <;> simp

theorem State.overflowNotice_portOnly (s : State) (slot : Nat) : s.PortOnly (s.overflowNotice slot) := by
  apply State.portOnly_of <;> simp

theorem State.putSession_portOnly (s : State) (x : Session) : s.PortOnly (s.putSession x) := rfl

theorem State.odrenIn_portOnly (s : State) (relayed : Bool) (body : Nat) (isProtected : Bool) :
    s.PortOnly (s.odrenIn relayed body isProtected) := by
  apply State.portOnly_of <;> simp

theorem State.openSession_portOnly (s : State) (x : Session) : s.PortOnly (s.openSession x) := by
  simp only [State.openSession]
  split
  · refine State.PortOnly.trans ?_ (State.overflowNotice_portOnly _ _)
    refine State.PortOnly.trans ?_ (State.firstSend_portOnly _ _)
    exact State.PortOnly.trans (t := { s with odn := { s.odn with occurs := [] } }) rfl (State.putSession_portOnly _ _)
  · exact State.putSession_portOnly _ _

/-! ### Receiving a command -/

theorem State.hear_portOnly (s : State) (h : Hdr) (x : Session) : s.PortOnly (s.hear h x) := by
  simp only [State.hear]
  split
  · exact State.openSession_portOnly _ _
  · exact State.putSession_portOnly _ _

/-- The next command of a session is executed; any other is answered without being executed (R349, R350). -/
theorem State.sequence_cases (s : State) (h : Hdr) (type : Nat) (x : Session) :
    (∃ t, s.sequence h type x = .answered t ∧ s.PortOnly t) ∨
    (h.seq = x.expected ∧ x.pends.length < 64 ∧
      s.sequence h type x = .execute { x with expected := x.expected + 1 }
        (s.putSession { x with expected := x.expected + 1 })) := by
  simp only [State.sequence]
  split
  · split
    · exact .inl ⟨_, rfl, State.sendResponse_portOnly _ _ _ _⟩
    · exact .inl ⟨_, rfl, State.answerBare_portOnly _ _ _ _ _ _ _ _⟩
  · split
    · exact .inl ⟨_, rfl, State.answerBare_portOnly _ _ _ _ _ _ _ _⟩
    · split
      · exact .inl ⟨_, rfl, State.answerBare_portOnly _ _ _ _ _ _ _ _⟩
      · exact .inr ⟨by omega, by omega, rfl⟩

/-- What receiving can come to: nothing, an answer without execution, or execution as the session's next command; in all
of them nothing but the port's records changes (R349 to R354). -/
theorem State.receive_cases (s : State) (h : Hdr) (type : Nat) (opening : Bool) :
    s.receive h type opening = .lost ∨
    (∃ t, s.receive h type opening = .answered t ∧ s.PortOnly t) ∨
    (∃ x t, s.receive h type opening = .execute x t ∧ s.PortOnly t ∧ (s.session? h.session).isSome = true ∧
      x.expected = h.seq + 1 ∧ t = (s.hear h ((s.session? h.session).getD x)).putSession x) := by
  simp only [State.receive]
  split
  · exact .inl rfl
  · cases hx : s.session? h.session with
    | none => exact .inr (.inl ⟨_, rfl, State.answerBare_portOnly _ _ _ _ _ _ _ _⟩)
    | some x =>
      simp only
      split
      · exact .inr (.inl ⟨_, rfl, State.answerBare_portOnly _ _ _ _ _ _ _ _⟩)
      · rcases (s.hear h x).sequence_cases h type (((s.hear h x).session? h.session).getD x) with ⟨t, ht, hp⟩ | ⟨he, -, ht⟩
        · exact .inr (.inl ⟨t, ht, (s.hear_portOnly h x).trans hp⟩)
        · refine .inr (.inr ⟨_, _, ht, (s.hear_portOnly h x).trans (State.putSession_portOnly _ _), rfl, ?_, rfl⟩)
          simp [he]

theorem State.receive_execute_portOnly {s t : State} {h : Hdr} {type : Nat} {opening : Bool} {x : Session}
    (e : s.receive h type opening = .execute x t) : s.PortOnly t := by
  rcases s.receive_cases h type opening with hl | ⟨u, ha, -⟩ | ⟨y, u, hx, hp, -⟩
  · rw [hl] at e; cases e
  · rw [ha] at e; cases e
  · rw [hx] at e; cases e; exact hp

theorem State.receive_answered_portOnly {s t : State} {h : Hdr} {type : Nat} {opening : Bool}
    (e : s.receive h type opening = .answered t) : s.PortOnly t := by
  rcases s.receive_cases h type opening with hl | ⟨u, ha, hp⟩ | ⟨y, u, hx, -⟩
  · rw [hl] at e; cases e
  · rw [ha] at e; cases e; exact hp
  · rw [hx] at e; cases e

/-- A command that is taken and well shaped has its effect and is answered with what the effect says (R350, R351). -/
theorem State.command_taken {s t : State} {h : Hdr} {type : Nat} {f : Session → State → Answer}
    {after : Session → Code → State → State} {opening : Bool} {x : Session}
    (e : s.receive h type opening = .execute x t) (hw : h.wellShaped = true) :
    s.command h type f after opening =
      after x (f x t).2.1 ((f x t).1.respond h.session type h.seq (f x t).2.1 (f x t).2.2) := by
  simp only [State.command, e, hw]
  rfl

/-- A message whose shape is wrong is answered MESSAGE_INVALID and has no other effect (R351). -/
theorem State.command_misshapen {s t : State} {h : Hdr} {type : Nat} {f : Session → State → Answer}
    {after : Session → Code → State → State} {opening : Bool} {x : Session}
    (e : s.receive h type opening = .execute x t) (hw : h.wellShaped = false) :
    s.command h type f after opening = t.respond h.session type h.seq C.MESSAGE_INVALID [] := by
  simp only [State.command, e, hw]
  rfl

/-- A WRITE_REG of one register, taken: the write, its answer, and what a write to PWS_REQUEST asks (R442). -/
theorem State.writeCommand_one {s t : State} {h : Hdr} {addr w : W64} {x : Session}
    (e : s.receive h tyWriteReg false = .execute x t) (hw : h.wellShaped = true) :
    s.writeCommand h addr [w] =
      let u := s.sameFuses t
      let r := u.writeOne (x.role == .keeper) addr.toNat w
      r.state.sameFuses (r.state.writeAnswer h (b2n (r.code == C.OK)) r) := by
  simp [State.writeCommand, e, hw, State.writeRegs]

/-! ### Parts that a command holds fixed -/

theorem State.holdData_self {s t : State} (h1 : t.pending = s.pending) (h2 : t.fuses = s.fuses) (h3 : t.flash = s.flash)
    (h4 : t.mem = s.mem) (h5 : t.core = s.core) (h6 : t.image = s.image) : s.holdData t = t := by
  simp only [State.holdData, ← h1, ← h2, ← h3, ← h4, ← h5, ← h6]

theorem State.holdFlash_self {s t : State} (h1 : t.pending = s.pending) (h2 : t.fuses = s.fuses) (h3 : t.flash = s.flash) :
    s.holdFlash t = t := by
  simp only [State.holdFlash, ← h1, ← h2, ← h3]

theorem State.PortOnly.holdData {s t : State} (h : s.PortOnly t) : s.holdData t = t :=
  State.holdData_self h.pending h.fuses h.flash h.mem h.core h.image

/-! ### A task's step that waits -/

theorem State.orBlocked_goes {s : State} {f : State → State}
    (h : (f { s with power := { s.power with blocked := false } }).power.blocked = false) :
    s.orBlocked f = f { s with power := { s.power with blocked := false } } := by
  simp [State.orBlocked, h]

theorem State.orBlocked_waits {s : State} {f : State → State}
    (h : (f { s with power := { s.power with blocked := false } }).power.blocked = true) :
    s.orBlocked f = { s with power := { s.power with
      waking := (f { s with power := { s.power with blocked := false } }).power.waking,
      idleSince := (f { s with power := { s.power with blocked := false } }).power.idleSince } } := by
  simp [State.orBlocked, h]

/-! ### Ending a session (R355) -/

/-- Watches on other devices' words end: this device's list and the messages to the owners, nothing else. -/
theorem State.dropRemote_keep (s : State) (p : Watch → Bool) :
    s.dropRemote p = { s with side := (s.dropRemote p).side, outbox := (s.dropRemote p).outbox } := by
  have one (l : List W64) (t u : State) (h : u = { t with side := u.side, outbox := u.outbox }) :
      l.foldl (fun s a => s.tellOwner a true) u =
        { t with side := (l.foldl (fun s a => s.tellOwner a true) u).side,
                 outbox := (l.foldl (fun s a => s.tellOwner a true) u).outbox } := by
    induction l generalizing u with
    | nil => exact h
    | cons a r ih =>
      rw [List.foldl_cons]
      exact ih _ (by rw [h]; rfl)
  exact one _ s _ rfl

/-- A session's end touches its watches (the owners of other devices' words are told), the sessions and the backlog,
nothing else. -/
theorem State.endSession_keep (s : State) (n : Nat) (b : Bool) :
    s.endSession n b = { s with odn := (s.endSession n b).odn, side := (s.endSession n b).side,
                                outbox := (s.endSession n b).outbox } := by
  simp only [State.endSession]
  split
  · rfl
  · rw [State.dropRemote_keep]
    rfl

theorem State.endSession_slots (s : State) (n : Nat) (b : Bool) : ∀ y ∈ (s.endSession n b).odn.sessions, y.slot ≠ n := by
  simp only [State.endSession]
  split
  · rename_i h
    intro y hy
    simpa using List.find?_eq_none.mp h y hy
  · intro y hy
    simp at hy
    exact hy.2

/-! ### Tasks -/

theorem State.coreIdle_disp (s : State) (n : Nat) : (s.coreIdle n).disp = s.disp := by
  simp only [State.coreIdle]
  split <;> rfl

theorem State.topDownEnd_disp (s : State) (t : Task) (done : Bool) : (s.topDownEnd t done).disp = s.disp := by
  simp only [State.topDownEnd]
  apply foldl_keeps State.disp
  intro s x
  split <;> rfl

/-- A task that is dropped has left the dispatcher's table. -/
theorem State.dropTask_tasks (s : State) (t : Task) (done : Bool) :
    (s.dropTask t done).disp.tasks = s.disp.tasks.filter (fun x => x.id != t.id) := by
  simp only [State.dropTask]
  split
  · rw [State.topDownEnd_disp, foldl_keeps State.disp State.coreIdle State.coreIdle_disp]
  · rfl

theorem State.dropTask_gone (s : State) (t : Task) (done : Bool) : (s.dropTask t done).task? t.id = none := by
  simp [State.task?, State.dropTask_tasks, List.find?_eq_none]

/-- With no run there is nothing that waits to settle. -/
theorem State.settleAll_idle (s : State) (h : s.runs = []) : s.settleAll = s := by
  simp [State.settleAll, h]

/-! ### The step -/

theorem step_front (s : State) (c : Instr) (r : List Instr) (h : s.pending = c :: r) :
    step s = exec c { s with pending := r } := by
  simp [step, h]

theorem step_idle (s : State) (h : s.pending = []) : step s = .next (tick s) := by
  simp [step, h]

end Sys2Proof.Machine
end

