-- ==== Sys2Proof/Tests/Slice0.lean ====
section
/-!
SUPPORT. Tests on single steps and small states, the smoke test of WellFormed, and for each statement with hypotheses a
state and operands that meet them.
-/
namespace Sys2Proof.Tests
open Sys2Proof Sys2Proof.Machine

/-! ### Small states -/

/-- A session of its own slot and identifier. -/
def session (slot : Nat) (id : W32) (role : Role) (isOpen : Bool) : Session :=
  { slot := slot, id := id, role := role, attention := false, isOpen := isOpen, expected := 1, mac := 0, relayed := false,
    keys := [], transcript := [], helloAt := 0, heardAt := 0, sent := [], pends := [], nextAttn := 1, queue := [],
    overflow := 0, lastFirst := none }

/-- The device in LIT with its port up and a session of each kind: 1 an open Keeper, 2 an open Operator, 3 a Keeper and
4 an Operator not yet open. -/
def lit : State :=
  { State.reset.fset F.ODN_STATUS_PORT 0 1 with
    power := { State.reset.power with state := .lit }
    odn := ⟨[session 0 1 .keeper true, session 1 2 .operator true, session 2 3 .keeper false, session 3 4 .operator false], []⟩ }

/-- The next command of session `id`. -/
def cmd (id : W32) : Hdr := ⟨id, 1, 0, false, true⟩

/-- The clock `n` ns after the start of the lantern domain. -/
def at_ (s : State) (n : Nat) : State := { s with clock := { s.clock with lantern := n / 80, meridian := n } }

/-- A session with 64 waiting commands, which has executed two commands and kept the response to the first. -/
def full : Session :=
  { session 4 5 .keeper true with
    expected := 3, sent := [⟨tyQuery, 5, 1, C.OK, false, []⟩]
    pends := List.replicate 64 ⟨tyPoolRead, 9, .vault, none⟩ }

def litFull : State := { lit with odn := ⟨[full], []⟩ }

/-- Message `h` is accepted, which leaves its session as `x` in state `t`. -/
def TakenBy (s : State) (h : Hdr) (body : Nat) (x : Session) (t : State) (opening : Bool := false) : Prop :=
  ∃ z, Accepted s h z opening ∧ x = s.holder h body z ∧ t = s.taken h body z

/-! ### WellFormed refuses an ill-formed term of each of its checks -/

def bundle : BundleHdr := ⟨7, 3, true, false, 0, true, false, 7, 1, 1, 0, 1⟩
def entry : Entry := ⟨5, 0, 0, 1, 0x3F800000, false, [1, 2], [], 0, 0⟩
def badBundle : BundleHdr := { bundle with table := 64 }
def flit : Flit := ⟨0, 0, 0, none, none, 0, false, true, List.replicate 242 0, 0, 0⟩
def packet (dest : BitVec 20) (kind : Nat) : Packet := ⟨⟨dest, 7, 0, false, false, false, 3, kind, 8, 9, 0, [], 0, 0⟩, List.replicate 8 0⟩
def frame : Frame := ⟨⟨4, 0, 0, 0, 1, 1, 1, crc32c 0 [9], true⟩, [9], false⟩
def init : LinkInitBody := ⟨9, 3, 1, 1, 1, List.replicate 8 4, false⟩
def relayBody : RelayBody := ⟨9, 7, false, 0, [1]⟩
def runBlock : RunBlock := ⟨6, 2, 0, 0, []⟩

theorem smoke_counts : Instr.wellFormed (.readReg (cmd 1) 0 0) = false ∧ Instr.wellFormed (.writeReg (cmd 1) 0 []) = false ∧
    Instr.wellFormed (.poolRead (cmd 1) 0 8193) = false ∧ Instr.wellFormed (.poolWrite (cmd 1) 0 []) = false ∧
    Instr.wellFormed (.run (cmd 1) { runBlock with pipeline := 65536 }) = false ∧
    Instr.wellFormed (.run (cmd 1) { runBlock with entries := [⟨256, 1, 0, 0, 0, 0⟩] }) = false ∧
    Instr.wellFormed (.rowWrite (cmd 1) 256 0 0 []) = false ∧ Instr.wellFormed (.rowWriteForwarded 0 65536 0 0 0 []) = false ∧
    Instr.wellFormed (.erase (cmd 1) 0 0x100000000 0) = false ∧ Instr.wellFormed (.program (cmd 1) 0 0x100000000 []) = false := by
  decide

theorem smoke_times : Instr.wellFormed (.timeQuery (cmd 1) (2 ^ 64)) = false ∧ Instr.wellFormed (.timeSet (cmd 1) true (2 ^ 64)) = false ∧
    Instr.wellFormed (.timeAdjust (cmd 1) true ((2 : Int) ^ 63)) = false ∧
    Instr.wellFormed (.timeSync 0 true (2 ^ 64) 0 0 0) = false ∧ Instr.wellFormed (.timeSync 0 true 0 0 0 256) = false ∧
    Instr.wellFormed (.governorCheck 0 []) = false ∧ Instr.wellFormed (.modThermN []) = false ∧
    Instr.wellFormed (.admission { frame with hdr := { frame.hdr with stream := 65536 } }) = false ∧
    Instr.wellFormed (.frameNoRun { frame with hdr := { frame.hdr with width := 65536 } }) = false := by
  decide

theorem smoke_fabric : Instr.wellFormed (.relay 0 { relayBody with hops := 9 }) = false ∧
    Instr.wellFormed (.relayed 0 { relayBody with hops := 9 }) = false ∧
    Instr.wellFormed (.flitReceive 0 { flit with data := [] }) = false ∧
    Instr.wellFormed (.linkInit 0 { init with credits := [] }) = false ∧
    Instr.wellFormed (.packetReceive none { packet 9 1 with body := [] }) = false ∧
    Instr.wellFormed (.poolReadReq 0 65536 0 1) = false ∧ Instr.wellFormed (.poolReadReq 0 0 0 1048577) = false ∧
    Instr.wellFormed (.poolReadResp 0 65536 0 []) = false ∧ Instr.wellFormed (.poolWritePacket 0 0 0 [] []) = false ∧
    Instr.wellFormed (.poolWriteAck 0 65536 0) = false ∧ Instr.wellFormed (.poolTimeout 65536) = false ∧
    Instr.wellFormed (.enrollFirst 4 (List.replicate 64 0)) = false ∧ Instr.wellFormed (.enrollFirst 0 []) = false := by
  decide

theorem smoke_bundles : (∀ c ∈ [Instr.lookupReq badBundle [], .lookupResp badBundle [], .updateReq badBundle [], .updateAck badBundle [],
      .forwardReq badBundle [], .forwardResp badBundle [], .hotPush badBundle [], .hotInvalidate badBundle [], .hotAck badBundle,
      .migrateRows badBundle [], .migrateAck badBundle 0, .mapUpdate badBundle 0 0 0, .mapUpdate bundle 65536 0 0, .endOfBuild badBundle,
      .partitionRows badBundle 0 [], .partitionRows bundle 64 []], c.wellFormed = false) := by
  decide

set_option maxRecDepth 4000 in
theorem smoke_good : (∀ c ∈ [Instr.readReg (cmd 1) 0 64, .poolRead (cmd 1) 0 8192, .run (cmd 1) runBlock, .relay 0 relayBody,
      .flitReceive 0 flit, .linkInit 0 init, .packetReceive none (packet 9 1), .lookupReq bundle [entry], .admission frame,
      .portDown], c.wellFormed = true) := by
  decide

/-! ### Sessions and the port -/

theorem witness_CommandTakenInOrder : State.reset.reached false = false ∧ lit.reached false = true ∧ lit.session? 9 = none ∧
    lit.session? 3 = some (session 2 3 .keeper false) ∧ lit.session? 4 = some (session 3 4 .operator false) ∧
    lit.session? 1 = some (session 0 1 .keeper true) ∧ (cmd 1).seq = (session 0 1 .keeper true).expected ∧
    litFull.session? 5 = some full ∧ 64 ≤ full.pends.length ∧ full.sent.find? (·.seq == 1) ≠ none ∧ full.sent.find? (·.seq == 2) = none := by
  decide

def helloMsg : HelloMsg := ⟨.operator, false, [], [], [], 0, false, true⟩

theorem witness_HelloOpensSession : (lit.fset F.ODN_CTL_OPERATOR_OPEN 0 1).reached helloMsg.relayed = true ∧ helloMsg.wellShaped = true ∧
    (lit.fset F.ODN_CTL_OPERATOR_OPEN 0 1).helloRefusal helloMsg.role = none := by decide

def proof : ProveMsg := ⟨0, [], [], [], []⟩

theorem witness_ProveRefused : ∃ x t, TakenBy lit (cmd 3) 5361 x t true ∧ t.proveCode x proof = C.KEY_NOT_ENROLLED :=
  ⟨_, _, ⟨_, ⟨rfl, rfl, .inr (.inr rfl), rfl, by decide, rfl⟩, rfl, rfl⟩, by decide⟩

/-- The device in which position 0 holds the digest of the key of `proof`. -/
def enrolled : State :=
  { lit with fuses := { lit.fuses with owners := [some (fitTo 64 (Config.sha512 [])), none, none, none] } }

/-- Whether a signature verifies is a free function, so the two answers to an enrolled key stand as one. -/
theorem witness_ProveVerified : ∃ x t, TakenBy enrolled (cmd 3) 5361 x t true ∧
    (t.proveCode x proof = C.OK ∨ t.proveCode x proof = C.AUTH_FAILED) ∧ t.session? x.id = some x := by
  refine ⟨_, _, ⟨_, ⟨rfl, rfl, .inr (.inr rfl), rfl, by decide, rfl⟩, rfl, rfl⟩, ?_, by decide⟩
  simp only [State.proveCode]
  split
  · rename_i h; revert h; decide
  · split
    · rename_i h
      rcases h with h | h
      · revert h; decide
      · exact absurd rfl h
    · split
      · exact .inl rfl
      · exact .inr rfl

theorem witness_Close : ∃ x t, TakenBy lit (cmd 1) 1 x t true := ⟨_, _, ⟨_, ⟨rfl, rfl, .inr (.inr rfl), rfl, by decide, rfl⟩, rfl, rfl⟩⟩

theorem witness_SessionTimeoutsEnd : lit.odn.sessions.find? (·.slot == 2) = some (session 2 3 .keeper false) ∧
    (session 2 3 .keeper false).helloAt + 1000000000 ≤ (at_ lit 1000000000).now ∧ (at_ lit 999999920).now < 0 + 1000000000 ∧
    lit.odn.sessions.find? (·.slot == 0) = some (session 0 1 .keeper true) ∧
    0 + lit.fget F.ODN_CTL_IDLE_S * 1000000000 ≤ (at_ lit (lit.fget F.ODN_CTL_IDLE_S * 1000000000)).now := by decide

theorem witness_PortEventsCounted : lit.upAndRunning = true ∧ lit.portUp = true ∧ (lit.fset F.ODN_STATUS_PORT 0 0).portUp = false ∧
    lit.fget F.ODN_STATUS_PORT ≠ 2 ∧ ∃ x t, TakenBy lit (cmd 1) 0 x t :=
  ⟨by decide, by decide, by decide, by decide, _, _, ⟨_, ⟨rfl, rfl, .inl rfl, rfl, by decide, rfl⟩, rfl, rfl⟩⟩

/-- A session that has one message to send. -/
def hearing : Session :=
  { session 0 1 .keeper true with attention := true, queue := [⟨1, C.PORT_UP, 1, 0, 0, [], false, none⟩], lastFirst := some 0 }

def litHearing : State := at_ { lit with odn := ⟨[hearing], []⟩ } 100000

theorem witness_AttentionQueueCommands : litHearing.reached false = true ∧ litHearing.session? 1 = some hearing ∧ hearing.overflow = 0 ∧
    litHearing.odn.sessions.find? (·.slot == 0) = some hearing ∧ 0 + firstSendGap = litHearing.now ∧
    hearing.queue.find? (·.sent.isNone) = some ⟨1, C.PORT_UP, 1, 0, 0, [], false, none⟩ := by decide

theorem witness_AttnResend : (⟨1, C.PORT_UP, 1, 0, 0, [], false, some (0, 10000000)⟩ : AttnMsg).sent = some (0, 10000000) ∧
    0 + 10000000 ≤ (at_ lit 10000000).now := by decide

/-- A link in a state, with its peer. -/
def link (s : State) (l st peer : Nat) : State := (s.fset F.TTH_LINK_STATUS_STATE l st).fset F.TTH_LINK_STATUS_PEER_DEVICE l peer

/-- Links 3 and 5 ACTIVE, to devices 9 and 10. -/
def linked : State := link (link lit 3 lnkActive 9) 5 lnkActive 10

theorem witness_RelayForwards : linked.upAndRunning = true ∧ linked.linkState 3 = lnkActive ∧ linked.portUp = true ∧
    (linked.fset F.ODN_STATUS_PORT 0 0).portUp = false ∧ (linked.fset F.ODN_STATUS_PORT 0 0).relayLink (some 3) = some 5 ∧
    relayBody.hops < 8 ∧ (9#20).toNat ≠ linked.device := by decide

/-! ### Registers and the pool -/

theorem witness_ReadRegAnswers : (∃ x t, TakenBy lit (cmd 1) 16 x t) ∧ (1 ≤ 64 ∧ 64 ≤ 64) ∧ (0 < 1 ∧ 64 < 65) :=
  ⟨⟨_, _, ⟨_, ⟨rfl, rfl, .inl rfl, rfl, by decide, rfl⟩, rfl, rfl⟩⟩, by decide, by decide⟩

/-- Address 4 is not aligned, 8 names no register; PCH_ROLLBACK is closed to an Operator, PIP_CTL refuses reserved bits. -/
theorem witness_RegisterWriteChecks : 4 % 8 ≠ 0 ∧ locate 8 = none ∧ locate (regAddr .PIP_CTL 0 0) = some (.PIP_CTL, 0, 0) ∧
    regAddr .PIP_CTL 0 0 % 8 = 0 ∧ (regDef .PCH_ROLLBACK).closed false = true ∧ (regDef .PIP_CTL).closed true = false ∧
    (regDef .PIP_CTL).reservedBits 0x8000000000000000 ≠ 0 ∧ (regDef .PIP_CTL).reservedBits 1 = 0 := by decide

theorem witness_WrittenFields : ∃ f ∈ (regDef .PIP_CTL).fields, f.lsb ≤ f.msb := by decide

theorem witness_WriteRegAnswers : (∃ x t, TakenBy lit (cmd 1) (16 + 8 * [(0 : W64)].length) x t ∧
      (State.writeRegs (x.role == .keeper) [0] 8 t).2.low = none) ∧
    locate (regAddr .CMP_ENG_STATUS 3 0) = some (.CMP_ENG_STATUS, 3, 0) ∧
    ({ lit with units := { lit.units with lostClusters := [3] } } : State).pageGone .CMP_ENG_STATUS 3 = true ∧
    (regDef .CMP_ENG_STATUS).writeRefusal .CMP_ENG_STATUS true 0 = none ∧
    regAddr .CMP_CTL 0 0 % 8 = 0 ∧ locate (regAddr .CMP_CTL 0 0) = some (.CMP_CTL, 0, 0) ∧ lit.power.state ≠ .bivouac ∧
    (regDef .CMP_CTL).writeRefusal .CMP_CTL true 5 = none ∧ lit.pageGone .CMP_CTL 0 = false ∧ RegsOrdered lit :=
  ⟨⟨_, _, ⟨_, ⟨rfl, rfl, .inl rfl, rfl, by decide, rfl⟩, rfl, rfl⟩, by decide⟩, by decide, by decide, by decide, by decide, by decide,
    by decide, by decide, by decide, rfl⟩

/-- Links 3 and 5 with a route over them to every device. -/
def routed : State := (linked.setRaw .TTH_ROUTE0 0 0 0x02000000).setRaw .TTH_ROUTE1 0 0 0x28

/-- An address of device 9. -/
def far : W64 := BitVec.ofNat 64 (9 <<< 44)

/-- The session of `cmd 1`. -/
def keeper1 : Session := session 0 1 .keeper true

/-- Address 0x1FF80000 lies in the shadow of the match store. -/
theorem witness_PoolReadWrite : (∃ x t, TakenBy routed (cmd 1) 16 x t) ∧ routed.session? 1 = some keeper1 ∧ routed.lit = true ∧
    (1 ≤ 8192 ∧ routed.mayPool keeper1 false 0 8192 = true ∧ routed.mayPool keeper1 true 0 1 = true ∧
      routed.mayPool keeper1 false 0x1FF80000 8 = true ∧ routed.mayPool keeper1 true 0x1FF80000 1 = true) ∧
    (poolDevice 0 = routed.device ∧ poolDevice 0x1FF80000 = routed.device) ∧
    routed.queues (.read keeper1.id 1 0 8192) (routed.accessWaits (poolLocal 0) 8192) = false ∧
    routed.queues (.write keeper1.id 1 0 [1]) (routed.accessWaits (poolLocal 0) 1) = false ∧
    (∃ ps, routed.accessCheck (poolLocal 0) 8192 = .ok ps) ∧ (∃ ps, routed.accessCheck (poolLocal 0) 1 = .ok ps) ∧
    routed.accessCheck (poolLocal 0x1FF80000) 8 = .error C.SHADOW_PROTECTED ∧
    routed.accessCheck (poolLocal 0x1FF80000) 1 = .error C.SHADOW_PROTECTED ∧
    poolDevice far ≠ routed.device ∧ routed.reachable (poolDevice far) = true ∧ routed.mayPool keeper1 false far 1 = true ∧
    routed.mayPool keeper1 true far 1 = true :=
  ⟨⟨_, _, ⟨_, ⟨rfl, rfl, .inl rfl, rfl, by decide, rfl⟩, rfl, rfl⟩⟩, by decide, by decide, by decide, by decide, by decide, by decide,
    ⟨_, rfl⟩, ⟨_, rfl⟩, rfl, rfl, by decide, by decide, by decide, by decide⟩

theorem witness_PoolAccessOfAnotherDevice : routed.lit = true ∧
    (routed.takeInbox 0x02 9).queues (.peerRead 9 1 0 8) ((routed.takeInbox 0x02 9).accessWaits 0 8) = false ∧
    (∃ r, (routed.takeInbox 0x02 9).checkedRead 0 8 = .ok r) ∧
    (routed.takeInbox 0x02 9).checkedRead 0x1FF80000 8 = .error C.SHADOW_PROTECTED ∧
    (∃ v, (routed.takeInbox 0x04 9).checkedWrite 0 [1] (fun i => [0].contains i) = .ok v) ∧
    (routed.takeInbox 0x04 9).checkedWrite 0x1FF80000 [1] (fun i => [0].contains i) = .error C.SHADOW_PROTECTED :=
  ⟨by decide, by decide, ⟨_, rfl⟩, rfl, ⟨_, rfl⟩, rfl⟩

/-- A request under TAG 3 waits for device 9's answer. -/
def asked (n : Nat) : State := at_ { routed with tth := { routed.tth with reqs := [⟨3, 9, 0⟩] } } n

theorem witness_PoolAnswers : (asked 0).tth.reqs.find? (fun r => r.tag == 3 && r.dest == 9) = some ⟨3, 9, 0⟩ ∧
    (asked 0).tth.reqs.find? (fun r => r.tag == 3 && r.dest == 8) = none ∧
    (∀ x ∈ (asked 0).odn.sessions, x.pends = []) ∧
    0 + 2 * (asked 0).fget F.TTH_CTL_LIFETIME_US * 1000 ≤ (asked (2 * (asked 0).fget F.TTH_CTL_LIFETIME_US * 1000)).now := by decide

/-- A full watch table. -/
def watched (n : Nat) : State := { routed with side := { routed.side with watches := List.replicate n ⟨8, 8, .pitched⟩ } }

theorem watched_length (n : Nat) : (watched n).side.watches.length = n := by simp [watched]

theorem watched_none (n : Nat) (a : W64) (w : Watcher) (h : w ≠ .pitched) :
    (watched n).side.watches.any (fun x => x.addr == a && x.who == w) = false := by
  simp only [watched, List.any_eq_false, Bool.and_eq_true, beq_iff_eq, not_and]
  intro x hx _
  rw [List.eq_of_mem_replicate hx]
  exact fun e => h e.symm

theorem witness_WatchSet : (∃ x t, TakenBy (watched 4095) (cmd 1) 16 x t) ∧ (watched 4095).lit = true ∧
    (watched 4095).mayPool keeper1 false 16 8 = true ∧ poolDevice 16 = (watched 4095).device ∧
    (watched 4095).watchCheck (poolLocal 16) = .ok 16 ∧ (watched 4095).side.watches.length < 4096 ∧
    (watched 4095).side.watches.any (fun w => w.addr == 16 && w.who == .session 1) = false :=
  ⟨⟨_, _, ⟨_, ⟨rfl, rfl, .inl rfl, rfl, by decide, rfl⟩, rfl, rfl⟩⟩, rfl, by decide, rfl, rfl, by rw [watched_length]; decide,
    watched_none _ _ _ (by decide)⟩

theorem witness_WatchSetFull : (∃ x t, TakenBy (watched 4096) (cmd 1) 16 x t) ∧ (watched 4096).watchCheck (poolLocal 16) = .ok 16 ∧
    4096 ≤ (watched 4096).side.watches.length ∧
    (watched 4096).side.watches.any (fun w => w.addr == 16 && w.who == .session 1) = false :=
  ⟨⟨_, _, ⟨_, ⟨rfl, rfl, .inl rfl, rfl, by decide, rfl⟩, rfl, rfl⟩⟩, rfl, Nat.le_of_eq (watched_length 4096).symm, watched_none _ _ _ (by decide)⟩

theorem witness_WatchElsewhere : (∃ x t, TakenBy routed (cmd 1) 16 x t) ∧ routed.mayPool keeper1 false far 8 = true ∧
    poolDevice far ≠ routed.device ∧ far.toNat % 8 = 0 ∧ (physOf (poolLocal far)).isSome = true ∧
    routed.reachable (poolDevice far) = true ∧ routed.side.remote.any (fun w => w.addr == far && w.who == .session 1) = false ∧
    routed.side.remote.any (·.addr == far) = false :=
  ⟨⟨_, _, ⟨_, ⟨rfl, rfl, .inl rfl, rfl, by decide, rfl⟩, rfl, rfl⟩⟩, by decide, by decide, by decide, by decide, by decide, by decide,
    by decide⟩

theorem witness_WatchNotify : routed.side.remote.filter (fun w => w.addr == far) = [] ∧
    ({ routed with side := { routed.side with remote := [⟨0, far, .session 1⟩] } } : State).side.remote.filter (fun w => w.addr == far) =
      [⟨0, far, .session 1⟩] ∧ routed.watchCheck 16 = .ok 16 := by
  refine ⟨by decide, by decide, rfl⟩

/-! ### Runs, the image, time, resets and power -/

def manifests : Manifests := ⟨1, 1, 1, 1, 0, 1, 1, 1, false, false, true, 0, 1, 1, 1, [], []⟩

/-- A pitched image with one pipeline, number 2, of one stage. -/
def imageOf (st : StageRec) : Image :=
  { man := manifests, settings := [], regions := [⟨0, .vaultSingle, .operatorWrite, false, 0, 0, 4096, 0, []⟩], schemas := [],
    pipelines := [⟨2, 0, 0, [st], [], [false], []⟩], pipeBytes := [], descs := [], layouts := [], automata := [], graphs := [],
    mstTables := [], embTables := [], maps := [], dicts := [], dictRegion := 0, streams := [], routes := [], watches := [] }

def stage (op : Op) (param : List Byte) : StageRec := ⟨op, 0, true, [], [], 0xFFFF, param⟩

/-- Run 6 of the pipeline in slot 5, since the start. -/
def run6 : Run :=
  { slot := 5, run := 6, keeper := true, pipeline := 2, priority := 0, completion := 0, args := [], state := .running,
    cancelDue := false, status := 0, failures := 0, rowsIn := 0, rowsOut := 0, skipped := 0, replaced := 0, stale := 0,
    abandoned := 0, poisonSeen := false, batches := 0, startTime := 0, stall := 0, rings := [], streams := [] }

def chunk (p : Payload) : Chunk := ⟨0, 0, 0, 0, true, false, [7], none, p, none⟩

/-- Task 1 of run 6, RUNNING on vault unit 0. -/
def task1 (c : Chunk) : Task :=
  { id := 1, slot := 5, stage := 0, chunk := c, queue := none, state := .running, prio := 0, readyAt := 0, sentAt := 0, core := 0,
    units := [unitVault 0], taken := false, stop := false, deferred := false, shared := false, held := none, past := none }

/-- A device in which task 1 runs an operator on a chunk. -/
def running (op : Op) (param : List Byte) (p : Payload) : State :=
  { lit with
    image := some (imageOf (stage op param)), runs := [run6], work := [RunWork.empty 5]
    disp := { lit.disp with tasks := [task1 (chunk p)] } }

/-- A device with the image and no run. -/
def pitched : State := { lit with image := some (imageOf (stage .scan [])) }

/-- A run of a pipeline that is not there. -/
def noPipeline : RunBlock := { runBlock with pipeline := 9 }

theorem witness_Run : (∃ x t g, TakenBy pitched (cmd 1) (16 + 32 * runBlock.entries.length) x t ∧ t.runCheck .keeper runBlock = .ok g) ∧
    pitched.lit = true ∧ ringEntries runBlock = [] ∧ (∃ p, pitched.runFirst .keeper runBlock = .ok p) ∧
    pitched.freeRunSlot = some 0 ∧ pitched.side.watches.length ≤ watchPlaces ∧ pitched.indexReads runBlock = [] ∧
    pitched.runFirst .keeper noPipeline = .error C.PIPELINE_UNKNOWN :=
  ⟨⟨_, _, _, ⟨_, ⟨rfl, rfl, .inl rfl, rfl, by decide, rfl⟩, rfl, rfl⟩, rfl⟩, by decide, rfl, ⟨_, rfl⟩, by decide, by decide, rfl, rfl⟩

theorem witness_CancelQuery : (∃ x t, TakenBy (running .scan [] (.rows [] 0 none)) (cmd 1) 8 x t) ∧
    (running .scan [] (.rows [] 0 none)).runByNumber 6 = some run6 ∧ keeper1.role = .keeper ∧ (6 : W32) ≠ 0 ∧ run6.state = .running :=
  ⟨⟨_, _, ⟨_, ⟨rfl, rfl, .inl rfl, rfl, by decide, rfl⟩, rfl, rfl⟩⟩, rfl, by decide, by decide, by decide⟩

theorem witness_QueryHistory : (∃ x t, TakenBy { lit with disp := { lit.disp with history := [natLe 4 7 ++ zeros 28] } } (cmd 1) 8 x t) ∧
    ({ lit with disp := { lit.disp with history := [natLe 4 7 ++ zeros 28] } } : State).runByNumber 7 = none ∧
    ∃ c, ({ lit with disp := { lit.disp with history := [natLe 4 7 ++ zeros 28] } } : State).historyOf 7 = some c :=
  ⟨⟨_, _, ⟨_, ⟨rfl, rfl, .inl rfl, rfl, by decide, rfl⟩, rfl, rfl⟩⟩, by decide, _, rfl⟩

/-- Slot 1 in force, nothing programmed in slot 0. -/
def slot0 : State := (lit.fset F.PCH_STATUS_SLOT 0 1).fset F.PCH_SLOT_WRITTEN 0 0

theorem witness_ImageWrites : (∃ x t, TakenBy slot0 (cmd 1) (24 + [(1 : Byte)].length) x t) ∧ keeper1.role = .keeper ∧
    slot0.fget F.PCH_STATUS_SLOT ≠ (0 : Fin 2).val ∧ slot0.fget F.PCH_SLOT_WRITTEN (0 : Fin 2) = 0 ∧ 0 ≠ writtenUnknown ∧
    0 + 1 ≤ slotLimit false :=
  ⟨⟨_, _, ⟨_, ⟨rfl, rfl, .inl rfl, rfl, by decide, rfl⟩, rfl, rfl⟩⟩, rfl, by decide, by decide, by decide, by decide⟩

def awaiting : Session := { session 0 1 .keeper true with pends := [⟨tyImageWrite, 1, .flash, some (C.OK, [])⟩] }

theorem witness_FinalResponse :
    ({ lit with odn := ⟨[awaiting], []⟩ } : State).odn.sessions.find? (·.slot == (0 : Fin 8).val) = some awaiting ∧
    ({ lit with odn := ⟨[awaiting], []⟩ } : State).session? awaiting.id = some awaiting ∧
    awaiting.pends.find? (fun q => q.seq == 1 && q.result.isSome) = some ⟨tyImageWrite, 1, .flash, some (C.OK, [])⟩ := by decide

theorem witness_TimeCommands : ∃ x t, TakenBy { at_ lit 1000 with runs := [run6] } (cmd 1) 24 x t ∧ x.role = .keeper ∧
    (at_ lit 1000).clock.wasZero = false ∧ (at_ lit 1000).meridian ≤ 1000 ∧ 999 < (at_ lit 1000).meridian ∧
    ({ at_ lit 1000 with runs := [run6] } : State).runs ≠ [] ∧ (at_ lit 1000).runs = [] ∧
    ({ lit with clock := { lit.clock with wasZero := true } } : State).clock.wasZero = true :=
  ⟨_, _, ⟨_, ⟨rfl, rfl, .inl rfl, rfl, by decide, rfl⟩, rfl, rfl⟩, rfl, by decide, by decide, by decide, by decide, by decide, by decide⟩

theorem witness_ResetCommands : (∃ x t, TakenBy lit (cmd 1) 8 x t ∧ x.role = .keeper) ∧
    ∃ x t, TakenBy lit (cmd 2) 8 x t ∧ x.role = .operator :=
  ⟨⟨_, _, ⟨_, ⟨rfl, rfl, .inl rfl, rfl, by decide, rfl⟩, rfl, rfl⟩, rfl⟩, _, _, ⟨_, ⟨rfl, rfl, .inl rfl, rfl, by decide, rfl⟩, rfl, rfl⟩, rfl⟩

theorem witness_ResetDefaultsRegisters : RegsOrdered routed ∧ locate (regAddr .PIP_CTL 0 0) = some (.PIP_CTL, 0, 0) ∧
    RegId.PIP_CTL ≠ .MOD_PINS ∧ RegId.PIP_CTL ≠ .FLT_UNIT_CLEAR ∧ RegId.PIP_CTL ≠ .MOD_MGMT := by
  refine ⟨rfl, by decide, by decide, by decide, by decide⟩

/-- The reset state with other power bits. -/
def powered (input48 pwrgood : Bool) (st : DevState) : State :=
  { lit with power := { lit.power with state := st, input48 := input48, pwrgood := pwrgood } }

theorem witness_PinsAndSupplyReset : (powered true true .lit).power.input48 = true ∧ (powered true true .lit).power.pwrgood = true ∧
    (powered true false .off).power.pwrgood = false ∧ (powered false true .off).power.input48 = false ∧
    (powered false true .off).power.stuckOpen = false ∧ lit.upAndRunning = true ∧
    (lit.fset F.PWS_WATCHDOG_STANDBY_OK 0 1).flag F.PWS_WATCHDOG_STANDBY_OK = true ∧
    (lit.fset F.PWS_WATCHDOG_STANDBY_OK 0 0).flag F.PWS_WATCHDOG_STANDBY_OK = false ∧
    (lit.fset F.TTH_CTL_PEER_RESET 0 1).flag F.TTH_CTL_PEER_RESET = true ∧
    (lit.fset F.TTH_CTL_PEER_RESET 0 0).flag F.TTH_CTL_PEER_RESET = false := by decide

theorem witness_LowPowerEntry : (∃ x t, TakenBy lit (cmd 1) 24 x t ∧ x.role = .keeper ∧ t.runs = []) ∧
    ∃ x t, TakenBy { lit with runs := [run6] } (cmd 1) 24 x t ∧ x.role = .keeper ∧ t.runs ≠ [] :=
  ⟨⟨_, _, ⟨_, ⟨rfl, rfl, .inl rfl, rfl, by decide, rfl⟩, rfl, rfl⟩, rfl, rfl⟩, _, _, ⟨_, ⟨rfl, rfl, .inl rfl, rfl, by decide, rfl⟩, rfl, rfl⟩, rfl, by decide⟩

/-- BANKED with its pitch copy whole, tripped or not. -/
def banked (tripped : Bool) : State :=
  { pitched with power := { pitched.power with
      state := .banked, tripped := tripped, copyOk := true, copyHoles := [], alarmAt := some 80, wakeHeld := tripped } }

/-- A banked device whose sensors read 20. -/
def hot (t : Nat) : State := { banked true with gov := { lit.gov with hotSensors := (List.range 64).map (fun i => (i, t)) } }

theorem witness_LowPowerByBusAndSensor : lit.onBus = true ∧ lit.power.state = .lit ∧ (banked false).onBus = true ∧
    (banked false).power.tripped = false ∧ (banked true).power.tripped = true ∧ (hot 200).cooled = false ∧
    (banked false).power.alarmAt = some 80 ∧ 80 ≤ (at_ (banked false) 80).now ∧ (at_ (banked false) 79).now < 80 ∧
    (banked false).power.copyOk = true ∧ (banked false).power.copyHoles = [] ∧ (banked false).image.isSome = true ∧
    (banked true).power.wakeHeld = true ∧ (banked false).power.wakeHeld = false := by decide

set_option maxRecDepth 20000 in
theorem witness_ModThermN : ((banked true).readSensors (List.replicate 64 20)).cooled = true := rfl

/-! ### Clusters, the governor, units and memory -/

/-- Cluster 0 shaded, woken at 0. -/
def shaded0 : State :=
  { lit.showShaded 0 true with power := { lit.power with waking := [(0, 0)] } }

set_option maxRecDepth 20000 in
theorem witness_ClustersShadeAndWake : (at_ lit (lit.fget F.PWS_CTL_SHADE_US * 1000 + 2000)).shadeDue (0 : Fin 12) = true ∧
    lit.shadeDue (11 : Fin 12) = false ∧ (at_ shaded0 20000).wakeDue (0 : Fin 12) = true ∧
    (at_ shaded0 19999).wakeDue (0 : Fin 12) = false := by decide

/-- Cluster 11 last reset at 0, and being reset since then. -/
def resetAgo : State := { lit with power := { lit.power with lastResets := [(11, 0)] } }
def resetting : State := { lit with units := { lit.units with resetting := [⟨11, 0, 1, 0⟩] } }

/-- Cluster 11 held, cool since 0. -/
def held11 : State := { lit.setBit F.FLT_GOV_HELD 11 with gov := { lit.gov with coolSince := [(11, 0)] } }

set_option maxRecDepth 20000 in
theorem witness_ClusterResetsAndHolds :
    (∃ x t, TakenBy lit (cmd 1) 24 x t ∧ x.role = .keeper ∧ t.lit = true ∧ t.clusterWorks (11 : Fin 12) = true ∧
      t.heldShaded (11 : Fin 12) = false ∧ t.power.lastResets = [] ∧
      (regDef .PWS_CLUSTER).writeRefusal .PWS_CLUSTER true (put (t.raw .PWS_CLUSTER (11 : Fin 12) 0) F.PWS_CLUSTER_RESET 1) = none) ∧
    ((11, 0) : Nat × Nat) = (11, 0) ∧ (0 + 1000000000 < (at_ resetAgo 1000000080).now ∧ (at_ resetAgo 1000000000).now ≤ 0 + 1000000000) ∧
    resetAgo.power.lastResets.find? (fun e => e.1 == (11 : Fin 12).val) = some (11, 0) ∧
    resetting.units.resetting.find? (fun e => e.cluster == (11 : Fin 12).val) = some ⟨11, 0, 1, 0⟩ ∧
    (at_ resetting 50000).now ≤ 0 + 50000 ∧ 0 + 50000 < (at_ resetting 50080).now ∧
    lit.fget F.FLT_CTL_SHADE_C ≤ lit.fget F.FLT_CTL_SHADE_C ∧ lit.heldShaded (11 : Fin 12) = false ∧ lit.units.lostClusters.contains (11 : Fin 12).val = false ∧
    held11.heldShaded (11 : Fin 12) = true ∧ (held11.fget F.FLT_CTL_SHADE_C - 11) + 10 < held11.fget F.FLT_CTL_SHADE_C ∧
    held11.gov.coolSince.find? (fun e => e.1 == (11 : Fin 12).val) = some (11, 0) ∧ 0 + 1000000000 ≤ (at_ held11 1000000000).now := by
  refine ⟨⟨_, _, ⟨_, ⟨rfl, rfl, .inl rfl, rfl, by decide, rfl⟩, rfl, rfl⟩, by decide, by decide, by decide, by decide, by decide, by decide⟩, ?_⟩
  decide

/-- Sensors that read `n` after `s` has waited `k` cool seconds. -/
def cooled (k n : Nat) : State := { lit with gov := { lit.gov with coolSeconds := k } }.readSensors (List.replicate 64 n)

set_option maxRecDepth 20000 in
theorem witness_GovernorSteps : lit.lit = true ∧ lit.fget F.FLT_CTL_POWER_CAP_W < lit.fget F.FLT_CTL_POWER_CAP_W + 1 ∧
    lit.fget F.FLT_CTL_MTX_MIN_LEVEL < lit.fget F.FLT_GOV_LEVEL ∧
    (lit.fset F.FLT_GOV_LEVEL 0 (lit.fget F.FLT_CTL_MTX_MIN_LEVEL)).fget F.FLT_GOV_LEVEL ≤ lit.fget F.FLT_CTL_MTX_MIN_LEVEL ∧
    (cooled 0 (lit.fget F.FLT_CTL_THROTTLE_C)).fget F.FLT_CTL_THROTTLE_C ≤ (cooled 0 (lit.fget F.FLT_CTL_THROTTLE_C)).fget F.FLT_GOV_TEMP_MAX ∧
    (cooled 4 (lit.fget F.FLT_CTL_THROTTLE_C - 6)).fget F.FLT_GOV_TEMP_MAX + 5 < (cooled 4 0).fget F.FLT_CTL_THROTTLE_C ∧
    0 + 50 < (cooled 4 0).fget F.FLT_CTL_POWER_CAP_W ∧ (cooled 4 0).gov.coolSeconds < 5 ∧ 5 ≤ (cooled 5 0).gov.coolSeconds ∧
    (lit.fset F.FLT_GOV_LEVEL 0 7).fget F.FLT_GOV_LEVEL < 8 := by
  refine ⟨?_, ?_, ?_, ?_, ?_, ?_, ?_, ?_, ?_, ?_⟩ <;> decide

/-- Core 191 has missed `n` probes. -/
def missed (n : Nat) : State := { lit with units := { lit.units with missed := [(.core 191, n)] } }

theorem witness_UnitsFailAndAreReplaced : lit.lit = true ∧
    (((missed 1).units.missed.find? (fun e => e.1 == .core 191)).map (·.2)).getD 0 < 2 ∧
    (((missed 2).units.missed.find? (fun e => e.1 == .core 191)).map (·.2)).getD 0 = 2 ∧ HwUnit.probed (.core 191) = true ∧
    (missed 2).silentClusters [.core 191] = [] ∧ lit.upAndRunning = true ∧ HwUnit.vault 0 ≠ .supervisor ∧
    ({ lit with units := { lit.units with coresOut := [191] } } : State).units.coresOut.contains (191 : Fin 192).val = true ∧
    lit.units.orphans.contains (191 : Fin 192).val = false ∧ lit.units.lostClusters.contains ((191 : Fin 192).val / 16) = false ∧
    ({ lit with units := { lit.units with clearing := [191] } } : State).units.clearing.contains (191 : Fin 192).val = true ∧
    ({ lit with units := { lit.units with replacing := [11] } } : State).units.replacing.contains (11 : Fin 12).val = true := by decide

theorem witness_LogAndUnitClear : ∃ x t, TakenBy lit (cmd 1) 24 x t ∧ x.role = .keeper ∧ t.lit = true ∧
    (regDef .FLT_LOG_SEL).writeRefusal .FLT_LOG_SEL true (put (put 0 F.FLT_LOG_SEL_INDEX (t.fget F.FLT_LOG_SEL_INDEX))
      F.FLT_LOG_SEL_CLEAR 1) = none :=
  ⟨_, _, ⟨_, ⟨rfl, rfl, .inl rfl, rfl, by decide, rfl⟩, rfl, rfl⟩, by decide, by decide, by decide⟩

def scrubbing : State := lit.fset F.VLT_SCRUB_CTL_ENABLE 0 1

theorem witness_MemoryMaintenance : scrubbing.scrubs (.vault 191) = true ∧ (scrubbing.fset F.VLT_SCRUB_CTL_ENABLE 0 0).scrubs (.vault 0) = false ∧
    SMap.risingFrom 0 scrubbing.side.idleSince = true ∧ SMap.get 0 (at_ scrubbing 1000000).side.idleSince (unitKey (.vault 191)) + 1000000 ≤
      (at_ scrubbing 1000000).now ∧ (at_ scrubbing 999999).now < SMap.get 0 scrubbing.side.idleSince (unitKey (.vault 191)) + 1000000 ∧
    ({ lit with side := { lit.side with rebuilding := [.vault 0] } } : State).side.rebuilding.contains (.vault 0) = true ∧
    lit.side.flaky = [] ∧ RegsOrdered scrubbing ∧ Memory.wf lit.mem = true ∧ lit.side.lostVaults.contains (191 : Fin 192).val = false ∧ lit.flag F.VLT_STATUS_SELF_REFRESH (191 : Fin 192) = false ∧
    bitAt ((lit.fset F.LPT_AVAIL_CHANNELS 0 (2 ^ 31)).fget F.LPT_AVAIL_CHANNELS) (31 : Fin 32) = true := by
  refine ⟨?_, ?_, ?_, ?_, ?_, ?_, ?_, rfl, ?_, ?_, ?_, ?_⟩ <;> decide

theorem witness_AddressesAndBuckets : 0 < 96 * 2 ^ 30 ∧ 96 * 2 ^ 30 - 1 < 96 * 2 ^ 30 ∧ (1 ≤ 1 ∧ 2 ^ 32 ≤ 2 ^ 32) ∧
    2 ^ 64 - 1 < 2 ^ 64 ∧ 2 ^ 32 - 1 < 2 ^ 32 ∧ 2 ^ 32 - 1 < 2 ^ 32 := by decide

/-- Granule 193 of the interleaved range is the second granule of vault 1 (R28). -/
theorem test_interleaved : physOf (0x04000000000 + 193 * 4096 + 5) = some (0x20000000 + 4096 + 5) := by decide

/-- The last of three buckets takes the last hash, the first the hash 0 (R93). -/
theorem test_bucket : bucketOf 2 (2 ^ 64 - 1) 3 = 2 ∧ bucketOf 2 0 3 = 0 ∧ bucketOf 1 0x80000000 3 = 1 := by decide

/-! ### Links, the fabric, the image in flash, fuses, counters, the bus -/

/-- The record of link 3 in a state of the device, changed by `f`. -/
def withLink (s : State) (f : LinkX → LinkX) : State := s.setLinkx (f (s.linkx 3))

def dead : Packet := { packet 8 2 with hdr := { (packet 8 2).hdr with hopsLeft := 0 } }

/-- Link 3 has received a flit and holds a packet for device 8. -/
def dozing (p : Packet) : State := withLink linked (fun x => { x with rxCount := 1, queues := [(vcKey 0 false, [p])] })

set_option maxRecDepth 40000 in
theorem witness_FlitGood : flitGood (sealFlit flit) = true ∧ flitGood flit = false ∧ (sealFlit flit).kind = 0 := by decide

theorem witness_FlitsInOrder : lit.linkState (3 : Fin 64) ≠ lnkActive ∧ lit.linkState (3 : Fin 64) ≠ lnkStandby ∧
    lit.linkState (3 : Fin 64) ≠ lnkMaintenance ∧ linked.linkState (3 : Fin 64) = lnkActive ∧
    (linked.linkx (3 : Fin 64)).closed = false ∧ (linked.linkx (3 : Fin 64)).rxNext = 0 ∧ flit.kind = 0 ∧
    flit.seq.toNat = (linked.linkx (3 : Fin 64)).rxNext ∧ ({ flit with seq := 4095 } : Flit).seq.toNat ≠ (linked.linkx (3 : Fin 64)).rxNext ∧
    (linked.linkx (3 : Fin 64)).replay.length ≤ 512 ∧ 0 < ((dozing dead).linkx (3 : Fin 64)).rxCount ∧ (linked.linkx (3 : Fin 64)).rxCount = 0 ∧
    lit.sends (3 : Fin 64) = false ∧ linked.sends (3 : Fin 64) = true ∧ ((dozing dead).linkx (3 : Fin 64)).queues = [(vcKey 0 false, [dead])] ∧
    ((dozing dead).linkx (3 : Fin 64)).sending = [] ∧ (at_ (dozing dead) 4000000000).tooOld dead = true ∧ dead.hdr.dest.toNat ≠ 0xFFFFF := by
  decide

/-- Link 63 in training, with both widths. -/
def training (st : Nat) : State :=
  ((lit.fset F.TTH_LINK_STATUS_STATE 63 st).fset F.TTH_LINK_STATUS_TX_WIDTH 63 2).fset F.TTH_LINK_STATUS_RX_WIDTH 63 1

theorem witness_LinkTraining : (training lnkTraining).linkState (63 : Fin 64) = lnkTraining ∧
    (training lnkRetraining).linkState (63 : Fin 64) = lnkRetraining ∧
    (training lnkActive).linkState (63 : Fin 64) ≠ lnkTraining ∧ (training lnkActive).linkState (63 : Fin 64) ≠ lnkRetraining ∧
    (training lnkTraining).tth.joining = none ∧ (training lnkTraining).runs = [] ∧
    ((training lnkTraining).setLinkx { (training lnkTraining).linkx 63 with failedOnce := true } |>.linkx (63 : Fin 64)).failedOnce = true ∧
    ((training lnkTraining).linkx (63 : Fin 64)).failedOnce = false ∧
    (at_ ((training lnkDown).fset F.TTH_LINK_CTL_ENABLE 63 1) 1000000000).linkState (63 : Fin 64) = lnkDown ∧
    (at_ ((training lnkDown).fset F.TTH_LINK_CTL_ENABLE 63 1) 1000000000).flag F.TTH_LINK_CTL_ENABLE (63 : Fin 64) = true ∧
    ((training lnkDown).linkx (63 : Fin 64)).downAt + 1000000000 ≤ (at_ lit 1000000000).now ∧
    (at_ lit 999999999).now < ((training lnkDown).linkx (63 : Fin 64)).downAt + 1000000000 ∧
    (training lnkTraining).fget F.TTH_LINK_STATUS_TX_WIDTH (63 : Fin 64) ≠ 0 ∧
    (training lnkTraining).fget F.TTH_LINK_STATUS_RX_WIDTH (63 : Fin 64) ≠ 0 := by decide

theorem witness_LinkInit : RegsOrdered (training lnkTraining) := rfl

theorem witness_LinkControl : (∃ x t, TakenBy linked (cmd 1) 24 x t ∧ x.role = .keeper ∧ t.power.state ≠ .bivouac) ∧
    linked.flag F.TTH_LINK_CTL_ENABLE (3 : Fin 64) ≠ !linked.flag F.TTH_LINK_CTL_ENABLE (3 : Fin 64) ∧
    linked.linkState (3 : Fin 64) = lnkActive ∧ lit.mayArrive (3 : Fin 64) 0x0C = false ∧ linked.mayArrive (3 : Fin 64) 0x0C = true ∧
    linked.runs = [] ∧ ((withLink linked (fun x => { x with nakCount := 8 })).linkx (3 : Fin 64)).nakCount = 8 ∧
    ((withLink linked (fun x => { x with replay := [flit] })).linkx (3 : Fin 64)).replay ≠ [] ∧
    ((withLink linked (fun x => { x with replay := [flit] })).linkx (3 : Fin 64)).ackAt + 10000 ≤ (at_ linked 10000).now :=
  ⟨⟨_, _, ⟨_, ⟨rfl, rfl, .inl rfl, rfl, by decide, rfl⟩, rfl, rfl⟩, by decide, by decide⟩, by decide⟩

/-- A fence of link 5 closed over link 3. -/
def fenced : State := { linked with tth := { linked.tth with fences := [⟨5, some 3, 0, [], [], []⟩] } }

/-- Links 3 and 63 to device 9; the neighbour numbers them 0 and 1. -/
def doubled : State := (link (link lit 3 lnkActive 9) 63 lnkActive 9).fset F.TTH_LINK_STATUS_PEER_LINK 63 1

theorem witness_PacketsAndFences : linked.mayArrive (3 : Fin 64) (packet 0 2).hdr.kind = true ∧ linked.upAndRunning = true ∧
    (packet 0 2).hdr.dest.toNat = linked.device ∧ (packet 0xFFFFF 2).hdr.dest.toNat = 0xFFFFF ∧ (packet 0 2).hdr.more = false ∧
    (∀ q ∈ linked.tth.trains, ¬ (q.1 = (packet 0 2).hdr.source ∧ q.2.1 = (packet 0 2).hdr.tag)) ∧
    dead.hdr.dest.toNat ≠ linked.device ∧ dead.hdr.hopsLeft = 0 ∧ (packet 8 2).hdr.hopsLeft ≠ 0 ∧
    (at_ linked 4000000000).tooOld (packet 8 2) = true ∧ linked.tooOld (packet 8 2) = false ∧ (packet 8 2).hdr.sourceRouted = false ∧
    (lit.setRaw .TTH_ROUTE0 0 0 0).linkState 3 ≠ lnkActive ∧
    (fenced.tth.fences.find? (fun f => f.old == (5 : Fin 64).val && f.new == some (3 : Fin 64).val)) = some ⟨5, some 3, 0, [], [], []⟩ ∧
    (∀ f ∈ linked.tth.fences, f.old ≠ (5 : Fin 64).val) ∧
    (at_ fenced 79).now < 0 + fenced.fget F.TTH_CTL_LIFETIME_US * 1000 ∧
    0 + fenced.fget F.TTH_CTL_LIFETIME_US * 1000 ≤ (at_ fenced (fenced.fget F.TTH_CTL_LIFETIME_US * 1000)).now ∧
    doubled.linkState (3 : Fin 64) = lnkActive ∧
    (List.range 64).find? (fun k => doubled.fget F.TTH_LINK_STATUS_PEER_DEVICE k == doubled.fget F.TTH_LINK_STATUS_PEER_DEVICE (3 : Fin 64) &&
      doubled.fget F.TTH_LINK_STATUS_PEER_LINK k == (1 : Fin 64).val) = some (63 : Fin 64).val ∧ (63 : Fin 64) ≠ 3 := by
  decide

/-- At reset every routing entry is invalid. -/
theorem witness_RouteMiss : linked.routeTable = [] := rfl

theorem witness_RouteWrite : ∃ x t, TakenBy linked (cmd 1) 32 x t ∧ x.role = .keeper ∧ t.power.state ≠ .bivouac ∧
    (regDef .TTH_ROUTE0).writeRefusal .TTH_ROUTE0 true 0x02000000 = none ∧
    (regDef .TTH_ROUTE1).writeRefusal .TTH_ROUTE1 true 0x28 = none ∧ routeBad 0x02000000 0x28 = false ∧
    (regDef .TTH_ROUTE0).writeRefusal .TTH_ROUTE0 true 0x0A000000 = none ∧ (regDef .TTH_ROUTE1).writeRefusal .TTH_ROUTE1 true 0 = none ∧
    routeBad 0x0A000000 0 = true :=
  ⟨_, _, ⟨_, ⟨rfl, rfl, .inl rfl, rfl, by decide, rfl⟩, rfl, rfl⟩, by decide, by decide, by decide, by decide, by decide, by decide, by decide, by decide⟩

/-- Stratum 1 below the parent on link 3. -/
def child : State := (linked.fset F.TTH_TIME_STRATUM 0 1).fset F.TTH_TIME_PARENT_LINK 0 3

theorem witness_FabricTime : lit.parentLink = none ∧ child.parentLink = some 3 ∧ child.lit = true ∧
    child.tth.syncAt + 1000000 ≤ (at_ child 1000000).now ∧ (at_ child 999999).now < child.tth.syncAt + 1000000 ∧
    child.linkState (3 : Fin 64) = lnkActive ∧ child.linkState (0 : Fin 64) ≠ lnkActive := by decide

/-- An answer of the parent leaves it the parent, one of the other neighbour does not make it so. -/
theorem witness_TimeSync : ((child.takeInbox 0x08 9).chooseParent).parentLink = (child.takeInbox 0x08 9).chooseParent.parentLink ∧
    child.parentLink ≠ some (5 : Fin 64).val := ⟨rfl, by decide⟩

/-- The device joins: links 3 and 5 have been asked at 0. -/
def joiner : State := { linked with tth := { linked.tth with joining := some 0, joinWaiting := [3, 5] } }

theorem witness_DeparturesAndJoining : lit.mayArrive (3 : Fin 64) 0x0D = false ∧ linked.mayArrive (3 : Fin 64) 0x0D = true ∧ linked.runs = [] ∧
    ((8, 2) : BitVec 20 × Nat) ∈ ({ linked with tth := { linked.tth with departures := [(8, 2)] } } : State).tth.departures ∧
    ((8, 2) : BitVec 20 × Nat) ∉ linked.tth.departures ∧ (8 : BitVec 20) ≠ linked.self ∧ linked.lastSeen 8 < 1 ∧ 0 ≤ linked.lastSeen 8 ∧
    linked.linkState (3 : Fin 64) = lnkActive ∧ lit.linkState (3 : Fin 64) ≠ lnkActive ∧ joiner.tth.joining.isSome = true ∧
    (∃ l ∈ joiner.tth.joinWaiting, l ≠ (3 : Fin 64).val) ∧ (3 : Fin 64).val ∈ joiner.tth.joinWaiting ∧ joiner.tth.joining = some 0 ∧
    0 + 2000000 ≤ (at_ joiner 2000000).now ∧ joiner.tth.joinWaiting ≠ [] ∧ (at_ joiner 1999999).now < 0 + 2000000 ∧ linked.tth.joining = none := by
  decide

theorem witness_SlotAndBootCommands : ∃ x t, TakenBy lit (cmd 1) 24 x t ∧ x.role = .keeper ∧ (2 : BitVec 2).toNat ≤ 2 ∧ RegsOrdered lit :=
  ⟨_, _, ⟨_, ⟨rfl, rfl, .inl rfl, rfl, by decide, rfl⟩, rfl, rfl⟩, by decide, by decide, rfl⟩

/-- Position 0 enrolled, position 3 empty. -/
theorem witness_FuseCommands : ∃ x t, TakenBy { enrolled with image := some (imageOf (stage .scan [])) } (cmd 1) 24 x t ∧
    x.role = .keeper ∧ t.image = some (imageOf (stage .scan [])) :=
  ⟨_, _, ⟨_, ⟨rfl, rfl, .inl rfl, rfl, by decide, rfl⟩, rfl, rfl⟩, by decide, rfl⟩

/-- An image that the owner at position 3 signed, with positions 0 and 3 enrolled. -/
def signed : State :=
  { lit with
    fuses := { lit.fuses with owners := [some (zeros 64), none, none, some (zeros 64)] }
    image := some { imageOf (stage .scan []) with man := { manifests with owner := true, signer := 3 } } }

theorem witness_FusePositions : lit.fuses.owners.getD (3 : Fin 4) none = none ∧ (signed.fuses.owners.getD (3 : Fin 4) none).isSome = true ∧
    signed.fuses.live ≠ [(0 : Fin 4).val] ∧ enrolled.fuses.live = [(0 : Fin 4).val] ∧
    (∀ im, signed.image = some im → im.man.owner = false ∨ im.man.signer ≠ (0 : Fin 4).val) ∧
    (∃ im, signed.image = some im ∧ im.man.owner = true ∧ im.man.signer = (3 : Fin 4).val) := by
  refine ⟨by decide, by decide, by decide, by decide, ?_, _, rfl, rfl, rfl⟩
  intro im h
  cases h
  exact .inr (by decide)

theorem witness_EnrollFirst : lit.onBus = true ∧ (zeros 64).length = 64 ∧ (lit.fset F.MOD_PINS_ENROLL_EN 0 1).flag F.MOD_PINS_ENROLL_EN = true ∧
    lit.fuses.enrolled = false ∧ signed.fuses.enrolled = true ∧ (lit.fset F.MOD_PINS_ENROLL_EN 0 0).flag F.MOD_PINS_ENROLL_EN = false := by decide

theorem witness_QuoteCommands : (∃ x t, TakenBy lit (cmd 2) 24 x t) ∧ RegsOrdered lit ∧ lit.upAndRunning = true ∧
    ({ lit with trust := ⟨true, []⟩ } : State).trust.quotePending = true ∧ lit.trust.quotePending = false :=
  ⟨⟨_, _, ⟨_, ⟨rfl, rfl, .inl rfl, rfl, by decide, rfl⟩, rfl, rfl⟩⟩, rfl, by decide, by decide, by decide⟩

/-- Counter 63 at its last value, counting. -/
def counting63 : State :=
  ((lit.fset2 (CounterRef.cntField (.global 63) F.PMC_CNT_VALUE) 63 0 (2 ^ 48 - 1)).fset F.PMC_CNT_CTL_ENABLE 63 1)

theorem witness_CounterCommands : (∃ x t, TakenBy lit (cmd 1) 24 x t ∧ x.role = .keeper ∧ t.lit = true ∧
      t.units.lostClusters.contains (11 : Fin 12).val = false) ∧ counting63.lit = true ∧
    counting63.fget2 (CounterRef.cntField (.global 63) F.PMC_CNT_VALUE) 63 0 = 2 ^ 48 - 1 ∧ counting63.counting (.global 63) = true ∧
    (at_ lit lit.windowEnd).windowEnd ≤ (at_ lit lit.windowEnd).meridian ∧ (at_ lit 999).meridian < (at_ lit 999).windowEnd ∧ lit.pmc.gap = false :=
  ⟨⟨_, _, ⟨_, ⟨rfl, rfl, .inl rfl, rfl, by decide, rfl⟩, rfl, rfl⟩, by decide, by decide, by decide⟩, by decide, by decide, by decide, by decide, by decide, by decide⟩

theorem witness_TopDownCommands : (∃ x t, TakenBy lit (cmd 1) 24 x t ∧ x.role = .keeper ∧ t.lit = true ∧ t.runs = []) ∧
    ∃ x t, TakenBy { lit with runs := [run6] } (cmd 1) 24 x t ∧ x.role = .keeper ∧ t.lit = true ∧ t.runs ≠ [] :=
  ⟨⟨_, _, ⟨_, ⟨rfl, rfl, .inl rfl, rfl, by decide, rfl⟩, rfl, rfl⟩, by decide, by decide, rfl⟩, _, _, ⟨_, ⟨rfl, rfl, .inl rfl, rfl, by decide, rfl⟩, rfl, rfl⟩, by decide, by decide, by decide⟩

theorem witness_ManagementBusCommands : lit.onBus = true ∧ (lit.fset F.MOD_MGMT_ISOLATED 0 1).onBus = false ∧
    mgmtBlock (BitVec.ofNat 64 (regAddr .PCH_STATUS 0 0)).toNat = true ∧ mgmtBlock (BitVec.ofNat 64 (regAddr .PIP_CTL 0 0)).toNat = false ∧
    (∃ w, (lit.draws 4).2.readOne false (BitVec.ofNat 64 (regAddr .PCH_STATUS 0 0)).toNat lit.free = .ok w) ∧
    (lit.fset F.MOD_MGMT_JTAG_DEBUG 0 1).flag F.MOD_MGMT_JTAG_DEBUG = true ∧ (lit.fset F.MOD_MGMT_JTAG_DEBUG 0 0).flag F.MOD_MGMT_JTAG_DEBUG = false ∧
    lit.power.input48 = true ∧ (powered false true .off).power.input48 = false ∧ 40 ≤ 40 ∧ 40 < 41 ∧ lit.gov.coolantBad = false ∧
    40000 ≤ 60000 := by
  refine ⟨by decide, by decide, by decide, by decide, ⟨_, rfl⟩, ?_⟩
  decide

theorem witness_FusesNeverClear : FusesSince Fuses.blank State.reset.fuses ∧ step State.reset = .next (tick State.reset) := by
  refine ⟨⟨fun _ _ h => h, fun _ h => h, by decide, by decide, by decide, rfl, rfl, rfl, rfl, rfl, rfl⟩, rfl⟩

/-! ### The match store and the embedding pool -/

/-- Table 0 of one block, logical block 0 in physical block 0, the others spares. -/
def store : State :=
  (((lit.fset F.MST_TABLE_CFG_DEFINED 0 1).fset F.MST_TABLE_CFG_BLOCKS 0 1).fset F.MST_BLOCK_STATUS_STATE 0 blkActive).fset
    F.MST_BLOCK_STATUS_LOGICAL 0 0

def tab0 : MstTab := ⟨0, 0, 1, false⟩

def stagedEntry : Staged := ⟨1, 1, 0, true, 9⟩

/-- A store whose queue of table 0 holds `n` operations. -/
def queued (op : MstOp) (addr n : Nat) : State :=
  { store with mst := { store.mst with queues := [(0, List.replicate n ⟨op, addr, 1, stagedEntry⟩)] } }

theorem witness_MatchStoreCommands : (∃ x t, TakenBy store (cmd 1) 24 x t ∧ x.role = .keeper ∧ t.power.state ≠ .bivouac) ∧
    RegsOrdered store ∧ (store.mstTab? (15 : BitVec 4).toNat).isNone = true ∧ (store.mstTab? (0 : BitVec 4).toNat).isSome = true ∧
    tab0.size ≤ (8192 : BitVec 19).toNat ∧ ¬ tab0.size ≤ (8191 : BitVec 19).toNat ∧ store.staged.fits tab0.wide = true ∧
    ((store.setRaw .MST_STAGE_KEY 3 0 1).staged.fits tab0.wide = false ∨ (store.setRaw .MST_STAGE_KEY 4 0 1).staged.fits tab0.wide = false) ∧
    16 ≤ ((queued .write 0 16).mstQueue (0 : BitVec 4).toNat).length ∧ ¬ 16 ≤ ((queued .write 0 15).mstQueue (0 : BitVec 4).toNat).length := by
  refine ⟨⟨_, _, ⟨_, ⟨rfl, rfl, .inl rfl, rfl, by decide, rfl⟩, rfl, rfl⟩, by decide, by decide⟩, rfl, ?_⟩
  decide

theorem store_keys : ∀ a, a < tab0.size → (store.mstKey tab0 a).isSome = true := by
  intro a h
  have e : a / 8192 = 0 := Nat.div_eq_of_lt h
  have k : (store.physBlock 0).isSome = true := by decide
  simp only [State.mstKey, MstTab.place, MstTab.perBlock, tab0, Option.isSome_map]
  simpa [e] using k

/-- A shift of table 0. -/
def shifting (insert : Bool) (next left : Nat) (done : Bool := false) : State :=
  { store with mst := { store.mst with shifts := [(0, ⟨insert, 0, next, left, 2, none, stagedEntry, done⟩)] } }

theorem witness_MatchStoreOperations : store.mstTab? (0 : Fin 16) = some tab0 ∧ store.lit = true ∧ SMap.risingFrom 0 store.mst.entries = true ∧
    RegsOrdered store := ⟨rfl, rfl, rfl, rfl⟩

theorem witness_MatchStoreHeads : ((queued .insert 8191 1).mstQueue (0 : Fin 16)).head? = some ⟨.insert, 8191, 1, stagedEntry⟩ ∧
    (queued .write 0 1).shiftOf (0 : Fin 16) = none ∧ (queued .write 0 1).tableHeld tab0 .insert = false ∧ 8191 < tab0.size ∧
    stagedEntry.fits tab0.wide = true ∧ (store.mstRead tab0 (tab0.size - 1)).valid = false ∧
    ((store.mstSet 8191 { MstEntry.empty with valid := true }).mstRead tab0 (tab0.size - 1)).valid = true ∧
    store.fget F.MST_TABLE_STATE_USED_END (0 : Fin 16) ≤ 8191 ∧ (store.fset F.MST_TABLE_STATE_USED_END 0 2).fget F.MST_TABLE_STATE_USED_END (0 : Fin 16) = 2 ∧
    (shifting true 1 1).shiftOf (0 : Fin 16) = some ⟨true, 0, 1, 1, 2, none, stagedEntry, false⟩ ∧
    (shifting false 1 0).shiftOf (0 : Fin 16) = some ⟨false, 0, 1, 0, 2, none, stagedEntry, false⟩ ∧
    (shifting true 1 0 true).shiftOf (0 : Fin 16) = some ⟨true, 0, 1, 0, 2, none, stagedEntry, true⟩ ∧ store.rebuildHeld tab0 = false ∧
    store.shadowsServe tab0 = true ∧ (store.setBit F.FLT_GOV_HELD 0).shadowsServe tab0 = true ∧ 0 < 1 ∧ store.mstQueue (0 : Fin 16) = [] := by decide

/-- A search of the Keeper port waits. -/
def searching : State := { store with mst := { store.mst with ports := [(12, [⟨0, 1, 1, false, none⟩])] } }

theorem witness_SearchGrant : searching.lit = true ∧ searching.mst.ports = [(12, [⟨0, 1, 1, false, none⟩])] ∧ searching.mstTab? 0 = some tab0 ∧
    1 ≤ searching.fget F.MST_STATUS_ACT_LIMIT - b2n searching.maintenance.1 ∧ (∀ e ∈ searching.mst.entries, e.2.flaky = 0) ∧ RegsOrdered searching :=
  ⟨rfl, rfl, rfl, by
    have h : b2n searching.maintenance.1 ≤ 1 := by cases searching.maintenance.1 <;> decide
    have e : searching.fget F.MST_STATUS_ACT_LIMIT = 32 := by decide
    omega, by decide, rfl⟩

/-- The vault of logical block 0 is lost. -/
def lostShadow : State := { store with side := { store.side with lostVaults := [0] } }

/-- The shadow of logical block 0 is being rebuilt. -/
def rebuilding : State := { store with mst := { store.mst with rebuilding := [0] } }

theorem witness_ShadowsOutOfService : lostShadow.shadowsServe tab0 = false ∧ (lostShadow.mstTab? (0 : Fin 16)).isSome = true ∧
    rebuilding.rebuildHeld tab0 = true ∧ rebuilding.tableHeld tab0 .read = false ∧ rebuilding.bankServes (.vault (0 : Fin 64) 0) = true := by decide

theorem witness_ShadowsInService : Memory.wf rebuilding.mem = true ∧ (∀ e ∈ rebuilding.mst.entries, e.2.flaky = 0) ∧
    store.scrubbable (0 : Fin 64) = true ∧ store.mst.asking = [] ∧ tab0.blocks ≤ 32 := by decide

theorem witness_ShadowsGood : rebuilding.regions = [] ∧ store.side.flaky = [] := ⟨rfl, rfl⟩

/-- A retirement of logical block 0 with spare 67 loading. -/
def retiring : State := { store with mst := { store.mst with retiring := [(0, 67)] } }

theorem witness_MatchStoreCare : State.reset.lit = false ∧ store.flag F.MST_CTL_SCRUB_ENABLE = true ∧ store.blockHeld (0 : Fin 64) = false ∧
    (0 : Fin 64).val ∉ store.mst.rebuilding ∧ store.physBlock (0 : Fin 64) = some 0 ∧
    SMap.risingFrom 0 store.mst.entries = true ∧ (∀ r ∈ store.mst.retiring, r.1 ≠ (0 : Fin 64).val) ∧
    (store.fset F.MST_CTL_RETIRE_LIMIT 0 0).fget F.MST_CTL_RETIRE_LIMIT ≤
      (store.mst.repairTimes.filter (fun e => e.1 == (0 : Fin 64).val && decide (store.now ≤ e.2 + 1000000000))).length ∧
    retiring.mst.retiring.find? (·.1 == (0 : Fin 64).val) = some (0, 67) ∧ retiring.physBlock (0 : Fin 64) = some 0 ∧
    (0 : Fin 64).val ∈ ({ store with mst := { store.mst with rebuilding := [0] } } : State).mst.rebuilding := by decide

def noSpare : State := (List.range 67).foldl (fun t b => t.fset F.MST_BLOCK_STATUS_STATE (b + 1) blkRetired) store

set_option maxRecDepth 20000 in
theorem witness_SpareBlocks : (List.range 68).find? (fun b => store.fget F.MST_BLOCK_STATUS_STATE b == blkSpare) = some 1 ∧
    noSpare.physBlock (0 : Fin 64) = some 0 ∧ (∀ b, b < 68 → noSpare.fget F.MST_BLOCK_STATUS_STATE b ≠ blkSpare) ∧
    store.mst.exhausted = false := by decide

theorem witness_ScrubVisit : (store.shadowRead (0 : Fin 64) (8191 : Fin 8192)).1 = zeros 64 ∧
    (store.shadowRead (0 : Fin 64) (8191 : Fin 8192)).2.1 = false ∧ (store.mstAt (0 * blockEntries + 8191)).bad = false ∧
    (store.mstAt (0 * blockEntries + 8191)).record = zeros 64 := by decide

def embTab (missFault : Bool) (capacity : Nat) : EmbTable := ⟨7, 0, false, 1, missFault, true, 2, 1, 0, capacity, 0, 0⟩

/-- Table 7 of this device, with one position, which `owner` holds, and rows of this table. -/
def pool (owner : BitVec 20) (capacity : Nat) (rows : List Row) : State :=
  { lit with
    image := some { imageOf (stage .scan []) with embTables := [embTab false capacity] }
    emb := { lit.emb with maps := [⟨1, 3, [owner]⟩], rows := rows } }

def row5 (poison : Bool) : Row := ⟨7, 5, 1, 0x3F800000, zeros (embTab false 4).rowBytes, poison, 0⟩

/-- Cluster 0 is held for heat. -/
def heldPool : State := (pool 0 4 []).setBit F.FLT_GOV_HELD 0

theorem witness_RowWrites : (∃ x t, TakenBy (pool 0 4 []) (cmd 1) (16 + (row5 false).bytes.length) x t ∧ t.lit = true) ∧
    ((pool 0 4 []).rowWriteCheck true 8 (row5 false).bytes).isOk = false ∧ ((pool 0 4 []).embTable? 8).isNone = true ∧
    (pool 0 4 []).embTable? 7 = some (embTab false 4) ∧ (pool 0 4 []).serves (embTab false 4) 5 none = .here ∧
    (pool 0 4 []).serves (embTab false 4) 5 (some 9) = .here ∧
    (pool 0 4 []).rowServed (embTab false 4) 5 = true ∧ (pool 0 4 []).hotRow? 7 5 = none ∧
    (pool 0 4 []).migAt (embTab false 4).map ((pool 0 4 []).position (embTab false 4) 5) = none ∧
    ((pool 0 4 []).rowWriteCheck false 7 (row5 false).bytes).isOk = true ∧
    (pool 0 4 []).queues (.row 1 1 7 5 0 []) ((pool 0 4 []).rowWaits (embTab false 4) 5) = false ∧
    heldPool.queues (.row 1 1 7 5 0 []) (heldPool.rowWaits (embTab false 4) 5) = true ∧
    ((pool 0 4 [row5 false]).row? 7 5).isSome = true ∧ (pool 0 4 []).sliceFull (embTab false 4) 5 = false ∧
    (pool 0 0 []).sliceFull (embTab false 0) 5 = true ∧ ((pool 0 0 []).row? 7 5).isSome = false ∧ lit.lit = true ∧ State.reset.lit = false := by
  refine ⟨⟨_, _, ⟨_, ⟨rfl, rfl, .inl rfl, rfl, by decide, rfl⟩, rfl, rfl⟩, rfl⟩, ?_⟩
  decide

/-- A bundle of device 7 for table 7; `create` and `update` as the forms need. -/
def request (table : Nat) (create : Bool) (op : Nat) : BundleHdr := { bundle with table := table, create := create, update := true, op := op }

theorem witness_RequestsServed : State.reset.lit = false ∧ (pool 0 4 []).lit = true ∧ (pool 0 4 []).embTable? (request 8 true 0).table = none ∧
    (pool 0 4 []).queues (.bundle (request 8 true 0) false false []) false = false ∧
    (pool 0 4 []).embTable? (request 7 true 0).table = some (embTab false 4) ∧
    heldPool.queues (.bundle (request 7 true 0) false false []) ([entry].any (fun e => heldPool.rowWaits (embTab false 4) e.id)) = true ∧
    (pool 0 4 []).queues (.bundle (request 7 true 0) true false []) ([entry].any (fun e => (pool 0 4 []).rowWaits (embTab false 4) e.id)) = false ∧
    (pool 0 4 []).serves (embTab false 4) entry.id (some bundle.source) = .here ∧
    (pool 0 4 []).serves (embTab false 4) entry.id none = .here ∧ (pool 0 4 []).rowServed (embTab false 4) entry.id = true ∧
    (pool 0 4 [row5 false]).row? 7 entry.id = some (row5 false) ∧ ((pool 0 4 [row5 false]).readStored (embTab false 4) (row5 false)).1 = false ∧
    ((pool 0 4 [row5 true]).readStored (embTab false 4) (row5 true)).1 = true ∧
    (request 7 true 3).op = 3 ∧ (request 7 true 2).op ≠ 3 ∧ (pool 0 4 []).row? 7 entry.id = none ∧ (request 7 true 0).create = true ∧
    (request 7 false 0).create = false ∧ (pool 0 4 []).sliceFull (embTab false 4) entry.id = false ∧ (pool 0 0 []).sliceFull (embTab false 0) entry.id = true := by
  decide

/-- Two ids of a round: the first sent to device 9, the second not. -/
def roundId (id : W64) (owner : BitVec 20) (sent forwarded : Bool) : RoundId := ⟨id, owner, 3, 0, sent, [], none, false, forwarded, false⟩

def round (closed : Option Nat) (update : Bool) : Round :=
  { slot := 2, number := 3, runSlot := 5, stage := 0, update := update, table := 7, openedAt := 0, closedAt := closed, order := 0,
    tasks := [⟨1, 0, some [some 5], []⟩], parts := [(9, 1)], timeout := 10, ids := [roundId 5 9 true false, roundId 6 8 false false] }

/-- A device in whose pipeline a round stands. -/
def inRound (r : Round) : State :=
  { pool 0 4 [] with
    image := some { imageOf (stage .lookup []) with embTables := [embTab false 4] }
    runs := [run6], work := [RunWork.empty 5], emb := { (pool 0 4 []).emb with rounds := [r] } }

def openRound : Round := round none false

theorem witness_RoundsCloseAndEnd : (∀ r ∈ lit.emb.rounds, r.slot ≠ (2 : Fin 16).val) ∧
    (inRound openRound).emb.rounds.find? (fun r => r.slot == (2 : Fin 16).val && r.closedAt.isNone) = some openRound ∧
    openRound.openedAt + (inRound openRound).fget F.EMB_GATHER_GATHER_NS ≤
      (at_ (inRound openRound) ((inRound openRound).fget F.EMB_GATHER_GATHER_NS + 80)).now ∧
    ((inRound openRound).fset F.EMB_CTL_ROUND_IDS 0 1).fget F.EMB_CTL_ROUND_IDS ≤ openRound.distinct.length ∧
    (∀ t ∈ (inRound openRound).disp.tasks, ¬ (t.slot = openRound.runSlot ∧ t.stage = openRound.stage ∧ t.state = .ready)) ∧
    (∃ x ∈ [(⟨1, 0, none, []⟩ : RoundTask)], x.ids = none) ∧ openRound.tasks ≠ [] ∧ (∀ x ∈ openRound.tasks, x.ids ≠ none) ∧
    (inRound openRound).stage? 5 0 = some (stage .lookup []) ∧
    (inRound (round (some 0) false)).emb.rounds.find? (fun r => r.slot == (2 : Fin 16).val) = some (round (some 0) false) ∧
    (at_ lit 9999).now < 0 + 10 * 1000 ∧ 0 + 10 * 1000 ≤ (at_ lit 10000).now := by decide

/-- Every closed round still awaits an answer and holds nothing back. -/
theorem witness_RoundsQuiet : (inRound (round (some 0) true)).emb.unanswered = [] ∧
    ((inRound (round (some 0) true)).emb.rounds.map Round.slot).Nodup ∧
    (∀ r ∈ (inRound (round (some 0) true)).emb.rounds, r.closedAt.isSome = true →
      r.ids.any RoundId.deferredSend = false ∧ r.ids.any (fun x => x.answer.isNone) = true) ∧
    (∀ r ∈ (inRound (round (some 0) true)).emb.rounds, r.number ≠ 4) := by decide

def named : BundleHdr := { bundle with source := 9, round := 3, part := 3 }

theorem witness_RoundAnswers : (inRound (round (some 0) true)).lit = true ∧ named.round ≠ 0 ∧ (∀ r ∈ lit.emb.rounds, r.number ≠ named.round) ∧
    (inRound (round (some 0) true)).emb.rounds = [round (some 0) true] ∧ (round (some 0) true).number = named.round ∧
    (round (some 0) true).closedAt.isSome = true ∧ (round (some 0) true).ids = [roundId 5 9 true false, roundId 6 8 false false] ∧
    (inRound (round (some 0) true)).embTable? 7 = some (embTab false 4) ∧ entry.status = stOk ∧
    (roundId 5 9 true false).answer = none ∧ (roundId 5 9 true false).deferredSend = false ∧ (roundId 5 9 true false).id ≠ (roundId 6 8 false false).id ∧
    (roundId 5 9 true false).owner = named.source ∧ (roundId 5 9 true false).part = named.part ∧ (roundId 5 9 true false).index = 0 ∧
    entry.hot = false ∧ (roundId 5 8 true true).owner ≠ named.source ∧ (roundId 5 8 true true).forwarded = true ∧
    (roundId 5 8 true true).index = entry.index ∧ (roundId 6 8 false false).sent = false := by decide

/-- Holders of a row: this device holds a copy of row 5, and a row write waits for devices 7 and 9. -/
def holding : State :=
  { pool 0 4 [] with emb := { (pool 0 4 []).emb with cache := [row5 false], waits := [⟨7, [7, 9], 2, [], .nothing⟩, ⟨7, [7], 2, [], .nothing⟩] } }

theorem witness_HotRows : State.reset.lit = false ∧ holding.lit = true ∧ [entry] = [entry] ∧
    holding.emb.cache.any (fun q => q.table == (request 7 true 0).table && q.id == entry.id) = true ∧
    lit.emb.cache.any (fun q => q.table == (request 7 true 0).table && q.id == entry.id) = false ∧
    (∃ g, (holding.fset F.EMB_CTL_HOT_REGION 0 0).hotRegion = some g ∧ 16 + entry.row.length ≤ g.size) ∧
    lit.now < lit.emb.decayedAt + lit.fget F.EMB_HOT_CTL_DECAY_US * 1000 ∧
    lit.emb.decayedAt + lit.fget F.EMB_HOT_CTL_DECAY_US * 1000 ≤ (at_ lit (lit.fget F.EMB_HOT_CTL_DECAY_US * 1000)).now ∧
    (∀ w ∈ lit.emb.waits, ¬ (w.table = (request 7 true 0).table ∧ (request 7 true 0).source ∈ w.awaiting)) ∧
    holding.emb.waits = ⟨7, [7, 9], 2, [], .nothing⟩ :: [⟨7, [7], 2, [], .nothing⟩] ∧ (request 7 true 0).source = 7 ∧
    SMap.risingFrom 0 holding.emb.sketch = true ∧ (∀ h ∈ holding.emb.hot, (holding.embTable? h.table).isSome = true) := by
  refine ⟨by decide, by decide, rfl, by decide, by decide, ⟨_, rfl, by decide⟩, by decide, by decide, by decide, rfl, rfl, rfl, by decide⟩

/-- A migration of position 0 of map 1 to device 9 in slot 7. -/
def migrating (ph : MigPhase) (unacked : List (Nat × W64)) : State :=
  { pool 0 4 [] with emb := { (pool 0 4 []).emb with migs := [⟨7, 1, 0, 9, ph, 0, 0, 0, 1, 0, unacked⟩] } }

/-- The pool with links up to devices 9 and 10 and a route to every device. -/
def poolRouted : State := { routed with image := (pool 0 4 []).image, emb := (pool 0 4 []).emb }

theorem witness_Migrations : (∃ x t, TakenBy poolRouted (cmd 1) 24 x t ∧ x.role = .keeper ∧ t.power.state ≠ .bivouac) ∧
    migrateWord (0 : BitVec 16) 0 0 false = 0 ∧ migrateWord (0 : BitVec 16) 1 9 false ≠ 0 ∧
    poolRouted.migrateCheck 1 1 9 false = .error C.VALUE_REFUSED ∧ poolRouted.migrateCheck 0 1 0 false = .error C.MIGRATE_REFUSED ∧
    poolRouted.migrateCheck 0 1 9 false = .ok 0 := by
  refine ⟨⟨_, _, ⟨_, ⟨rfl, rfl, .inl rfl, rfl, by decide, rfl⟩, rfl, rfl⟩, by decide, by decide⟩, by decide, by decide, rfl, rfl, rfl⟩

/-- Map 1 gives this device a position and devices 9 and 10 one each. -/
def unbalanced : State :=
  at_ { (pool 0 4 []).fset F.EMB_CTL_AUTO_MIGRATE 0 1 with emb := { (pool 0 4 []).emb with maps := [⟨1, 3, [0, 9, 10]⟩] } } 100000000

theorem witness_AutoMigrate : unbalanced.lit = true ∧ unbalanced.flag F.EMB_CTL_AUTO_MIGRATE = true ∧
    unbalanced.map? (1 : BitVec 4).toNat = some ⟨1, 3, [0, 9, 10]⟩ ∧ unbalanced.map? (2 : BitVec 4).toNat = none ∧
    SMap.get 0 unbalanced.emb.balancedAt (1 : BitVec 4).toNat + balancePeriod ≤ unbalanced.now ∧
    (at_ unbalanced 99999920).now < SMap.get 0 unbalanced.emb.balancedAt (1 : BitVec 4).toNat + balancePeriod ∧
    ([300, 0, 0] : List Nat).sum * unbalanced.fget F.EMB_CTL_IMBALANCE < 300 * [0, 9, 10].length ∧
    ¬ ([100, 100, 100] : List Nat).sum * unbalanced.fget F.EMB_CTL_IMBALANCE < 100 * [0, 9, 10].length ∧
    leastServed [(0, 300), (9, 0), (10, 0)] = some 9 ∧ unbalanced.movable ⟨1, 3, [0, 9, 10]⟩ ≠ [] := by decide

/-- The old owner of position 0 has announced its rows here. -/
def installing : State := { pool 9 4 [] with emb := { (pool 9 4 []).emb with incoming := [(1, 0, 9)] } }

theorem witness_MapNotices : (3 : W32) ≤ installing.mapVersion 1 ∧ (9 : BitVec 20) ≠ installing.self ∧ (1, 0, 9) ∈ installing.emb.incoming ∧
    (1, 0, 10) ∉ installing.emb.incoming ∧ (request 7 true 0).source = 7 ∧ installing.emb.rounds = [] := by decide

theorem witness_MigrationForced : ({ poolRouted with emb := { poolRouted.emb with maps := [⟨1, 3, [8]⟩] }, tth := { poolRouted.tth with gone := [8] } } : State).migrateCheck 0 1 9 true = .ok 0 ∧
    poolRouted.mapVersion 1 ≠ BitVec.allOnes 32 := by
  refine ⟨rfl, by decide⟩

theorem witness_MigrationSteps : State.reset.lit = false ∧ (pool 0 4 []).embTable? (request 7 true 0).table = some (embTab false 4) ∧
    (migrating .streaming [(7, 4)]).emb.migs.find? (fun m => m.peer == (9 : BitVec 20) && m.phase == .streaming && m.unacked.contains (7, 4)) =
      some ⟨7, 1, 0, 9, .streaming, 0, 0, 0, 1, 0, [(7, 4)]⟩ ∧
    (3 : W32) ≤ (pool 0 4 []).mapVersion 1 ∧ (pool 0 4 []).map? 1 = some ⟨1, 3, [0]⟩ ∧ (3 : W32) < 4 ∧ 0 < [(0 : BitVec 20)].length ∧
    (∀ m ∈ (pool 0 4 []).emb.migs, m.slot ≠ (7 : Fin 8).val) ∧
    (migrating .forwarding []).emb.migs.find? (fun m => m.slot == (7 : Fin 8).val) = some ⟨7, 1, 0, 9, .forwarding, 0, 0, 0, 1, 0, []⟩ ∧
    0 + 2 ≤ ({ migrating .forwarding [] with emb := { (migrating .forwarding []).emb with roundsDone := 2 } } : State).emb.roundsDone ∧
    0 + (pool 0 4 []).fget F.EMB_HOT_CTL_FORWARD_MIN_US * 1000 ≤ (at_ lit ((pool 0 4 []).fget F.EMB_HOT_CTL_FORWARD_MIN_US * 1000)).now ∧
    (migrating .redirecting []).emb.migs.find? (fun m => m.slot == (7 : Fin 8).val) = some ⟨7, 1, 0, 9, .redirecting, 0, 0, 0, 1, 0, []⟩ ∧
    0 + 100 * (pool 0 4 []).fget F.EMB_CTL_ROUND_DEFAULT * 1000 ≤ (at_ lit (100 * (pool 0 4 []).fget F.EMB_CTL_ROUND_DEFAULT * 1000)).now := by
  decide

/-- A JOIN_PROBE run with one build. -/
def probing : State :=
  { running .joinProbe [] (.rows [] 0 none) with
    image := some (imageOf { stage .joinProbe [] with inQ := [0] })
    work := [{ RunWork.empty 5 with builds := [⟨3, [], false, [9]⟩] }] }

theorem witness_RowsOfOtherDevices : lit.runByNumber bundle.run = none ∧ probing.runByNumber 6 = some run6 ∧
    probing.build? 5 bundle.part = none ∧ probing.build? 5 3 = some ⟨3, [], false, [9]⟩ ∧
    probing.stage? 5 0 = some { stage .joinProbe [] with inQ := [0] } ∧ [0].head? = some 0 := by decide

/-! ### Operators -/

/-- A device in which task 1 runs an operator, with some of the image as the operator needs it. -/
def working (edit : Image → Image) (op : Op) (par : List Byte) (p : Payload) : State :=
  { running op par p with image := some (edit (imageOf (stage op par))) }

def pipe (op : Op) (par : List Byte) : Pipeline := ⟨2, 0, 0, [stage op par], [], [false], []⟩

theorem runs_task (op : Op) (par : List Byte) (p : Payload) :
    (working id op par p).runningTask 1 op = some (task1 (chunk p), stage op par, pipe op par, run6) := by
  cases op <;> rfl

/-- One row with one column, whose value may be poisoned or 0. -/
def col0 (value : Byte) (bad : Bool) : Column := ⟨0, tUint32, 0, 4, [⟨true, [value, 0, 0, 0], bad⟩]⟩
def row0 (value : Byte) (bad : Bool) : Payload := .rows [col0 value bad] 1 none
def rows0 (value : Byte) (bad : Bool) : Rows := ⟨[col0 value bad], 1, none⟩

theorem reads_rows (op : Op) (par : List Byte) (value : Byte) (bad : Bool) (nums : List Nat) :
    Reads (working id op par (row0 value bad)) run6 (task1 (chunk (row0 value bad))) nums (rows0 value bad)
      (Unblocked (working id op par (row0 value bad))) := ⟨rfl, rfl⟩

/-- No task runs: every operator's command changes nothing but what settles. -/
theorem witness_Operators : ∀ c ∈ operators 1, lit.runningTask 1 c.2.1 = none := by decide

def ff (n : Nat) : List Byte := List.replicate n 0xFF

def filterParam : List Byte := [0, 0, 0, 0, 0, 1, 0, 0, 0] ++ ff 7
def hashParam : List Byte := [2, 1, 1, 0] ++ zeros 12 ++ [0] ++ ff 7
def bucketParam : List Byte := [1, 0, 1, 0, 3, 0, 0, 0] ++ zeros 19 ++ [2, 0, 0, 0, 0]
def normParam : List Byte := [0, 0xFF, 0xFF, 0xFF, 1, 0xFF, 0xFF, 0xFF, 4] ++ zeros 23
def statsParam : List Byte := [0] ++ ff 7 ++ zeros 24
def projectParam (sel : Byte) : List Byte := [sel] ++ zeros 7 ++ [1] ++ zeros 7

/-- Column 0 is among the columns that each row operator reads; with and without poison. -/
theorem witness_RowOperators :
    (∀ par ∈ [[0], [0]], ((rows0 1 false).pick par).any Column.poisoned = false ∧ ¬ ((rows0 1 true).pick par).any Column.poisoned = false) ∧
    (filterProg [] run6 filterParam).cols.filter (· != 0xFF) = [0] ∧
    (colList (slice 16 8 hashParam)).take (u8 hashParam 2) = [0] ∧ u8 bucketParam 1 = 0 ∧
    ((List.range 4).filter (fun i => u8 normParam i != 0xFF)).map (u8 normParam) = [0] ∧ colList (slice 0 8 statsParam) = [0] ∧
    u8 (projectParam 0) 0 = 0 ∧ bitList 64 (u64 (projectParam 0) 8) = [0] := by decide

theorem witness_Bucket : ∃ idx w, ((Unblocked (working id .bucket bucketParam (row0 1 false))).bump F.VLT_OPS_ROWS_ROWS 0 1).bucketIndices
    (task1 (chunk (row0 1 false))) bucketParam (col0 1 false) ((col0 1 false).cells.map (nanNull (col0 1 false))) = .ok (idx, w) ∧
    w.power.blocked = false := ⟨_, _, rfl, rfl⟩

set_option maxRecDepth 20000 in
theorem witness_Normalise : ∃ out w, ((Unblocked (working id .normalise normParam (row0 1 false))).bump F.VLT_OPS_ROWS_ROWS 0 1).normAll
    (task1 (chunk (row0 1 false))) normParam (rows0 1 false) [0] = .ok (out, w) ∧ w.power.blocked = false := ⟨_, _, rfl, rfl⟩

/-- A selection column that selects the row, and one that does not. -/
theorem witness_Project : (List.range 1).filter (fun i => ((col0 1 false).cell i).valid && leNat ((col0 1 false).cell i).bytes == 1) ≠ [] ∧
    (List.range 1).filter (fun i => ((col0 0 false).cell i).valid && leNat ((col0 0 false).cell i).bytes == 1) = [] := by decide

/-- A vault that a task's column needs is held. -/
def heldTable : State :=
  { (working (fun im => { im with schemas := [⟨1, 0, [⟨tUint32, false, false, 0, 0, 4, 0, 0, 0⟩]⟩] }) .filter filterParam
      (.rows [] 1 (some ⟨0, 1, 1, 0⟩))) with runs := [{ run6 with args := [⟨0, 1, 0, 0, 1, 0⟩] }] }.setBit F.FLT_GOV_HELD 0

theorem witness_OperatorWaits : (filter 1 (Unblocked heldTable)).power.blocked = true := by decide

/-! Joins. -/

def partParam : List Byte := [0] ++ ff 7 ++ [1, 0, 0, 0] ++ zeros 20
def buildParam (region : Byte) : List Byte := [0] ++ ff 11 ++ [region, 0, 0xFF, 0xFF] ++ zeros 16
def probeParam : List Byte := [0, 1, 0, 0, 0] ++ ff 3 ++ zeros 24
def dictParam (kind : Byte) : List Byte := [0, kind, 1, 0, 0] ++ ff 3 ++ zeros 24

/-- The probe stage of a pipeline whose stage 1 builds. -/
def joining : State :=
  working (fun im => { im with pipelines := [{ pipe .joinProbe probeParam with stages := [stage .joinProbe probeParam, stage .joinBuild (buildParam 0)] }] })
    .joinProbe probeParam (row0 1 false)

theorem witness_JoinOperators : colList (slice 0 8 partParam) = [0] ∧ u8 partParam 9 ≠ 1 ∧ colList (slice 0 4 (buildParam 0)) = [0] ∧
    u16 (buildParam 0) 14 = 0xFFFF ∧ colList (slice 4 4 probeParam) = [0] ∧
    (joining.runningTask 1 .joinProbe).isSome = true ∧ ([stage .joinProbe probeParam, stage .joinBuild (buildParam 0)][u8 probeParam 1]?).isSome = true ∧
    (colList (slice 4 4 (dictParam 0))).take (u8 (dictParam 0) 2) = [0] := by decide

/-- An image with a region of 128 KiB besides. -/
def roomy (im : Image) : Image := { im with regions := im.regions ++ [⟨1, .vaultSingle, .operatorWrite, false, 0, 4096, 0x20000, 0, []⟩] }

theorem witness_JoinBuild : ∃ v, ((Unblocked (working roomy .joinBuild (buildParam 1) (row0 1 false))).bump F.VLT_OPS_ROWS_ROWS 0 1).insertBuild 5 0
    (stage .joinBuild (buildParam 1)) [⟨0, [1, 0, 0, 0], []⟩] = (none, v) ∧ v.power.blocked = false := ⟨_, rfl, rfl⟩

theorem witness_JoinSpace : ∃ v, ((Unblocked (working id .joinBuild (buildParam 9) (row0 1 false))).bump F.VLT_OPS_ROWS_ROWS 0 1).insertBuild 5 0
    (stage .joinBuild (buildParam 9)) [⟨0, [1, 0, 0, 0], []⟩] = (some 0, v) ∧ v.power.blocked = false := ⟨_, rfl, rfl⟩

theorem witness_JoinProbe : ∃ outs v, ((Unblocked joining).bump F.VLT_OPS_ROWS_ROWS 0 1).probeRows (JoinBuild.empty 1) 1 0
    ((rows0 1 false).pick [0]) none (List.range 1) = (outs, v) ∧ outs ≠ [] ∧ outs.length ≤ 65536 ∧ v.power.blocked = false :=
  ⟨_, _, rfl, by decide, by decide, rfl⟩

/-- A task that asks match-store table 0, with its searches as `asks` says. -/
def matching (op : Op) (par : List Byte) (asks : List Asking) : State :=
  let s := ((working id op par (row0 1 false)).fset F.MST_TABLE_CFG_DEFINED 0 1).fset F.MST_TABLE_CFG_BLOCKS 0 1
  { s with mst := { s.mst with asking := asks } }

/-- One search of task 1: waiting, or answered by a good or a poisoned result. -/
def waitingAsk : Asking := ⟨1, 0, 0, [], 1, [], false, chunk (row0 1 false)⟩
def answeredAsk (poison : Bool) : Asking := ⟨1, 0, 0, [], 0, [⟨true, 0, 0, false, false, 7, poison⟩], false, chunk (row0 1 false)⟩

theorem matching_runs (op : Op) (par : List Byte) (asks : List Asking) :
    (matching op par asks).runningTask 1 op = some (task1 (chunk (row0 1 false)), stage op par, pipe op par, run6) := by
  cases op <;> rfl

theorem witness_Asking : ((matching .dictJoin (dictParam 0) []).askingOf 1).isNone = true ∧
    ((matching .dictJoin (dictParam 0) []).mstTab? (u8 (dictParam 0) 0)).isSome = true ∧
    (∃ k ∈ (List.range 1).map (rowKey ((rows0 1 false).pick [0]) false), k.isSome = true) ∧
    (matching .dictJoin (dictParam 0) [waitingAsk]).askingOf 1 = some waitingAsk ∧ waitingAsk.done = false ∧
    (matching .dictJoin (dictParam 0) [answeredAsk true]).askingOf 1 = some (answeredAsk true) ∧ (answeredAsk true).done = true ∧
    (answeredAsk true).hits.any Hit.poison = true ∧ (answeredAsk false).done = true ∧ (answeredAsk false).hits.any Hit.poison = false := by decide

/-- A kind that keeps a row with a hit, and one that does not. -/
theorem witness_DictJoin : (∀ kind ∈ [(0 : Byte), 3],
      ((List.range 1).filter (fun i => joinKeeps (u8 (dictParam kind) 1) (((dealHits ((List.range 1).map (rowKey ((rows0 1 false).pick [0]) false))
        (answeredAsk false).hits).getD i none).any Hit.hit)) ≠ [] ↔ kind = 0)) := by decide

/-- A STATS stage whose input is over. -/
def counted : State := { working id .stats statsParam (row0 1 false) with disp := lit.disp }

theorem witness_StatsMerge : counted.run? (5 : Fin 64) = some run6 ∧ counted.pipelineOf (5 : Fin 64) = some (pipe .stats statsParam) ∧
    run6.state = .running ∧ (counted.ended 5 (pipe .stats statsParam)).contains (0 : Fin 64).val = true ∧
    (counted.workOf 5).statsDone.contains (0 : Fin 64).val = false ∧ ((pipe .stats statsParam).stages[(0 : Fin 64).val]?).map StageRec.op = some .stats ∧
    ((Unblocked counted).mergeStats 5 (0 : Fin 64)).power.blocked = false ∧
    (((Unblocked counted).mergeStats 5 (0 : Fin 64)).settle 5).power.blocked = false := by decide

/-! Tables, tensors, samples, models. -/

/-- A schema of one UINT32 column at an offset. -/
def schema (off : Nat) : Schema := ⟨1, 0, [⟨tUint32, false, false, 0, 0, 4, 0, off, 0⟩]⟩

def scanning (off : Nat) : State :=
  { working (fun im => { im with schemas := [schema off] }) .scan [] (.rows [] 1 (some ⟨0, 1, 1, 0⟩)) with
    runs := [{ run6 with args := [⟨0, 1, 0, 0, 1, 0⟩] }] }

theorem witness_Scan : ∃ tab n a, (scanning 0).tableOf { run6 with args := [⟨0, 1, 0, 0, 1, 0⟩] } 0 = some tab ∧
    (scanning 0).schema? 1 = some (schema 0) ∧ ((scanning 0).runningTask 1 .scan).isSome = true ∧
    (Unblocked (scanning 0)).sliceRows tab 0 = (n, a) ∧ a.power.blocked = false ∧ tableFits tab (schema 0) n = true ∧
    (scanning 1).schema? 1 = some (schema 1) ∧ tableFits tab (schema 1) n = false :=
  ⟨_, _, _, rfl, rfl, rfl, rfl, rfl, by decide, rfl, by decide⟩

/-- A tensor of 2 by 4 bytes in region 0; `policy` says what an index outside does. -/
def tensor (policy : Nat) : Desc := ⟨4, 2, 0, policy, 0, 0xFF, 0xFFFF, 0, [4, 2], [1, 4], [0, 0], []⟩

def gatherParam (policy : Byte) : List Byte := [3, 0, 0xFF, 0xFF, 0xFF, 0xFF, 1, policy] ++ zeros 24

def gathering (op : Op) (value policy : Byte) : State :=
  working (fun im => { im with descs := [(3, tensor 0)] }) op (gatherParam policy) (row0 value false)

theorem witness_Gather : (((gathering .gather 1 0xFF).seat 5 (u16 (gatherParam 0xFF) 0) 0).map Seat.d) = some (tensor 0) ∧
    u16 (gatherParam 0xFF) 4 = 0xFFFF ∧
    (∃ a, (Unblocked (gathering .gather 1 0xFF)).readIndices (task1 (chunk (row0 1 false))) run6 (u16 (gatherParam 0xFF) 2) (u8 (gatherParam 0xFF) 12)
      (u32 (gatherParam 0xFF) 8) = .ok ([1], a) ∧ a.power.blocked = false) ∧
    (List.map (resolveIndex (policyOf (gatherParam 0xFF) (tensor 0)) ((tensor 0).ext (u8 (gatherParam 0xFF) 6))) [1]).contains .fault = false ∧
    (∃ a, (Unblocked (gathering .gather 2 4)).readIndices (task1 (chunk (row0 2 false))) run6 (u16 (gatherParam 4) 2) (u8 (gatherParam 4) 12)
      (u32 (gatherParam 4) 8) = .ok ([2], a) ∧ a.power.blocked = false) ∧
    (List.map (resolveIndex (policyOf (gatherParam 4) (tensor 0)) ((tensor 0).ext (u8 (gatherParam 4) 6))) [2]).contains .fault = true :=
  ⟨by decide, by decide, ⟨_, rfl, rfl⟩, by decide, ⟨_, rfl, rfl⟩, by decide⟩

/-- The same tensor in the core store. -/
def coreTensor : Desc := { tensor 0 with region := 0xFFFF }

theorem witness_GatherRuns : ∃ bs v, (Unblocked (gathering .gather 1 0xFF)).gatherRun (task1 (chunk (row0 1 false))) ⟨tensor 0, none, 0⟩ none 1
    [.slice 1 0] = .ok (some bs, v) ∧ v.power.blocked = false := ⟨_, _, rfl, rfl⟩

theorem witness_Scatter : (((gathering .scatter 1 0xFF).seat 5 3 0).map Seat.d) = some (tensor 0) ∧ u16 (gatherParam 0xFF) 2 = 0xFFFF ∧
    ∃ v, State.scatterWindows none [] ⟨tensor 0, some ⟨0, .vaultSingle, .operatorWrite, false, 0, 0, 4096, 0, []⟩, 0⟩ 0 1 1 0
      (windows [(0, .slice 1 0)]) (Unblocked (gathering .scatter 1 0xFF)) = .ok v ∧ v.power.blocked = false :=
  ⟨by decide, by decide, _, rfl, rfl⟩

def lookupParam : List Byte := [7, 0, 0xFF, 0xFF, 0xFF, 0xFF] ++ zeros 26

/-- Task 1 of a LOOKUP or UPDATE on one row, whose chunk carries two FP32 values. -/
def idTask (bad : Bool) : Task := task1 { chunk (row0 1 bad) with tensor := some ⟨11, (zeros 8).map (·, false)⟩ }

def handing (op : Op) (bad : Bool) : State :=
  { working (fun im => { im with embTables := [embTab false 4] }) op lookupParam (row0 1 bad) with
    disp := { lit.disp with tasks := [idTask bad] } }

theorem witness_LookupUpdate : ({ idTask false with taken := true } : Task).taken = true ∧ (idTask false).taken = false ∧
    (∀ b, (handing .lookup b).runningTask 1 .lookup = some (idTask b, stage .lookup lookupParam, pipe .lookup lookupParam, run6)) ∧
    (∀ b, (handing .update b).runningTask 1 .update = some (idTask b, stage .update lookupParam, pipe .update lookupParam, run6)) ∧
    (∃ vs v, (Unblocked (handing .lookup false)).contribution (idTask false) run6 (stage .lookup lookupParam) .lookup = .ok ([some 1], vs, v) ∧
      v.power.blocked = false) ∧
    (∃ vs v, (Unblocked (handing .update false)).contribution (idTask false) run6 (stage .update lookupParam) .update = .ok ([some 1], vs, v) ∧
      v.power.blocked = false) ∧
    (∃ code, (Unblocked (handing .update true)).contribution (idTask true) run6 (stage .update lookupParam) .update = .error code) :=
  ⟨rfl, rfl, fun _ => rfl, fun _ => rfl, ⟨_, _, rfl, rfl⟩, ⟨_, _, rfl, rfl⟩, _, rfl⟩

/-- A null value gives a null; with no engine left in the device a job fails. -/
theorem witness_Compress : (∃ cells v, State.jobs (fun s _ x => s.compressJob [] 5 0 x) lit 0 [⟨false, [], false⟩] = (.ok cells, v) ∧
      v.power.blocked = false) ∧
    ∃ code v, State.jobs (fun s _ x => s.compressJob [] 5 0 x) { lit with units := { lit.units with cmpOut := (List.range 12).flatMap (fun c => [(c, 0), (c, 1)]) } } 0
      [⟨true, [1], false⟩] = (.error code, v) ∧ v.power.blocked = false :=
  ⟨⟨_, _, rfl, rfl⟩, _, _, rfl, rfl⟩

def decodeParam : List Byte := [2, 1] ++ zeros 30

theorem witness_Decode : (decPar decodeParam).format = 2 ∧ (decPar (3 :: decodeParam.drop 1)).format = 3 ∧
    ((working (fun im => { im with schemas := [⟨0, 2, []⟩] }) .decode decodeParam (.raw (some [48]) false)).schema? (decPar decodeParam).schema).isSome = true ∧
    (chunk (.raw (some [48]) false)).payload = .raw (some [48]) false := by decide

theorem witness_Pyramid : pyramidOf 0 (pyrPar (zeros 32)) [] ⟨0, 0, 3, 8, []⟩ = none ∧ (chunk (.image ⟨0, 0, 3, 8, []⟩)).payload = .image ⟨0, 0, 3, 8, []⟩ ∧
    (pyramidOf 0 (pyrPar ([1, 0, 0, 0, 1] ++ zeros 11 ++ [1, 0, 1, 0] ++ zeros 12)) [] ⟨1, 1, 1, 8, [7]⟩).isSome = true := by decide

def layout1 : Layout := ⟨0, 1, 0, []⟩
def batch1 : BatchBuf := ⟨0, [⟨.sample, 7, none, none, []⟩], [], false, false, true, false, 0, 0⟩

/-- A graph of one copy, a copy into its own source, or of none. -/
def graph1 (copies : List CopyRec) : Graph := ⟨0, 0, 0, [], [], copies⟩

def modelling (copies : List CopyRec) : State :=
  working (fun im => { im with layouts := [layout1], graphs := [graph1 copies], descs := [(3, tensor 0)] }) .model (zeros 32) (.batch batch1)

theorem witness_Model : (∃ envs v, (Unblocked (modelling [])).runGroup 5 true (graph1 []) [0] 1 (fun _ => true) [] [0] = (.ok envs, v) ∧
      v.power.blocked = false) ∧
    (modelling []).graph? 0 = some (graph1 []) ∧ (modelling []).layout? 0 = some layout1 ∧
    ((modelling []).runningTask 1 .model).isSome = true ∧
    (∃ e c, (Unblocked (modelling [⟨3, 3, [1, 0], false⟩])).copyAll 5 0 [⟨3, 3, [1, 0], false⟩] = .error (e, c)) ∧
    ∃ a, (Unblocked (modelling [])).copyAll 5 0 [] = .ok a :=
  ⟨⟨_, _, rfl, rfl⟩, rfl, rfl, rfl, ⟨_, _, rfl⟩, _, rfl⟩

/-! Batches, rings, frames, streams. -/

def ring (written : Nat) : Ring := ⟨0, 0, 128, 256, 2, written, 0⟩

def emitting (written : Nat) (others : List Task) : State :=
  { working (fun im => { im with layouts := [layout1] }) .emit (zeros 32) (.batch batch1) with
    runs := [{ run6 with rings := [ring written] }], disp := { lit.disp with tasks := others ++ [task1 (chunk (.batch batch1))] } }

theorem witness_Emit : ((emitting 1 []).runningTask 1 .emit).isSome = true ∧ ({ run6 with rings := [ring 1] } : Run).ring? (u8 (zeros 32) 0) = some (ring 1) ∧
    (emitting 1 []).layout? batch1.layout = some layout1 ∧ (ring 1).room = true ∧ (ring 2).room = false ∧
    (emitting 1 []).firstOfStage (task1 (chunk (.batch batch1))) = true ∧
    (emitting 1 [{ task1 (chunk (.batch batch1)) with id := 0 }]).firstOfStage (task1 (chunk (.batch batch1))) = false ∧
    ({ run6 with state := .failing } : Run).state ≠ .running ∧
    ((Unblocked (emitting 1 [])).ringPublish 5 (ring 1) [1]).isOk = true ∧
    ((Unblocked (emitting 1 [])).ringPublish 5 { ring 1 with slot0 := 0x1FF80000 } [1]).isOk = false ∧
    (run6.rings = []) ∧ ((emitting 1 []).run? (5 : Fin 64)).bind (fun r => r.ring? (0 : Fin 64).val) = some (ring 1) ∧
    (0 : W64).toNat < 1 ∧ (ring 1).readIndex ≤ (1 : W64).toNat ∧ (1 : W64).toNat ≤ (ring 1).writeIndex ∧ (ring 1).writeIndex < (2 : W64).toNat := by decide

def batchParam (timeout : Byte) : List Byte := zeros 4 ++ [2, 0, 0, 0] ++ zeros 4 ++ [timeout] ++ zeros 19

def batching (timeout : Byte) (p : Payload) : State :=
  { working (fun im => { im with layouts := [layout1] }) .batch (batchParam timeout) p with
    work := [{ RunWork.empty 5 with opens := [⟨0, 0, [⟨.sample, 7, none, none, []⟩], [], some 0, [], none, false, 0⟩] }] }

theorem witness_Batch : ((batching 1 (.levels [])).runningTask 1 .batch).isSome = true ∧ (batching 1 (.levels [])).layout? (u16 (batchParam 1) 0) = some layout1 ∧
    (batching 1 (.levels [])).firstOfStage (task1 (chunk (.levels []))) = true ∧
    (∃ cs v, (Unblocked (batching 1 (.levels []))).offer 5 0 0 0 (stage .batch (batchParam 1)) 1 0
      ((Unblocked (batching 1 (.levels []))).sampleSlot (batchPar (batchParam 1)) (chunk (.levels []))) = (cs, v) ∧ v.power.blocked = false) ∧
    (∃ x y z, (chunk (row0 1 false)).payload = .rows x y z) ∧
    ∃ cs v, (Unblocked (batching 1 (row0 1 false))).batchRows (task1 (chunk (row0 1 false))) (stage .batch (batchParam 1)) (rows0 1 false) layout1 = (cs, v) ∧
      v.power.blocked = false :=
  ⟨rfl, rfl, rfl, ⟨_, _, rfl, rfl⟩, ⟨_, _, _, rfl⟩, _, _, rfl, rfl⟩

theorem witness_BatchTimeout : (batching 1 (.levels [])).stage? (5 : Fin 64) (0 : Fin 64) = some (stage .batch (batchParam 1)) ∧
    ((batching 1 (.levels [])).pipelineOf (5 : Fin 64)).isSome = true ∧ (batching 1 (.levels [])).running (5 : Fin 64) = true ∧
    (batchPar (batchParam 1)).timeout = 1 ∧ (batchPar (batchParam 0)).timeout = 0 ∧ (pipe .batch (batchParam 1)).isOrdered 0 = false ∧
    ((batching 1 (.levels [])).workOf 5).opens.map OpenBatch.firstAt = [some 0] ∧
    0 + 1 * 1000 ≤ (at_ lit 1040).now ∧ (at_ lit 1000).now < 0 + 1 * 1000 := by decide

def frameParam : List Byte := 7 :: zeros 31

/-- Stream 4 bound to the run, five frames admitted. -/
def bound : State :=
  { working id .decode frameParam (.raw none false) with
    runs := [{ run6 with args := [⟨0, 4, 0, 4, 0, 0⟩], streams := [(4, 5, none)] }] }

theorem witness_Admission : bound.lit = true ∧ lit.boundTo frame.hdr.stream = none ∧ State.reset.lit = false ∧
    (bound.boundTo frame.hdr.stream).map (·.2) = some (5, none) ∧ bound.running 5 = true ∧
    (bound.streamStage { run6 with args := [⟨0, 4, 0, 4, 0, 0⟩], streams := [(4, 5, none)] } frame.hdr.stream).isSome = true ∧
    frameLoss { frame with hdr := { frame.hdr with reservedZero := false } } 0 0 = some .parse := by decide

theorem witness_AdmissionGood : frameLoss frame 0 0 = none := by decide

/-- A DECODE stage before a BATCH stage, its task started at 0. -/
def decodeStage : StageRec := { stage .decode decodeParam with outQ := [0] }
def pipe2 (ordered : Bool) : Pipeline := ⟨2, 0, 0, [decodeStage, stage .batch (batchParam 1)], [⟨4, 0, 1⟩], [ordered], []⟩
def sample : Task := task1 (chunk (.raw (some [48]) false))

def straggling (ordered : Bool) : State :=
  working (fun im => { im with pipelines := [pipe2 ordered] }) .decode decodeParam (.raw (some [48]) false)

theorem witness_Stragglers : lit.sampleTask 1 = none ∧ (straggling true).sampleTask 1 = some (sample, decodeStage, pipe2 true) ∧
    ((straggling true).limit sample decodeStage (pipe2 true)).1 = .within ∧
    ((at_ (straggling false) 8000000).limit sample decodeStage (pipe2 false)).1 = .defer ∧
    ((at_ (straggling true) 8000000).limit sample decodeStage (pipe2 true)).1 = .abandon ∧ decodeStage.op ≠ .parse := by decide

/-- A PARSE task on stream 0 of cluster 0, blocked since 0. -/
def ctx (stream : Option Nat) : PatCtx := ⟨0, stream, 1, 0, [], 0, some 0, 0, 0, 0xFF, [[1]], true, none⟩

def parsing (stream : Option Nat) (written : Nat) : State :=
  { working (fun im => { im with automata := [⟨0, []⟩] }) .parse (zeros 32) (.raw (some [48]) false) with
    runs := [{ run6 with rings := [ring written] }], pat := [ctx stream]
    disp := { lit.disp with tasks := [{ task1 (chunk (.raw (some [48]) false)) with units := [unitStream 0 0] }] } }

theorem witness_Parse : ((parsing (some 0) 1).runningTask 1 .parse).isSome = true ∧ ((parsing (some 0) 1).automaton? (parsePar (zeros 32)).automaton) = some ⟨0, []⟩ ∧
    ({ task1 (chunk (.raw (some [48]) false)) with units := [unitStream 0 0] } : Task).stream = some (0, 0) ∧
    (parsing (some 0) 1).patOf 1 = some (ctx (some 0)) ∧ (ctx (some 0)).stream.isSome = true ∧
    ((Unblocked (parsing (some 0) 2)).parseGo { task1 (chunk (.raw (some [48]) false)) with units := [unitStream 0 0] } (stage .parse (zeros 32))
      (pipe .parse (zeros 32)) (parsePar (zeros 32)) ⟨0, []⟩ [48] (ctx (some 0))).power.blocked = false := by decide

theorem witness_Streams : (parsing (some 0) 2).pat.find? (fun x => x.cluster == (0 : Fin 12).val && x.stream == some (0 : Fin 16).val) = some (ctx (some 0)) ∧
    ((parsing (some 0) 2).patRing (ctx (some 0))).isSome = true ∧ (ctx (some 0)).blockedAt = some 0 ∧ (ring 1).room = true ∧ (ring 2).room = false ∧
    0 + (parsing (some 0) 2).suspendNs (parsePar (zeros 32)) ≤ (at_ (parsing (some 0) 2) ((parsing (some 0) 2).suspendNs (parsePar (zeros 32)) + 80)).now ∧
    (at_ (parsing (some 0) 2) 79).now < 0 + (parsing (some 0) 2).suspendNs (parsePar (zeros 32)) ∧ (parsing (some 0) 2).suspended (0 : Fin 12) < 64 ∧
    (parsing none 1).patOf 1 = some (ctx none) ∧ ((parsing none 1).patRing (ctx none)).isSome = true ∧
    ((parsing none 1).freeStream (0 : Fin 12)).isSome = true ∧ (ctx none).stream = none ∧ (ctx none).cluster = (0 : Fin 12).val := by decide

/-! The dispatcher. -/

/-- Task 1 of a FILTER stage is READY in a device without a request that waits. -/
def readying : State :=
  { working id .filter filterParam (row0 1 false) with
    disp := { lit.disp with tasks := [{ task1 (chunk (row0 1 false)) with state := .ready, units := [] }] } }

theorem witness_TaskDispatch : State.reset.lit = false ∧ lit.settleAll.readyTasks = [] ∧ readying.lit = true ∧ readying.settleAll.readyTasks.length = 1 ∧
    (readying.settleAll.goable { task1 (chunk (row0 1 false)) with state := .ready, units := [] }).isSome = true ∧
    (readying.settleAll.wayNow { task1 (chunk (row0 1 false)) with state := .ready, units := [] } (stage .filter filterParam)).isSome = true := by decide

theorem witness_CancelAndStop : ({ readying with runs := [{ run6 with cancelDue := true }] } : State).run? (5 : Fin 64) = some { run6 with cancelDue := true } ∧
    run6.cancelDue = false ∧ (running .scan [] (row0 1 false)).task? 1 = some (task1 (chunk (row0 1 false))) ∧
    ({ task1 (chunk (row0 1 false)) with stop := true } : Task).stop = true ∧ (task1 (chunk (row0 1 false))).state = .running ∧
    (task1 (chunk (row0 1 false))).taken = false ∧ (task1 (chunk (row0 1 false))).stop = false := by decide

def residentParam : List Byte := [0, 0, 1, 1, 1, 0, 1, 0] ++ zeros 24

def loading : State :=
  working (fun im => { im with layouts := [layout1], graphs := [graph1 []] }) .model residentParam (.batch batch1)

theorem witness_WeightLoad : loading.lit = true ∧ (loading.graph? (0 : Fin 256)).isSome = true ∧ loading.loaded (0 : Fin 256) = false ∧
    loading.graphUsed (0 : Fin 256) = true ∧ lit.graphUsed (255 : Fin 256) = false ∧ lit.image = none ∧
    ({ loading with resident := [⟨0, [], []⟩] } : State).loaded (0 : Fin 256) = true := by decide

theorem witness_Census : lit.gov.windowEnd ≤ lit.meridian ∧ lit.gov.windowStart < (at_ lit 80).now ∧
    lit.meridian < ({ lit with gov := { lit.gov with windowEnd := 1 } } : State).gov.windowEnd := by decide

def quarantined : State := lit.fset2 F.CMP_ENG_STATUS_QUARANTINED 11 1 1

theorem witness_LogAndRelease : ∃ x t, TakenBy quarantined (cmd 1) 24 x t ∧ x.role = .keeper ∧ t.power.state ≠ .bivouac ∧
    (regDef .DSP_LOG_CTL).writeRefusal .DSP_LOG_CTL true 0 = none ∧
    quarantined.logRefusal .DSP_LOG_CTL (quarantined.raw .DSP_LOG_CTL 0 0) ((regDef .DSP_LOG_CTL).written true (quarantined.raw .DSP_LOG_CTL 0 0) 0) = false ∧
    quarantined.logRefusal .DSP_LOG_CTL (quarantined.raw .DSP_LOG_CTL 0 0) ((regDef .DSP_LOG_CTL).written true (quarantined.raw .DSP_LOG_CTL 0 0) 1) = true ∧
    t.units.lostClusters.contains (11 : Fin 12).val = false ∧ quarantined.runs = [] ∧ RegsOrdered quarantined ∧
    quarantined.fget2 F.CMP_ENG_STATUS_QUARANTINED (11 : Fin 12) (1 : Fin 2) = 1 :=
  ⟨_, _, ⟨_, ⟨rfl, rfl, .inl rfl, rfl, by decide, rfl⟩, rfl, rfl⟩, by decide, by decide, by decide, by decide, by decide, by decide, rfl, rfl, by decide⟩

/-! ### The steps complete -/

/-- A task of any operator whose one column is at hand. -/
theorem at_hand (op : Op) (par : List Byte) (bad : Bool) :
    AtHand (working id op par (row0 1 bad)) 1 op (task1 (chunk (row0 1 bad))) (stage op par) (pipe op par) run6 :=
  ⟨runs_task op par _, rfl⟩

theorem witness_RowStepsComplete : ((scanning 0).tableOf { run6 with args := [⟨0, 1, 0, 0, 1, 0⟩] } 0).isSome = true ∧
    ((scanning 0).tableOf { run6 with args := [⟨0, 1, 0, 0, 1, 0⟩] } 0).all (fun tab => tab.region.kind != .vaultHash &&
      tableFits tab (schema 0) (if tab.region.kind = .vaultRange then shareRows tab.b 0 else tab.b)) = true ∧
    (colAt (rows0 1 false).cols (u8 bucketParam 1)).isSome = true ∧ u8 bucketParam 0 ≤ 1 ∧
    (∀ i ∈ (List.range 4).filter (fun i => u8 normParam i != 0xFF), normNeeds (u8 normParam (8 + i)) = []) ∧
    u8 partParam 9 ≠ 1 ∧ u16 (buildParam 1) 14 = 0xFFFF ∧ u8 (projectParam 0xFF) 0 = 0xFF := by decide

/-- A record of KIND 1 with every measure, which the stage has read. -/
def recordBytes1 : List Byte := zeros 58 ++ [1, 15] ++ zeros 4

def recorded (op : Op) (par : List Byte) (key : Nat) : State :=
  { working id op par (row0 1 false) with work := [{ RunWork.empty 5 with statsRead := [(key, recordBytes1)] }] }

theorem witness_Records : ((recorded .bucket (3 :: bucketParam.drop 1) 0).workOf 5).statsRead.find? (fun e => e.1 == 0 * 8 + 0) = some (0, recordBytes1) ∧
    bitAt (statRecOf recordBytes1).measures 2 = true ∧ (statRecOf recordBytes1).kind = statKind tUint32 ∧ (statRecOf recordBytes1).kind ≤ 2 ∧
    normNeeds 1 = [0] ∧ bitAt (statRecOf recordBytes1).measures 0 = true := by decide

/-- A slice of 128 KiB is enough for one row. -/
theorem witness_BuildFits : ∀ v, let n := [(⟨0, [1, 0, 0, 0], []⟩ : BuildRow)].countP (fun x => x.vault == v)
    64 * 2 ^ joinBuckets (u64 (buildParam 1) 16) +
      joinRowBytes ((working roomy .joinBuild (buildParam 1) (row0 1 false)).colsIn 5 0) [0] [] * n + 64 * ceilDiv n 8 ≤
      (((working roomy .joinBuild (buildParam 1) (row0 1 false)).region? (u16 (buildParam 1) 12)).map Region.size).getD 0 := by
  intro v
  by_cases h : v = 0
  · subst h; decide
  · have e : [(⟨0, [1, 0, 0, 0], []⟩ : BuildRow)].countP (fun x => x.vault == v) = 0 := by
      simp [Ne.symm h]
    simp only [e]; decide

theorem witness_ProbeCompletes : ([stage .joinProbe probeParam, stage .joinBuild (buildParam 0)][u8 probeParam 1]?).map
      (fun b => u16 b.param 14) = some 0xFFFF ∧ (pipe .joinProbe probeParam).isOrdered 0 = false ∧
    (pipe .joinProbe probeParam).isOrdered ((stage .joinProbe probeParam).flowOf 0) = false := by decide

/-- BUCKET by ranges asks first, and ends once its one search is answered. -/
def rangeParam : List Byte := [2, 0, 1, 0] ++ zeros 28

theorem witness_BucketByRanges : u8 rangeParam 0 = 2 ∧ ((matching .bucket rangeParam []).mstTab? (u64 rangeParam 8 % 16)).isSome = true ∧
    ((matching .bucket rangeParam []).askingOf 1).isNone = true ∧ (∃ x ∈ (col0 1 false).cells.map (nanNull (col0 1 false)), x.valid = true) ∧
    (matching .bucket rangeParam [answeredAsk false]).askingOf 1 = some (answeredAsk false) ∧ (answeredAsk false).chunk.rows.rest = none ∧
    ((answeredAsk false).chunk.rows.pick [u8 rangeParam 1]).any Column.poisoned = false ∧
    (colAt (answeredAsk false).chunk.rows.cols (u8 rangeParam 1)).isSome = true := by decide

set_option maxRecDepth 40000 in
theorem witness_NoneWaits : NoneWaits counted := by
  unfold NoneWaits; decide

/-! Tensors, ids, compression, models. -/

/-- The tensor in the core store, as descriptor 3, and one like it as descriptor 4 elsewhere. -/
def coreGathering (op : Op) (out : Byte) : State :=
  working (fun im => { im with descs := [(3, coreTensor), (4, { coreTensor with base := 64 })] }) op
    ([3, 0, 0xFF, 0xFF, out, if out = 4 then 0 else 0xFF, 1, 0xFF] ++ zeros 24) (row0 1 false)

theorem witness_CoreTensors : (((coreGathering .gather 4).seat 5 3 0).map (fun x => (x.d, x.region))) = some (coreTensor, none) ∧
    ((coreGathering .gather 4).seat 5 4 0).any (fun o => o.region.isNone && !(Seat.overlaps ⟨coreTensor, none, 0⟩ o) &&
      slicesFit coreTensor o.d 1 1) = true ∧ (col0 1 false).poisoned = false ∧
    (List.map (resolveIndex (policyOf (gatherParam 0xFF) coreTensor) (coreTensor.ext 1)) [1]).contains .fault = false ∧
    u8 lookupParam 1 ≠ 0xFF ∧ u16 lookupParam 4 = 0xFFFF ∧ ((idTask false).chunk.tensor.map (fun x => x.bytes.any (·.2))) = some false ∧
    lit.dicts.isEmpty = true := by decide

/-- A graph with one weight tensor, which stands resident and good. -/
def graphW : Graph := ⟨0, 0, 0, [], [⟨2, 11, 2, 3, 0xFFFF, 0, [4, 2]⟩], []⟩

def residentModel : State :=
  { working (fun im => { im with layouts := [layout1], graphs := [graphW], descs := [(3, coreTensor)] }) .model residentParam (.batch batch1) with
    resident := [⟨0, [0], [(3, [(0, false)])]⟩] }

theorem witness_ResidentWeights : residentModel.isResident (pipe .model residentParam).number 0 = true ∧
    ((((residentModel.resident.find? (·.graph == graphW.number)).map Resident.data).getD []).find? (·.1 == 3)) = some (3, [(0, false)]) ∧
    [((0 : Byte), false)].any (·.2) = false := by decide

/-! Samples, batches, streams. -/

theorem witness_Decoded : 3 < (decPar (4 :: zeros 31)).format ∧ frame.hdr.format ≠ 3 ∧ frame.hdr.format ≠ 4 ∧
    frame.payload.length ≤ (decPar ([4, 0, 0, 0] ++ zeros 28)).maxBytes ∧ frame.poison = false := by decide

/-- A PARSE task of an automaton that never matches. -/
def parsed : State := { parsing (some 0) 1 with pat := [] }

theorem witness_ParseCompletes : (parsed.runningTask 1 .parse).isSome = true ∧ (parsed.patOf 1).isNone = true ∧ (parsed.askingOf 1).isNone = true ∧
    (parsePar (zeros 32)).prefilter = false ∧ (parsePar (zeros 32)).format ≠ 1 ∧ (parsePar (zeros 32)).endMarkers = false ∧
    [(48 : Byte)].length ≤ (parsePar (zeros 32)).maxBytes ∧ Automaton.scanFrom ⟨0, []⟩ [48] 0 0 noTags = [] := by decide

theorem witness_EmitCompletes : (emitting 1 []).disp.publishing.any (fun e => e.task == some 1) = false ∧
    poolDevice ((ring 1).slot0 + BitVec.ofNat 64 ((ring 1).writeIndex % (ring 1).count * (ring 1).size)) = (emitting 1 []).device ∧
    poolDevice (ring 1).ctl = (emitting 1 []).device ∧
    ((emitting 1 []).accessCheck (poolLocal (ring 1).slot0) 128).isOk = true ∧ ((emitting 1 []).accessCheck (poolLocal (ring 1).ctl) 8).isOk = true := by
  decide

/-! ### Single steps and the spec's worked examples -/

/-- The status and body of the last response that a step sends. -/
def answered (o : Host.Outcome State Fault Refusal) : Option (Code × List Byte) :=
  match o with
  | .next t => t.outbox.getLast?.bind (fun m => match m with
    | .response _ _ r => some (r.status, r.body)
    | _ => none)
  | _ => none

/-- A field after a step. -/
def after (o : Host.Outcome State Fault Refusal) (f : FRef) (i : Nat) : Option Nat :=
  match o with
  | .next t => some (t.fget f i)
  | _ => none

/-- The first command is taken from the queue's front, and an empty queue lets time pass. -/
theorem test_step_front : step { lit with pending := [.energySample 5, .energySample 7] } =
    exec (.energySample 5) { lit with pending := [.energySample 7] } := rfl

theorem test_step_idle : step State.reset = .next (tick State.reset) := rfl

/-- Worked example "addresses on device 3" (R28): 0x040_0C80_3A10 is 0x010_6010_AA10 in vault 131. -/
theorem test_addresses : physOf 0x0400C803A10 = some 0x0106010AA10 ∧ physOf 0x01120100000 = some (137 * 0x20000000 + 0x100000) ∧
    poolDevice 0x0000301120100000 = 3 ∧ poolLocal 0x0000301120100000 = 0x01120100000 := by decide

set_option maxRecDepth 20000 in
/-- The check value of R91. -/
theorem test_crc32c : crc32c 0 [0x31, 0x32, 0x33, 0x34, 0x35, 0x36, 0x37, 0x38, 0x39] = 0xE3069283 := by decide

/-- Worked example "sizing the member-register join" (R115): k = 13, W = 32. -/
theorem test_join_size : joinBuckets 5125000 = 13 := by decide

/-- Worked example "a range table for plate thickness" (R184, R185, R192): six entries of table 6. -/
def classTable : State :=
  ((List.range 6).zip [((125 : BitVec 160), (BitVec.allOnes 160), (2 : Byte), (7 : W64)),
      (0x3C, ~~~3, 1, 1), (0x40, ~~~0x3F, 1, 1), (0x80, ~~~0x3F, 1, 1), (0xC0, ~~~7, 1, 1), (0, 0, 0, 0)]).foldl
    (fun s e => s.mstSet e.1 ⟨e.2.1, e.2.2.1, e.2.2.2.1, true, e.2.2.2.2, false, 0⟩) store

theorem test_class_125 : (classTable.mstFind tab0 125).addr = 0 ∧ (classTable.mstFind tab0 125).multi = true ∧
    (classTable.mstFind tab0 125).tie = false ∧ (classTable.mstFind tab0 125).result = 7 := by decide

theorem test_class_others : (classTable.mstFind tab0 61).result = 1 ∧ (classTable.mstFind tab0 250).addr = 5 ∧
    (classTable.mstFind tab0 250).multi = false ∧ (classTable.mstFind tab0 250).result = 0 := by decide

/-- The INSERT at 1 of that example needs 5 moves, the first of entry 5 to 6. -/
def inserting : State :=
  let s := classTable.fset F.MST_TABLE_STATE_USED_END 0 6
  { s with mst := { s.mst with queues := [(0, [⟨.insert, 1, 1, ⟨0x3E, BitVec.allOnes 160 |>.zeroExtend 320, 1, true, 3⟩⟩])] } }

theorem test_insert_moves : (match exec (.mstOpHead 0) inserting with
    | .next t => (t.shiftOf 0).map (fun x => (x.next, x.left))
    | _ => none) = some (5, 5) := by decide

/-- Worked example "validating four descriptors" (R157, R158): A to D. -/
def fourth (base : Nat) (stride : List Int) (rank writable : Nat) : Desc :=
  ⟨13, rank, writable, 0, 22, 0xFF, 0xFFFF, base, ([12, 26693, 4] : List Nat).take rank, stride, [], zeros 128⟩

theorem test_descriptors : descCheck 0 (fourth 1281216 [4, -48, 0] 3 0) (some (0, 0x2000000)) true false none = none ∧
    (fourth 1281216 [4, -48, 0] 3 0).footprint = (0, 1281264) ∧
    descCheck 0 (fourth 1281216 [4, -48, 0] 3 1) (some (0, 0x2000000)) true false none = some C.ZERO_STRIDE ∧
    descCheck 0 (fourth 0 [4, 32] 2 1) (some (0, 0x2000000)) true false none = some C.SELF_OVERLAP ∧
    descCheck 0 (fourth 0 [4, -48, 0] 3 0) (some (0, 0x2000000)) true false none = some C.OUT_OF_REGION := by decide

/-- Worked example "crack reports in maintenance logs" (R211): the first eight bytes of the record. -/
theorem test_match_record : leNat ((matchRecord 5 3 204118 ⟨17, 88540, 88576, (0x159EE, 0x159F1), (0x159FE, 0x15A00)⟩).take 8) =
    0x0000031D56350011 := by decide

/-- Worked example "two-pass normalisation of strain readings": z in FP32 to FP16. -/
theorem test_fp16 : fp16.encode (fp32.decode 0x4000c0c2) = 0x4006 ∧ fp16.encode (fp32.decode 0x3fad06a3) = 0x3D68 := by decide

/-- Worked example "inspecting core 137 of device 3": addresses. -/
theorem test_register_addresses : regAddr .VLT_STATUS 137 0 = 0xF0001089000 ∧ regAddr .VLT_OPS_STATUS 137 0 = 0xF0001089800 ∧
    regAddr .MTX_CORE_STATUS 137 0 = 0xF000A189000 ∧ regAddr .DSP_CENSUS_DEPTH 137 0 = 0xF000B189000 ∧
    regAddr .PMC_BW 137 0 = 0xF0010200448 ∧ regAddr .PMC_CL_CNT_CTL 8 9 = 0xF0010180190 := by decide

/-- The READ_REG of that example: DONE 7, REG_UNMAPPED. -/
theorem test_read_reg : (answered (exec (.readReg (cmd 1) 0xF0003100500 8) lit)).map (fun e => (e.1, leNat (e.2.take 4))) =
    some (C.REG_UNMAPPED, 7) := by decide

/-- An Operator's write to a register that is closed to Operators is ACCESS_DENIED (R442 check 1). -/
theorem test_write_reg_role : (answered (exec (.writeReg (cmd 2) (BitVec.ofNat 64 (regAddr .PCH_ROLLBACK 0 0)) [1]) lit)).map (·.1) =
    some C.ACCESS_DENIED := by decide

/-- A byte written to the pool is read back (R31). -/
theorem test_pool : (match exec (.poolWrite (cmd 1) 16 [0xA5]) lit with
    | .next t => answered (exec (.poolRead ⟨1, 2, 0, false, true⟩ 16 1) t)
    | _ => none) = some (C.OK, [0xA5]) := by decide

/-- In the shadow of the match store no access is allowed (R196). -/
theorem test_pool_shadow : (answered (exec (.poolWrite (cmd 1) 0x1FF80000 [1]) lit)).map (·.1) = some C.SHADOW_PROTECTED := by decide

/-- QUERY of a run that is neither active nor in the history (R64). -/
theorem test_query_unknown : (answered (exec (.query (cmd 1) 9) lit)).map (·.1) = some C.RUN_NOT_ACTIVE := by decide

/-- The refresh multipliers of R41: 85 and 95 degrees double, 96 quadruples. -/
theorem test_vault_refresh : after (exec (.vaultRefresh 191 84) lit) F.VLT_STATUS_REFRESH_MULT 191 = some 0 ∧
    after (exec (.vaultRefresh 191 85) lit) F.VLT_STATUS_REFRESH_MULT 191 = some 1 ∧
    after (exec (.vaultRefresh 191 95) lit) F.VLT_STATUS_REFRESH_MULT 191 = some 1 ∧
    after (exec (.vaultRefresh 191 96) lit) F.VLT_STATUS_REFRESH_MULT 191 = some 2 := by decide

/-- NEXT_SLOT 3 is refused, 2 is taken (R401). -/
theorem test_next_slot : (answered (exec (.nextSlot (cmd 1) 3) lit)).map (·.1) = some C.VALUE_REFUSED ∧
    after (exec (.nextSlot (cmd 1) 2) lit) F.PCH_BOOT_NEXT_SLOT 0 = some 2 := by decide

/-- A thermal trip leaves the device BANKED (R432). -/
theorem test_thermal_trip : (match exec (.thermalTrip 0 (lit.fget F.FLT_CTL_TRIP_C)) lit with
    | .next t => t.power.state == .banked && t.power.tripped
    | _ => false) = true := by decide

set_option maxRecDepth 40000 in
/-- A neighbour's flit with a wrong CRC is answered by one NAK (R323). -/
theorem test_flit_nak : (match exec (.flitReceive 3 flit) linked with
    | .next t => t.outbox.map (fun m => match m with | .flit l f => (l, f.kind.toNat) | _ => (99, 0))
    | _ => []) = [(3, 2)] := by decide

/-- A private JTAG instruction is refused only while JTAG_DEBUG is 1 (R458). -/
theorem test_jtag : exec (.jtagInstruction (.grenogPrivate 1)) (lit.fset F.MOD_MGMT_JTAG_DEBUG 0 1) = .refused .jtagPrivate ∧
    exec (.jtagInstruction (.grenogPrivate 1)) lit = .next lit := ⟨rfl, rfl⟩

/-- A filter that names a poisoned column fails its run (R125). -/
theorem test_filter_poison : (match exec (.filter 1) (working id .filter filterParam (row0 1 true)) with
    | .next t => t.runs.map Run.status
    | _ => []) = [C.OPERAND_POISON] := by decide

/-- HASH of the value 1 with CRC-32C, seed 0 (R91): the CRC of its four bytes. -/
theorem test_hash_crc : hashKey 1 0 [1, 0, 0, 0] = crc32c 0 [1, 0, 0, 0] := by decide

/-! Formats that the spec takes from published documents; the vectors are those documents' own, or hand-made. -/

/-- The code of an outcome, and its bytes. -/
def gave (r : Except Code (List Byte)) : Code × List Byte :=
  match r with
  | .ok bs => (C.OK, bs)
  | .error c => (c, [])

set_option maxRecDepth 20000 in
theorem test_checksums : crc32 [0x31, 0x32, 0x33, 0x34, 0x35, 0x36, 0x37, 0x38, 0x39] = 0xCBF43926 ∧
    adler32 [0x57, 0x69, 0x6B, 0x69, 0x70, 0x65, 0x64, 0x69, 0x61] = 0x11E60398 ∧ xxh64 [] = 0xEF46DB3751D8E999#64 := by decide

set_option maxRecDepth 40000 in
/-- One fixed block with a copy at distance 3, and a stored block. -/
theorem test_inflate : gave (inflateDeflate 64 [0x4B, 0x4C, 0x4A, 0x06, 0x00]) = (C.OK, [0x61, 0x62, 0x63]) ∧
    gave (inflateDeflate 64 [1, 2, 0, 0xFD, 0xFF, 7, 8]) = (C.OK, [7, 8]) ∧ gave (inflateDeflate 64 [1, 2, 0, 0xFC, 0xFF, 7, 8]) = (C.CORRUPT, []) ∧
    gave (inflateDeflate 1 [1, 2, 0, 0xFD, 0xFF, 7, 8]) = (C.EXPANSION, []) ∧ gave (inflateDeflate 64 []) = (C.CORRUPT, []) := by decide

set_option maxRecDepth 40000 in
/-- A frame of one RLE block, and the single-segment frame of an empty input. -/
theorem test_zstd : gave (inflateZstd (fun _ => .ok ZDict.none) 64 [0x28, 0xB5, 0x2F, 0xFD, 0x20, 3, 0x1B, 0, 0, 9]) = (C.OK, [9, 9, 9]) ∧
    gave (inflateZstd (fun _ => .ok ZDict.none) 64 [0x28, 0xB5, 0x2F, 0xFD, 0x20, 0, 1, 0, 0]) = (C.OK, []) := by decide

set_option maxRecDepth 20000 in
/-- LZ4: two literals, a copy of five bytes at distance 2, and a last literal. -/
theorem test_lz4 : gave (inflateLz4 64 [0x21, 7, 8, 2, 0, 0x10, 9]) = (C.OK, [7, 8, 7, 8, 7, 8, 7, 9]) := by decide

end Sys2Proof.Tests
end

/-!
The interleaved range of local addresses (R28): the mapping to the vaults and its inverse undo each other on the 96 GiB
of the exposed vaults.
-/
namespace Sys2Proof.Machine

/-- The mapping of R28, with the bit operations the manual writes. -/
theorem interleave_eq_bits (a : Nat) :
    interleave a = (a >>> 12) % 192 * 0x20000000 + ((a >>> 12) / 192 * 4096 + (a &&& 0xFFF)) := by
  have hand : a &&& 0xFFF = a % 4096 := Nat.and_two_pow_sub_one_eq_mod a 12
  simp only [interleave, vaultSize, hand, Nat.shiftRight_eq_div_pow]
  omega

theorem interleave_lt {a : Nat} (h : a < vaultsEnd) : interleave a < vaultsEnd := by
  simp only [interleave, vaultsEnd, vaultSize] at *
  omega

theorem uninterleave_lt {p : Nat} (h : p < vaultsEnd) : uninterleave p < vaultsEnd := by
  simp only [uninterleave, vaultsEnd, vaultSize] at *
  omega

theorem uninterleave_interleave {a : Nat} (h : a < vaultsEnd) : uninterleave (interleave a) = a := by
  simp only [uninterleave, interleave, vaultsEnd, vaultSize] at *
  omega

theorem interleave_uninterleave {p : Nat} (h : p < vaultsEnd) : interleave (uninterleave p) = p := by
  simp only [uninterleave, interleave, vaultsEnd, vaultSize] at *
  omega

/-- An address of the interleaved range names the byte that R28 gives (R27). -/
theorem physOf_interleaved {a : Nat} (h : a < vaultsEnd) : physOf (aliasBase + a) = some (interleave a) := by
  have hbeyond : ¬ aliasBase + a < vaultsEnd := by simp only [aliasBase, vaultsEnd, vaultSize]; omega
  simp [physOf, hbeyond, h]

/-- Settles O28: `uninterleave` gives the one interleaved address of each byte. -/
theorem interleavedAlias : Obligations.InterleavedAlias := by
  unfold Obligations.InterleavedAlias
  have hsize : 96 * 2 ^ 30 = vaultsEnd := rfl
  have hbase : 0x04000000000 = aliasBase := rfl
  simp only [hsize, hbase]
  refine ⟨fun a ha => ?_, fun p hp => ⟨uninterleave p, uninterleave_lt hp, ?_, fun b hb hbp => ?_⟩⟩
  · rw [← interleave_eq_bits]
    exact ⟨physOf_interleaved ha, interleave_lt ha⟩
  · rw [physOf_interleaved (uninterleave_lt hp), interleave_uninterleave hp]
  · rw [physOf_interleaved hb, Option.some.injEq] at hbp
    rw [← hbp, uninterleave_interleave hb]

end Sys2Proof.Machine

/-!
Receiving an accepted command (R349, R350, R353): the session that executes it stays at its identifier and slot while the
port hears the message, so `receive` comes to `execute` with `holder` and `taken`.
-/
namespace Sys2Proof.Machine
open Sys2Proof

/-! ### A session at its place -/

/-- Session `x` is the one that its identifier names, and the one that its slot names. -/
structure State.Seats (s : State) (x : Session) : Prop where
  byId : s.session? x.id = some x
  bySlot : s.odn.sessions.find? (·.slot == x.slot) = some x

/-- Two stages of one session between which no command was taken, answered or ended: only what it heard, its opening and
its messages may differ. -/
def Session.SameCommands (x y : Session) : Prop :=
  y.id = x.id ∧ y.slot = x.slot ∧ y.role = x.role ∧ y.expected = x.expected ∧ y.pends = x.pends

section
variable {x y : Session} (h : x.SameCommands y)
include h

theorem Session.SameCommands.id : y.id = x.id := h.1
theorem Session.SameCommands.slot : y.slot = x.slot := h.2.1
theorem Session.SameCommands.role : y.role = x.role := h.2.2.1
theorem Session.SameCommands.expected : y.expected = x.expected := h.2.2.2.1
theorem Session.SameCommands.pends : y.pends = x.pends := h.2.2.2.2

end

theorem Session.SameCommands.refl (x : Session) : x.SameCommands x := ⟨rfl, rfl, rfl, rfl, rfl⟩

theorem Session.SameCommands.trans {x y z : Session} (h : x.SameCommands y) (k : y.SameCommands z) : x.SameCommands z :=
  ⟨k.id.trans h.id, k.slot.trans h.slot, k.role.trans h.role, k.expected.trans h.expected, k.pends.trans h.pends⟩

/-- Where the first element that `q` picks is among those replaced, the first that `q` picks afterwards is the new one. -/
theorem find?_updWhere_const {α : Type} {p q : α → Bool} {x z : α} (hx : q x = true) (hz : p z = true) :
    ∀ {l : List α}, l.find? q = some z → (updWhere p (fun _ => x) l).find? q = some x := by
  intro l
  induction l with
  | nil => intro h; cases h
  | cons a r ih =>
    intro h
    have hcons : updWhere p (fun _ => x) (a :: r) = (if p a then x else a) :: updWhere p (fun _ => x) r := rfl
    rw [hcons]
    by_cases hp : p a = true
    · simp [hp, hx]
    · have hq : q a ≠ true := by
        intro hq
        rw [List.find?_cons_of_pos hq, Option.some.injEq] at h
        exact hp (h ▸ hz)
      rw [List.find?_cons_of_neg hq] at h
      simpa [hp, hq] using ih h

/-- A session put in the place of one of its identifier and slot stands there. -/
theorem State.putSession_seats {s : State} {x z : Session} (h : s.session? x.id = some z) (hz : z.slot = x.slot) :
    (s.putSession x).Seats x := by
  have hmem : z ∈ s.odn.sessions := List.mem_of_find?_eq_some h
  obtain ⟨w, hw⟩ : ∃ w, s.odn.sessions.find? (·.slot == x.slot) = some w := by
    rw [← Option.isSome_iff_exists, List.find?_isSome]
    exact ⟨z, hmem, by simp [hz]⟩
  have hwslot := List.find?_some hw
  constructor
  · exact find?_updWhere_const (q := fun y : Session => y.id == x.id) (beq_self_eq_true x.id) (by simp [hz]) h
  · exact find?_updWhere_const (q := fun y : Session => y.slot == x.slot) (beq_self_eq_true x.slot) hwslot hw

theorem State.Seats.putSession {s : State} {x y : Session} (h : s.Seats x) (hid : y.id = x.id) (hslot : y.slot = x.slot) :
    (s.putSession y).Seats y :=
  State.putSession_seats (z := x) (by rw [hid]; exact h.byId) hslot.symm

/-- Who is seated depends on the sessions alone. -/
theorem State.Seats.of_odn {s t : State} {x : Session} (h : s.Seats x) (e : t.odn = s.odn) : t.Seats x :=
  ⟨by simpa only [State.session?, e] using h.byId, by simpa only [e] using h.bySlot⟩

/-! ### Hearing a message -/

theorem Session.queueOccur_sameCommands (x : Session) (o : Occur) (backlog : Bool) :
    x.SameCommands (x.queueOccur o backlog) := by
  simp only [Session.queueOccur]
  split
  · exact .refl x
  · split <;> exact .refl x

theorem Session.queueOccurs_sameCommands (l : List Occur) (x : Session) :
    x.SameCommands (l.foldl (fun x o => x.queueOccur o true) x) := by
  induction l generalizing x with
  | nil => exact .refl x
  | cons o r ih => exact (x.queueOccur_sameCommands o true).trans (ih _)

/-- What a first send can come to: nothing, or the slot's session sends a message and notes it. -/
theorem State.firstSend_cases (s : State) (slot : Nat) :
    s.firstSend slot = s ∨
    ∃ x q m, s.odn.sessions.find? (·.slot == slot) = some x ∧
      s.firstSend slot = (s.putSession { x with lastFirst := some s.now, queue := q }).sendAttention x.mac x.id m := by
  simp only [State.firstSend]
  split
  · exact .inl rfl
  · rename_i x hx
    generalize (_ || _) = early
    cases early
    · simp only [Bool.false_eq_true, if_false]
      split
      · exact .inl rfl
      · exact .inr ⟨x, _, _, hx, rfl⟩
    · exact .inl rfl

/-- The first send of a message leaves the session in its place. -/
theorem State.Seats.firstSend {s : State} {x : Session} (h : s.Seats x) :
    ∃ y, (s.firstSend x.slot).Seats y ∧ x.SameCommands y := by
  rcases s.firstSend_cases x.slot with e | ⟨w, q, m, hw, e⟩ <;> rw [e]
  · exact ⟨x, h, .refl x⟩
  · obtain rfl : x = w := Option.some.inj (h.bySlot.symm.trans hw)
    have hput : (s.putSession { x with lastFirst := some s.now, queue := q }).Seats _ := h.putSession rfl rfl
    exact ⟨_, hput.of_odn (State.sendAttention_odn ..), .refl x⟩

/-- So does the notice of lost messages. -/
theorem State.Seats.overflowNotice {s : State} {x : Session} (h : s.Seats x) :
    ∃ y, (s.overflowNotice x.slot).Seats y ∧ x.SameCommands y := by
  simp only [State.overflowNotice, h.bySlot]
  split
  · exact ⟨x, h, .refl x⟩
  · have hq (o : Occur) := Session.queueOccur_sameCommands { x with overflow := 0 } o false
    obtain ⟨z, hz, hxz⟩ := (h.putSession (hq _).id (hq _).slot).firstSend
    rw [(hq _).slot] at hz
    exact ⟨z, hz, Session.SameCommands.trans (hq _) hxz⟩

/-- An opening session stays in its place. -/
theorem State.openSession_seats {s : State} {x z : Session} (h : s.session? x.id = some z) (hz : z.slot = x.slot) :
    ∃ y, (s.openSession x).Seats y ∧ x.SameCommands y := by
  simp only [State.openSession]
  split
  · have hq := Session.queueOccurs_sameCommands s.odn.occurs { x with isOpen := true, heardAt := s.now }
    generalize hw : s.odn.occurs.foldl (fun x o => x.queueOccur o true) { x with isOpen := true, heardAt := s.now } = w at hq
    have hseat : (State.putSession { s with odn := { s.odn with occurs := [] } } w).Seats w :=
      State.putSession_seats (z := z) (by rw [hq.id]; exact h) (hz.trans hq.slot.symm)
    obtain ⟨y, hy, hwy⟩ := hseat.firstSend
    obtain ⟨v, hv, hyv⟩ := hy.overflowNotice
    rw [hwy.slot] at hv
    exact ⟨v, hv, Session.SameCommands.trans hq (hwy.trans hyv)⟩
  · exact ⟨_, State.putSession_seats (z := z) h hz, .refl x⟩

/-- A session that is heard stays in its place, with its commands as they were. -/
theorem State.hear_seats {s : State} {h : Hdr} {z : Session} (hz : s.session? h.session = some z) :
    ∃ y, (s.hear h z).Seats y ∧ z.SameCommands y := by
  have hid : z.id = h.session := by simpa using List.find?_some hz
  rw [← hid] at hz
  simp only [State.hear]
  split
  · exact State.openSession_seats (x := { z with mac := h.mac, relayed := h.relayed, heardAt := s.now }) hz rfl
  · exact ⟨_, State.putSession_seats (x := { z with mac := h.mac, relayed := h.relayed, heardAt := s.now }) hz rfl,
      .refl z⟩

/-! ### The command of an accepted message -/

@[simp] theorem State.odrenIn_session? (s : State) (relayed : Bool) (body : Nat) (isProtected : Bool) (id : W32) :
    (s.odrenIn relayed body isProtected).session? id = s.session? id := by
  simp [State.session?]

@[simp] theorem State.odrenIn_reached (s : State) (relayed : Bool) (body : Nat) (isProtected r : Bool) :
    (s.odrenIn relayed body isProtected).reached r = s.reached r := by
  simp [State.reached, State.upAndRunning, State.portUp, State.fget, State.fget2, State.raw]

section
variable {s : State} {h : Hdr} {z : Session} {opening : Bool} (ha : Accepted s h z opening) (body : Nat)
include ha

theorem accepted_session_id : z.id = h.session := by
  obtain ⟨-, hsession, -⟩ := ha
  simpa using List.find?_some hsession

/-- The session as the port has heard it, before the command is counted. -/
theorem accepted_heard :
    ∃ y, ((s.odrenIn h.relayed body true).hear h z).Seats y ∧ z.SameCommands y ∧
      s.holder h body z = { y with expected := y.expected + 1 } := by
  have hid := accepted_session_id ha
  obtain ⟨-, hsession, -⟩ := ha
  obtain ⟨y, hy, hzy⟩ :=
    State.hear_seats (s := s.odrenIn h.relayed body true) (h := h) (z := z) (by simpa using hsession)
  refine ⟨y, hy, hzy, ?_⟩
  have hfound : ((s.odrenIn h.relayed body true).hear h z).session? h.session = some y := by
    rw [← hid, ← hzy.id]; exact hy.byId
  simp [State.holder, hfound]

/-- The session that executes the command is the one accepted, one command further. -/
theorem accepted_holder :
    (s.holder h body z).id = z.id ∧ (s.holder h body z).slot = z.slot ∧ (s.holder h body z).role = z.role ∧
      (s.holder h body z).expected = z.expected + 1 ∧ (s.holder h body z).pends = z.pends := by
  obtain ⟨y, -, hzy, e⟩ := accepted_heard ha body
  rw [e]
  exact ⟨hzy.id, hzy.slot, hzy.role, by simp [hzy.expected], hzy.pends⟩

theorem accepted_taken_seats : (s.taken h body z).Seats (s.holder h body z) := by
  obtain ⟨y, hy, -, e⟩ := accepted_heard ha body
  simp only [State.taken, e]
  exact hy.putSession rfl rfl

theorem accepted_taken_session? : (s.taken h body z).session? h.session = some (s.holder h body z) := by
  obtain ⟨hid, -⟩ := accepted_holder ha body
  rw [← accepted_session_id ha, ← hid]
  exact (accepted_taken_seats ha body).byId

/-- An accepted message is executed (R349, R353). -/
theorem accepted_receive (type : Nat) :
    (s.odrenIn h.relayed body true).receive h type opening = .execute (s.holder h body z) (s.taken h body z) := by
  obtain ⟨y, hy, hzy, e⟩ := accepted_heard ha body
  have hzid := accepted_session_id ha
  obtain ⟨hreached, hsession, hopen, hseq, hroom, -⟩ := ha
  have hfound : ((s.odrenIn h.relayed body true).hear h z).session? h.session = some y := by
    rw [← hzid, ← hzy.id]; exact hy.byId
  have hnot : (!z.isOpen && z.role == .keeper && !opening) = false := by
    rcases hopen with ho | ho | ho <;> simp [ho]
  have hnow : h.seq = y.expected := hseq.trans hzy.expected.symm
  have hspace : ¬ 64 ≤ y.pends.length := by rw [hzy.pends]; omega
  simp [State.receive, State.sequence, hreached, hsession, hnot, hfound, hnow, hspace, State.taken, e]

/-- The command of an accepted message has its effect and is answered with what the effect says (R350). -/
theorem accepted_command (type : Nat) (f : Session → State → Answer) (after : Session → Code → State → State) :
    (s.odrenIn h.relayed body true).command h type f after opening =
      after (s.holder h body z) (f (s.holder h body z) (s.taken h body z)).2.1
        ((f (s.holder h body z) (s.taken h body z)).1.respond h.session type h.seq
          (f (s.holder h body z) (s.taken h body z)).2.1 (f (s.holder h body z) (s.taken h body z)).2.2) := by
  have ⟨_, _, _, _, _, hshape⟩ := ha
  exact State.command_taken (accepted_receive ha body type) hshape

end

/-- Taking a message touches the port's records only. -/
theorem State.taken_portOnly (s : State) (h : Hdr) (body : Nat) (z : Session) : s.PortOnly (s.taken h body z) :=
  ((s.odrenIn_portOnly h.relayed body true).trans (State.hear_portOnly _ h z)).trans (State.putSession_portOnly _ _)

theorem State.PortOnly.lit {s t : State} (h : s.PortOnly t) : t.lit = s.lit := by rw [h]; rfl

/-- A command of LIT state, accepted while LIT, has its effect and is answered with what the effect says (R350, R394). -/
theorem accepted_litCommand {s : State} {h : Hdr} {z : Session} (ha : Accepted s h z) (hlit : s.lit = true) (body type : Nat)
    (f : Session → State → Answer) :
    (s.odrenIn h.relayed body true).litCommand h type f =
      (f (s.holder h body z) (s.taken h body z)).1.respond h.session type h.seq
        (f (s.holder h body z) (s.taken h body z)).2.1 (f (s.holder h body z) (s.taken h body z)).2.2 := by
  have htaken : (s.taken h body z).lit = true := (s.taken_portOnly h body z).lit.trans hlit
  simp only [State.litCommand, accepted_command ha, htaken, if_true]

/-! ### Answering it -/

theorem State.respond_outbox {s : State} {id : W32} {x : Session} (h : s.session? id = some x) (type seq : Nat) (c : Code)
    (body : List Byte) :
    (s.respond id type seq c body).outbox = s.outbox ++ [.response x.mac x.relayed ⟨type, id, seq, c, false, body⟩] := by
  simp only [State.respond, h, State.sendResponse]
  split <;> simp [State.out]

/-- A command that answers in the state in which it was taken answers last of all. -/
theorem accepted_responds {s : State} {h : Hdr} {z : Session} {opening : Bool} (ha : Accepted s h z opening)
    (body type : Nat) (c : Code) (bs : List Byte) :
    Responds (s.taken h body z) ((s.taken h body z).respond h.session type h.seq c bs) h type c bs :=
  ⟨_, _, State.respond_outbox (accepted_taken_session? ha body) type h.seq c bs⟩

/-! ### The fabric while a message is taken -/

/-- Of the fabric's records only the links' queues may differ: what a relayed message leaves there (R360). -/
def State.LinksOnly (s t : State) : Prop := t.tth = { s.tth with links := t.tth.links }

theorem State.LinksOnly.trans {s t u : State} (h : s.LinksOnly t) (k : t.LinksOnly u) : s.LinksOnly u := by
  unfold State.LinksOnly at *
  rw [k, h]

theorem State.relayOut_linksOnly (s : State) (mac : BitVec 48) (inner : List Byte) : s.LinksOnly (s.relayOut mac inner) := by
  simp only [State.relayOut]
  split
  · split <;> rfl
  · rfl

theorem State.sendAttention_linksOnly (s : State) (mac : BitVec 48) (id : W32) (m : AttnMsg) :
    s.LinksOnly (s.sendAttention mac id m) := by
  simp only [State.sendAttention]
  split
  · rfl
  · exact State.relayOut_linksOnly (s.out _) mac _

theorem State.firstSend_linksOnly (s : State) (slot : Nat) : s.LinksOnly (s.firstSend slot) := by
  rcases s.firstSend_cases slot with e | ⟨x, q, m, -, e⟩ <;> rw [e]
  · rfl
  · exact State.sendAttention_linksOnly (s.putSession _) _ _ _

theorem State.overflowNotice_linksOnly (s : State) (slot : Nat) : s.LinksOnly (s.overflowNotice slot) := by
  simp only [State.overflowNotice]
  split
  · rfl
  · split
    · rfl
    · exact State.firstSend_linksOnly (s.putSession _) slot

theorem State.openSession_linksOnly (s : State) (x : Session) : s.LinksOnly (s.openSession x) := by
  simp only [State.openSession]
  split
  · refine State.LinksOnly.trans ?_ (State.overflowNotice_linksOnly _ _)
    exact State.LinksOnly.trans (t := State.putSession { s with odn := { s.odn with occurs := [] } } _) rfl
      (State.firstSend_linksOnly _ _)
  · rfl

theorem State.taken_linksOnly (s : State) (h : Hdr) (body : Nat) (z : Session) : s.LinksOnly (s.taken h body z) := by
  have hin : s.LinksOnly (s.odrenIn h.relayed body true) := by
    simp only [State.odrenIn]
    split <;> rfl
  have hhear (t : State) : t.LinksOnly (t.hear h z) := by
    simp only [State.hear]
    split
    · exact State.openSession_linksOnly _ _
    · rfl
  exact (hin.trans (hhear _)).trans rfl

/-- Which devices a packet finds a route to is the same once a message is taken. -/
theorem State.taken_reachable (s : State) (h : Hdr) (body : Nat) (z : Session) (dest : Nat) :
    (s.taken h body z).reachable dest = s.reachable dest := by
  have hport := s.taken_portOnly h body z
  rw [State.PortOnly, s.taken_linksOnly h body z] at hport
  rw [hport]
  rfl

end Sys2Proof.Machine

/-!
The session commands POOL_READ and POOL_WRITE (R31, R351, R356): a local access that goes on, one that is refused, and
one of another device.
-/
namespace Sys2Proof.Machine
open Sys2Proof

/-! ### What an access asks of the state -/

theorem State.PortOnly.device {s t : State} (h : s.PortOnly t) : t.device = s.device := by rw [h]; rfl

theorem State.PortOnly.partsCheck {s t : State} (h : s.PortOnly t) (ps : List (Nat × Nat)) :
    t.partsCheck ps = s.partsCheck ps := by
  have hpart (p n : Nat) : t.partCheck p n = s.partCheck p n := by rw [h]; rfl
  induction ps with
  | nil => rfl
  | cons e r ih =>
    obtain ⟨p, n⟩ := e
    simp only [State.partsCheck, hpart, ih]

theorem State.PortOnly.accessCheck {s t : State} (h : s.PortOnly t) (a n : Nat) :
    t.accessCheck a n = s.accessCheck a n := by
  simp only [State.accessCheck, h.partsCheck]

theorem State.PortOnly.accessWaits {s t : State} (h : s.PortOnly t) (a n : Nat) :
    t.accessWaits a n = s.accessWaits a n := by
  have hbank (p : Nat) : t.bankWaits p = s.bankWaits p := by rw [h]; rfl
  simp only [State.accessWaits, h.accessCheck, hbank]

/-- Who queues behind an earlier request depends on the requests that wait, which are no record of the port. -/
theorem State.PortOnly.queues {s t : State} (h : s.PortOnly t) (w : VaultWait) (closed : Bool) :
    t.queues w closed = s.queues w closed := by
  simp only [State.queues, h.power]

theorem State.PortOnly.mayPool {s t : State} (h : s.PortOnly t) {x z : Session} (hrole : x.role = z.role) (write : Bool)
    (addr : W64) (n : Nat) : t.mayPool x write addr n = s.mayPool z write addr n := by
  have hop (ps : List (Nat × Nat)) : t.operatorMay write ps = s.operatorMay write ps := by rw [h]; rfl
  simp only [State.mayPool, hrole, hop]

/-! ### The checked accesses -/

theorem State.checkedRead_ok {s : State} {a n : Nat} {ps : List (Nat × Nat)} (h : s.accessCheck a n = .ok ps) :
    s.checkedRead a n = .ok (s.readParts ps) := by
  simp only [State.checkedRead, h]

theorem State.checkedRead_error {s : State} {a n : Nat} {c : Code} (h : s.accessCheck a n = .error c) :
    s.checkedRead a n = .error c := by
  simp only [State.checkedRead, h]

theorem State.checkedWrite_ok {s : State} {a : Nat} {bs : List Byte} {bad : Nat → Bool} {ps : List (Nat × Nat)}
    (h : s.accessCheck a bs.length = .ok ps) : s.checkedWrite a bs bad = .ok (s.writeParts ps bs bad 0) := by
  simp only [State.checkedWrite, h]

theorem State.checkedWrite_error {s : State} {a : Nat} {bs : List Byte} {bad : Nat → Bool} {c : Code}
    (h : s.accessCheck a bs.length = .error c) : s.checkedWrite a bs bad = .error c := by
  simp only [State.checkedWrite, h]

/-! ### What a pool command comes to -/

section
variable {t : State} {x : Session} {seq : Nat} {addr : W64}

theorem State.doPoolRead_local {len : Nat} (hlen : poolLenOk len = true) (hmay : t.mayPool x false addr len = true)
    (hown : poolDevice addr = t.device)
    (hgo : t.queues (.read x.id seq addr len) (t.accessWaits (poolLocal addr) len) = false) :
    t.doPoolRead x seq addr len = t.localRead addr len := by
  simp [State.doPoolRead, hlen, hmay, hown, hgo]

theorem State.doPoolRead_remote {len : Nat} (hlen : poolLenOk len = true) (hmay : t.mayPool x false addr len = true)
    (hown : poolDevice addr ≠ t.device) (hroute : t.reachable (poolDevice addr) = true) :
    t.doPoolRead x seq addr len =
      let q := t.request (poolDevice addr) 0x02 (natLe 8 addr.toNat ++ natLe 4 len ++ zeros 4)
      q.2.pend x tyPoolRead seq (.poolRead q.1) none := by
  simp [State.doPoolRead, hlen, hmay, hown, hroute]

theorem State.doPoolWrite_local {data : List Byte} (hlen : poolLenOk data.length = true)
    (hmay : t.mayPool x true addr data.length = true) (hown : poolDevice addr = t.device)
    (hgo : t.queues (.write x.id seq addr data) (t.accessWaits (poolLocal addr) data.length) = false) :
    t.doPoolWrite x seq addr data = t.localWrite addr data := by
  simp [State.doPoolWrite, hlen, hmay, hown, hgo]

theorem State.doPoolWrite_remote {data : List Byte} (hlen : poolLenOk data.length = true)
    (hmay : t.mayPool x true addr data.length = true) (hown : poolDevice addr ≠ t.device)
    (hroute : t.reachable (poolDevice addr) = true) :
    t.doPoolWrite x seq addr data =
      let q := t.request (poolDevice addr) 0x04 (natLe 8 addr.toNat ++ natLe 4 data.length ++ zeros 4 ++ data)
      q.2.pend x tyPoolWrite seq (.poolWrite q.1) none := by
  simp [State.doPoolWrite, hlen, hmay, hown, hroute]

end

@[simp] theorem State.request_mem (s : State) (dest kind : Nat) (body : List Byte) :
    (s.request dest kind body).2.mem = s.mem := by
  simp [State.request, State.newTag]

@[simp] theorem State.pend_mem (s : State) (x : Session) (type seq : Nat) (w : PendWork) (r : Option (Code × List Byte)) :
    (s.pend x type seq w r).1.mem = s.mem := by
  simp only [State.pend]
  split <;> simp

@[simp] theorem State.pend_status (s : State) (x : Session) (type seq : Nat) (w : PendWork)
    (r : Option (Code × List Byte)) : (s.pend x type seq w r).2 = (C.PENDING, []) := rfl

/-! ### The commands, accepted in LIT state -/

theorem exec_poolRead (h : Hdr) (addr : W64) (len : Nat) (s : State) :
    exec (.poolRead h addr len) s = .next (s.holdFlash ((s.odrenIn h.relayed 16 true).litCommand h tyPoolRead
      (fun x t => t.doPoolRead x h.seq addr len))) := rfl

theorem exec_poolWrite (h : Hdr) (addr : W64) (data : List Byte) (s : State) :
    exec (.poolWrite h addr data) s = .next (s.holdFlash ((s.odrenIn h.relayed (16 + data.length) true).litCommand h
      tyPoolWrite (fun x t => t.doPoolWrite x h.seq addr data))) := rfl

section
variable {s : State} {h : Hdr} {addr : W64} {z : Session} (ha : Accepted s h z) (hlit : s.lit = true)
include ha hlit

theorem exec_poolRead_accepted (len : Nat) :
    let a := (s.taken h 16 z).doPoolRead (s.holder h 16 z) h.seq addr len
    exec (.poolRead h addr len) s = .next (s.holdFlash (a.1.respond h.session tyPoolRead h.seq a.2.1 a.2.2)) := by
  rw [exec_poolRead, accepted_litCommand ha hlit]

theorem exec_poolWrite_accepted (data : List Byte) :
    let a := (s.taken h (16 + data.length) z).doPoolWrite (s.holder h (16 + data.length) z) h.seq addr data
    exec (.poolWrite h addr data) s = .next (s.holdFlash (a.1.respond h.session tyPoolWrite h.seq a.2.1 a.2.2)) := by
  rw [exec_poolWrite, accepted_litCommand ha hlit]

/-- A read of this device's own memory that does not wait. -/
theorem exec_poolRead_local {len : Nat} (hlen : poolLenOk len = true) (hmay : s.mayPool z false addr len = true)
    (hown : poolDevice addr = s.device)
    (hgo : s.queues (.read z.id h.seq addr len) (s.accessWaits (poolLocal addr) len) = false) :
    let a := (s.taken h 16 z).localRead addr len
    exec (.poolRead h addr len) s = .next (s.holdFlash (a.1.respond h.session tyPoolRead h.seq a.2.1 a.2.2)) := by
  have hp := s.taken_portOnly h 16 z
  obtain ⟨hid, -, hrole, -⟩ := accepted_holder ha 16
  rw [← State.doPoolRead_local (x := s.holder h 16 z) (seq := h.seq) hlen ((hp.mayPool hrole ..).trans hmay)
    (hown.trans hp.device.symm) (by rw [hp.queues, hp.accessWaits, hid]; exact hgo)]
  exact exec_poolRead_accepted ha hlit len

/-- A read of another device's memory goes to its owner, and the command is PENDING. -/
theorem exec_poolRead_remote {len : Nat} (hlen : poolLenOk len = true) (hmay : s.mayPool z false addr len = true)
    (hown : poolDevice addr ≠ s.device) (hroute : s.reachable (poolDevice addr) = true) :
    let q := (s.taken h 16 z).request (poolDevice addr) 0x02 (natLe 8 addr.toNat ++ natLe 4 len ++ zeros 4)
    let a := q.2.pend (s.holder h 16 z) tyPoolRead h.seq (.poolRead q.1) none
    exec (.poolRead h addr len) s = .next (s.holdFlash (a.1.respond h.session tyPoolRead h.seq C.PENDING [])) := by
  have hp := s.taken_portOnly h 16 z
  obtain ⟨-, -, hrole, -⟩ := accepted_holder ha 16
  have hdo := State.doPoolRead_remote (x := s.holder h 16 z) (seq := h.seq) hlen ((hp.mayPool hrole ..).trans hmay)
    (hp.device.symm ▸ hown) ((s.taken_reachable h 16 z _).trans hroute)
  simpa only [hdo, State.pend_status] using exec_poolRead_accepted (addr := addr) ha hlit len

/-- A write of this device's own memory that does not wait. -/
theorem exec_poolWrite_local {data : List Byte} (hlen : poolLenOk data.length = true)
    (hmay : s.mayPool z true addr data.length = true) (hown : poolDevice addr = s.device)
    (hgo : s.queues (.write z.id h.seq addr data) (s.accessWaits (poolLocal addr) data.length) = false) :
    let a := (s.taken h (16 + data.length) z).localWrite addr data
    exec (.poolWrite h addr data) s = .next (s.holdFlash (a.1.respond h.session tyPoolWrite h.seq a.2.1 a.2.2)) := by
  have hp := s.taken_portOnly h (16 + data.length) z
  obtain ⟨hid, -, hrole, -⟩ := accepted_holder ha (16 + data.length)
  rw [← State.doPoolWrite_local (x := s.holder h (16 + data.length) z) (seq := h.seq) hlen
    ((hp.mayPool hrole ..).trans hmay) (hown.trans hp.device.symm) (by rw [hp.queues, hp.accessWaits, hid]; exact hgo)]
  exact exec_poolWrite_accepted ha hlit data

/-- A write of another device's memory goes to its owner, and the command is PENDING. -/
theorem exec_poolWrite_remote {data : List Byte} (hlen : poolLenOk data.length = true)
    (hmay : s.mayPool z true addr data.length = true) (hown : poolDevice addr ≠ s.device)
    (hroute : s.reachable (poolDevice addr) = true) :
    let q := (s.taken h (16 + data.length) z).request (poolDevice addr) 0x04
      (natLe 8 addr.toNat ++ natLe 4 data.length ++ zeros 4 ++ data)
    let a := q.2.pend (s.holder h (16 + data.length) z) tyPoolWrite h.seq (.poolWrite q.1) none
    exec (.poolWrite h addr data) s = .next (s.holdFlash (a.1.respond h.session tyPoolWrite h.seq C.PENDING [])) := by
  have hp := s.taken_portOnly h (16 + data.length) z
  obtain ⟨-, -, hrole, -⟩ := accepted_holder ha (16 + data.length)
  have hdo := State.doPoolWrite_remote (x := s.holder h (16 + data.length) z) (seq := h.seq) hlen
    ((hp.mayPool hrole ..).trans hmay) (hp.device.symm ▸ hown) ((s.taken_reachable h (16 + data.length) z _).trans hroute)
  simpa only [hdo, State.pend_status] using exec_poolWrite_accepted (addr := addr) ha hlit data

end

/-- What touches the port's records only keeps the registers, the stores and the runs. -/
theorem State.PortOnly.kept {s t : State} (h : s.PortOnly t) : t.regs = s.regs ∧ StoresKept s t ∧ RunsKept s t := by
  refine ⟨h.regs, ⟨h.mem, h.core, h.fuses, h.flash, h.image⟩, h.runs, h.work, h.disp, ?_, ?_⟩ <;> rw [h]

theorem State.PortOnly.holdFlash {s t : State} (h : s.PortOnly t) : s.holdFlash t = t :=
  State.holdFlash_self h.pending h.fuses h.flash

/-- A refused command of an accepted message: its answer is sent, and nothing but the port's records changes. -/
theorem accepted_refused {s : State} {h : Hdr} {z : Session} (ha : Accepted s h z) (body type : Nat) (c : Code) :
    let t := s.taken h body z
    let u := s.holdFlash (t.respond h.session type h.seq c [])
    Responds t u h type c [] ∧ u.regs = s.regs ∧ StoresKept s u ∧ RunsKept s u := by
  intro t u
  have hp : s.PortOnly (t.respond h.session type h.seq c []) :=
    (s.taken_portOnly h body z).trans (State.respond_portOnly ..)
  have hu : u = t.respond h.session type h.seq c [] := hp.holdFlash
  rw [hu]
  exact ⟨accepted_responds ha body type c [], hp.kept⟩

/-- Settles O11: each command is executed in the state `taken`, where its checks come to the same as before. -/
theorem poolReadWrite : Obligations.PoolReadWrite := by
  unfold Obligations.PoolReadWrite
  intro s h addr z ha hlit
  constructor
  · intro len hmin hmax hmay
    have hlen : poolLenOk len = true := decide_eq_true ⟨hmin, hmax⟩
    have hp := s.taken_portOnly h 16 z
    refine ⟨fun ps hown hgo hok => ?_, fun c hown hgo herr => ?_, fun hown hroute => ?_⟩
    · have hread := State.checkedRead_ok ((hp.accessCheck _ _).trans hok)
      refine ⟨_, exec_poolRead_local ha hlit hlen hmay hown hgo, ?_⟩
      simp only [State.localRead, hread, State.ok]
    · have hread := State.checkedRead_error ((hp.accessCheck _ _).trans herr)
      refine ⟨_, exec_poolRead_local ha hlit hlen hmay hown hgo, ?_⟩
      simp only [State.localRead, hread, State.refuse]
      exact accepted_refused ha 16 tyPoolRead c
    · refine ⟨_, exec_poolRead_remote ha hlit hlen hmay hown hroute, rfl, ?_⟩
      simpa using hp.mem
  · intro data hmin hmax hmay
    have hlen : poolLenOk data.length = true := decide_eq_true ⟨hmin, hmax⟩
    have hp := s.taken_portOnly h (16 + data.length) z
    refine ⟨fun ps hown hgo hok => ?_, fun c hown hgo herr => ?_, fun hown hroute => ?_⟩
    · have hwrite := State.checkedWrite_ok (bad := noPoison) ((hp.accessCheck _ _).trans hok)
      refine ⟨_, exec_poolWrite_local ha hlit hlen hmay hown hgo, ?_⟩
      simp only [State.localWrite, hwrite, State.ok]
      refine ⟨trivial, fun hwf => ?_⟩
      simp only [State.holdFlash_mem, State.respond_mem]
      exact State.writeParts_wf ps _ data noPoison 0 (hp.mem.symm ▸ hwf)
    · have hwrite := State.checkedWrite_error (bad := noPoison) ((hp.accessCheck _ _).trans herr)
      refine ⟨_, exec_poolWrite_local ha hlit hlen hmay hown hgo, ?_⟩
      simp only [State.localWrite, hwrite, State.refuse]
      exact accepted_refused ha (16 + data.length) tyPoolWrite c
    · refine ⟨_, exec_poolWrite_remote ha hlit hlen hmay hown hroute, rfl, ?_⟩
      simpa using hp.mem

end Sys2Proof.Machine

/-!
Pool accesses between devices (R31, R329): the owner's part, the answers that a requester takes, and the time-out of a
request.
-/
namespace Sys2Proof.Machine
open Sys2Proof

/-! ### The commands -/

theorem exec_poolReadReq (source : BitVec 20) (tag : Nat) (addr : W64) (len : Nat) (s : State) :
    exec (.poolReadReq source tag addr len) s = .next (s.holdFlash (poolReadReq source tag addr len s)) := rfl

theorem exec_poolWritePacket (source : BitVec 20) (tag : Nat) (addr : W64) (data : List Byte) (poison : List Nat)
    (s : State) : exec (.poolWritePacket source tag addr data poison) s =
      .next (s.holdFlash (poolWritePacket source tag addr data poison s)) := rfl

theorem exec_poolReadResp (source : BitVec 20) (tag : Nat) (status : Code) (data : List Byte) (s : State) :
    exec (.poolReadResp source tag status data) s =
      .next (s.holdFlash ((poolReadResp source tag status data s).runsReady)) := rfl

theorem exec_poolWriteAck (source : BitVec 20) (tag : Nat) (status : Code) (s : State) :
    exec (.poolWriteAck source tag status) s = .next (s.holdFlash (if s.awaits source tag then
      ((poolWriteAck source tag status s).published tag status).settleAll else poolWriteAck source tag status s)) := rfl

theorem exec_poolTimeout (tag : Nat) (s : State) :
    exec (.poolTimeout tag) s = .next (s.holdFlash ((if (poolTimeout tag s).tth.reqs == s.tth.reqs then poolTimeout tag s
      else ((poolTimeout tag s).published tag C.POOL_TIMEOUT).runsReady).settleAll)) := rfl

/-! ### The owner's part -/

@[simp] theorem State.takeInbox_mem (s : State) (kind : Nat) (source : BitVec 20) :
    (s.takeInbox kind source).mem = s.mem := rfl

section
variable {s : State} {source : BitVec 20} {tag : Nat} {addr : W64}

theorem State.ownerRead_ok {len : Nat} {bs : List (Byte × Bool)} {v : State}
    (hgo : s.queues (.peerRead source tag addr len) (s.accessWaits (poolLocal addr) len) = false)
    (hok : s.checkedRead (poolLocal addr) len = .ok (bs, v)) :
    s.ownerRead source tag addr len = v.injectBody source.toNat 1 0x03 tag (zeros 8 ++ bs.map (·.1)) := by
  simp [State.ownerRead, hgo, hok]

theorem State.ownerRead_error {len : Nat} {c : Code}
    (hgo : s.queues (.peerRead source tag addr len) (s.accessWaits (poolLocal addr) len) = false)
    (herr : s.checkedRead (poolLocal addr) len = .error c) :
    s.ownerRead source tag addr len = s.injectBody source.toNat 1 0x03 tag (natLe 2 c.toNat ++ zeros 6) := by
  simp [State.ownerRead, hgo, herr]

variable {data : List Byte} {poison : List Nat}

theorem State.ownerWrite_ok {v : State}
    (hgo : s.queues (.peerWrite source tag addr data poison) (s.accessWaits (poolLocal addr) data.length) = false)
    (hok : s.checkedWrite (poolLocal addr) data (fun i => poison.contains i) = .ok v) :
    s.ownerWrite source tag addr data poison = v.injectBody source.toNat 1 0x05 tag (zeros 8) := by
  simp only [State.ownerWrite, hgo, hok, Bool.false_eq_true, if_false]

theorem State.ownerWrite_error {c : Code}
    (hgo : s.queues (.peerWrite source tag addr data poison) (s.accessWaits (poolLocal addr) data.length) = false)
    (herr : s.checkedWrite (poolLocal addr) data (fun i => poison.contains i) = .error c) :
    s.ownerWrite source tag addr data poison = s.injectBody source.toNat 1 0x05 tag (natLe 2 c.toNat ++ zeros 6) := by
  simp only [State.ownerWrite, hgo, herr, Bool.false_eq_true, if_false]

end

theorem poolReadReq_lit {s : State} (h : s.lit = true) (source : BitVec 20) (tag : Nat) (addr : W64) (len : Nat) :
    poolReadReq source tag addr len s = (s.takeInbox 0x02 source).ownerRead source tag addr len := by
  simp [poolReadReq, h]

theorem poolWritePacket_lit {s : State} (h : s.lit = true) (source : BitVec 20) (tag : Nat) (addr : W64)
    (data : List Byte) (poison : List Nat) :
    poolWritePacket source tag addr data poison s = (s.takeInbox 0x04 source).ownerWrite source tag addr data poison := by
  simp [poolWritePacket, h]

/-! ### Where no RUN waits -/

/-- No command that waits is a RUN whose indexes are being read (R62 check 10). -/
def State.NoRunWaits (s : State) : Prop := ∀ x ∈ s.odn.sessions, ∀ e ∈ x.pends, ∀ b as ks, e.work ≠ .run b as ks

theorem State.NoRunWaits.of_odn {s t : State} (h : s.NoRunWaits) (e : t.odn = s.odn) : t.NoRunWaits := by
  rw [State.NoRunWaits, e]
  exact h

/-- Ending the work of a command leaves what the work was. -/
theorem State.NoRunWaits.settlePend {s : State} (h : s.NoRunWaits) (p : PendWork → Bool) (c : Code) (body : List Byte) :
    (s.settlePend p c body).NoRunWaits := by
  intro x hx e he
  obtain ⟨y, hy, rfl⟩ := List.mem_map.mp hx
  obtain ⟨d, hd, rfl⟩ := List.mem_map.mp he
  have hwork : (if p d.work then { d with result := some (c, body) } else d).work = d.work := by split <;> rfl
  rw [hwork]
  exact h y hy d hd

theorem PendWork.indexRead_of_ne_run {w : PendWork} (h : ∀ b as ks, w ≠ .run b as ks) (tag : Nat) (v : Option W64) :
    w.indexRead tag v = w := by
  cases w with
  | run b as ks => exact absurd rfl (h b as ks)
  | _ => rfl

/-- An index that no RUN waits for is taken by none. -/
theorem State.NoRunWaits.indexAnswered {s : State} (h : s.NoRunWaits) (tag : Nat) (v : Option W64) :
    s.indexAnswered tag v = s := by
  have hpends : ∀ x ∈ s.odn.sessions,
      { x with pends := x.pends.map (fun e => { e with work := e.work.indexRead tag v }) } = x := by
    intro x hx
    have hmap : x.pends.map (fun e => { e with work := e.work.indexRead tag v }) = x.pends.map id :=
      List.map_congr_left fun e he => by rw [PendWork.indexRead_of_ne_run (h x hx e he)]; rfl
    rw [hmap, List.map_id]
  rw [State.indexAnswered, List.map_congr_left (g := id) hpends, List.map_id]

/-- No RUN is ready. -/
theorem State.NoRunWaits.runsReady {s : State} (h : s.NoRunWaits) : s.runsReady = s := by
  refine List.foldlRecOn (motive := fun t => t = s) _ _ rfl fun t ht x hx => ?_
  refine List.foldlRecOn (motive := fun t => t = s) _ _ ht fun u hu e he => ?_
  split
  · rename_i b ks hwork _
    exact absurd hwork (h x hx e he b [] ks)
  · exact hu

/-! ### The answers -/

/-- The requests that are left once the one of a TAG and an owner is taken off (R329). -/
def State.offRequest (s : State) (source : BitVec 20) (tag : Nat) : State :=
  { s with tth := { s.tth with reqs := s.tth.reqs.filter (fun q => !(q.tag == tag && q.dest == source)) } }

theorem State.offRequest_gone (s : State) (source : BitVec 20) (tag : Nat) :
    ∀ q ∈ (s.offRequest source tag).tth.reqs, ¬ (q.tag = tag ∧ q.dest = source) := by
  intro q hq ⟨htag, hdest⟩
  have hkept := (List.mem_filter.mp hq).2
  simp only [htag, hdest, beq_self_eq_true, Bool.and_self, Bool.not_true, Bool.false_eq_true] at hkept

theorem State.takeRequest_some {s : State} {source : BitVec 20} {tag : Nat} {r : PoolReq}
    (h : s.tth.reqs.find? (fun r => r.tag == tag && r.dest == source) = some r) :
    s.takeRequest source tag = (some r, s.offRequest source tag) := by
  simp only [State.takeRequest, h]
  rfl

theorem State.takeRequest_none {s : State} {source : BitVec 20} {tag : Nat}
    (h : s.tth.reqs.find? (fun r => r.tag == tag && r.dest == source) = none) :
    s.takeRequest source tag = (none, s) := by
  simp only [State.takeRequest, h]

theorem State.awaits_eq_find? (s : State) (source : BitVec 20) (tag : Nat) :
    s.awaits source tag = (s.tth.reqs.find? (fun r => r.tag == tag && r.dest == source)).isSome := by
  rw [Bool.eq_iff_iff, State.awaits, List.find?_isSome, List.any_eq_true]

theorem poolReadResp_some {s : State} {source : BitVec 20} {tag : Nat} {r : PoolReq}
    (h : s.tth.reqs.find? (fun r => r.tag == tag && r.dest == source) = some r) (status : Code) (data : List Byte) :
    poolReadResp source tag status data s =
      ((((s.takeInbox 0x03 source).offRequest source tag).settlePend (isPoolRead tag) status
        (if status = C.OK then data else [])).indexAnswered tag
          (if status = C.OK ∧ data.length = 8 then some (BitVec.ofNat 64 (leNat data)) else none)) := by
  have htake := State.takeRequest_some (s := s.takeInbox 0x03 source) h
  simp only [poolReadResp, htake]

theorem poolReadResp_none {s : State} {source : BitVec 20} {tag : Nat}
    (h : s.tth.reqs.find? (fun r => r.tag == tag && r.dest == source) = none) (status : Code) (data : List Byte) :
    poolReadResp source tag status data s = s.takeInbox 0x03 source := by
  have htake := State.takeRequest_none (s := s.takeInbox 0x03 source) h
  simp only [poolReadResp, htake]

theorem poolWriteAck_some {s : State} {source : BitVec 20} {tag : Nat} {r : PoolReq}
    (h : s.tth.reqs.find? (fun r => r.tag == tag && r.dest == source) = some r) (status : Code) :
    ∃ version, poolWriteAck source tag status s =
      ((((s.takeInbox 0x05 source).offRequest source tag).draw.2.settlePend (isPoolWrite tag) status []).settlePend
        (isRowWrite tag) status version) := by
  have htake := State.takeRequest_some (s := s.takeInbox 0x05 source) h
  simp only [poolWriteAck, htake]
  exact ⟨_, rfl⟩

theorem poolWriteAck_none {s : State} {source : BitVec 20} {tag : Nat}
    (h : s.tth.reqs.find? (fun r => r.tag == tag && r.dest == source) = none) (status : Code) :
    poolWriteAck source tag status s = s.takeInbox 0x05 source := by
  have htake := State.takeRequest_none (s := s.takeInbox 0x05 source) h
  simp only [poolWriteAck, htake]

/-! ### The time-out -/

theorem poolTimeout_due {s : State} {tag : Nat} {r : PoolReq} (h : s.tth.reqs.find? (·.tag == tag) = some r)
    (hdue : r.sentAt + 2 * s.fget F.TTH_CTL_LIFETIME_US * 1000 ≤ s.now) :
    poolTimeout tag s =
      ((({ s with tth := { s.tth with reqs := s.tth.reqs.filter (·.tag != tag) } } : State).settlePend
        (fun w => isPoolRead tag w || isPoolWrite tag w || isRowWrite tag w) C.POOL_TIMEOUT []).indexAnswered tag none) := by
  simp only [poolTimeout, h, Nat.not_lt.mpr hdue, if_false]

/-- A request whose time is over is off the list, so the list has changed. -/
theorem poolTimeout_reqs {s : State} {tag : Nat} {r : PoolReq} (h : s.tth.reqs.find? (·.tag == tag) = some r)
    (hdue : r.sentAt + 2 * s.fget F.TTH_CTL_LIFETIME_US * 1000 ≤ s.now) :
    (∀ q ∈ (poolTimeout tag s).tth.reqs, q.tag ≠ tag) ∧ ((poolTimeout tag s).tth.reqs == s.tth.reqs) = false := by
  have hreqs : (poolTimeout tag s).tth.reqs = s.tth.reqs.filter (·.tag != tag) := by rw [poolTimeout_due h hdue]; rfl
  have hgone : ∀ q ∈ (poolTimeout tag s).tth.reqs, q.tag ≠ tag := by
    intro q hq
    rw [hreqs] at hq
    simpa using (List.mem_filter.mp hq).2
  refine ⟨hgone, beq_eq_false_iff_ne.mpr fun hsame => ?_⟩
  have hin : r ∈ (poolTimeout tag s).tth.reqs := hsame ▸ List.mem_of_find?_eq_some h
  exact hgone r hin (by simpa using List.find?_some h)

/-! ### The obligation, part by part -/

section
variable {s : State} {source : BitVec 20} {tag : Nat}

/-- A LIT owner whose vaults serve answers a read with its bytes, or with the code of its refusal. -/
theorem gives_poolReadReq {addr : W64} {len : Nat} (hlit : s.lit = true)
    (hgo : (s.takeInbox 0x02 source).queues (.peerRead source tag addr len)
      ((s.takeInbox 0x02 source).accessWaits (poolLocal addr) len) = false) :
    (∀ bs v, (s.takeInbox 0x02 source).checkedRead (poolLocal addr) len = .ok (bs, v) →
      Gives (.poolReadReq source tag addr len) s (fun u =>
        u = s.holdFlash (v.injectBody source.toNat 1 0x03 tag (zeros 8 ++ bs.map (·.1))))) ∧
    (∀ c, (s.takeInbox 0x02 source).checkedRead (poolLocal addr) len = .error c →
      Gives (.poolReadReq source tag addr len) s (fun u =>
        u = s.holdFlash ((s.takeInbox 0x02 source).injectBody source.toNat 1 0x03 tag (natLe 2 c.toNat ++ zeros 6)) ∧
          u.mem = s.mem)) := by
  constructor
  · intro bs v hok
    exact ⟨_, exec_poolReadReq .., by rw [poolReadReq_lit hlit, State.ownerRead_ok hgo hok]⟩
  · intro c herr
    refine ⟨_, exec_poolReadReq .., ?_⟩
    rw [poolReadReq_lit hlit, State.ownerRead_error hgo herr]
    simp

/-- A LIT owner whose vaults serve acknowledges a write once it is stored, or answers with the code of its refusal. -/
theorem gives_poolWritePacket {addr : W64} {data : List Byte} {poison : List Nat} (hlit : s.lit = true)
    (hgo : (s.takeInbox 0x04 source).queues (.peerWrite source tag addr data poison)
      ((s.takeInbox 0x04 source).accessWaits (poolLocal addr) data.length) = false) :
    (∀ v, (s.takeInbox 0x04 source).checkedWrite (poolLocal addr) data (fun i => poison.contains i) = .ok v →
      Gives (.poolWritePacket source tag addr data poison) s (fun u =>
        u = s.holdFlash (v.injectBody source.toNat 1 0x05 tag (zeros 8)) ∧
          (Memory.wf s.mem = true → Memory.wf u.mem = true))) ∧
    (∀ c, (s.takeInbox 0x04 source).checkedWrite (poolLocal addr) data (fun i => poison.contains i) = .error c →
      Gives (.poolWritePacket source tag addr data poison) s (fun u =>
        u = s.holdFlash ((s.takeInbox 0x04 source).injectBody source.toNat 1 0x05 tag (natLe 2 c.toNat ++ zeros 6)) ∧
          u.mem = s.mem)) := by
  constructor
  · intro v hok
    refine ⟨_, exec_poolWritePacket .., ?_⟩
    rw [poolWritePacket_lit hlit, State.ownerWrite_ok hgo hok]
    refine ⟨rfl, fun hwf => ?_⟩
    rw [State.holdFlash_mem, State.injectBody_mem]
    exact State.checkedWrite_wf (s.takeInbox 0x04 source) v _ data _ hwf hok
  · intro c herr
    refine ⟨_, exec_poolWritePacket .., ?_⟩
    rw [poolWritePacket_lit hlit, State.ownerWrite_error hgo herr]
    simp

/-- A matching response settles the read that waits and takes its request off. -/
theorem gives_poolReadResp_some {r : PoolReq} (h : s.tth.reqs.find? (fun r => r.tag == tag && r.dest == source) = some r)
    (hrun : s.NoRunWaits) (status : Code) (data : List Byte) :
    Gives (.poolReadResp source tag status data) s (fun u =>
      u.odn = (s.settlePend (isPoolRead tag) status (if status = C.OK then data else [])).odn ∧
      (∀ q ∈ u.tth.reqs, ¬ (q.tag = tag ∧ q.dest = source)) ∧ u.regs = s.regs ∧ StoresKept s u ∧ RunsKept s u) := by
  have hquiet := (hrun.of_odn (t := (s.takeInbox 0x03 source).offRequest source tag) rfl).settlePend (isPoolRead tag) status
    (if status = C.OK then data else [])
  have hp : s.PortOnly (((s.takeInbox 0x03 source).offRequest source tag).settlePend (isPoolRead tag) status
    (if status = C.OK then data else [])) := rfl
  refine ⟨_, exec_poolReadResp .., ?_⟩
  rw [poolReadResp_some h, hquiet.indexAnswered, hquiet.runsReady, hp.holdFlash]
  exact ⟨rfl, State.offRequest_gone (s.takeInbox 0x03 source) source tag, hp.kept⟩

/-- A matching acknowledgement settles the write that waits and takes its request off. -/
theorem gives_poolWriteAck_some {r : PoolReq} (h : s.tth.reqs.find? (fun r => r.tag == tag && r.dest == source) = some r)
    (status : Code) :
    Gives (.poolWriteAck source tag status) s (fun u => ∃ (body : List Byte) (v : State),
      u = s.holdFlash ((v.published tag status).settleAll) ∧
      v.odn = ((s.settlePend (isPoolWrite tag) status []).settlePend (isRowWrite tag) status body).odn ∧
      (∀ q ∈ v.tth.reqs, ¬ (q.tag = tag ∧ q.dest = source)) ∧ v.regs = s.regs ∧ StoresKept s v ∧ RunsKept s v) := by
  obtain ⟨version, hack⟩ := poolWriteAck_some h status
  have hawaits : s.awaits source tag = true := by rw [State.awaits_eq_find?, h]; rfl
  refine ⟨_, exec_poolWriteAck .., version, poolWriteAck source tag status s, by rw [if_pos hawaits], ?_⟩
  rw [hack]
  exact ⟨rfl, State.offRequest_gone (s.takeInbox 0x05 source) source tag, rfl, ⟨rfl, rfl, rfl, rfl, rfl⟩,
    ⟨rfl, rfl, rfl, rfl, rfl⟩⟩

/-- A response that matches no request is discarded. -/
theorem gives_poolReadResp_none (h : s.tth.reqs.find? (fun r => r.tag == tag && r.dest == source) = none)
    (hrun : s.NoRunWaits) (status : Code) (data : List Byte) :
    Gives (.poolReadResp source tag status data) s (fun u => u.odn = s.odn ∧ u.tth.reqs = s.tth.reqs) := by
  have hquiet := hrun.of_odn (t := s.takeInbox 0x03 source) rfl
  refine ⟨_, exec_poolReadResp .., ?_⟩
  rw [poolReadResp_none h, hquiet.runsReady]
  exact ⟨rfl, rfl⟩

/-- So is an acknowledgement. -/
theorem gives_poolWriteAck_none (h : s.tth.reqs.find? (fun r => r.tag == tag && r.dest == source) = none)
    (status : Code) :
    Gives (.poolWriteAck source tag status) s (fun u => u.odn = s.odn ∧ u.tth.reqs = s.tth.reqs) := by
  have hawaits : s.awaits source tag = false := by rw [State.awaits_eq_find?, h]; rfl
  refine ⟨_, exec_poolWriteAck .., ?_⟩
  rw [hawaits, poolWriteAck_none h]
  exact ⟨rfl, rfl⟩

/-- A request that has waited for twice LIFETIME_US fails. -/
theorem gives_poolTimeout_due {r : PoolReq} (h : s.tth.reqs.find? (·.tag == tag) = some r)
    (hdue : r.sentAt + 2 * s.fget F.TTH_CTL_LIFETIME_US * 1000 ≤ s.now) :
    Gives (.poolTimeout tag) s (fun u => ∃ v : State,
      u = s.holdFlash (((v.published tag C.POOL_TIMEOUT).runsReady).settleAll) ∧
      (s.NoRunWaits → v.odn =
        (s.settlePend (fun w => isPoolRead tag w || isPoolWrite tag w || isRowWrite tag w) C.POOL_TIMEOUT []).odn) ∧
      (∀ q ∈ v.tth.reqs, q.tag ≠ tag) ∧ v.regs = s.regs ∧ v.mem = s.mem) := by
  obtain ⟨hgone, hchanged⟩ := poolTimeout_reqs h hdue
  refine ⟨_, exec_poolTimeout .., poolTimeout tag s, ?_, fun hrun => ?_, hgone, ?_, ?_⟩
  · rw [hchanged]
    rfl
  · have hquiet := (hrun.of_odn (t := { s with tth := { s.tth with reqs := s.tth.reqs.filter (·.tag != tag) } })
      rfl).settlePend (fun w => isPoolRead tag w || isPoolWrite tag w || isRowWrite tag w) C.POOL_TIMEOUT []
    rw [poolTimeout_due h hdue, hquiet.indexAnswered]
    rfl
  all_goals rw [poolTimeout_due h hdue]; rfl

end

/-- Settles O12: the owner's part once the packet is taken from the inbox, then the three ways in which a request ends. -/
theorem poolAccessOfAnotherDevice : Obligations.PoolAccessOfAnotherDevice := by
  unfold Obligations.PoolAccessOfAnotherDevice
  intro s source tag addr noRun
  refine ⟨?_, ?_,
    fun status data r h => ⟨fun hrun => gives_poolReadResp_some h hrun status data, gives_poolWriteAck_some h status⟩,
    fun status data h => ⟨fun hrun => gives_poolReadResp_none h hrun status data, gives_poolWriteAck_none h status⟩,
    fun r h hdue => gives_poolTimeout_due h hdue⟩
  · intro len hlit t hgo
    exact gives_poolReadReq hlit hgo
  · intro data poison hlit t hgo
    exact gives_poolWritePacket hlit hgo

end Sys2Proof.Machine

/-!
Reads of memory and the runs (R33, R37): whatever a read repairs, counts or reports, the runs stay as they are.
-/
namespace Sys2Proof.Machine
open Sys2Proof

/-! ### What a word's failure does -/

@[simp] theorem State.bankBump_runs (s : State) (p : Nat) (fv fc : FRef) : (s.bankBump p fv fc).runs = s.runs := rfl
@[simp] theorem State.bankSet_runs (s : State) (p : Nat) (fv fc : FRef) (x : Nat) :
    (s.bankSet p fv fc x).runs = s.runs := rfl
@[simp] theorem State.errAddr_runs (s : State) (p : Nat) (a b : Bool) : (s.errAddr p a b).runs = s.runs := rfl

@[simp] theorem State.listPoison_runs (s : State) (w : Nat) : (s.listPoison w).runs = s.runs := by
  simp only [State.listPoison]
  split
  · rfl
  · split
    · rfl
    · simp

@[simp] theorem State.wordFails_runs (s : State) (p : Nat) (scrub : Bool) : (s.wordFails p scrub).runs = s.runs := by
  simp only [State.wordFails]
  split <;> simp

@[simp] theorem State.loseWord_runs (s : State) (p q : Nat) (scrub : Bool) : (s.loseWord p q scrub).runs = s.runs := by
  simp only [State.loseWord]
  split <;> simp

@[simp] theorem State.repairWord_runs (s : State) (p : Nat) (v : W64) (scrub : Bool) :
    (s.repairWord p v scrub).runs = s.runs := by
  simp [State.repairWord]

/-! ### Reads -/

@[simp] theorem State.readCopy_runs (s : State) (w : Nat) : (s.readCopy w).2.runs = s.runs := by
  simp only [State.readCopy]
  split
  · rfl
  · split
    · rfl
    · split <;> split <;> simp

@[simp] theorem State.readWord_runs (s : State) (w : Nat) (scrub : Bool) : (s.readWord w scrub).2.2.runs = s.runs := by
  have hcopy {t u : State} {p : Nat} {r : CopyRead} (e : t.readCopy p = (r, u)) : u.runs = t.runs := by
    rw [← t.readCopy_runs p, e]
  simp only [State.readWord]
  split
  case h_1 e => exact hcopy e
  case h_2 e => exact hcopy e
  case h_3 e =>
    have hfirst := hcopy e
    split
    · split
      · split
        · rename_i e'
          rw [State.repairWord_runs, hcopy e', hfirst]
        · rename_i e'
          rw [State.loseWord_runs, hcopy e', hfirst]
      · rw [State.loseWord_runs, hfirst]
    · rw [State.wordFails_runs, hfirst]

@[simp] theorem State.readWords_runs (fuel : Nat) (s : State) (p n : Nat) : (s.readWords fuel p n).2.runs = s.runs := by
  induction fuel generalizing s p n with
  | zero => rfl
  | succ k ih =>
    simp only [State.readWords]
    split
    · rfl
    · rw [ih, State.readWord_runs]

@[simp] theorem State.vaultRequest_runs (s : State) (v : Nat) : (s.vaultRequest v).runs = s.runs := by
  simp only [State.vaultRequest]
  split <;> rfl

@[simp] theorem State.portUse_runs (s : State) (p n : Nat) (write : Bool) : (s.portUse p n write).runs = s.runs := by
  simp only [State.portUse]
  split <;> simp

@[simp] theorem State.readParts_runs (s : State) (ps : List (Nat × Nat)) : (s.readParts ps).2.runs = s.runs := by
  induction ps generalizing s with
  | nil => rfl
  | cons e r ih =>
    obtain ⟨p, n⟩ := e
    simp only [State.readParts, ih, State.readWords_runs, State.portUse_runs]

theorem State.checkedRead_runs {s t : State} {a n : Nat} {bs : List (Byte × Bool)}
    (h : s.checkedRead a n = .ok (bs, t)) : t.runs = s.runs := by
  simp only [State.checkedRead] at h
  split at h
  · cases h
  · rename_i ps _
    rw [← s.readParts_runs ps, Except.ok.inj h]

/-! ### The indexes of a run's rings (R62 check 10) -/

@[simp] theorem State.ringIndex_runs (s : State) (known : KnownIndexes) (a : W64) :
    (s.ringIndex known a).2.runs = s.runs := by
  simp only [State.ringIndex]
  split
  · split
    · rfl
    · rename_i hread
      exact State.checkedRead_runs hread
  · rfl

@[simp] theorem State.ringOpen_runs (s : State) (known : KnownIndexes) (e : ArgEntry) :
    (s.ringOpen known e).2.runs = s.runs := by
  have hindex {t u : State} {a : W64} {w : Option Nat} (e : t.ringIndex known a = (w, u)) : u.runs = t.runs := by
    rw [← t.ringIndex_runs known a, e]
  simp only [State.ringOpen]
  split
  · rename_i hwrite
    exact hindex hwrite
  · rename_i hwrite
    split
    · rename_i hread
      exact (hindex hread).trans (hindex hwrite)
    · rename_i hread
      have hboth := (hindex hread).trans (hindex hwrite)
      split
      · exact (State.attn_runs ..).trans hboth
      · exact hboth

@[simp] theorem State.ringsOpen_runs (s : State) (known : KnownIndexes) (es : List ArgEntry) :
    (s.ringsOpen known es).2.runs = s.runs := by
  have hopen {t u : State} {e : ArgEntry} {g : Option Ring} (h : t.ringOpen known e = (g, u)) : u.runs = t.runs := by
    rw [← t.ringOpen_runs known e, h]
  induction es generalizing s with
  | nil => rfl
  | cons e r ih =>
    simp only [State.ringsOpen]
    split
    · rename_i hfirst
      exact hopen hfirst
    · rename_i t hfirst
      have hrest := ih t
      split <;> rename_i hr <;> rw [hr] at hrest <;> exact hrest.trans (hopen hfirst)

end Sys2Proof.Machine

/-!
The session commands RUN, CANCEL and QUERY (R62, R64, R65, R351).
-/
namespace Sys2Proof.Machine
open Sys2Proof

/-! ### The commands -/

theorem exec_run (h : Hdr) (b : RunBlock) (s : State) : exec (.run h b) s =
    .next (s.holdFlash (((s.odrenIn h.relayed (16 + 32 * b.entries.length) true).litCommand h tyRun
      (fun x t => t.doRun x h.seq b)).settleAll)) := rfl

theorem exec_cancel (h : Hdr) (n : W32) (s : State) : exec (.cancel h n) s =
    .next (s.holdData ((s.odrenIn h.relayed 8 true).command h tyCancel (fun x t => t.doCancel x n))) := rfl

theorem exec_query (h : Hdr) (n : W32) (s : State) : exec (.query h n) s =
    .next (s.holdData ((s.odrenIn h.relayed 8 true).command h tyQuery (fun _ t => t.doQuery n))) := rfl

/-! ### The checks of RUN (R62) -/

theorem State.PortOnly.runFirst {s t : State} (h : s.PortOnly t) (role : Role) (b : RunBlock) :
    t.runFirst role b = s.runFirst role b := by rw [h]; rfl

theorem State.PortOnly.freeRunSlot {s t : State} (h : s.PortOnly t) : t.freeRunSlot = s.freeRunSlot := by rw [h]; rfl

theorem State.PortOnly.indexReads {s t : State} (h : s.PortOnly t) (b : RunBlock) : t.indexReads b = s.indexReads b := by
  simp only [State.indexReads, h.device]

/-- A run that passes the first checks names a pipeline of the image and is not active. -/
theorem State.runFirst_ok {s : State} {role : Role} {b : RunBlock} {p : Pipeline} (h : s.runFirst role b = .ok p) :
    p ∈ s.pipelines ∧ p.number = b.pipeline ∧ ∀ r ∈ s.runs, r.run ≠ b.run := by
  rw [State.runFirst] at h
  iterate 3 (split at h; · cases h)
  rename_i hactive
  have hruns : ∀ r ∈ s.runs, r.run ≠ b.run := by simpa using hactive
  split at h
  · cases h
  · rename_i q hfind
    iterate 6 (split at h; · cases h)
    obtain rfl := Except.ok.inj h
    exact ⟨List.mem_of_find?_eq_some hfind, by simpa using List.find?_some hfind, hruns⟩

/-- The slot that an accepted run takes is one of the 64 and free. -/
theorem State.freeRunSlot_some {s : State} {k : Nat} (h : s.freeRunSlot = some k) :
    k < 64 ∧ ∀ r ∈ s.runs, r.slot ≠ k := by
  simp only [State.freeRunSlot] at h
  split at h
  · cases h
  · have hfree := List.find?_some h
    simp only [Bool.not_eq_true', List.any_eq_false, beq_iff_eq] at hfree
    exact ⟨List.mem_range.mp (List.mem_of_find?_eq_some h), hfree⟩

/-- What a run that passes every check is granted: its pipeline, the rings opened, and a slot free after that. -/
theorem State.runCheck_ok {s : State} {role : Role} {b : RunBlock} {known : KnownIndexes} {g : RunGrant}
    (h : s.runCheck role b known = .ok g) :
    s.runFirst role b = .ok g.pipe ∧ s.ringsOpen known (ringEntries b) = (some g.rings, g.state) ∧
      g.state.freeRunSlot = some g.slot := by
  simp only [State.runCheck] at h
  split at h; · cases h
  rename_i hfirst
  split at h; · cases h
  rename_i hrings
  iterate 2 (split at h; · cases h)
  rename_i hslot
  split at h; · cases h
  obtain rfl := Except.ok.inj h
  exact ⟨hfirst, hrings, hslot⟩

/-- The slot granted is free in the state before the checks, for reading the indexes starts and ends no run. -/
theorem State.runCheck_slot {s : State} {role : Role} {b : RunBlock} {known : KnownIndexes} {g : RunGrant}
    (h : s.runCheck role b known = .ok g) : g.slot < 64 ∧ ∀ r ∈ s.runs, r.slot ≠ g.slot := by
  obtain ⟨-, hrings, hslot⟩ := State.runCheck_ok h
  have hruns : g.state.runs = s.runs := by rw [← s.ringsOpen_runs known (ringEntries b), hrings]
  rw [← hruns]
  exact State.freeRunSlot_some hslot

/-- A run without rings is granted its slot in the state as it stands. -/
theorem State.runCheck_noRings {s : State} {role : Role} {b : RunBlock} {known : KnownIndexes} {p : Pipeline} {k : Nat}
    (hrings : ringEntries b = []) (hfirst : s.runFirst role b = .ok p) (hslot : s.freeRunSlot = some k)
    (hwatch : s.side.watches.length ≤ watchPlaces) : s.runCheck role b known = .ok ⟨p, [], k, s⟩ := by
  simp [State.runCheck, hfirst, hrings, State.ringsOpen, hslot, Nat.not_lt.mpr hwatch]

theorem State.indexReads_noRings {b : RunBlock} (hrings : ringEntries b = []) (s : State) : s.indexReads b = [] := by
  simp [State.indexReads, hrings]

/-! ### RUN -/

theorem State.doRun_error {s : State} {x : Session} {b : RunBlock} {c : Code} (h : s.runFirst x.role b = .error c)
    (seq : Nat) : s.doRun x seq b = s.refuse c := by
  simp only [State.doRun, h]

/-- With no index on another device, RUN starts the run that its checks grant. -/
theorem State.doRun_ok {s : State} {x : Session} {b : RunBlock} {g : RunGrant} (hnear : s.indexReads b = [])
    (h : s.runCheck x.role b = .ok g) (seq : Nat) :
    s.doRun x seq b = (g.state.startRun (x.role == .keeper) b g).ok (natLe 8 g.slot) := by
  obtain ⟨hfirst, -⟩ := State.runCheck_ok h
  simp [State.doRun, State.runNow, hnear, hfirst, h]

section
variable {s : State} {h : Hdr} {z : Session} (ha : Accepted s h z)
include ha

theorem exec_run_accepted (hlit : s.lit = true) (b : RunBlock) :
    let body := 16 + 32 * b.entries.length
    let a := (s.taken h body z).doRun (s.holder h body z) h.seq b
    exec (.run h b) s = .next (s.holdFlash ((a.1.respond h.session tyRun h.seq a.2.1 a.2.2).settleAll)) := by
  rw [exec_run, accepted_litCommand ha hlit]

/-- RUN with no index on another device that passes every check: the run starts, and its slot is the answer. -/
theorem exec_run_granted (hlit : s.lit = true) {b : RunBlock} {g : RunGrant} (hnear : s.indexReads b = [])
    (hg : (s.taken h (16 + 32 * b.entries.length) z).runCheck z.role b = .ok g) :
    exec (.run h b) s = .next (s.holdFlash
      (((g.state.startRun (z.role == .keeper) b g).respond h.session tyRun h.seq C.OK (natLe 8 g.slot)).settleAll)) := by
  have hp := s.taken_portOnly h (16 + 32 * b.entries.length) z
  obtain ⟨-, -, hrole, -⟩ := accepted_holder ha (16 + 32 * b.entries.length)
  rw [exec_run_accepted ha hlit,
    State.doRun_ok ((hp.indexReads b).trans hnear) (hrole.symm ▸ hg), hrole]
  rfl

/-- RUN that fails one of the first checks. -/
theorem exec_run_refused (hlit : s.lit = true) {b : RunBlock} {c : Code} (hc : s.runFirst z.role b = .error c) :
    exec (.run h b) s = .next (s.holdFlash
      (((s.taken h (16 + 32 * b.entries.length) z).respond h.session tyRun h.seq c []).settleAll)) := by
  have hp := s.taken_portOnly h (16 + 32 * b.entries.length) z
  obtain ⟨-, -, hrole, -⟩ := accepted_holder ha (16 + 32 * b.entries.length)
  rw [exec_run_accepted ha hlit, State.doRun_error (by rw [hrole, hp.runFirst, hc])]
  rfl

end

/-- What a granted run is given, in terms of the state in which its RUN arrived. -/
theorem taken_runCheck_ok {s : State} {h : Hdr} {body : Nat} {z : Session} {role : Role} {b : RunBlock} {g : RunGrant}
    (hg : (s.taken h body z).runCheck role b = .ok g) :
    g.slot < 64 ∧ (∀ r ∈ s.runs, r.slot ≠ g.slot ∧ r.run ≠ b.run) ∧ g.pipe ∈ s.pipelines ∧ g.pipe.number = b.pipeline := by
  have hp := s.taken_portOnly h body z
  obtain ⟨hfirst, -⟩ := State.runCheck_ok hg
  obtain ⟨hpipe, hnumber, hrun⟩ := State.runFirst_ok (hp.runFirst .. ▸ hfirst)
  obtain ⟨hlt, hslot⟩ := State.runCheck_slot hg
  exact ⟨hlt, fun r hr => ⟨hslot r (hp.runs ▸ hr), hrun r hr⟩, hpipe, hnumber⟩

/-! ### CANCEL -/

/-- CANCEL of an active run that the session may stop: only a RUNNING one changes. -/
theorem State.doCancel_active {s : State} {x : Session} {n : W32} {r : Run} (h : s.runByNumber n = some r)
    (hmay : x.role = .keeper ∨ r.keeper = false) :
    s.doCancel x n =
      (if r.state = .running then s.putRun { r with state := .cancelling, cancelDue := true } else s).ok := by
  have hrole : ¬ (x.role = .operator ∧ r.keeper) := by
    rintro ⟨hop, hk⟩
    rcases hmay with e | e
    · rw [hop] at e; cases e
    · rw [e] at hk; cases hk
  simp only [State.doCancel, h, if_neg hrole]
  split <;> rfl

/-! ### QUERY -/

theorem State.doQuery_zero (s : State) : s.doQuery 0 = s.ok (zeros 40 ++ natLe 8 s.meridian) := rfl

theorem State.doQuery_active {s : State} {n : W32} {r : Run} (hn : n ≠ 0) (h : s.runByNumber n = some r) :
    s.doQuery n = s.ok (natLe 1 r.state.code ++ natLe 1 r.slot ++ zeros 6 ++ r.record 0 0 ++ natLe 8 s.meridian) := by
  simp only [State.doQuery, if_neg hn, h]

theorem State.doQuery_history {s : State} {n : W32} {c : Completion} (hn : n ≠ 0) (h : s.runByNumber n = none)
    (hc : s.historyOf n = some c) :
    s.doQuery n = s.ok (natLe 1 5 ++ natLe 1 0 ++ zeros 6 ++ c ++ natLe 8 s.meridian) := by
  simp only [State.doQuery, if_neg hn, h, hc]

/-- What QUERY answers depends on the runs, the history and the time, which are no records of the port. -/
theorem State.PortOnly.doQuery {s t : State} (h : s.PortOnly t) (n : W32) : t.doQuery n = (t, (s.doQuery n).2) := by
  simp only [State.doQuery, State.runByNumber, State.historyOf, State.meridian, h.runs, h.disp, h.clock]
  split
  · rfl
  · split
    · rfl
    · split <;> rfl

/-! ### What the commands give -/

section
variable {s : State} {h : Hdr} {z : Session} (ha : Accepted s h z)
include ha

/-- An answer to a command that had no effect of its own: nothing but the port's records changes. -/
theorem accepted_answered (body type : Nat) (c : Code) (bs : List Byte) :
    let t := s.taken h body z
    let u := s.holdData (t.respond h.session type h.seq c bs)
    Responds t u h type c bs ∧ u.regs = s.regs ∧ StoresKept s u ∧ RunsKept s u := by
  intro t u
  have hp : s.PortOnly (t.respond h.session type h.seq c bs) :=
    (s.taken_portOnly h body z).trans (State.respond_portOnly ..)
  have hu : u = t.respond h.session type h.seq c bs := hp.holdData
  rw [hu]
  exact ⟨accepted_responds ha body type c bs, hp.kept⟩

theorem gives_query {n : W32} {bs : List Byte} (hq : s.doQuery n = s.ok bs) :
    Gives (.query h n) s (fun u => Responds (s.taken h 8 z) u h tyQuery C.OK bs ∧
      u.regs = s.regs ∧ StoresKept s u ∧ RunsKept s u) := by
  have hdo : (s.taken h 8 z).doQuery n = (s.taken h 8 z).ok bs := by
    rw [(s.taken_portOnly h 8 z).doQuery, hq]
    rfl
  refine ⟨_, exec_query h n s, ?_⟩
  rw [accepted_command ha, hdo]
  exact accepted_answered ha 8 tyQuery C.OK bs

/-- CANCEL puts a RUNNING run into CANCELLING, leaves any other as it is, and is answered OK. -/
theorem gives_cancel {n : W32} {r : Run} (hr : s.runByNumber n = some r) (hmay : z.role = .keeper ∨ r.keeper = false) :
    Gives (.cancel h n) s (fun u =>
      u.runs = (if r.state = .running then (s.putRun { r with state := .cancelling, cancelDue := true }).runs else s.runs) ∧
      Responds (s.taken h 8 z) u h tyCancel C.OK [] ∧ u.disp = s.disp ∧ u.regs = s.regs ∧ StoresKept s u) := by
  have hp := s.taken_portOnly h 8 z
  obtain ⟨-, -, hrole, -⟩ := accepted_holder ha 8
  have hrt : (s.taken h 8 z).runByNumber n = some r := by rw [State.runByNumber, hp.runs]; exact hr
  refine ⟨_, exec_cancel h n s, ?_⟩
  rw [accepted_command ha, State.doCancel_active hrt (hrole.symm ▸ hmay)]
  by_cases hrunning : r.state = .running
  · have hput : ((s.taken h 8 z).putRun { r with state := .cancelling, cancelDue := true }).session? h.session =
        some (s.holder h 8 z) := accepted_taken_session? ha 8
    simp only [if_pos hrunning]
    refine ⟨?_, ⟨_, _, State.respond_outbox hput ..⟩, ?_, ?_, rfl, rfl, rfl, rfl, rfl⟩
    · simp [State.ok, State.putRun, hp.runs]
    · simp [State.ok, hp.disp]
    · simp [State.ok, hp.regs]
  · simp only [if_neg hrunning]
    obtain ⟨hanswer, hregs, hstores, hruns, -, hdisp, -⟩ := accepted_answered ha 8 tyCancel C.OK []
    exact ⟨hruns, hanswer, hdisp, hregs, hstores⟩

end

/-- Settles O14: RUN by its checks, carried to the state `taken`; CANCEL and QUERY by the run that the number names. -/
theorem runCancelQuery : Obligations.RunCancelQuery := by
  unfold Obligations.RunCancelQuery
  intro s h z ha
  refine ⟨fun b hlit => ?_, fun n => ⟨fun r hr hmay => gives_cancel ha hr hmay,
    fun r hn hr => gives_query ha (State.doQuery_active hn hr),
    fun c hn hr hc => gives_query ha (State.doQuery_history hn hr hc), gives_query ha (State.doQuery_zero s)⟩⟩
  intro t starts
  have hp : s.PortOnly t := s.taken_portOnly h _ z
  refine ⟨fun p k hrings hfirst hslot hwatch => ?_, fun g hnear hg => ?_, fun c hc => ⟨_, exec_run_refused ha hlit hc, rfl⟩⟩
  · have hg : t.runCheck z.role b = .ok ⟨p, [], k, t⟩ :=
      State.runCheck_noRings hrings ((hp.runFirst ..).trans hfirst) (hp.freeRunSlot.trans hslot) (hp.side ▸ hwatch)
    exact ⟨_, exec_run_granted ha hlit (State.indexReads_noRings hrings s) hg, rfl⟩
  · exact ⟨⟨_, exec_run_granted ha hlit hnear hg, rfl⟩, taken_runCheck_ok hg⟩

end Sys2Proof.Machine

/-!
The end of a task, well or by a failure: it is found waiting for no vault, for the one access it makes is the logbook's.
-/
namespace Sys2Proof.Machine
open Sys2Proof

/-- Records of the logbook wait for no vault (log entry 73). -/
@[simp] theorem State.logWrite_blocked (s : State) (rec : List Byte) :
    (s.logWrite rec).power.blocked = s.power.blocked := by
  simp only [State.logWrite]
  split
  · rfl
  · split
    · simp
    · split <;> simp

theorem blocked_ite {c : Prop} [Decidable c] {s t : State} {b : Bool} (hs : s.power.blocked = b)
    (ht : t.power.blocked = b) : (if c then s else t).power.blocked = b := by
  split <;> assumption

/-- `logEvent`'s state once the record of what the logbook lost is written, if it lost any (R315). -/
def State.overrunLogged (s : State) : State :=
  if s.disp.overrun = 0 then s
  else
    let t := s.logWrite (s.logRecord 0x0F 0 0xFF 0 0 0 0 0 s.disp.overrun)
    { t with disp := { t.disp with overrun := 0 } }

theorem State.overrunLogged_blocked (s : State) : s.overrunLogged.power.blocked = s.power.blocked :=
  blocked_ite rfl (s.logWrite_blocked _)

@[simp] theorem State.logEvent_blocked (s : State) (ev prio core stage : Nat) (run : W32) (ordinal sub flow detail : Nat) :
    (s.logEvent ev prio core stage run ordinal sub flow detail).power.blocked = s.power.blocked :=
  have hlogged := s.draw.2.overrunLogged_blocked
  blocked_ite rfl (blocked_ite rfl (blocked_ite ((State.logWrite_blocked ..).trans hlogged) hlogged))

@[simp] theorem State.logTask_blocked (s : State) (ev : Nat) (t : Task) (core detail : Nat) :
    (s.logTask ev t core detail).power.blocked = s.power.blocked := by
  simp only [State.logTask]
  split <;> simp

/-- What a stage's queues are given touches their contexts alone. -/
theorem State.foldl_modCtx_power (slot : Nat) (f : Ctx → Ctx) (l : List Nat) (s : State) :
    (l.foldl (fun s q => s.modCtx slot q f) s).power = s.power :=
  foldl_keeps State.power _ (fun s q => s.modCtx_power slot q f) l s

@[simp] theorem State.deliverOuts_blocked (s : State) (t : Task) (st : StageRec) (p : Pipeline) (outs : List Chunk)
    (lost : List QItem) : (s.deliverOuts t st p outs lost).power.blocked = s.power.blocked := by
  simp only [State.deliverOuts]
  split <;> rw [State.foldl_modCtx_power]
  · split <;> split <;> simp
  · split <;> simp

@[simp] theorem State.deliverCancelled_blocked (s : State) (t : Task) (st : StageRec) (p : Pipeline)
    (marker : Option Marker) : (s.deliverCancelled t st p marker).power.blocked = s.power.blocked := by
  simp only [State.deliverCancelled]
  split <;> rw [State.foldl_modCtx_power]
  · simp
  · split <;> simp

@[simp] theorem State.coreIdle_power (s : State) (n : Nat) : (s.coreIdle n).power = s.power := by
  simp only [State.coreIdle]
  split <;> rfl

@[simp] theorem State.topDownEnd_power (s : State) (t : Task) (done : Bool) : (s.topDownEnd t done).power = s.power := by
  simp only [State.topDownEnd]
  apply foldl_keeps State.power
  intro s x
  split <;> rfl

@[simp] theorem State.dropTask_power (s : State) (t : Task) (done : Bool) : (s.dropTask t done).power = s.power := by
  simp only [State.dropTask]
  split
  · rw [State.topDownEnd_power, foldl_keeps State.power State.coreIdle State.coreIdle_power]
  · rfl

@[simp] theorem State.leaveTask_blocked (s : State) (t : Task) (outs : List Chunk) (lost : List QItem) :
    (s.leaveTask t outs lost).power.blocked = s.power.blocked := by
  simp only [State.leaveTask]
  split <;> simp

@[simp] theorem State.endTask_blocked (s : State) (t : Task) (outs : List Chunk) (lost : List QItem) :
    (s.endTask t outs lost).power.blocked = s.power.blocked := by
  simp only [State.endTask]
  split
  · split <;> simp
  · simp

@[simp] theorem State.failTask_blocked (s : State) (t : Task) (code : Code) :
    (s.failTask t code).power.blocked = s.power.blocked := by
  simp only [State.failTask]
  split <;> simp

end Sys2Proof.Machine

/-!
What a task's step leaves as it was while it counts, draws and works in the core stores: the memory behind the vaults with
the power state (so that no vault's wait is found), the image and the weights that are resident.
-/
namespace Sys2Proof.Machine
open Sys2Proof

/-- Memory, power state, image and resident weights are the same: no vault has been asked. -/
structure State.NoVaultAsked (s t : State) : Prop where
  mem : t.mem = s.mem
  power : t.power = s.power
  image : t.image = s.image
  resident : t.resident = s.resident

namespace State.NoVaultAsked
variable {s t u : State}

theorem refl (s : State) : s.NoVaultAsked s := ⟨rfl, rfl, rfl, rfl⟩

theorem trans (h : s.NoVaultAsked t) (k : t.NoVaultAsked u) : s.NoVaultAsked u :=
  ⟨k.mem.trans h.mem, k.power.trans h.power, k.image.trans h.image, k.resident.trans h.resident⟩

theorem blocked (h : s.NoVaultAsked t) : t.power.blocked = s.power.blocked := by rw [h.power]

theorem dicts (h : s.NoVaultAsked t) : t.dicts = s.dicts := by rw [State.dicts, State.dicts, h.image]

theorem foldl {α : Type} {f : State → α → State} (hf : ∀ (u : State) (x : α), u.NoVaultAsked (f u x)) (l : List α)
    (h : s.NoVaultAsked t) : s.NoVaultAsked (l.foldl f t) :=
  foldl_keeps_prop (s.NoVaultAsked) f (fun u x hu => hu.trans (hf u x)) l t h

section
variable (h : s.NoVaultAsked t)
include h

theorem free (n : Nat) : s.NoVaultAsked { t with free := n } := h.trans ⟨rfl, rfl, rfl, rfl⟩
theorem fset (f : FRef) (i x : Nat) : s.NoVaultAsked (t.fset f i x) := h.trans ⟨rfl, rfl, rfl, rfl⟩
theorem fset2 (f : FRef) (i j x : Nat) : s.NoVaultAsked (t.fset2 f i j x) := h.trans ⟨rfl, rfl, rfl, rfl⟩
theorem bump (f : FRef) (i n : Nat) : s.NoVaultAsked (t.bump f i n) := h.trans ⟨rfl, rfl, rfl, rfl⟩
theorem bump2 (f : FRef) (i j n : Nat) : s.NoVaultAsked (t.bump2 f i j n) := h.trans ⟨rfl, rfl, rfl, rfl⟩

theorem event (ev inst n : Nat) : s.NoVaultAsked (t.event ev inst n) :=
  h.trans ⟨t.event_mem .., t.event_power .., t.event_image .., t.event_resident ..⟩

theorem attn (code : Code) (detail : List Nat) : s.NoVaultAsked (t.attn code detail) :=
  h.trans ⟨t.attn_mem .., t.attn_power .., t.attn_image .., t.attn_resident ..⟩

theorem faultLog (code kind outcome physCluster physUnit logical detail : Nat) :
    s.NoVaultAsked (t.faultLog code kind outcome physCluster physUnit logical detail) :=
  h.trans ⟨t.faultLog_mem .., t.faultLog_power .., t.faultLog_image .., t.faultLog_resident ..⟩

theorem addOut (u : OutUnit) : s.NoVaultAsked (t.addOut u) := by
  rw [State.addOut]
  split
  · exact h
  · exact h.trans ⟨rfl, rfl, rfl, rfl⟩

theorem unitLeaves (kind outcome physCluster physUnit logical : Nat) :
    s.NoVaultAsked (t.unitLeaves kind outcome physCluster physUnit logical) :=
  ((h.addOut ..).faultLog ..).attn ..

theorem writeCore (cells : List (Nat × Byte × Bool)) : s.NoVaultAsked (t.writeCore cells) := h.trans ⟨rfl, rfl, rfl, rfl⟩

theorem countPicks (core : Nat) (ps : List Pick) : s.NoVaultAsked (t.countPicks core ps) :=
  ((h.bump ..).bump ..).bump ..

end

end State.NoVaultAsked

/-! ### A command whose step finds no vault waiting -/

theorem unblocked_blocked (s : State) : (Unblocked s).power.blocked = false := rfl

/-- Such a step is made, and then everything that waits settles. -/
theorem gives_step {c : Instr} {s : State} {f : State → State} {P : State → Prop}
    (hexec : exec c s = .next (s.holdFlash ((s.orBlocked f).settleAll))) (hgo : (f (Unblocked s)).power.blocked = false)
    (hP : P (s.holdFlash ((f (Unblocked s)).settleAll))) : Gives c s P :=
  ⟨_, hexec, by rw [State.orBlocked_goes hgo]; exact hP⟩

section
variable {c : Instr} {s v : State} {f : State → State} {P : State → Prop}
  (hexec : exec c s = .next (s.holdFlash ((s.orBlocked f).settleAll)))
  (hv : (Unblocked s).NoVaultAsked v)
include hexec hv

/-- A step that ends its task. -/
theorem gives_endTask {t : Task} {outs : List Chunk} (hf : f (Unblocked s) = v.endTask t outs)
    (hP : ∀ u, PassesOn s u v t outs → P u) : Gives c s P := by
  refine gives_step hexec ?_ (hP _ ?_)
  · rw [hf, State.endTask_blocked, hv.blocked, unblocked_blocked]
  · rw [PassesOn, hf]

/-- A step that fails its task. -/
theorem gives_failTask {t : Task} {code : Code} (hf : f (Unblocked s) = v.failTask t code)
    (hP : ∀ u, u = s.holdFlash ((v.failTask t code).settleAll) → P u) : Gives c s P := by
  refine gives_step hexec ?_ (hP _ ?_)
  · rw [hf, State.failTask_blocked, hv.blocked, unblocked_blocked]
  · rw [hf]

end

/-! ### Columns at hand -/

/-- A chunk with no column left in its table is read without a vault (R79). -/
theorem State.fetch_atHand {c : Chunk} (h : c.rows.rest = none) (s : State) (r : Run) (nums : List Nat) :
    s.fetch r c nums = .ok (c.rows, s) := by
  simp only [State.fetch, h]

end Sys2Proof.Machine

/-!
Tensors in the core stores (R13, R153): a run, a slice and a window of them are read and written without a vault, and
never refused.
-/
namespace Sys2Proof.Machine
open Sys2Proof

/-! ### Runs and slices -/

section
variable {x : Seat} (hx : x.region = none)
include hx

theorem State.readRun_core (s : State) (idx : List Nat) : ∃ bs, s.readRun x idx = .ok (bs, s) := by
  simp only [State.readRun, hx]
  exact ⟨_, rfl⟩

theorem State.writeRun_core (s : State) (idx : List Nat) (bs : List (Byte × Bool)) :
    ∃ v, s.writeRun x idx bs = .ok v ∧ s.NoVaultAsked v := by
  simp only [State.writeRun, hx]
  exact ⟨_, rfl, (State.NoVaultAsked.refl s).writeCore _⟩

theorem State.readSlice_core (s : State) (axis i : Nat) (l : List (List Nat)) :
    ∃ sl, s.readSlice x axis i l = .ok (sl, s) := by
  induction l with
  | nil => exact ⟨[], rfl⟩
  | cons idx rest ih =>
    obtain ⟨bs, hrun⟩ := s.readRun_core hx (atAxis idx axis i)
    obtain ⟨r, hrest⟩ := ih
    exact ⟨bs :: r, by rw [State.readSlice, hrun]; simp only [bind, Except.bind, hrest]; rfl⟩

theorem State.writeSlice_core (s : State) (axis i : Nat) (l : List (List Nat × List (Byte × Bool))) :
    ∃ v, s.writeSlice x axis i l = .ok v ∧ s.NoVaultAsked v := by
  induction l generalizing s with
  | nil => exact ⟨s, rfl, .refl s⟩
  | cons e rest ih =>
    obtain ⟨idx, bs⟩ := e
    obtain ⟨u, hrun, hu⟩ := s.writeRun_core hx (atAxis idx axis i) bs
    obtain ⟨v, hrest, hv⟩ := ih u
    exact ⟨v, by rw [State.writeSlice, hrun]; exact hrest, hu.trans hv⟩

/-! ### GATHER -/

theorem State.gatherWindow_core (axis : Nat) (picks : List Pick) (seen : List (Nat × Slice)) (s : State) :
    ∃ sls, State.gatherWindow x axis picks seen s = .ok (sls, s) := by
  induction picks generalizing seen with
  | nil => exact ⟨[], rfl⟩
  | cons p rest ih =>
    cases p with
    | slice i n =>
      simp only [State.gatherWindow]
      split
      · obtain ⟨r, hrest⟩ := ih seen
        simp only [hrest]
        exact ⟨_, rfl⟩
      · obtain ⟨sl, hslice⟩ := s.readSlice_core hx axis i (x.d.sliceTuples axis)
        obtain ⟨r, hrest⟩ := ih ((i, sl) :: seen)
        simp only [hslice, bind, Except.bind, hrest]
        exact ⟨_, rfl⟩
    | zero | fault =>
      obtain ⟨r, hrest⟩ := ih seen
      simp only [State.gatherWindow, hrest]
      exact ⟨_, rfl⟩

theorem State.gatherAll_core (axis : Nat) (ws : List (List Pick)) (s : State) :
    ∃ sls, State.gatherAll x axis ws s = .ok (sls, s) := by
  induction ws with
  | nil => exact ⟨[], rfl⟩
  | cons w rest ih =>
    obtain ⟨a, hw⟩ := s.gatherWindow_core hx axis w []
    obtain ⟨b, hrest⟩ := ih
    exact ⟨a ++ b, by simp only [State.gatherAll, hw, bind, Except.bind, hrest]; rfl⟩

theorem State.writeSlices_core (s : State) (axis : Nat) (l : List (Slice × Nat)) :
    ∃ v, s.writeSlices x axis l = .ok v ∧ s.NoVaultAsked v := by
  induction l generalizing s with
  | nil => exact ⟨s, rfl, .refl s⟩
  | cons e rest ih =>
    obtain ⟨sl, k⟩ := e
    obtain ⟨u, hslice, hu⟩ := s.writeSlice_core hx axis k ((x.d.sliceTuples axis).zip sl)
    obtain ⟨v, hrest, hv⟩ := ih u
    exact ⟨v, by rw [State.writeSlices, hslice]; exact hrest, hu.trans hv⟩

end

/-- A GATHER between core stores ends: in a fresh buffer where it has no output, else in the output (R169). -/
theorem State.gatherRun_core {data : Seat} (hdata : data.region = none) {out : Option Seat} {axis : Nat} {picks : List Pick}
    (hout : ∀ o, out = some o → o.region = none ∧ slicesFit data.d o.d axis picks.length = true) (s : State) (t : Task) :
    ∃ bs v, s.gatherRun t data out axis picks = .ok (bs, v) ∧ (out = none ↔ bs.isSome = true) ∧ s.NoVaultAsked v := by
  obtain ⟨slices, hall⟩ := s.gatherAll_core hdata axis (windows picks)
  simp only [State.gatherRun, hall, bind, Except.bind]
  generalize (slices.map (fun x => (x.map List.length).sum)).sum = bytes
  have hbump := (State.NoVaultAsked.refl s).bump F.LAY_BYTES_BYTES t.home bytes
  cases out with
  | none => exact ⟨_, _, rfl, by simp, hbump⟩
  | some o =>
    obtain ⟨ho, hfit⟩ := hout o rfl
    obtain ⟨v, hwrite, hv⟩ := (s.bump F.LAY_BYTES_BYTES t.home bytes).writeSlices_core ho axis
      (slices.zip (List.range slices.length))
    simp only [hfit, hwrite]
    exact ⟨_, v, rfl, by simp, hbump.trans hv⟩

end Sys2Proof.Machine

/-!
GATHER and SCATTER of tensors in the core stores by an index column at hand (R169 to R172).
-/
namespace Sys2Proof.Machine
open Sys2Proof

/-! ### The indices -/

/-- The indices that a column gives: its values, or the first COUNT of them (R169). -/
def columnIndices (c : Column) (count : Nat) : List Int :=
  let all := c.cells.map (fun x => toSigned (8 * x.bytes.length) (leNat x.bytes))
  if count = 0 then all else all.take count

theorem State.readIndices_column {t : Task} {col : Nat} {c : Column} (hrest : t.chunk.rows.rest = none)
    (hc : colAt t.chunk.rows.cols col = some c) (hgood : c.poisoned = false) (s : State) (r : Run) (count : Nat) :
    s.readIndices t r 0xFFFF col count = .ok (columnIndices c count, s) := by
  have hclean : ∀ l : List CellV, (∀ x ∈ l, x ∈ c.cells) →
      (l.map (fun x => (toSigned (8 * x.bytes.length) (leNat x.bytes), x.poison))).any (·.2) = false := by
    intro l hl
    simp only [Column.poisoned, List.any_eq_false] at hgood
    simp only [List.any_map, List.any_eq_false]
    exact fun x hx => hgood x (hl x hx)
  have htake := hclean (c.cells.take count) fun x hx => List.mem_of_mem_take hx
  simp only [State.readIndices, ne_eq, not_true_eq_false, if_false, State.fetch_atHand hrest, bind, Except.bind, hc,
    columnIndices]
  by_cases hcount : count = 0
  · simp [hcount, hclean c.cells fun _ hx => hx]
  · simp [hcount, ← List.map_take, htake]

/-! ### The step of a GATHER -/

theorem exec_gather (task : Nat) (s : State) :
    exec (.gather task) s = .next (s.holdFlash ((s.orBlocked (gather task)).settleAll)) := rfl

/-- A GATHER's state once its indices are counted (R171, R176). -/
def State.countGather (s : State) (core : Nat) (picks : List Pick) : State :=
  ((s.countPicks core picks).bump F.LAY_COMBINE_SAVED core (savedFetches picks)).event 0x401 core (savedFetches picks)

theorem State.NoVaultAsked.countGather {s t : State} (h : s.NoVaultAsked t) (core : Nat) (picks : List Pick) :
    s.NoVaultAsked (t.countGather core picks) :=
  ((h.countPicks ..).bump ..).event ..

/-- The chunk that a GATHER passes on: with the fresh buffer as its tensor, if the slices went into one (R169). -/
def Chunk.gathered (c : Chunk) (typ : Nat) : Option (List (Byte × Bool)) → Chunk
  | some bs => { c with tensor := some ⟨typ, bs⟩ }
  | none => c

section
variable {s : State} {task : Nat} {t : Task} {st : StageRec} {p : Pipeline} {r : Run}

/-- With its indices read, no fault among them, and an output apart from the data, a GATHER ends as its gathering does. -/
theorem gather_ends {data : Seat} {out : Option Seat} {is : List Int} {picks : List Pick}
    {bs : Option (List (Byte × Bool))} {v : State}
    (hrun : s.runningTask task .gather = some (t, st, p, r)) (hseat : s.seat t.slot (u16 st.param 0) t.home = some data)
    (hout : out = if u16 st.param 4 = 0xFFFF then none else s.seat t.slot (u16 st.param 4) t.home)
    (hapart : ∀ o, out = some o → data.overlaps o = false)
    (hread : s.readIndices t r (u16 st.param 2) (u8 st.param 12) (u32 st.param 8) = .ok (is, s))
    (hpicks : picks = is.map (resolveIndex (policyOf st.param data.d) (data.d.ext (u8 st.param 6))))
    (hfault : picks.contains .fault = false)
    (hgather : (s.countGather t.home picks).gatherRun t data out (u8 st.param 6) picks = .ok (bs, v)) :
    gather task s = v.endTask t [t.chunk.gathered data.d.typ bs] := by
  subst hpicks
  simp only [State.countGather] at hgather
  simp only [gather, hrun, hseat, ← hout, hread, hfault, hgather, Bool.false_eq_true, if_false]
  cases out with
  | none => cases bs <;> rfl
  | some o =>
    simp only [hapart o rfl, Bool.false_eq_true, if_false]
    cases bs <;> rfl

/-- GATHER between tensors in the core stores completes. -/
theorem gives_gather {data : Seat} {c : Column} {out : Option Seat} (h : AtHand s task .gather t st p r)
    (hseat : s.seat t.slot (u16 st.param 0) t.home = some data) (hdata : data.region = none)
    (hix : u16 st.param 2 = 0xFFFF) (hc : colAt t.chunk.rows.cols (u8 st.param 12) = some c) (hgood : c.poisoned = false)
    (hout : out = if u16 st.param 4 = 0xFFFF then none else s.seat t.slot (u16 st.param 4) t.home)
    {picks : List Pick} (hpicks : picks = (columnIndices c (u32 st.param 8)).map
      (resolveIndex (policyOf st.param data.d) (data.d.ext (u8 st.param 6)))) (hfault : picks.contains .fault = false)
    (hfits : ∀ o, out = some o →
      o.region = none ∧ data.overlaps o = false ∧ slicesFit data.d o.d (u8 st.param 6) picks.length = true) :
    Gives (.gather task) s (fun u => ∃ bs v,
      ((Unblocked s).countGather t.home picks).gatherRun t data out (u8 st.param 6) picks = .ok (bs, v) ∧
      (out = none ↔ bs.isSome = true) ∧
      PassesOn s u v t [t.chunk.gathered data.d.typ bs]) := by
  obtain ⟨hrun, hrest⟩ := h
  obtain ⟨bs, v, hgather, hfresh, hv⟩ := State.gatherRun_core hdata
    (fun o ho => ⟨(hfits o ho).1, (hfits o ho).2.2⟩) ((Unblocked s).countGather t.home picks) t
  have hread := State.readIndices_column hrest hc hgood (Unblocked s) r (u32 st.param 8)
  have hstep := gather_ends (s := Unblocked s) hrun hseat hout (fun o ho => (hfits o ho).2.1) (hix ▸ hread) hpicks hfault
    hgather
  exact gives_endTask (exec_gather task s) (((State.NoVaultAsked.refl _).countGather ..).trans hv) hstep
    fun u hu => ⟨bs, v, hgather, hfresh, hu⟩

end

/-! ### SCATTER -/

theorem exec_scatter (task : Nat) (s : State) :
    exec (.scatter task) s = .next (s.holdFlash ((s.orBlocked (scatter task)).settleAll)) := rfl

/-- The values of a SCATTER come from the chunk's tensor where it names no source. -/
theorem State.windowItems_fromTensor (tensor : List (Byte × Bool)) (d : Desc) (axis count : Nat) (items : List (Nat × Pick))
    (s : State) : ∃ l, State.windowItems none tensor d axis count items s = .ok (l, s) := by
  induction items with
  | nil => exact ⟨[], rfl⟩
  | cons e rest ih =>
    obtain ⟨k, p⟩ := e
    obtain ⟨l, hrest⟩ := ih
    cases p with
    | slice i n => exact ⟨_, by simp only [State.windowItems, State.sourceSlice, bind, Except.bind, hrest]; rfl⟩
    | zero | fault => exact ⟨l, hrest⟩

section
variable {dest : Seat} (hdest : dest.region = none)
include hdest

theorem State.scatterSlice_core (s : State) (mode axis : Nat) (c : Combined) :
    ∃ v, s.scatterSlice dest mode axis c = .ok v ∧ s.NoVaultAsked v := by
  simp only [State.scatterSlice]
  split
  · exact s.writeSlice_core hdest axis c.index _
  · obtain ⟨old, hread⟩ := s.readSlice_core hdest axis c.index (dest.d.sliceTuples axis)
    simp only [hread, bind, Except.bind]
    exact s.writeSlice_core hdest axis c.index _

theorem State.scatterSlices_core (s : State) (mode axis : Nat) (l : List Combined) :
    ∃ v, s.scatterSlices dest mode axis l = .ok v ∧ s.NoVaultAsked v := by
  induction l generalizing s with
  | nil => exact ⟨s, rfl, .refl s⟩
  | cons c rest ih =>
    obtain ⟨u, hslice, hu⟩ := s.scatterSlice_core hdest mode axis c
    obtain ⟨v, hrest, hv⟩ := ih u
    exact ⟨v, by rw [State.scatterSlices, hslice]; exact hrest, hu.trans hv⟩

theorem State.scatterWindows_core (tensor : List (Byte × Bool)) (mode axis count core : Nat) (ws : List (List (Nat × Pick)))
    (s : State) : ∃ v, State.scatterWindows none tensor dest mode axis count core ws s = .ok v ∧ s.NoVaultAsked v := by
  induction ws generalizing s with
  | nil => exact ⟨s, rfl, .refl s⟩
  | cons w rest ih =>
    simp only [State.scatterWindows]
    generalize (sortBy _ _).map _ = order
    obtain ⟨items, hitems⟩ := State.windowItems_fromTensor tensor dest.d axis count order { s with free := s.free + w.length }
    obtain ⟨u, hslices, hu⟩ := State.scatterSlices_core hdest { s with free := s.free + w.length } mode axis
      (windowSums mode dest.d.typ items)
    simp only [hitems, hslices, bind, Except.bind]
    obtain ⟨v, hrest, hv⟩ := ih (u.bump F.LAY_BYTES_BYTES core _)
    exact ⟨v, hrest, ((((State.NoVaultAsked.refl s).free _).trans hu).bump ..).trans hv⟩

end

section
variable {s : State} {task : Nat} {t : Task} {st : StageRec} {p : Pipeline} {r : Run}

/-- With its indices read, no fault among them, and its values in the chunk, a SCATTER ends as its windows do. -/
theorem scatter_ends {dest : Seat} {is : List Int} {picks : List Pick} {v : State}
    (hrun : s.runningTask task .scatter = some (t, st, p, r)) (hseat : s.seat t.slot (u16 st.param 0) t.home = some dest)
    (hix : u16 st.param 2 = 0xFFFF) (hsrc : u16 st.param 4 = 0xFFFF)
    (hread : s.readIndices t r 0xFFFF (u8 st.param 12) (u32 st.param 8) = .ok (is, s))
    (hpicks : picks = is.map (resolveIndex (policyOf st.param dest.d) (dest.d.ext (u8 st.param 6))))
    (hfault : picks.contains .fault = false)
    (hscatter : State.scatterWindows none ((t.chunk.tensor.map FreshTensor.bytes).getD []) dest (u8 st.param 13)
      (u8 st.param 6) picks.length t.home (windows ((List.range picks.length).zip picks)) (s.countPicks t.home picks) = .ok v) :
    scatter task s = v.endTask t [t.chunk] := by
  subst hpicks
  simp only [scatter, hrun, hseat, hix, hsrc, hread, hfault, hscatter, if_true, Bool.or_self, Bool.false_eq_true, if_false]

/-- SCATTER of the chunk's tensor into a tensor in a core store completes, in every mode, and touches no memory. -/
theorem gives_scatter {dest : Seat} {c : Column} (h : AtHand s task .scatter t st p r)
    (hseat : s.seat t.slot (u16 st.param 0) t.home = some dest) (hdest : dest.region = none)
    (hix : u16 st.param 2 = 0xFFFF) (hsrc : u16 st.param 4 = 0xFFFF)
    (hc : colAt t.chunk.rows.cols (u8 st.param 12) = some c) (hgood : c.poisoned = false)
    {picks : List Pick} (hpicks : picks = (columnIndices c (u32 st.param 8)).map
      (resolveIndex (policyOf st.param dest.d) (dest.d.ext (u8 st.param 6))))
    (hfault : picks.contains .fault = false) :
    Gives (.scatter task) s (fun u => ∃ v,
      State.scatterWindows none ((t.chunk.tensor.map FreshTensor.bytes).getD []) dest (u8 st.param 13) (u8 st.param 6)
        picks.length t.home (windows ((List.range picks.length).zip picks)) ((Unblocked s).countPicks t.home picks) = .ok v ∧
      v.mem = s.mem ∧ PassesOn s u v t [t.chunk]) := by
  obtain ⟨hrun, hrest⟩ := h
  obtain ⟨v, hscatter, hv⟩ := State.scatterWindows_core hdest ((t.chunk.tensor.map FreshTensor.bytes).getD [])
    (u8 st.param 13) (u8 st.param 6) picks.length t.home (windows ((List.range picks.length).zip picks))
    ((Unblocked s).countPicks t.home picks)
  have hstep := scatter_ends (s := Unblocked s) hrun hseat hix hsrc (State.readIndices_column hrest hc hgood ..) hpicks hfault
    hscatter
  have hkept := ((State.NoVaultAsked.refl (Unblocked s)).countPicks t.home picks).trans hv
  exact gives_endTask (exec_scatter task s) hkept hstep fun u hu => ⟨v, hscatter, hkept.mem, hu⟩

end

end Sys2Proof.Machine

/-!
LOOKUP and UPDATE hand a task's ids and values to the exchange unit (R231, R236, R238).
-/
namespace Sys2Proof.Machine
open Sys2Proof

theorem exec_lookup (task : Nat) (s : State) :
    exec (.lookup task) s = .next (s.holdFlash ((s.orBlocked (lookup task)).settleAll)) := rfl

theorem exec_update (task : Nat) (s : State) :
    exec (.update task) s = .next (s.holdFlash ((s.orBlocked (update task)).settleAll)) := rfl

@[simp] theorem State.takeContribution_power (s : State) (t : Task) (ids : List (Option W64)) (values : List (List W32)) :
    (s.takeContribution t ids values).power = s.power := rfl

/-- The values of an UPDATE in the chunk's tensor, one row for each id (R229, R236). -/
def tensorRows (x : FreshTensor) (dim count : Nat) : List (List W32) :=
  chunksOf dim (count + 1) ((unpack (elemBits x.typ) (x.bytes.map (·.1))).map (toFp32 x.typ))

section
variable {s : State} {task : Nat} {op : Op} {t : Task} {st : StageRec} {p : Pipeline} {r : Run} {c : Column}

/-- The ids of a column at hand. -/
theorem State.taskIds_column {par : List Byte} (hrest : t.chunk.rows.rest = none) (hcol : u8 par 1 ≠ 0xFF)
    (hc : colAt t.chunk.rows.cols (u8 par 1) = some c) (hgood : c.poisoned = false) (s : State) :
    s.taskIds t r par = .ok (columnIds c, t.chunk.rows, s) := by
  simp only [State.taskIds, if_pos hcol, State.fetch_atHand hrest, bind, Except.bind, hc, hgood]
  rfl

theorem State.taskValues_tensor {par : List Byte} {x : FreshTensor} (hdesc : u16 par 4 = 0xFFFF)
    (hx : t.chunk.tensor = some x) (hgood : x.bytes.any (·.2) = false) (s : State) (dim count : Nat) (rows : Rows) :
    s.taskValues t par dim count rows = .ok (tensorRows x dim count, s) := by
  simp only [State.taskValues, ne_eq, hdesc, not_true_eq_false, if_false, hx, hgood, Bool.false_eq_true]
  rfl

/-- A contribution that is made without a vault is taken whole. -/
theorem State.handOver_takes {ids : List (Option W64)} {values : List (List W32)}
    (hrun : s.runningTask task op = some (t, st, p, r)) (htaken : t.taken = false)
    (hmade : s.contribution t r st op = .ok (ids, values, s)) :
    s.handOver task op = s.takeContribution t ids values := by
  simp only [State.handOver, hrun, htaken, hmade, Bool.false_eq_true, if_false]

/-- Such a task's command. -/
theorem gives_handOver {i : Instr} {ids : List (Option W64)} {values : List (List W32)}
    (hexec : exec i s = .next (s.holdFlash ((s.orBlocked (fun s => s.handOver task op)).settleAll)))
    (hrun : s.runningTask task op = some (t, st, p, r)) (htaken : t.taken = false)
    (hmade : (Unblocked s).contribution t r st op = .ok (ids, values, Unblocked s)) :
    Gives i s (fun u => u = s.holdFlash (((Unblocked s).takeContribution t ids values).settleAll)) := by
  have hstep := State.handOver_takes (s := Unblocked s) hrun htaken hmade
  refine gives_step hexec ?_ ?_ <;> rw [hstep]
  rw [State.takeContribution_power, unblocked_blocked]

/-- LOOKUP hands over the ids of a column at hand. -/
theorem gives_lookup (h : AtHand s task .lookup t st p r) (htaken : t.taken = false) (hcol : u8 st.param 1 ≠ 0xFF)
    (hc : colAt t.chunk.rows.cols (u8 st.param 1) = some c) (hgood : c.poisoned = false) :
    Gives (.lookup task) s (fun u =>
      u = s.holdFlash (((Unblocked s).takeContribution t (columnIds c) []).settleAll)) := by
  obtain ⟨hrun, hrest⟩ := h
  refine gives_handOver (exec_lookup task s) hrun htaken ?_
  simp only [State.contribution, State.taskIds_column hrest hcol hc hgood, bind, Except.bind, if_true]
  rfl

/-- UPDATE hands over the ids of a column at hand, with the rows of the chunk's tensor. -/
theorem gives_update {x : FreshTensor} (h : AtHand s task .update t st p r) (htaken : t.taken = false)
    (hcol : u8 st.param 1 ≠ 0xFF) (hc : colAt t.chunk.rows.cols (u8 st.param 1) = some c) (hgood : c.poisoned = false)
    (hdesc : u16 st.param 4 = 0xFFFF) (hx : t.chunk.tensor = some x) (hclean : x.bytes.any (·.2) = false) :
    Gives (.update task) s (fun u => u = s.holdFlash (((Unblocked s).takeContribution t (columnIds c)
      (tensorRows x (((s.embTable? (u8 st.param 0)).map EmbTable.dim).getD 0) (columnIds c).length)).settleAll)) := by
  obtain ⟨hrun, hrest⟩ := h
  refine gives_handOver (exec_update task s) hrun htaken ?_
  simp only [State.contribution, State.taskIds_column hrest hcol hc hgood, State.taskValues_tensor hdesc hx hclean, bind,
    Except.bind]
  rfl

end

end Sys2Proof.Machine

/-!
COMPRESS and DECOMPRESS where no dictionary is declared: a job asks no vault, and the jobs of a column give it back or fail
its task (R258 to R267).
-/
namespace Sys2Proof.Machine
open Sys2Proof

/-! ### Jobs -/

theorem State.nextEngine_asksNone (s : State) (c : Nat) : s.NoVaultAsked (s.nextEngine c).2 := by
  simp only [State.nextEngine]
  split
  · exact .refl s
  · exact State.NoVaultAsked.free (.refl s) _

section
variable {s t : State} (h : s.NoVaultAsked t)
include h

theorem State.NoVaultAsked.jobDone (c e inBytes outBytes stored : Nat) :
    s.NoVaultAsked (t.jobDone c e inBytes outBytes stored) :=
  ((((h.bump2 ..).bump2 ..).bump2 ..).bump2 ..).event ..

theorem State.NoVaultAsked.jobFailed (c e op slot inBytes : Nat) (code : Code) :
    s.NoVaultAsked (t.jobFailed c e op slot inBytes code) := by
  have hrecorded := ((((((h.bump2 F.CMP_ENG_COUNT_FAILED c e 1).bump2 F.CMP_ENG_BYTES_IN_BYTES c e inBytes).fset
    F.CMP_FAIL_CODE 0 code.toNat).fset F.CMP_FAIL_OP 0 op).fset F.CMP_FAIL_CLUSTER 0 c).fset
    F.CMP_FAIL_ENGINE 0 e).fset F.CMP_FAIL_RUN_SLOT 0 slot
  unfold State.jobFailed
  extract_lets _ _ u v
  split
  · split
    · exact (((hrecorded.bump2 ..).fset2 ..).attn ..).unitLeaves ..
    · exact hrecorded.bump2 ..
  · exact hrecorded

end

section
variable {s : State} (hdicts : s.dicts = [])
include hdicts

theorem State.frameDict_noDicts (stageDict id : Nat) : (s.frameDict stageDict id).2 = s := by
  simp only [State.frameDict, hdicts, List.find?_nil]
  split <;> rfl

theorem State.frameDictsOf_noDicts (stageDict : Nat) (ids : List Nat) : (s.frameDictsOf stageDict ids).2 = s := by
  induction ids with
  | nil => rfl
  | cons id rest ih => simp only [State.frameDictsOf, State.frameDict_noDicts hdicts, ih]

theorem State.inflated_noDicts (format stageDict limit : Nat) (bs : List Byte) :
    (s.inflated format stageDict limit bs).2 = s := by
  simp only [State.inflated, State.frameDictsOf_noDicts hdicts]

theorem State.stageDict_noDicts (p : List Byte) : s.stageDict p = (.ok (0, .none), s) := by
  simp only [State.stageDict, hdicts, List.find?_nil]

theorem State.compressJob_asksNone (p : List Byte) (slot cluster : Nat) (x : CellV) :
    s.NoVaultAsked (s.compressJob p slot cluster x).2 := by
  have hengine := s.nextEngine_asksNone cluster
  simp only [State.compressJob]
  generalize s.nextEngine cluster = next at hengine ⊢
  obtain ⟨_ | ⟨c, e⟩, u⟩ := next
  · exact hengine
  · replace hengine : s.NoVaultAsked u := hengine
    simp only [State.stageDict_noDicts (hengine.dicts.trans hdicts), State.draw]
    split
    · exact hengine.jobFailed c e cmpCompress slot x.bytes.length C.INPUT_POISON
    · split
      · exact (hengine.free _).jobFailed c e ..
      · exact (hengine.free _).jobDone c e ..

theorem State.inflateJob_asksNone (cluster slot format stageDict limit : Nat) (input : List Byte) (stop : Option Code)
    (expected : Option Nat) :
    s.NoVaultAsked (s.inflateJob cluster slot format stageDict limit input stop expected).2 := by
  have hengine := s.nextEngine_asksNone cluster
  simp only [State.inflateJob]
  generalize s.nextEngine cluster = next at hengine ⊢
  obtain ⟨_ | ⟨c, e⟩, u⟩ := next
  · exact hengine
  · replace hengine : s.NoVaultAsked u := hengine
    have hsame := State.inflated_noDicts (hengine.dicts.trans hdicts) format stageDict limit input
    cases stop with
    | some code => exact hengine.jobFailed ..
    | none =>
      dsimp only
      generalize u.inflated format stageDict limit input = inflated at hsame ⊢
      obtain ⟨code | out, v⟩ := inflated <;> obtain rfl : v = u := hsame
      · exact hengine.jobFailed ..
      · dsimp only
        split
        · exact hengine.jobFailed ..
        · exact hengine.jobDone ..

end

/-! ### The jobs of a column -/

/-- A job that asks no vault where no dictionary is declared. -/
def AsksNone (job : State → Nat → CellV → Except Code (List Byte) × State) : Prop :=
  ∀ (s : State) (row : Nat) (x : CellV), s.dicts = [] → s.NoVaultAsked (job s row x).2

section
variable {job : State → Nat → CellV → Except Code (List Byte) × State} {s u : State} {row : Nat} {x : CellV}

/-- A null gives a null and no job. -/
theorem State.jobs_null (hx : x.valid = false) (xs : List CellV) : State.jobs job s row (x :: xs) =
    ((State.jobs job s (row + 1) xs).1.map (⟨false, [], false⟩ :: ·), (State.jobs job s (row + 1) xs).2) := by
  simp only [State.jobs, hx, Bool.not_false, if_true]
  rcases State.jobs job s (row + 1) xs with ⟨_ | _, _⟩ <;> rfl

/-- The first failure ends the jobs. -/
theorem State.jobs_error {c : Code} (hx : x.valid = true) (h : job s row x = (.error c, u)) (xs : List CellV) :
    State.jobs job s row (x :: xs) = (.error c, u) := by
  simp only [State.jobs, hx, h, Bool.not_true, Bool.false_eq_true, if_false]

theorem State.jobs_ok {bs : List Byte} (hx : x.valid = true) (h : job s row x = (.ok bs, u)) (xs : List CellV) :
    State.jobs job s row (x :: xs) =
      ((State.jobs job u (row + 1) xs).1.map (⟨true, bs, false⟩ :: ·), (State.jobs job u (row + 1) xs).2) := by
  simp only [State.jobs, hx, h, Bool.not_true, Bool.false_eq_true, if_false]
  rcases State.jobs job u (row + 1) xs with ⟨_ | _, _⟩ <;> rfl

end

theorem length_of_map_cons {r : Except Code (List CellV)} {y : CellV} {n : Nat} (h : ∀ ys, r = .ok ys → ys.length = n) :
    ∀ cells, r.map (y :: ·) = .ok cells → cells.length = n + 1 := by
  cases r with
  | error c => exact fun _ e => by cases e
  | ok ys => exact fun _ e => by cases e; simp [h ys rfl]

/-- Such jobs ask none over a whole column, and give a value for each row unless one fails. -/
theorem State.jobs_asksNone {job : State → Nat → CellV → Except Code (List Byte) × State} (hjob : AsksNone job)
    (xs : List CellV) (s : State) (row : Nat) (hdicts : s.dicts = []) :
    s.NoVaultAsked (State.jobs job s row xs).2 ∧
      ∀ cells, (State.jobs job s row xs).1 = .ok cells → cells.length = xs.length := by
  induction xs generalizing s row with
  | nil => exact ⟨.refl s, fun cells h => by cases h; rfl⟩
  | cons x rest ih =>
    cases hx : x.valid with
    | false =>
      obtain ⟨hrest, hlen⟩ := ih s (row + 1) hdicts
      rw [State.jobs_null hx]
      exact ⟨hrest, length_of_map_cons hlen⟩
    | true =>
      have hone := hjob s row x hdicts
      rcases hrow : job s row x with ⟨c | bs, u⟩ <;> rw [hrow] at hone
      · rw [State.jobs_error hx hrow]
        exact ⟨hone, fun _ h => by cases h⟩
      · obtain ⟨hrest, hlen⟩ := ih u (row + 1) (hone.dicts.trans hdicts)
        rw [State.jobs_ok hx hrow]
        exact ⟨hone.trans hrest, length_of_map_cons hlen⟩

/-! ### The steps -/

theorem exec_compress (task : Nat) (s : State) :
    exec (.compress task) s = .next (s.holdFlash ((s.orBlocked (compress task)).settleAll)) := rfl

theorem exec_decompress (task : Nat) (s : State) :
    exec (.decompress task) s = .next (s.holdFlash ((s.orBlocked (decompress task)).settleAll)) := rfl

section
variable {s v : State} {t : Task} {r : Run} {inCol outCol : Nat} {also : List Nat} {x : Column}
  {job : Rows → State → Nat → CellV → Except Code (List Byte) × State}
  (hrest : t.chunk.rows.rest = none) (hx : colAt t.chunk.rows.cols inCol = some x)
include hrest hx

theorem State.codeColumn_error {code : Code} (hjobs : State.jobs (job t.chunk.rows) s 0 x.cells = (.error code, v)) :
    s.codeColumn t r inCol outCol also job = v.failTask t code := by
  simp only [State.codeColumn, State.fetch_atHand hrest, hx, hjobs]

theorem State.codeColumn_ok {cells : List CellV} (hjobs : State.jobs (job t.chunk.rows) s 0 x.cells = (.ok cells, v)) :
    s.codeColumn t r inCol outCol also job = v.endTask t
      ((t.chunk.withRows (t.chunk.rows.put ⟨outCol, tBinary, 0, 0, cells⟩)).cut
        (cutSizes (cells.map (fun x => x.bytes.length)) 0 0) 0) := by
  simp only [State.codeColumn, State.fetch_atHand hrest, hx, hjobs, Rows.put]

/-- A compression stage without dictionaries ends with its jobs' results, or fails with a job's code. -/
theorem gives_codeColumn {i : Instr} {f : State → State} (hdicts : s.dicts = [])
    (hexec : exec i s = .next (s.holdFlash ((s.orBlocked f).settleAll)))
    (hf : f (Unblocked s) = (Unblocked s).codeColumn t r inCol outCol also job) (hjob : AsksNone (job t.chunk.rows)) :
    Gives i s (fun u => ∃ res v, State.jobs (job t.chunk.rows) (Unblocked s) 0 x.cells = (res, v) ∧
      (∀ cells, res = .ok cells → cells.length = x.cells.length ∧ PassesOn s u v t
        ((t.chunk.withRows (t.chunk.rows.put ⟨outCol, tBinary, 0, 0, cells⟩)).cut
          (cutSizes (cells.map (fun x => x.bytes.length)) 0 0) 0)) ∧
      (∀ code, res = .error code → u = s.holdFlash ((v.failTask t code).settleAll))) := by
  obtain ⟨hnone, hlen⟩ := State.jobs_asksNone hjob x.cells (Unblocked s) 0 hdicts
  rcases hjobs : State.jobs (job t.chunk.rows) (Unblocked s) 0 x.cells with ⟨code | cells, v⟩ <;> rw [hjobs] at hnone hlen
  · exact gives_failTask hexec hnone (hf.trans (State.codeColumn_error hrest hx hjobs)) fun u hu =>
      ⟨_, v, rfl, fun _ e => (by cases e), fun _ e => (by cases e; exact hu)⟩
  · exact gives_endTask hexec hnone (hf.trans (State.codeColumn_ok hrest hx hjobs)) fun u hu =>
      ⟨_, v, rfl, fun _ e => (by cases e; exact ⟨hlen cells rfl, hu⟩), fun _ e => (by cases e)⟩

end

theorem compress_running {s : State} {task : Nat} {t : Task} {st : StageRec} {p : Pipeline} {r : Run}
    (h : s.runningTask task .compress = some (t, st, p, r)) : compress task s =
      s.codeColumn t r (u8 st.param 2) (u8 st.param 3) []
        (fun _ s _ x => s.compressJob st.param t.slot (t.chunk.vault / 16) x) := by
  simp only [compress, h]

theorem decompress_running {s : State} {task : Nat} {t : Task} {st : StageRec} {p : Pipeline} {r : Run}
    (h : s.runningTask task .decompress = some (t, st, p, r)) : decompress task s =
      s.codeColumn t r (u8 st.param 1) (u8 st.param 2) (if u8 st.param 3 = 0xFF then [] else [u8 st.param 3])
        (fun rows s row x =>
          s.decompressJob st.param t.slot (t.chunk.vault / 16) x (expectedSize rows (u8 st.param 3) row)) := by
  simp only [decompress, h]

end Sys2Proof.Machine

/-!
MODEL of a graph whose weights are none, or stand resident and good, and which has no bags (R283, R288, R290): no node
fails, and none asks a vault.
-/
namespace Sys2Proof.Machine
open Sys2Proof

/-! ### Weights that a core holds -/

/-- A tensor that is held, without a poisoned word. -/
def HeldGood (held : List (Nat × List (Byte × Bool))) (m : Nat) : Prop :=
  ∃ k old, held.find? (·.1 == m) = some (k, old) ∧ old.any (·.2) = false

/-- Every weight of a graph, and its scales if it has any, are held and good. -/
def Graph.WeightsHeld (g : Graph) (held : List (Nat × List (Byte × Bool))) : Prop :=
  ∀ x ∈ g.tensors, x.kind = 2 → ∀ m, (m = x.desc ∨ (m = x.scale ∧ m ≠ 0xFFFF)) → HeldGood held m

/-- Held weights are read without a vault and without poison (R290, R291). -/
theorem State.weightCodes_held {w : Weights} {n : Nat} (h : HeldGood w.held n) (s : State) :
    ∃ codes v, s.weightCodes w n = .ok (codes, false, v) ∧ s.NoVaultAsked v := by
  obtain ⟨k, old, hfind, hgood⟩ := h
  simp only [State.weightCodes, hfind, hgood]
  split
  · exact ⟨_, _, rfl, State.NoVaultAsked.free (.refl s) _⟩
  · exact ⟨_, _, rfl, .refl s⟩

theorem State.tensorCodes_asksNone (s : State) (env : Env) (i : Nat) (t : GTensor) :
    s.NoVaultAsked (s.tensorCodes env i t).2 := by
  simp only [State.tensorCodes]
  split
  · exact .refl s
  · exact State.NoVaultAsked.free (.refl s) _

/-! ### Operands -/

/-- Whether a word of an optional operand was poisoned. -/
def poisonIn (t : Option VTen) : Bool := (t.map VTen.bad).getD false

section
variable {w : Weights} {g : Graph} (hw : g.WeightsHeld w.held) (s : State)
include hw

theorem State.operand_held (env : Env) (i : Nat) :
    ∃ o v, s.operand w g env i = .ok (o, v) ∧ s.NoVaultAsked v ∧ ∀ a t, o = some (a, t) → a.bad = false ∧ t ∈ g.tensors := by
  simp only [State.operand]
  split
  · exact ⟨none, s, rfl, .refl s, fun _ _ e => by cases e⟩
  · rename_i t htensor
    have hmem : t ∈ g.tensors := List.mem_of_getElem? htensor
    split
    · rename_i hkind
      obtain ⟨codes, u, hcodes, hu⟩ := s.weightCodes_held (hw t hmem hkind t.desc (.inl rfl))
      simp only [hcodes, bind, Except.bind]
      split
      · rename_i hmx
        have hscale : t.scale ≠ 0xFFFF := by
          intro e
          simp [e] at hmx
        obtain ⟨sc, v, hsc, hv⟩ := u.weightCodes_held (hw t hmem hkind t.scale (.inr ⟨rfl, hscale⟩))
        simp only [hsc]
        exact ⟨_, v, rfl, hu.trans hv, fun _ _ e => by cases e; exact ⟨rfl, hmem⟩⟩
      · exact ⟨_, u, rfl, hu, fun _ _ e => by cases e; exact ⟨rfl, hmem⟩⟩
    · exact ⟨_, _, rfl, s.tensorCodes_asksNone env i t, fun _ _ e => by cases e; exact ⟨rfl, hmem⟩⟩

theorem State.optOperand_held (env : Env) (i : Nat) :
    ∃ o v, s.optOperand w g env i = .ok (o, v) ∧ s.NoVaultAsked v ∧ poisonIn o = false := by
  simp only [State.optOperand]
  split
  · exact ⟨none, s, rfl, .refl s, rfl⟩
  · obtain ⟨o, v, hoperand, hv, hgood⟩ := s.operand_held hw env i
    simp only [hoperand, Except.map]
    refine ⟨_, v, rfl, hv, ?_⟩
    cases o with
    | none => rfl
    | some e => exact (hgood e.1 e.2 rfl).1

theorem State.colScales_held {t : GTensor} (ht : t ∈ g.tensors) :
    ∃ cols v, s.colScales w t = .ok (cols, false, v) ∧ s.NoVaultAsked v := by
  simp only [State.colScales]
  split
  · rename_i h
    obtain ⟨hkind, hscale, -⟩ := h
    obtain ⟨codes, v, hcodes, hv⟩ := s.weightCodes_held (hw t ht hkind t.scale (.inr ⟨rfl, hscale⟩))
    simp only [hcodes, Except.map]
    exact ⟨_, v, rfl, hv⟩
  · exact ⟨[], s, rfl, .refl s⟩

theorem State.secondOperand_held (env : Env) (i : Nat) (first : VTen) :
    ∃ b mx cols v, s.secondOperand w g env i first = .ok (b, mx, cols, false, v) ∧ s.NoVaultAsked v := by
  simp only [State.secondOperand]
  split
  · exact ⟨first, false, [], s, rfl, .refl s⟩
  · obtain ⟨o, u, hoperand, hu, hgood⟩ := s.operand_held hw env i
    simp only [hoperand, bind, Except.bind]
    cases o with
    | none => exact ⟨first, false, [], u, rfl, hu⟩
    | some e =>
      obtain ⟨b, t⟩ := e
      obtain ⟨hbad, ht⟩ := hgood b t rfl
      obtain ⟨cols, v, hcols, hv⟩ := u.colScales_held hw ht
      simp only [hcols, hbad]
      exact ⟨_, _, _, v, rfl, hu.trans hv⟩

end

/-! ### Nodes -/

/-- Only a bag node can fail by its operands' values (R284). -/
theorem vectorNode_ok {n : GNode} (h : n.op < 0x40 ∨ 0x42 < n.op) (draw outLen slots : Nat) (a : VTen) (b c d : Option VTen) :
    ∃ out, vectorNode n draw outLen slots a b c d = .ok out := by
  have hbag : ¬ (0x40 ≤ n.op ∧ n.op ≤ 0x42) := by omega
  simp only [vectorNode, if_neg hbag]
  split
  · split <;> exact ⟨_, rfl⟩
  · repeat' split
    all_goals exact ⟨_, rfl⟩

theorem State.runNode_held {w : Weights} {g : Graph} (hw : g.WeightsHeld w.held) {n : GNode}
    (hop : n.op < 0x40 ∨ 0x42 < n.op) (s : State) (env : Env) (outLen slots : Nat) :
    ∃ out v, s.runNode w g env n outLen slots = .ok (out, v) ∧ s.NoVaultAsked v := by
  obtain ⟨x, s0, h0, hs0, hgood⟩ := s.operand_held hw env n.in0
  simp only [State.runNode, h0, bind, Except.bind]
  cases x with
  | none => exact ⟨_, s0, rfl, hs0⟩
  | some e =>
    obtain ⟨a, t⟩ := e
    obtain ⟨b, mx, cols, s1, h1, hs1⟩ := s0.secondOperand_held hw env n.in1 a
    obtain ⟨c, s2, h2, hs2, hc⟩ := s1.optOperand_held hw env n.in2
    obtain ⟨d, s3, h3, hs3, hd⟩ := s2.optOperand_held hw env n.in3
    simp only [poisonIn] at hc hd
    have hkept := ((hs0.trans hs1).trans hs2).trans hs3
    simp only [h1, h2, h3, (hgood a t rfl).1, hc, hd, Bool.or_self, Bool.false_eq_true, if_false]
    split
    · exact ⟨_, _, rfl, hkept.free _⟩
    · obtain ⟨out, hout⟩ := vectorNode_ok hop s3.free outLen slots a
        (if (decide (0x31 ≤ n.op) && decide (n.op ≤ 0x32)) = true then c else if n.in1 = 0xFFFF then none else some b)
        (if (decide (0x31 ≤ n.op) && decide (n.op ≤ 0x32)) = true then d else c) none
      simp only [hout]
      exact ⟨_, _, rfl, hkept.free _⟩

/-! ### Counting -/

section
variable {s t : State} (h : s.NoVaultAsked t)
include h

theorem State.NoVaultAsked.countExc (share : Share) (out : List (Nat × ExcKind)) (valid : Nat → Bool) :
    s.NoVaultAsked (t.countExc share out valid) := by
  refine State.NoVaultAsked.foldl (fun u e => ?_) _ h
  dsimp only
  split
  · exact .refl u
  · split
    · exact .refl u
    all_goals exact State.NoVaultAsked.bump (.refl u) ..

theorem State.NoVaultAsked.countSats (share : Share) (rows : List Nat) (valid : Nat → Bool) :
    s.NoVaultAsked (t.countSats share rows valid) := by
  refine State.NoVaultAsked.foldl (fun u e => ?_) _ h
  dsimp only
  split
  · exact State.NoVaultAsked.bump (.refl u) ..
  · exact .refl u

theorem State.NoVaultAsked.countNode (share : Share) (g : Graph) (n : GNode) (streamed : Bool) :
    s.NoVaultAsked (t.countNode share g n streamed) := by
  unfold State.countNode
  split
  · refine State.NoVaultAsked.foldl (fun u e => ?_) _ h
    have hlay (k m : Nat) : u.NoVaultAsked ((u.bump F.LAY_BYTES_BYTES e.1 k).event 0x400 e.1 m) :=
      (State.NoVaultAsked.bump (.refl u) ..).event ..
    dsimp only
    split
    · exact State.NoVaultAsked.foldl (fun v i => State.NoVaultAsked.event (.refl v) ..) _ ((hlay _ _).bump ..)
    · split
      · exact (hlay _ _).event ..
      · exact hlay _ _
  · exact h

end

/-! ### The graph -/

theorem State.runNodes_held {w : Weights} {g : Graph} (hw : g.WeightsHeld w.held) (streamed : Bool) (share : Share)
    (valid : Nat → Bool) (nodes : List GNode) (hops : ∀ n ∈ nodes, n.op < 0x40 ∨ 0x42 < n.op) (s : State) (i : Nat)
    (env : Env) : ∃ out v, s.runNodes w streamed g share valid nodes i env = (.ok out, v) ∧ s.NoVaultAsked v := by
  induction nodes generalizing s i env with
  | nil => exact ⟨env, s, rfl, .refl s⟩
  | cons n rest ih =>
    have ih := ih fun m hm => hops m (List.mem_cons_of_mem n hm)
    simp only [State.runNodes]
    split
    · exact ih s (i + 1) env
    · rename_i t _
      obtain ⟨⟨vals, sats⟩, u, hnode, hu⟩ := s.runNode_held hw (hops n List.mem_cons_self) env
        (count (t.extent.take t.rank)) share.slots
      have go (z : State) (hz : s.NoVaultAsked z) (env' : Env) :
          ∃ out v, z.runNodes w streamed g share valid rest (i + 1) env' = (.ok out, v) ∧ s.NoVaultAsked v :=
        let ⟨out, v, hrest, hv⟩ := ih z (i + 1) env'
        ⟨out, v, hrest, hz.trans hv⟩
      simp only [hnode]
      refine go _ ((((State.NoVaultAsked.free ?_ _).countExc ..).countSats ..).countNode ..) _
      split
      · exact hu.trans (State.tensorCodes_asksNone ..)
      · exact hu

/-- The weights that the cores of a group hold for a graph: none for a stage that streams them (R290). -/
def State.heldWeights (s : State) (g : Graph) (streamed : Bool) : List (Nat × List (Byte × Bool)) :=
  if streamed then [] else ((s.resident.find? (·.graph == g.number)).map Resident.data).getD []

theorem State.NoVaultAsked.heldWeights {s t : State} (h : s.NoVaultAsked t) (g : Graph) (streamed : Bool) :
    t.heldWeights g streamed = s.heldWeights g streamed := by
  rw [State.heldWeights, State.heldWeights, h.resident]

theorem State.runGroup_held {g : Graph} (hops : ∀ n ∈ g.nodes, n.op < 0x40 ∨ 0x42 < n.op) {streamed : Bool} (slot : Nat)
    (cores : List Nat) (slots : Nat) (valid : Nat → Bool) (input : Env) (members : List Nat) (s : State)
    (hw : g.WeightsHeld (s.heldWeights g streamed)) :
    ∃ envs v, s.runGroup slot streamed g cores slots valid input members = (.ok envs, v) ∧ s.NoVaultAsked v := by
  induction members generalizing s with
  | nil => exact ⟨[], s, rfl, .refl s⟩
  | cons c rest ih =>
    obtain ⟨env, u, hnodes, hu⟩ := State.runNodes_held
      (w := ⟨slot, c, s.heldWeights g streamed,
        (s.stripsOf g (groupShare slots cores.length ((cores.findIdx? (· == c)).getD 0)).2).length⟩)
      hw streamed ⟨cores, slots, c⟩ valid g.nodes hops s 0 input
    obtain ⟨envs, v, hrest, hv⟩ := ih u (hu.heldWeights g streamed ▸ hw)
    simp only [State.heldWeights] at hnodes
    simp only [State.runGroup, hnodes, hrest]
    exact ⟨_, v, rfl, hu.trans hv⟩

/-! ### The step -/

theorem exec_model (task : Nat) (s : State) :
    exec (.model task) s = .next (s.holdFlash ((s.orBlocked (model task)).settleAll)) := rfl

/-- The cores of a MODEL task: those whose units it has, or its home (R288). -/
def Task.group (t : Task) : List Nat := if t.cores.isEmpty then [t.home] else t.cores

/-- Whether a slot of a batch counts (R68). -/
def BatchBuf.counts (b : BatchBuf) (k : Nat) : Bool := (b.slots[k]?.map (fun x => x.kind.masked)).getD false

section
variable {s : State} {task : Nat} {t : Task} {st : StageRec} {p : Pipeline} {r : Run} {g : Graph} {b : BatchBuf}
  {lin lout : Layout} (hrun : s.runningTask task .model = some (t, st, p, r))
  (hgraph : s.graph? (modelPar st.param).graph = some g) (hbatch : t.chunk.payload = .batch b)
  (hin : s.layout? g.inLayout = some lin) (hout : s.layout? g.outLayout = some lout) (hcopies : g.copies = [])
include hrun hgraph hbatch hin hout hcopies

/-- A graph without copies whose group runs through passes its batch on. -/
theorem model_ends {envs : List (Nat × Env)} {v : State}
    (hgroup : s.runGroup t.slot (!s.isResident p.number t.stage) g t.group b.slots.length b.counts (inputEnv g lin b)
      t.group = (.ok envs, v)) :
    model task s = { v with free := v.free + 64 * b.slots.length }.endTask t
      [{ t.chunk with payload := .batch (outBatch g envs ⟨t.group, b.slots.length, t.home⟩ v.free lout b) }] := by
  unfold Task.group BatchBuf.counts at hgroup
  simp only [model, hrun, hgraph, hbatch, hin, hout, hcopies, State.copyAll, hgroup, Task.group]

/-- MODEL runs its nodes and passes its batch on. -/
theorem gives_model (hops : ∀ n ∈ g.nodes, n.op < 0x40 ∨ 0x42 < n.op)
    (hw : g.WeightsHeld (s.heldWeights g (!s.isResident p.number t.stage))) :
    Gives (.model task) s (fun u => ∃ envs v,
      (Unblocked s).runGroup t.slot (!s.isResident p.number t.stage) g t.group b.slots.length b.counts (inputEnv g lin b)
        t.group = (.ok envs, v) ∧
      PassesOn s u { v with free := v.free + 64 * b.slots.length } t
        [{ t.chunk with payload := .batch (outBatch g envs ⟨t.group, b.slots.length, t.home⟩ v.free lout b) }]) := by
  obtain ⟨envs, v, hgroup, hv⟩ := State.runGroup_held hops t.slot t.group b.slots.length b.counts (inputEnv g lin b) t.group
    (Unblocked s) hw
  have hstep := model_ends (s := Unblocked s) hrun hgraph hbatch hin hout hcopies hgroup
  exact gives_endTask (exec_model task s) (hv.free _) hstep fun u hu => ⟨envs, v, hgroup, hu⟩

end

end Sys2Proof.Machine

/-!
The tensor, embedding, compression and model steps complete on operands at hand.
-/
namespace Sys2Proof.Machine
open Sys2Proof

/-- Settles O59: each step is made without asking a vault, so it is not put off. -/
theorem tensorStepsComplete : Obligations.TensorStepsComplete := by
  unfold Obligations.TensorStepsComplete
  intro s task t st p r par rows indices
  refine ⟨?_, ?_, ?_, ?_, ?_, ?_⟩
  · intro data c out h hseat hdata hix hc hgood hout picks hfault hfits
    obtain ⟨u, hexec, bs, v, hgather, hfresh, hu⟩ := gives_gather h hseat hdata hix hc hgood hout rfl hfault hfits
    exact ⟨u, hexec, bs, v, hgather, hfresh, by cases bs <;> exact hu⟩
  · intro dest c h hseat hdest hix hsrc hc hgood picks hfault
    exact gives_scatter h hseat hdest hix hsrc hc hgood rfl hfault
  · intro c h htaken hcol hc hgood
    exact gives_lookup h htaken hcol hc hgood
  · intro c x h htaken hcol hc hgood hdesc hx hclean dim words
    exact gives_update h htaken hcol hc hgood hdesc hx hclean
  · intro x hdicts i hi h hx
    simp only [List.mem_cons, List.not_mem_nil, or_false] at hi
    rcases hi with rfl | rfl
    · exact gives_codeColumn h.2 hx hdicts (exec_compress task s) (compress_running (s := Unblocked s) h.1)
        fun _ _ _ hnone => State.compressJob_asksNone hnone ..
    · exact gives_codeColumn h.2 hx hdicts (exec_decompress task s) (decompress_running (s := Unblocked s) h.1)
        fun _ _ _ hnone => State.inflateJob_asksNone hnone ..
  · intro g b lin lout hrun hgraph hbatch hin hout hcopies hops hheld cores
    refine gives_model hrun hgraph hbatch hin hout hcopies hops fun x hx hkind m hm => ?_
    obtain ⟨hresident, hgood⟩ := hheld x hx hkind
    simp only [State.heldWeights, hresident, Bool.not_true, Bool.false_eq_true, if_false]
    exact hgood m hm

end Sys2Proof.Machine

/-!
The refused commands of the match store (R189). They are to leave the word of every register, at every instance number and
in every ordered register map. Where an instance number outside the index names the address of MST_CMD, and the map holds
the reset word of MST_CMD as an entry, the write of MST_CMD drops that entry and so changes the word read there.
-/
namespace Sys2Proof.Machine
open Sys2Proof

/-- The word of a register written with its reset value leaves the map: a register that shares its address reads its own
reset value from then on. -/
theorem State.raw_setRaw_reset {s : State} (h : RegsOrdered s) {id id' : RegId} {i j i' j' : Nat}
    (haddr : regAddr id' i' j' = regAddr id i j) : (s.setRaw id i j (regReset id)).raw id' i' j' = regReset id' := by
  simp only [State.raw, State.setRaw, SMap.set, if_true, haddr]
  exact SMap.get_erase_same _ _ 0 _ h

/-- Instance (118785, 24) of ING_MEAN, which the index does not have, stands at the address of MST_CMD. -/
theorem regAddr_ingMean_mstCmd : regAddr .ING_MEAN 118785 24 = regAddr .MST_CMD 0 0 := rfl

/-- An open Keeper session whose next command is the first. -/
def keeperSession : Session :=
  { slot := 0, id := 1, role := .keeper, attention := false, isOpen := true, expected := 1, mac := 0, relayed := false,
    keys := [], transcript := [], helloAt := 0, heardAt := 0, sent := [], pends := [], nextAttn := 1, queue := [],
    overflow := 0, lastFirst := none }

/-- That command. -/
def keeperCommand : Hdr := ⟨1, 1, 0, false, true⟩

/-- The device in LIT state with its port up and no table of the match store. Its register map holds the reset word of
MST_CMD as an entry. -/
def mstCmdAtReset : State :=
  { State.reset with
    regs := [(regAddr .MST_CMD 0 0, 0), (regAddr .ODN_STATUS 0 0, put 0 F.ODN_STATUS_PORT 1)]
    power := { State.reset.power with state := .lit }
    odn := ⟨[keeperSession], []⟩ }

theorem mstCmdAtReset_ordered : RegsOrdered mstCmdAtReset := rfl

theorem mstCmdAtReset_accepted : Accepted mstCmdAtReset keeperCommand keeperSession :=
  ⟨rfl, rfl, .inl rfl, rfl, by decide, rfl⟩

theorem mstCmdAtReset_noTable : mstCmdAtReset.mstTab? (0 : BitVec 4).toNat = none := rfl

/-- There the word 0 stands where that instance of ING_MEAN would. -/
theorem mstCmdAtReset_raw : mstCmdAtReset.raw .ING_MEAN 118785 24 = 0 := rfl

/-- The write of MST_CMD writes the word that it keeps, its reset value, before the command is refused. -/
theorem mstCmdAtReset_write {u : State} (h : exec (.mstWrite keeperCommand 0 0) mstCmdAtReset = .next u) :
    u.regs = (mstCmdAtReset.setRaw .MST_CMD 0 0 (regReset .MST_CMD)).regs := by
  cases h
  rfl

/-- Refutes O44: a WRITE to an undefined table is to keep the word of every register at every instance number, but in the
ordered map of `mstCmdAtReset` it changes the word of ING_MEAN's instance (118785, 24) from 0 to ING_MEAN's reset value. -/
theorem not_matchStoreCommands : ¬ Obligations.MatchStoreCommands := by
  unfold Obligations.MatchStoreCommands
  intro h
  obtain ⟨hunknown, -⟩ := h mstCmdAtReset keeperCommand keeperSession 0 0 mstCmdAtReset_accepted rfl (by decide)
    _ _ List.mem_cons_self
  obtain ⟨u, hexec, -, hkept, -⟩ := hunknown mstCmdAtReset_noTable
  have hword : u.raw .ING_MEAN 118785 24 = 0 :=
    (hkept mstCmdAtReset_ordered .ING_MEAN 118785 24 List.not_mem_nil).trans mstCmdAtReset_raw
  have hreset : u.raw .ING_MEAN 118785 24 = regReset .ING_MEAN := by
    rw [State.raw, mstCmdAtReset_write hexec]
    exact State.raw_setRaw_reset mstCmdAtReset_ordered regAddr_ingMean_mstCmd
  exact absurd (hword.symm.trans hreset) (by decide)

end Sys2Proof.Machine

/-!
The dispatcher across accesses to memory (R33, R37, R45, R47): a read or a write repairs, counts, reports and fires watches;
the runs, the
dispatcher's table and the resident weights stay as they are.
-/
namespace Sys2Proof.Machine
open Sys2Proof

/-- The runs, the dispatcher's records and the resident weights are the same. -/
structure State.DispatcherKept (s t : State) : Prop where
  runs : t.runs = s.runs
  disp : t.disp = s.disp
  resident : t.resident = s.resident

namespace State.DispatcherKept
variable {s t u : State}

theorem refl (s : State) : s.DispatcherKept s := ⟨rfl, rfl, rfl⟩

theorem trans (h : s.DispatcherKept t) (k : t.DispatcherKept u) : s.DispatcherKept u :=
  ⟨k.runs.trans h.runs, k.disp.trans h.disp, k.resident.trans h.resident⟩

theorem ite {c : Prop} [Decidable c] (ht : s.DispatcherKept t) (hu : s.DispatcherKept u) :
    s.DispatcherKept (if c then t else u) := by
  split <;> assumption

section
variable (h : s.DispatcherKept t)
include h

theorem bump (f : FRef) (i n : Nat) : s.DispatcherKept (t.bump f i n) := h.trans ⟨rfl, rfl, rfl⟩
theorem fset (f : FRef) (i x : Nat) : s.DispatcherKept (t.fset f i x) := h.trans ⟨rfl, rfl, rfl⟩
theorem free (n : Nat) : s.DispatcherKept { t with free := n } := h.trans ⟨rfl, rfl, rfl⟩
theorem power (p : Power) : s.DispatcherKept { t with power := p } := h.trans ⟨rfl, rfl, rfl⟩
theorem gov (g : Gov) : s.DispatcherKept { t with gov := g } := h.trans ⟨rfl, rfl, rfl⟩
theorem setSide (m : MemSide) : s.DispatcherKept (t.setSide m) := h.trans ⟨rfl, rfl, rfl⟩
theorem storeBytes (p : Nat) (bs : List Byte) : s.DispatcherKept (t.storeBytes p bs) := h.trans ⟨rfl, rfl, rfl⟩
theorem bankBump (p : Nat) (fv fc : FRef) : s.DispatcherKept (t.bankBump p fv fc) := h.trans ⟨rfl, rfl, rfl⟩
theorem bankSet (p : Nat) (fv fc : FRef) (x : Nat) : s.DispatcherKept (t.bankSet p fv fc x) := h.trans ⟨rfl, rfl, rfl⟩
theorem meter (port bytes : Nat) : s.DispatcherKept (t.meter port bytes) := h.trans ⟨rfl, rfl, rfl⟩

theorem errAddr (p : Nat) (scrub mirrored : Bool) : s.DispatcherKept (t.errAddr p scrub mirrored) :=
  h.trans ⟨rfl, rfl, rfl⟩

theorem attn (code : Code) (detail : List Nat) : s.DispatcherKept (t.attn code detail) :=
  h.trans ⟨t.attn_runs .., t.attn_disp .., t.attn_resident ..⟩

theorem event (ev inst n : Nat) : s.DispatcherKept (t.event ev inst n) :=
  h.trans ⟨t.event_runs .., t.event_disp .., t.event_resident ..⟩

theorem listPoison (w : Nat) : s.DispatcherKept (t.listPoison w) :=
  ite h (ite (h.setSide _) (((h.setSide _).bankSet ..).attn ..))

/-! ### Reads -/

theorem readCopy (w : Nat) : s.DispatcherKept (t.readCopy w).2 := by
  have hcount : s.DispatcherKept (if w < vaultsEnd then t.event 0x102 (bankNumber w) (min (SMap.get 0 t.side.flaky w) 3)
      else t) := ite (h.event ..) h
  simp only [State.readCopy]
  split
  · exact h
  · split
    · exact h
    · split
      · exact (hcount.setSide _).bankBump ..
      · exact hcount

theorem wordFails (p : Nat) (scrub : Bool) : s.DispatcherKept (t.wordFails p scrub) := by
  have hpersist := ite (c := scrub = true) ((h.listPoison p).bankBump p F.VLT_ERR_SCRUB_PERSIST F.LPT_CH_ERR_SCRUB_PERSIST) h
  have hcreated := (hpersist.bankBump p F.VLT_ERR_POISONED F.LPT_CH_ERR_POISONED).errAddr p scrub false
  exact ite ((hcreated.attn ..).attn ..) (hcreated.attn ..)

theorem loseWord (p q : Nat) (scrub : Bool) : s.DispatcherKept (t.loseWord p q scrub) :=
  (((ite ((h.listPoison p).listPoison q) (h.listPoison p)).bankBump ..).errAddr ..).attn ..

theorem repairWord (p : Nat) (v : W64) (scrub : Bool) : s.DispatcherKept (t.repairWord p v scrub) :=
  (((((h.storeBytes p _).setSide _).bankBump ..).errAddr ..).attn ..)

end

theorem readWord (s : State) (w : Nat) (scrub : Bool) : s.DispatcherKept (s.readWord w scrub).2.2 := by
  have hcopy {t u : State} {p : Nat} {r : CopyRead} (e : t.readCopy p = (r, u)) : t.DispatcherKept u := by
    have hread := (refl t).readCopy p
    rwa [e] at hread
  simp only [State.readWord]
  split
  case h_1 hfirst => exact hcopy hfirst
  case h_2 hfirst => exact hcopy hfirst
  case h_3 hfirst =>
    refine (hcopy hfirst).trans ?_
    split
    · split
      · split <;> rename_i hsecond
        · exact (hcopy hsecond).trans ((refl _).repairWord ..)
        · exact (hcopy hsecond).trans ((refl _).loseWord ..)
      · exact (refl _).loseWord ..
    · exact (refl _).wordFails ..

theorem readWords (fuel : Nat) (s : State) (p n : Nat) : s.DispatcherKept (s.readWords fuel p n).2 := by
  induction fuel generalizing s p n with
  | zero => exact refl s
  | succ k ih =>
    simp only [State.readWords]
    split
    · exact refl s
    · exact (readWord ..).trans (ih ..)

theorem portUse (s : State) (p n : Nat) (write : Bool) : s.DispatcherKept (s.portUse p n write) := by
  have hrequest (v : Nat) : s.DispatcherKept (s.vaultRequest v) := ite ⟨rfl, rfl, rfl⟩ ⟨rfl, rfl, rfl⟩
  simp only [State.portUse]
  split
  · exact ((hrequest _).meter ..).event ..
  · exact ((refl s).meter ..).event ..

theorem readParts (s : State) (ps : List (Nat × Nat)) : s.DispatcherKept (s.readParts ps).2 := by
  induction ps generalizing s with
  | nil => exact refl s
  | cons e r ih =>
    obtain ⟨p, n⟩ := e
    exact ((portUse s p n false).trans (readWords (n / 8 + 2) _ p n)).trans (ih _)

theorem checkedRead {a n : Nat} {bs : List (Byte × Bool)} (h : s.checkedRead a n = .ok (bs, t)) :
    s.DispatcherKept t := by
  simp only [State.checkedRead] at h
  split at h
  · cases h
  · rename_i ps _
    have hread := readParts s ps
    rwa [Except.ok.inj h] at hread

theorem readRun {x : Seat} {idx : List Nat} {bs : List (Byte × Bool)} (h : s.readRun x idx = .ok (bs, t)) :
    s.DispatcherKept t := by
  simp only [State.readRun] at h
  split at h
  · rename_i g _
    cases hread : s.checkedRead (g.localAddr x.v (x.d.runAt idx).toNat) x.d.run with
    | error c => rw [hread] at h; cases h
    | ok e =>
      rw [hread] at h
      cases h
      exact checkedRead hread
  · cases h
    exact refl s

theorem readTensor {x : Seat} {l : List (List Nat)} {runs : List (List Nat × List (Byte × Bool))}
    (h : s.readTensor x l = .ok (runs, t)) : s.DispatcherKept t := by
  induction l generalizing s runs with
  | nil => cases h; exact refl _
  | cons idx rest ih =>
    simp only [State.readTensor] at h
    cases hrun : s.readRun x idx with
    | error c => rw [hrun] at h; cases h
    | ok e =>
      rw [hrun] at h
      cases hrest : e.2.readTensor x rest with
      | error c => simp only [bind, Except.bind, hrest] at h; cases h
      | ok f =>
        simp only [bind, Except.bind, hrest] at h
        cases h
        exact (readRun hrun).trans (ih hrest)

theorem readDesc {slot core n : Nat} {r : Option (Desc × List (Byte × Bool))}
    (h : s.readDesc slot core n = .ok (r, t)) : s.DispatcherKept t := by
  simp only [State.readDesc] at h
  split at h
  · cases h
    exact refl s
  · rename_i x _
    cases hread : s.readTensor x (tuples x.d.outer) with
    | error c => rw [hread] at h; cases h
    | ok e =>
      rw [hread] at h
      cases h
      exact readTensor hread

/-! ### Writes -/

theorem writeCopy (s : State) (p : Nat) (bs : List Byte) (bad : Bool) : s.DispatcherKept (s.writeCopy p bs bad) :=
  ite (((refl s).storeBytes p bs).listPoison _) (ite (((refl s).storeBytes p bs).setSide _) ((refl s).storeBytes p bs))

theorem inject (s : State) (p : Packet) : s.DispatcherKept (s.inject p) := by
  simp only [State.inject, State.follow, State.leaveOn]
  split
  case h_6 => split <;> exact ⟨rfl, rfl, rfl⟩
  case h_5 => exact ((refl s).bump ..).attn ..
  all_goals exact ⟨rfl, rfl, rfl⟩

theorem injectParts (dest cls kind tag : Nat) (l : List (List Byte)) (s : State) :
    s.DispatcherKept (s.injectParts dest cls kind tag l) := by
  induction l generalizing s with
  | nil => exact refl s
  | cons b r ih => exact (inject s _).trans (ih _)

theorem injectBody (s : State) (dest cls kind tag : Nat) (body : List Byte) :
    s.DispatcherKept (s.injectBody dest cls kind tag body) :=
  ite (injectParts ..) (injectParts ..)

/-- A watch that fires reports, sends or notes its own notice. -/
theorem fireWatch (s : State) (x : Watch) : s.DispatcherKept (s.fireWatch x) := by
  have hreport : s.DispatcherKept
      (if s.poisoned (s.primaryOf x.phys) then s.attn C.POISON_CREATED [s.device, x.phys, 0] else s) :=
    ite ((refl s).attn ..) (refl s)
  simp only [State.fireWatch]
  split
  · exact hreport.trans ⟨State.deliver_runs .., State.deliver_disp .., State.deliver_resident ..⟩
  · exact hreport.trans (injectBody ..)
  · exact hreport.trans ⟨rfl, rfl, rfl⟩

theorem fireWord (s : State) (w : Nat) : s.DispatcherKept (s.fireWord w) :=
  foldl_keeps_prop s.DispatcherKept _ (fun t x ht => ht.trans (fireWatch t x)) _ s (refl s)

theorem writePrimary (s : State) (p : Nat) (bs : List Byte) (bad : Bool) :
    s.DispatcherKept (s.writePrimary p bs bad) :=
  ite (writeCopy ..) (refl s)

theorem writeWord (s : State) (p : Nat) (bs : List Byte) (bad : Bool) : s.DispatcherKept (s.writeWord p bs bad) := by
  have hprimary := writePrimary s p bs bad
  refine trans (t := match (s.writePrimary p bs bad).mirrorOf p with
    | some q => (s.writePrimary p bs bad).writePrimary q bs bad
    | none => s.writePrimary p bs bad) ?_ (fireWord _ (p / 8 * 8))
  split
  · exact hprimary.trans (writePrimary ..)
  · exact hprimary

theorem writeWords (fuel : Nat) (s : State) (p : Nat) (bs : List Byte) (bad : Nat → Bool) (i : Nat) :
    s.DispatcherKept (s.writeWords fuel p bs bad i) := by
  induction fuel generalizing s p bs i with
  | zero => exact refl s
  | succ k ih => exact ite (refl s) ((writeWord ..).trans (ih ..))

theorem writeParts (ps : List (Nat × Nat)) (s : State) (bs : List Byte) (bad : Nat → Bool) (i : Nat) :
    s.DispatcherKept (s.writeParts ps bs bad i) := by
  induction ps generalizing s bs i with
  | nil => exact refl s
  | cons e r ih =>
    obtain ⟨p, n⟩ := e
    exact (portUse ..).trans ((writeWords ..).trans (ih ..))

theorem checkedWrite {a : Nat} {bs : List Byte} {bad : Nat → Bool} (h : s.checkedWrite a bs bad = .ok t) :
    s.DispatcherKept t := by
  simp only [State.checkedWrite] at h
  split at h
  · cases h
  · cases h
    exact writeParts ..

end State.DispatcherKept

end Sys2Proof.Machine

/-!
TASK_DISPATCH, CANCEL_APPLY and TASK_STOP (R303, R304, R310, R311): what they leave in the dispatcher's table.
-/
namespace Sys2Proof.Machine
open Sys2Proof

/-! ### The logbook and the table -/

/-- The runs and the tasks are the same; the logbook's own marks in the dispatcher may differ. -/
structure State.TasksKept (s t : State) : Prop where
  runs : t.runs = s.runs
  tasks : t.disp.tasks = s.disp.tasks

theorem State.DispatcherKept.tasksKept {s t : State} (h : s.DispatcherKept t) : s.TasksKept t :=
  ⟨h.runs, by rw [h.disp]⟩

theorem State.logWrite_kept (s : State) (rec : List Byte) : s.DispatcherKept (s.logWrite rec) := by
  simp only [State.logWrite]
  split
  · exact .refl s
  · split
    · exact ⟨rfl, rfl, rfl⟩
    · rename_i hwrite
      have hcount (p : Power) (k : Nat) :=
        ((State.DispatcherKept.checkedWrite hwrite).power p).fset F.DSP_LOG_STATUS_WRITTEN 0 k
      exact .ite (((hcount _ _).fset ..).attn ..) (hcount _ _)

namespace State.TasksKept
variable {s t u : State}

theorem refl (s : State) : s.TasksKept s := ⟨rfl, rfl⟩

theorem trans (h : s.TasksKept t) (k : t.TasksKept u) : s.TasksKept u := ⟨k.runs.trans h.runs, k.tasks.trans h.tasks⟩

theorem ite {c : Prop} [Decidable c] (ht : s.TasksKept t) (hu : s.TasksKept u) : s.TasksKept (if c then t else u) := by
  split <;> assumption

theorem overrunLogged (s : State) : s.TasksKept s.overrunLogged :=
  ite (refl s) ((s.logWrite_kept _).tasksKept.trans ⟨rfl, rfl⟩)

theorem logEvent (s : State) (ev prio core stage : Nat) (run : W32) (ordinal sub flow detail : Nat) :
    s.TasksKept (s.logEvent ev prio core stage run ordinal sub flow detail) := by
  have hlogged : s.TasksKept s.draw.2.overrunLogged := trans (t := s.draw.2) ⟨rfl, rfl⟩ (overrunLogged _)
  have hrecord (rec : List Byte) : s.TasksKept (s.draw.2.overrunLogged.logWrite rec) :=
    hlogged.trans (State.logWrite_kept ..).tasksKept
  refine ite (refl s) (ite ⟨rfl, rfl⟩ ?_)
  exact trans (t := if s.draw.2.overrunLogged.flag F.DSP_LOG_CTL_ENABLE then _ else s.draw.2.overrunLogged)
    (ite (hrecord _) hlogged) ⟨rfl, rfl⟩

theorem logTask (s : State) (ev : Nat) (t : Task) (core detail : Nat) : s.TasksKept (s.logTask ev t core detail) := by
  simp only [State.logTask]
  split
  · exact refl s
  · exact logEvent ..

end State.TasksKept

/-! ### Dispatch -/

theorem mem_insertBy {α : Type} {le : α → α → Bool} {x y : α} {l : List α} :
    y ∈ insertBy le x l ↔ y = x ∨ y ∈ l := by
  induction l with
  | nil => simp [insertBy]
  | cons z r ih =>
    simp only [insertBy]
    split
    · simp only [List.mem_cons, ih, or_left_comm]
    · simp

theorem mem_foldl_insertBy {α : Type} {le : α → α → Bool} {y : α} (l acc : List α) :
    y ∈ l.foldl (fun acc x => insertBy le x acc) acc ↔ y ∈ l ∨ y ∈ acc := by
  induction l generalizing acc with
  | nil => simp only [List.foldl_nil, List.not_mem_nil, false_or]
  | cons x r ih => rw [List.foldl_cons, ih, mem_insertBy, List.mem_cons, or_left_comm, or_assoc]

theorem mem_sortBy {α : Type} {le : α → α → Bool} {y : α} {l : List α} : y ∈ sortBy le l ↔ y ∈ l := by
  rw [sortBy, mem_foldl_insertBy]
  simp only [List.not_mem_nil, or_false]

theorem State.mem_tasks_of_tried {s : State} {t : Task} (h : t ∈ s.triedTasks) : t ∈ s.disp.tasks := by
  have hready : t ∈ s.readyTasks := by
    rcases List.mem_append.mp h with h | h <;> exact (List.mem_filter.mp h).1
  exact (List.mem_filter.mp (mem_sortBy.mp hready)).1

theorem State.triedTasks_nil {s : State} (h : s.readyTasks = []) : s.triedTasks = [] := by
  simp [State.triedTasks, h]

/-- The first task that is tried goes where it can go. -/
theorem State.dispatchFirst_goes {s : State} {t : Task} {rest : List Task} {st : StageRec} {p : Pipeline} {r : Run} {w : Way}
    (hgo : s.goable t = some (st, p, r)) (hway : s.wayNow t st = some w) :
    State.dispatchFirst (t :: rest) s = s.dispatch t st p w := by
  simp only [State.dispatchFirst, hgo, hway]

theorem State.reserve_kept (s : State) (t : Task) (st : StageRec) (p : Pipeline) : s.TasksKept (s.reserve t st p) := by
  refine foldl_keeps_prop s.TasksKept _ (fun u q hu => ?_) _ s (.refl s)
  exact hu.trans ⟨rfl, rfl⟩

theorem State.censusDispatch_kept (s : State) (cores : List Nat) (wait : Nat) :
    s.DispatcherKept (s.censusDispatch cores wait) := by
  refine foldl_keeps_prop s.DispatcherKept _ (fun u n hu => ?_) _ s (.refl s)
  exact ((((hu.free _).fset ..).fset ..).gov _).event ..

theorem State.joinRound_kept (s : State) (t : Task) (st : StageRec) : s.DispatcherKept (s.joinRound t st) := by
  simp only [State.joinRound]
  split
  · exact ⟨rfl, rfl, rfl⟩
  · split <;> exact ⟨rfl, rfl, rfl⟩

/-- The entry of a task that has just been sent. -/
def State.sentTask (s : State) (t : Task) (w : Way) : Task :=
  { t with state := .running, sentAt := s.now, core := w.core, units := w.units }

/-- A task that is sent has its entry rewritten; nothing else of the table changes, and no run. -/
theorem State.dispatch_kept (s : State) (t : Task) (st : StageRec) (p : Pipeline) (w : Way) :
    (s.putTask (s.sentTask t w)).TasksKept (s.dispatch t st p w) := by
  have hput : (s.putTask (s.sentTask t w)).TasksKept ((s.reserve t st p).putTask (s.sentTask t w)) := by
    obtain ⟨hruns, htasks⟩ := s.reserve_kept t st p
    exact ⟨hruns, by simp only [State.putTask, htasks]⟩
  simp only [State.dispatch]
  generalize hv : List.foldl _ _ w.clusters = v
  have hlit : (s.putTask (s.sentTask t w)).TasksKept v := by
    rw [← hv]
    refine foldl_keeps_prop _ _ (fun u c hu => ?_) _ _ (hput.trans (.trans ?_ (State.censusDispatch_kept ..).tasksKept))
    · exact hu.trans ⟨rfl, rfl⟩
    · exact ⟨rfl, rfl⟩
  refine .trans ?_ (.logTask ..)
  split
  · exact hlit.trans (State.joinRound_kept ..).tasksKept
  · exact hlit.trans (State.joinRound_kept ..).tasksKept
  · exact hlit.trans (.ite (.refl v) ⟨rfl, rfl⟩)
  · exact hlit

/-- What the dispatcher's table and the runs look like once a task is sent (R303). -/
theorem State.dispatch_sends {s : State} {t : Task} (ht : t ∈ s.disp.tasks) (st : StageRec) (p : Pipeline) (w : Way) :
    (s.dispatch t st p w).task? t.id = some (s.sentTask t w) ∧
      (s.dispatch t st p w).disp.tasks.length = s.disp.tasks.length ∧ (s.dispatch t st p w).runs = s.runs := by
  obtain ⟨hruns, htasks⟩ := s.dispatch_kept t st p w
  obtain ⟨x, hx⟩ : ∃ x, s.task? t.id = some x := by
    rw [← Option.isSome_iff_exists, State.task?, List.find?_isSome]
    exact ⟨t, ht, beq_self_eq_true t.id⟩
  refine ⟨?_, ?_, hruns⟩
  · rw [State.task?, htasks]
    exact find?_updWhere_const (x := s.sentTask t w) (q := fun y : Task => y.id == t.id) (beq_self_eq_true t.id)
      (List.find?_some hx) hx
  · rw [htasks]
    exact List.length_map _

theorem exec_taskDispatch (s : State) : exec .taskDispatch s = .next (s.holdFlash (taskDispatch s)) := rfl

theorem taskDispatch_dark {s : State} (h : s.lit = false) : taskDispatch s = s := by
  simp [taskDispatch, h]

theorem taskDispatch_lit {s : State} (h : s.lit = true) :
    taskDispatch s = State.dispatchFirst s.settleAll.triedTasks s.settleAll := by
  simp [taskDispatch, h]

theorem gives_taskDispatch {s : State} {t : Task} {rest : List Task} {st : StageRec} {p : Pipeline} {r : Run} {w : Way}
    (hlit : s.lit = true) (htried : s.settleAll.triedTasks = t :: rest) (hgo : s.settleAll.goable t = some (st, p, r))
    (hway : s.settleAll.wayNow t st = some w) : Gives .taskDispatch s (fun u =>
      (∃ x, u.task? t.id = some x ∧ x.state = .running ∧ x.sentAt = s.settleAll.now ∧ x.units = w.units ∧
        x.core = w.core ∧ x.chunk = t.chunk) ∧
      u.disp.tasks.length = s.settleAll.disp.tasks.length ∧ u.runs = s.settleAll.runs) := by
  have ht : t ∈ s.settleAll.disp.tasks := State.mem_tasks_of_tried (htried ▸ List.mem_cons_self)
  obtain ⟨htask, hlength, hruns⟩ := State.dispatch_sends ht st p w
  refine ⟨_, exec_taskDispatch s, ?_⟩
  rw [taskDispatch_lit hlit, htried, State.dispatchFirst_goes hgo hway]
  exact ⟨⟨_, htask, rfl, rfl, rfl, rfl, rfl⟩, hlength, hruns⟩

/-! ### The cancel cycle -/

theorem exec_cancelApply (k : Fin 64) (s : State) :
    exec (.cancelApply k) s = .next (s.holdFlash ((cancelApply k s).settleAll)) := rfl

/-- The tasks of a run that the cancel cycle ends: those that are not RUNNING (R310). -/
def State.waitingTasks (s : State) (slot : Nat) : List Task :=
  s.disp.tasks.filter (fun t => t.slot == slot && t.state != .running)

/-- The end of one of them. -/
def State.cancelWaiting (s : State) (t : Task) : State :=
  ((s.logTask 0x04 t 0xFF 0x0B01).bump F.DSP_CANCEL_BEFORE 0 1).dropTask t false

/-- What the cancel cycle does before the run settles. -/
def State.cancelCycle (s : State) (slot : Nat) : State :=
  let s := (s.waitingTasks slot).foldl State.cancelWaiting s
  let s := { s with disp := { s.disp with
    tasks := updWhere (fun t : Task => t.slot == slot) (fun t => { t with stop := true }) s.disp.tasks
    ctxs := updWhere (fun c : Ctx => c.slot == slot) (fun c => { c with items := [], rel := [] }) s.disp.ctxs } }
  let s := s.modWork slot (fun w => { w with sourcesLeft := [], holes := [] })
  s.modRun slot (fun r => { r with cancelDue := false })

theorem cancelApply_due {k : Fin 64} {s : State} {r : Run} (hr : s.run? k = some r) (hdue : r.cancelDue = true) :
    cancelApply k s = (s.cancelCycle r.slot).settle r.slot := by
  simp only [cancelApply, hr, hdue]
  rfl

theorem cancelApply_notDue {k : Fin 64} {s : State} (h : ∀ r, s.run? k = some r → r.cancelDue = false) :
    cancelApply k s = s := by
  simp only [cancelApply]
  split
  · rfl
  · rename_i r hr
    simp [h r hr]

theorem State.cancelWaiting_tasks (s : State) (t : Task) :
    (s.cancelWaiting t).disp.tasks = s.disp.tasks.filter (fun x => x.id != t.id) := by
  rw [State.cancelWaiting, State.dropTask_tasks, State.bump_disp, (State.TasksKept.logTask ..).tasks]

/-- A task that is left stood in the table and is none of those ended. -/
theorem State.mem_foldl_cancelWaiting {x : Task} {l : List Task} {s : State}
    (h : x ∈ (l.foldl State.cancelWaiting s).disp.tasks) : x ∈ s.disp.tasks ∧ x ∉ l := by
  induction l generalizing s with
  | nil => exact ⟨h, List.not_mem_nil⟩
  | cons t r ih =>
    obtain ⟨hleft, hrest⟩ := ih h
    rw [State.cancelWaiting_tasks, List.mem_filter] at hleft
    obtain ⟨hmem, hid⟩ := hleft
    refine ⟨hmem, fun hx => ?_⟩
    rcases List.mem_cons.mp hx with rfl | hx
    · simp at hid
    · exact hrest hx

/-- An element of a list after a replacement: one replaced, or one that stood there. -/
theorem mem_updWhere {α : Type} {p : α → Bool} {f : α → α} {l : List α} {y : α} (h : y ∈ updWhere p f l) :
    ∃ x ∈ l, (p x = true ∧ y = f x) ∨ (p x = false ∧ y = x) := by
  obtain ⟨x, hx, rfl⟩ := List.mem_map.mp h
  refine ⟨x, hx, ?_⟩
  split
  · exact .inl ⟨‹_›, rfl⟩
  · exact .inr ⟨Bool.eq_false_iff.mpr ‹_›, rfl⟩

theorem State.cancelCycle_tasks {s : State} {slot : Nat} {t : Task} (h : t ∈ (s.cancelCycle slot).disp.tasks)
    (hslot : t.slot = slot) : t.state = .running ∧ t.stop = true := by
  obtain ⟨x, hx, ⟨hxslot, rfl⟩ | ⟨hxslot, rfl⟩⟩ := mem_updWhere h
  · obtain ⟨hmem, hwaits⟩ := State.mem_foldl_cancelWaiting hx
    have hrunning : x.state = .running := by simpa [State.waitingTasks, hmem, beq_iff_eq.mp hxslot] using hwaits
    exact ⟨hrunning, rfl⟩
  · exact absurd hslot (beq_eq_false_iff_ne.mp hxslot)

theorem State.cancelCycle_ctxs {s : State} {slot : Nat} {c : Ctx} (h : c ∈ (s.cancelCycle slot).disp.ctxs)
    (hslot : c.slot = slot) : c.items = [] ∧ c.rel = [] := by
  obtain ⟨x, -, ⟨-, rfl⟩ | ⟨hxslot, rfl⟩⟩ := mem_updWhere h
  · exact ⟨rfl, rfl⟩
  · exact absurd hslot (beq_eq_false_iff_ne.mp hxslot)

theorem State.cancelCycle_cancelDue {s : State} {slot : Nat} {q : Run} (h : (s.cancelCycle slot).run? slot = some q) :
    q.cancelDue = false := by
  have hslot : q.slot = slot := by simpa using List.find?_some h
  obtain ⟨x, -, ⟨-, rfl⟩ | ⟨hxslot, rfl⟩⟩ := mem_updWhere (List.mem_of_find?_eq_some h)
  · rfl
  · exact absurd hslot (beq_eq_false_iff_ne.mp hxslot)

theorem gives_cancelApply {k : Fin 64} {s : State} {r : Run} (hr : s.run? k = some r) (hdue : r.cancelDue = true) :
    Gives (.cancelApply k) s (fun u => ∃ v : State, u = s.holdFlash ((v.settle r.slot).settleAll) ∧
      (∀ t, t ∈ v.disp.tasks → t.slot = r.slot → t.state = .running ∧ t.stop = true) ∧
      (∀ c ∈ v.disp.ctxs, c.slot = r.slot → c.items = [] ∧ c.rel = []) ∧
      (∀ q, v.run? k = some q → q.cancelDue = false)) := by
  have hslot : r.slot = k := by simpa using List.find?_some hr
  refine ⟨_, exec_cancelApply k s, s.cancelCycle r.slot, ?_, fun _ => State.cancelCycle_tasks,
    fun _ => State.cancelCycle_ctxs, fun q hq => State.cancelCycle_cancelDue (hslot ▸ hq)⟩
  rw [cancelApply_due hr hdue]

/-! ### A task that stops -/

theorem exec_taskStop (task : Nat) (s : State) :
    exec (.taskStop task) s = .next (s.holdFlash ((taskStop task s).settleAll)) := rfl

theorem taskStop_stops {task : Nat} {s : State} {t : Task} (ht : s.task? task = some t) (hstop : t.stop = true)
    (hrunning : t.state = .running) (htaken : t.taken = false) : taskStop task s = (s.stopTask t).settle t.slot := by
  simp [taskStop, ht, hstop, hrunning, htaken]

theorem taskStop_stays {task : Nat} {s : State}
    (h : ∀ t, s.task? task = some t → t.stop = false ∨ t.state ≠ .running ∨ t.taken = true) : taskStop task s = s := by
  simp only [taskStop]
  split
  · rfl
  · rename_i t ht
    rcases h t ht with h | h | h <;> simp [h]

theorem State.stopTask_gone (s : State) (t : Task) : (s.stopTask t).task? t.id = none := State.dropTask_gone ..

end Sys2Proof.Machine

/-!
WEIGHT_LOAD and CENSUS_WINDOW (R291, R314): the weights a graph's cores hold, and what a load window leaves in the registers
of each core.
-/
namespace Sys2Proof.Machine
open Sys2Proof

/-! ### Resident weights -/

theorem exec_weightLoad (graph : Fin 256) (s : State) :
    exec (.weightLoad graph) s = .next (s.holdFlash ((weightLoad graph s).settleAll)) := rfl

/-- Weights are loaded by reads alone; then the graph is held by its cores (R291). -/
theorem weightLoad_loads {graph : Fin 256} {s : State} {im : Image} {g : Graph} (hlit : s.lit = true)
    (him : s.image = some im) (hg : s.graph? graph = some g) (hloaded : s.loaded graph = false)
    (hused : s.graphUsed graph = true) : ∃ (v : State) (data : List (Nat × List (Byte × Bool))), s.DispatcherKept v ∧
      weightLoad graph s = { v with resident :=
        v.resident ++ [⟨graph.val, im.residentCores (s.fget F.MTX_CTL_WEIGHT_KIB) graph.val, data⟩] } := by
  have hgo : (!s.lit || s.loaded graph.val || !s.graphUsed graph.val) = false := by simp [hlit, hloaded, hused]
  simp only [weightLoad, him, hg, hgo]
  refine ⟨_, _, ?_, rfl⟩
  refine List.foldlRecOn (motive := fun acc : List (Nat × List (Byte × Bool)) × State => s.DispatcherKept acc.2) _ _
    (.refl s) (fun acc hacc n _ => ?_)
  split
  · exact hacc.trans (.readDesc ‹_›)
  · exact hacc.trans (.readDesc ‹_›)
  · exact hacc

theorem gives_weightLoad {graph : Fin 256} {s : State} {im : Image} {g : Graph} (hlit : s.lit = true)
    (him : s.image = some im) (hg : s.graph? graph = some g) (hloaded : s.loaded graph = false)
    (hused : s.graphUsed graph = true) : Gives (.weightLoad graph) s (fun u => ∃ v : State,
      u = s.holdFlash v.settleAll ∧ v.runs = s.runs ∧ v.disp = s.disp ∧ ∃ data, v.resident =
        s.resident ++ [⟨graph.val, im.residentCores (s.fget F.MTX_CTL_WEIGHT_KIB) graph.val, data⟩]) := by
  obtain ⟨v, data, hkept, hloads⟩ := weightLoad_loads hlit him hg hloaded hused
  exact ⟨_, exec_weightLoad graph s, _, rfl, by rw [hloads]; exact hkept.runs, by rw [hloads]; exact hkept.disp, data,
    by rw [hloads, hkept.resident]⟩

theorem weightLoad_idle {graph : Fin 256} {s : State}
    (h : s.lit = false ∨ s.loaded graph = true ∨ s.graphUsed graph = false ∨ s.image = none) : weightLoad graph s = s := by
  simp only [weightLoad]
  split
  · rename_i im g him hg
    rcases h with h | h | h | h
    · simp [h]
    · simp [h]
    · simp [h]
    · rw [h] at him
      cases him
  · rfl

/-! ### The census -/

/-- Nothing but registers differs. -/
def State.RegsOnly (s t : State) : Prop := t = { s with regs := t.regs }

theorem State.RegsOnly.refl (s : State) : s.RegsOnly s := rfl

theorem State.RegsOnly.trans {s t u : State} (h : s.RegsOnly t) (k : t.RegsOnly u) : s.RegsOnly u := by
  unfold State.RegsOnly at *
  rw [k, h]

/-- A core whose page is there: its cluster is not lost and its vault has a core (R439). -/
def State.censusCores (s : State) : List Nat :=
  (List.range 192).filter (fun n => !s.units.lostClusters.contains (n / 16) && !s.units.orphans.contains n)

/-- LOAD of a core at the end of a window that began at `start` and lasted `len` (R314). -/
def State.censusLoad (s : State) (start len n : Nat) : Nat :=
  let running := match s.gov.busyFrom.find? (fun e => e.1 == n) with
    | some e => s.now - max e.2 start
    | none => 0
  min 1024 ((lookupD 0 s.gov.busy n + running) * 1024 / len)

/-- LOAD and TASKS of a core at the end of a window. -/
def State.publishCore (start len : Nat) (s : State) (n : Nat) : State :=
  (s.fset F.DSP_CENSUS_LOAD_LOAD n (s.censusLoad start len n)).fset F.DSP_CENSUS_LOAD_TASKS n
    (min 0xFFFFFFFF (lookupD 0 s.gov.censusTasks n))

/-- The registers of a window that has ended. -/
def State.publishCensus (s : State) (complete : Bool) : State :=
  if !complete ∨ s.now - s.gov.windowStart = 0 then s
  else s.censusCores.foldl (State.publishCore s.gov.windowStart (s.now - s.gov.windowStart)) s

theorem State.closeCensus_eq (s : State) (complete : Bool) : s.closeCensus complete =
    let t := s.publishCensus complete
    { t with gov := { t.gov with
        busy := [], censusTasks := [], windowStart := t.now, windowEnd := t.censusEnd, windowWaits := !complete } } := rfl

theorem State.publishCensus_regsOnly (s : State) (complete : Bool) : s.RegsOnly (s.publishCensus complete) := by
  simp only [State.publishCensus]
  split
  · rfl
  · refine foldl_keeps_prop s.RegsOnly _ (fun u n hu => ?_) _ s (.refl s)
    exact hu.trans rfl

/-- The census registers of two cores stand apart. -/
theorem regAddr_census_ne {n m : Nat} (h : n ≠ m) :
    regAddr .DSP_CENSUS_LOAD n 0 ≠ regAddr .DSP_CENSUS_LOAD m 0 := by
  have haddr (k : Nat) : regAddr .DSP_CENSUS_LOAD k 0 = 0xF000B100010 + k * 0x1000 := rfl
  rw [haddr, haddr]
  omega

theorem State.publishCore_tasks_same {s : State} (hord : RegsOrdered s) (start len n : Nat) :
    (s.publishCore start len n).fget F.DSP_CENSUS_LOAD_TASKS n = min 0xFFFFFFFF (lookupD 0 s.gov.censusTasks n) := by
  have hset := State.fget2_fset2_same _ F.DSP_CENSUS_LOAD_TASKS n 0 (min 0xFFFFFFFF (lookupD 0 s.gov.censusTasks n))
    (by decide) (s.fset_rising F.DSP_CENSUS_LOAD_LOAD n (s.censusLoad start len n) hord)
  exact hset.trans (Nat.mod_eq_of_lt (by simp only [F.DSP_CENSUS_LOAD_TASKS]; omega))

theorem State.publishCore_tasks_ne (s : State) (start len : Nat) {n m : Nat} (h : m ≠ n) :
    (s.publishCore start len n).fget F.DSP_CENSUS_LOAD_TASKS m = s.fget F.DSP_CENSUS_LOAD_TASKS m := by
  have haddr := regAddr_census_ne h
  exact (State.fget2_fset2_other _ F.DSP_CENSUS_LOAD_TASKS F.DSP_CENSUS_LOAD_TASKS n 0 m 0 _ haddr).trans
    (State.fget2_fset2_other s F.DSP_CENSUS_LOAD_LOAD F.DSP_CENSUS_LOAD_TASKS n 0 m 0 _ haddr)

/-- What follows for other cores leaves TASKS of a core. -/
theorem State.publishCores_tasks_ne (start len : Nat) {n : Nat} {l : List Nat} (hn : n ∉ l) (s : State) :
    (l.foldl (State.publishCore start len) s).fget F.DSP_CENSUS_LOAD_TASKS n = s.fget F.DSP_CENSUS_LOAD_TASKS n := by
  induction l generalizing s with
  | nil => rfl
  | cons m r ih =>
    have hhead : n ≠ m := fun h => hn (h ▸ List.mem_cons_self)
    rw [List.foldl_cons, ih (fun h => hn (List.mem_cons_of_mem m h)), State.publishCore_tasks_ne _ _ _ hhead]

/-- Once a window is published, TASKS of each core is the count of the tasks dispatched to it (R314). -/
theorem State.publishCores_tasks {s : State} (hord : RegsOrdered s) (start len : Nat) {l : List Nat} {n : Nat} (hn : n ∈ l) :
    (l.foldl (State.publishCore start len) s).fget F.DSP_CENSUS_LOAD_TASKS n =
      min 0xFFFFFFFF (lookupD 0 s.gov.censusTasks n) := by
  induction l generalizing s with
  | nil => exact absurd hn List.not_mem_nil
  | cons m r ih =>
    rw [List.foldl_cons]
    by_cases hrest : n ∈ r
    · have hord' : RegsOrdered (s.publishCore start len m) := State.fset_rising _ _ _ _ (State.fset_rising _ _ _ _ hord)
      exact ih hord' hrest
    · obtain rfl : n = m := (List.mem_cons.mp hn).resolve_right hrest
      rw [State.publishCores_tasks_ne _ _ hrest, State.publishCore_tasks_same hord]

theorem State.publishCensus_waits {s : State} (h : s.gov.windowWaits = true) :
    s.publishCensus (!s.gov.windowWaits) = s := by
  simp [State.publishCensus, h]

theorem State.publishCensus_tasks {s : State} (hord : RegsOrdered s) (hwaits : s.gov.windowWaits = false)
    (hlong : s.gov.windowStart < s.now) {n : Nat} (hn : n < 192) (hcluster : s.units.lostClusters.contains (n / 16) = false)
    (horphan : s.units.orphans.contains n = false) :
    (s.publishCensus (!s.gov.windowWaits)).fget F.DSP_CENSUS_LOAD_TASKS n =
      min 0xFFFFFFFF (lookupD 0 s.gov.censusTasks n) := by
  have hcore : n ∈ s.censusCores := by
    rw [State.censusCores, List.mem_filter, List.mem_range, hcluster, horphan]
    exact ⟨hn, rfl⟩
  have hwindow : ¬ (!!s.gov.windowWaits ∨ s.now - s.gov.windowStart = 0) := by
    simp only [hwaits, Bool.not_not, Bool.false_eq_true, false_or]
    omega
  rw [State.publishCensus, if_neg hwindow]
  exact State.publishCores_tasks hord _ _ hcore

theorem exec_censusWindow (s : State) : exec .censusWindow s = .next (s.holdData (censusWindow s)) := rfl

theorem censusWindow_ends {s : State} (hlit : s.lit = true) (hend : s.gov.windowEnd ≤ s.meridian) :
    censusWindow s = let t := s.closeCensus (!s.gov.windowWaits)
      { t with gov := { t.gov with windowWaits := false } } := by
  have hdue : ¬ ((!s.lit) = true ∨ s.meridian < s.gov.windowEnd) := by simp [hlit, hend]
  rw [censusWindow, if_neg hdue]

theorem censusWindow_early {s : State} (h : s.lit = false ∨ s.meridian < s.gov.windowEnd) : censusWindow s = s := by
  simp [censusWindow, h]

theorem gives_censusWindow {s : State} (hlit : s.lit = true) (hend : s.gov.windowEnd ≤ s.meridian) :
    Gives .censusWindow s (fun u => u.gov.busy = [] ∧ u.gov.censusTasks = [] ∧
      u.gov.windowStart = s.now ∧ u.gov.windowWaits = false ∧ u.outbox = s.outbox ∧ u.odn = s.odn ∧
      StoresKept s u ∧ RunsKept s u ∧ (s.gov.windowWaits = true → u.regs = s.regs) ∧
      (RegsOrdered s → s.gov.windowWaits = false → s.gov.windowStart < s.now → ∀ n, n < 192 →
        s.units.lostClusters.contains (n / 16) = false → s.units.orphans.contains n = false →
        u.fget F.DSP_CENSUS_LOAD_TASKS n = min 0xFFFFFFFF (lookupD 0 s.gov.censusTasks n))) := by
  have hregs : s.gov.windowWaits = true → (s.publishCensus (!s.gov.windowWaits)).regs = s.regs :=
    fun hwaits => by rw [State.publishCensus_waits hwaits]
  have htasks := State.publishCensus_tasks (s := s)
  refine ⟨_, exec_censusWindow s, ?_⟩
  rw [censusWindow_ends hlit hend, State.closeCensus_eq]
  obtain ⟨r, hr⟩ : ∃ r, s.publishCensus (!s.gov.windowWaits) = { s with regs := r } := ⟨_, s.publishCensus_regsOnly _⟩
  rw [hr] at hregs htasks ⊢
  exact ⟨rfl, rfl, rfl, rfl, rfl, rfl, ⟨rfl, rfl, rfl, rfl, rfl⟩, ⟨rfl, rfl, rfl, rfl, rfl⟩, hregs,
    fun hord hwaits hlong n hn => htasks hord hwaits hlong hn⟩

end Sys2Proof.Machine

/-!
LOG_ENABLE and ENGINE_RELEASE (R261, R315, R442): a Keeper's write of one register, and the dispatcher's obligation.
-/
namespace Sys2Proof.Machine
open Sys2Proof

/-! ### A Keeper's write of one register -/

theorem State.PortOnly.raw {s t : State} (h : s.PortOnly t) (id : RegId) (i j : Nat) : t.raw id i j = s.raw id i j := by
  rw [State.raw, h.regs, State.raw]

theorem State.PortOnly.sameFuses {s t : State} (h : s.PortOnly t) : s.sameFuses t = t := by
  rw [State.sameFuses, ← h.fuses]

theorem State.PortOnly.logRefusal {s t : State} (h : s.PortOnly t) (id : RegId) (old new : W64) :
    t.logRefusal id old new = s.logRefusal id old new := by
  rw [h]
  rfl

/-- A register that the index names, at an address of its own. -/
structure Located (id : RegId) (i j : Nat) : Prop where
  found : locate (regAddr id i j) = some (id, i, j)
  aligned : regAddr id i j % 8 = 0
  bounded : regAddr id i j < 2 ^ 64

theorem located_logCtl : Located .DSP_LOG_CTL 0 0 := ⟨by decide, by decide, by decide⟩

theorem located_engStatus (c : Fin 12) (e : Fin 2) : Located .CMP_ENG_STATUS c e := by
  have hall : ∀ (c : Fin 12) (e : Fin 2), locate (regAddr .CMP_ENG_STATUS c e) = some (RegId.CMP_ENG_STATUS, c.val, e.val) ∧
      regAddr .CMP_ENG_STATUS c e % 8 = 0 ∧ regAddr .CMP_ENG_STATUS c e < 2 ^ 64 := by decide
  obtain ⟨hfound, haligned, hbounded⟩ := hall c e
  exact ⟨hfound, haligned, hbounded⟩

theorem State.writeOne_accepted {id : RegId} {i j : Nat} (hloc : Located id i j) (s : State) {w : W64}
    (hw : (regDef id).writeRefusal id true w = none) :
    s.writeOne true (regAddr id i j) w = s.writeAccepted true id i j w := by
  simp [State.writeOne, hloc.aligned, hloc.found, hw]

/-- A Keeper's write of a register, accepted and past the checks of R442, is answered with the code it comes to. -/
theorem accepted_writeNamed {s v : State} {h : Hdr} {z : Session} (ha : Accepted s h z) (hkeeper : z.role = .keeper)
    {id : RegId} {i j : Nat} {w : W64} {c : Code} {body : List Byte} (hloc : Located id i j)
    (hw : (regDef id).writeRefusal id true w = none)
    (hwrite : (s.taken h 24 z).writeAccepted true id i j w = ⟨c, v, none⟩)
    (hbody : natLe 4 (b2n (c == C.OK)) ++ zeros 4 = body) :
    (s.odrenIn h.relayed 24 true).writeNamed h id i j w = v.respond h.session tyWriteReg h.seq c body := by
  have hp : (s.odrenIn h.relayed 24 true).PortOnly (s.taken h 24 z) :=
    (State.hear_portOnly _ h z).trans (State.putSession_portOnly _ _)
  obtain ⟨-, -, hrole, -⟩ := accepted_holder ha 24
  have ⟨_, _, _, _, _, hshape⟩ := ha
  have haddr : (BitVec.ofNat 64 (regAddr id i j)).toNat = regAddr id i j := Nat.mod_eq_of_lt hloc.bounded
  have hrole' : ((s.holder h 24 z).role == .keeper) = true := by rw [hrole, hkeeper]; rfl
  rw [State.writeNamed, State.writeCommand_one (accepted_receive ha 24 tyWriteReg) hshape]
  simp only [hp.sameFuses, haddr, hrole', State.writeOne_accepted hloc _ hw, hwrite, State.writeAnswer, hbody]
  exact (State.respond_portOnly ..).sameFuses

/-- Where the write touched registers alone, the stores and the runs are the same, and the response is sent last. -/
theorem accepted_registerWritten {s v : State} {h : Hdr} {z : Session} (ha : Accepted s h z)
    (hv : (s.taken h 24 z).RegsOnly v) (c : Code) (body : List Byte) :
    let u := s.holdData (v.respond h.session tyWriteReg h.seq c body)
    u.regs = v.regs ∧ Responds (s.taken h 24 z) u h tyWriteReg c body ∧ StoresKept s u ∧ RunsKept s u := by
  have hp := s.taken_portOnly h 24 z
  have hsession : v.session? h.session = some (s.holder h 24 z) := by
    rw [hv]
    exact accepted_taken_session? ha 24
  obtain ⟨hruns, hwork, hdisp, hdescs, hpat⟩ : RunsKept s v := by
    obtain ⟨-, -, hkept⟩ := hp.kept
    rw [hv]
    exact hkept
  have hresponds : Responds (s.taken h 24 z) (s.holdData (v.respond h.session tyWriteReg h.seq c body)) h tyWriteReg c body :=
    ⟨_, _, (State.respond_outbox hsession ..).trans (by rw [hv])⟩
  exact ⟨State.respond_regs .., hresponds, ⟨rfl, rfl, rfl, rfl, rfl⟩, (State.respond_runs ..).trans hruns,
    (State.respond_work ..).trans hwork, (State.respond_disp ..).trans hdisp, (State.respond_runDescs ..).trans hdescs,
    (State.respond_pat ..).trans hpat⟩

/-! ### What the write comes to -/

theorem State.routeRefused_plain (s : State) {id : RegId} (i : Nat) (new : W64) (h0 : id ≠ .TTH_ROUTE0)
    (h1 : id ≠ .TTH_ROUTE1) : s.routeRefused id i new = false := by
  unfold State.routeRefused
  split
  · exact absurd rfl h0
  · exact absurd rfl h1
  · rfl

section
variable {s : State} {id : RegId} {i j : Nat} {w old new : W64}
  (hacts : (regDef id).fields.any (fun f => f.view true == .rw || f.view true == .wo || f.view true == .w1c) = true)
  (hpage : s.pageGone id i = false) (hbivouac : s.power.state ≠ .bivouac)
  (hplain : id ≠ .TTH_ROUTE0 ∧ id ≠ .TTH_ROUTE1 ∧ id ≠ .PWS_REQUEST)
  (hold : s.raw id i j = old) (hnew : (regDef id).written true old w = new)
include hacts hpage hbivouac hplain hold hnew

/-- A write of a plain register that the device takes: the word, then what follows it. -/
theorem State.writeAccepted_takes {c : Code} {v : State} (hrefusal : s.actionRefusal id old new w = none)
    (hact : (s.setRaw id i j new).act id i j old w = (c, v)) : s.writeAccepted true id i j w = ⟨c, v, none⟩ := by
  obtain ⟨h0, h1, hpws⟩ := hplain
  have hroute := s.routeRefused_plain i new h0 h1
  simp [State.writeAccepted, hold, hnew, hacts, hpage, hbivouac, hroute, hrefusal, h0, h1, hpws, hact]

/-- A write of a plain register that its own rule refuses. -/
theorem State.writeAccepted_refuses {c : Code} (hrefusal : s.actionRefusal id old new w = some c) :
    s.writeAccepted true id i j w = ⟨c, s.refusalTrace id new, none⟩ := by
  obtain ⟨h0, h1, -⟩ := hplain
  have hroute := s.routeRefused_plain i new h0 h1
  simp [State.writeAccepted, hold, hnew, hacts, hpage, hbivouac, hroute, hrefusal]

end

/-! ### LOG_ENABLE -/

/-- The state once the settings of the logbook are written: a logbook that is enabled starts with nothing written. -/
def State.logSet (s : State) (old new w : W64) : State :=
  let t := s.setRaw .DSP_LOG_CTL 0 0 new
  if bitAt w.toNat 0 && !bitAt old.toNat 0 then t.setRaw .DSP_LOG_STATUS 0 0 0 else t

theorem State.logSet_regsOnly (s : State) (old new w : W64) : s.RegsOnly (s.logSet old new w) := by
  simp only [State.logSet]
  split <;> rfl

theorem State.logSet_raw {s : State} (h : RegsOrdered s) (old new w : W64) :
    (s.logSet old new w).raw .DSP_LOG_CTL 0 0 = new := by
  have hctl := s.raw_setRaw_same .DSP_LOG_CTL 0 0 new h
  simp only [State.logSet]
  split
  · rw [State.raw_setRaw_ne _ _ _ _ _ _ _ _ (by decide), hctl]
  · exact hctl

section
variable {s : State} {w old new : W64} (hbivouac : s.power.state ≠ .bivouac) (hold : s.raw .DSP_LOG_CTL 0 0 = old)
  (hnew : (regDef .DSP_LOG_CTL).written true old w = new)
include hbivouac hold hnew

theorem State.writeAccepted_logCtl (hgood : s.logRefusal .DSP_LOG_CTL old new = false) :
    s.writeAccepted true .DSP_LOG_CTL 0 0 w = ⟨C.OK, s.logSet old new w, none⟩ := by
  refine State.writeAccepted_takes (by decide) rfl hbivouac (by decide) hold hnew ?_ ?_
  · simp [State.actionRefusal, hgood, fixedChanged, fixedBits]
  · simp only [State.act, State.actUnits, State.actDevice, if_true, State.logSet]
    split <;> rfl

theorem State.writeAccepted_logCtl_refused (hbad : s.logRefusal .DSP_LOG_CTL old new = true) :
    s.writeAccepted true .DSP_LOG_CTL 0 0 w = ⟨C.LOG_INVALID, s.refusalTrace .DSP_LOG_CTL new, none⟩ := by
  refine State.writeAccepted_refuses (by decide) rfl hbivouac (by decide) hold hnew ?_
  simp [State.actionRefusal, hbad, fixedChanged, fixedBits]

end

theorem State.refusalTrace_regsOnly (s : State) (id : RegId) (new : W64) : s.RegsOnly (s.refusalTrace id new) := by
  simp only [State.refusalTrace]
  split <;> rfl

/-- A refused write of the logbook's settings leaves a trace in DSP_LOG_STATUS alone (R315). -/
theorem State.refusalTrace_regsKept (s : State) (id : RegId) (new : W64) :
    RegsKept s (s.refusalTrace id new) [regAddr .DSP_LOG_STATUS 0 0] := by
  intro id' i j haddr
  simp only [State.refusalTrace]
  split
  · exact State.raw_setRaw_ne _ _ _ _ _ _ _ _ (List.ne_of_not_mem_cons haddr)
  · rfl

theorem exec_logEnable (h : Hdr) (value : W64) (s : State) : exec (.logEnable h value) s =
    .next (s.holdData ((s.odrenIn h.relayed 24 true).writeNamed h .DSP_LOG_CTL 0 0 value)) := rfl

section
variable {s : State} {h : Hdr} {z : Session} (ha : Accepted s h z) (hkeeper : z.role = .keeper) {value new : W64}
  (hw : (regDef .DSP_LOG_CTL).writeRefusal .DSP_LOG_CTL true value = none)
  (hbivouac : (s.taken h 24 z).power.state ≠ .bivouac)
  (hnew : (regDef .DSP_LOG_CTL).written true (s.raw .DSP_LOG_CTL 0 0) value = new)
include ha hkeeper hw hbivouac hnew

theorem gives_logEnable (hgood : s.logRefusal .DSP_LOG_CTL (s.raw .DSP_LOG_CTL 0 0) new = false) :
    Gives (.logEnable h value) s (fun u => (RegsOrdered s → u.raw .DSP_LOG_CTL 0 0 = new) ∧
      Responds (s.taken h 24 z) u h tyWriteReg C.OK (natLe 4 1 ++ zeros 4) ∧ StoresKept s u ∧ RunsKept s u) := by
  have hp := s.taken_portOnly h 24 z
  have hwrite := State.writeAccepted_logCtl hbivouac (hp.raw ..) hnew ((hp.logRefusal ..).trans hgood)
  obtain ⟨hregs, hresponds, hstores, hruns⟩ := accepted_registerWritten ha (State.logSet_regsOnly _ _ _ _) C.OK
    (natLe 4 1 ++ zeros 4)
  refine ⟨_, exec_logEnable h value s, ?_⟩
  rw [accepted_writeNamed (body := natLe 4 1 ++ zeros 4) ha hkeeper located_logCtl hw hwrite rfl]
  refine ⟨fun hord => ?_, hresponds, hstores, hruns⟩
  rw [State.raw, hregs]
  exact State.logSet_raw (by rw [RegsOrdered, hp.regs]; exact hord) ..

theorem gives_logEnable_refused (hbad : s.logRefusal .DSP_LOG_CTL (s.raw .DSP_LOG_CTL 0 0) new = true) :
    Gives (.logEnable h value) s (fun u => RegsKept s u [regAddr .DSP_LOG_STATUS 0 0] ∧
      Responds (s.taken h 24 z) u h tyWriteReg C.LOG_INVALID (zeros 8) ∧ StoresKept s u ∧ RunsKept s u) := by
  have hp := s.taken_portOnly h 24 z
  have hwrite := State.writeAccepted_logCtl_refused hbivouac (hp.raw ..) hnew ((hp.logRefusal ..).trans hbad)
  obtain ⟨hregs, hresponds, hstores, hruns⟩ := accepted_registerWritten ha (State.refusalTrace_regsOnly _ _ _)
    C.LOG_INVALID (zeros 8)
  refine ⟨_, exec_logEnable h value s, ?_⟩
  rw [accepted_writeNamed (body := zeros 8) ha hkeeper located_logCtl hw hwrite rfl]
  refine ⟨fun id i j haddr => ?_, hresponds, hstores, hruns⟩
  rw [State.raw, hregs]
  exact (State.refusalTrace_regsKept _ _ _ id i j haddr).trans (hp.raw id i j)

end

/-! ### ENGINE_RELEASE -/

/-- The word that releases an engine. -/
def releaseWord : W64 := put 0 F.CMP_ENG_STATUS_QUARANTINED 1

theorem exec_engineRelease (h : Hdr) (c : Fin 12) (e : Fin 2) (s : State) : exec (.engineRelease h c e) s =
    .next (s.holdFlash ((s.odrenIn h.relayed 24 true).writeNamed h .CMP_ENG_STATUS c e releaseWord)) := rfl

/-- An engine back from quarantine, before anything settles: its count is at 0, and it is no longer out (R261). -/
def State.engineBack (s : State) (c e : Nat) : State :=
  let t := (s.fset2 F.CMP_ENG_STATUS_VERIFY_FAILS c e 0).modUnits (fun u => { u with cmpOut := u.cmpOut.filter (· != (c, e)) })
  t.setOut (t.units.outSet.filter (· != (⟨kindCompression, s.physCluster c, e⟩ : OutUnit)))

theorem State.engineReleased_idle {s : State} (h : s.runs = []) (c e : Nat) : s.engineReleased c e = s.engineBack c e :=
  State.settleAll_idle (s.engineBack c e) h

/-- The number of units out stands apart from an engine's status. -/
theorem regAddr_engStatus_ne (c e : Nat) : regAddr .CMP_ENG_STATUS c e ≠ regAddr .FLT_UNITS 0 0 := by
  have hstatus : regAddr .CMP_ENG_STATUS c e = 0xF0009100000 + c * 0x10000 + e * 0x100 := rfl
  have hunits : regAddr .FLT_UNITS 0 0 = 0xF0011000010 := rfl
  omega

theorem State.engineBack_verifyFails {s : State} (h : RegsOrdered s) (c e : Nat) :
    (s.engineBack c e).fget2 F.CMP_ENG_STATUS_VERIFY_FAILS c e = 0 :=
  (State.fget2_fset2_other _ F.FLT_UNITS_UNITS_OUT F.CMP_ENG_STATUS_VERIFY_FAILS 0 0 c e _ (regAddr_engStatus_ne c e)).trans
    (s.fget2_fset2_same F.CMP_ENG_STATUS_VERIFY_FAILS c e 0 (by decide) h)

theorem State.engineBack_cmpOut (s : State) (c e : Nat) : (c, e) ∉ (s.engineBack c e).units.cmpOut :=
  fun hout => by simpa using (List.mem_filter.mp hout).2

/-- A release of a quarantined engine whose cluster is there, while no run is active. -/
theorem State.writeAccepted_engStatus {s : State} {c : Fin 12} {e : Fin 2} (hbivouac : s.power.state ≠ .bivouac)
    (hcluster : s.units.lostClusters.contains c.val = false) (hruns : s.runs = [])
    (hquarantined : s.fget2 F.CMP_ENG_STATUS_QUARANTINED c e = 1) :
    ∃ new, s.writeAccepted true .CMP_ENG_STATUS c e releaseWord =
      ⟨C.OK, (s.setRaw .CMP_ENG_STATUS c e new).engineBack c e, none⟩ := by
  have hpage : s.pageGone .CMP_ENG_STATUS c = false := by
    simp only [State.pageGone, hcluster]
    rfl
  have hwas : bitAt (s.raw .CMP_ENG_STATUS c e).toNat 1 = true := beq_iff_eq.mpr hquarantined
  have hasked : bitAt releaseWord.toNat 1 = true := by decide
  refine ⟨(regDef .CMP_ENG_STATUS).written true (s.raw .CMP_ENG_STATUS c e) releaseWord,
    State.writeAccepted_takes (by decide) hpage hbivouac (by decide) rfl rfl rfl ?_⟩
  generalize (regDef .CMP_ENG_STATUS).written true _ _ = new
  simp only [State.act, State.actUnits, State.actDevice, hwas, hasked, Bool.and_self, if_true]
  rw [State.engineReleased_idle (s := s.setRaw .CMP_ENG_STATUS c e new) hruns]
  rfl

theorem gives_engineRelease {s : State} {h : Hdr} {z : Session} (ha : Accepted s h z) (hkeeper : z.role = .keeper)
    {c : Fin 12} {e : Fin 2} (hbivouac : (s.taken h 24 z).power.state ≠ .bivouac)
    (hcluster : (s.taken h 24 z).units.lostClusters.contains c.val = false) (hruns : s.runs = []) (hord : RegsOrdered s)
    (hquarantined : s.fget2 F.CMP_ENG_STATUS_QUARANTINED c e = 1) :
    Gives (.engineRelease h c e) s (fun u => u.fget2 F.CMP_ENG_STATUS_VERIFY_FAILS c e = 0 ∧
      (c.val, e.val) ∉ u.units.cmpOut ∧ Answers u h tyWriteReg C.OK (natLe 4 1 ++ zeros 4) ∧ StoresKept s u) := by
  have hp := s.taken_portOnly h 24 z
  have hraw := hp.raw .CMP_ENG_STATUS c e
  obtain ⟨new, hwrite⟩ := State.writeAccepted_engStatus (e := e) hbivouac hcluster (hp.runs.trans hruns)
    (by rw [State.fget2]; exact hraw ▸ hquarantined)
  have hw : (regDef .CMP_ENG_STATUS).writeRefusal .CMP_ENG_STATUS true releaseWord = none := by decide
  have hset : RegsOrdered ((s.taken h 24 z).setRaw .CMP_ENG_STATUS c e new) :=
    State.setRaw_rising _ _ _ _ _ (by rw [hp.regs]; exact hord)
  have hfails := State.engineBack_verifyFails hset c e
  have hsession : (((s.taken h 24 z).setRaw .CMP_ENG_STATUS c e new).engineBack c e).session? h.session =
      some (s.holder h 24 z) := accepted_taken_session? ha 24
  refine ⟨_, exec_engineRelease h c e s, ?_⟩
  rw [accepted_writeNamed (body := natLe 4 1 ++ zeros 4) ha hkeeper (located_engStatus c e) hw hwrite rfl]
  refine ⟨?_, ?_, ⟨_, _, _, State.respond_outbox hsession ..⟩, ?_, ?_, rfl, rfl, ?_⟩
  · simpa [State.fget2, State.raw] using hfails
  · rw [State.holdFlash_units, State.respond_units]
    exact State.engineBack_cmpOut _ _ _
  · exact (State.respond_mem ..).trans hp.mem
  · exact (State.respond_core ..).trans hp.core
  · exact (State.respond_image ..).trans hp.image

/-! ### The obligation -/

/-- Settles O57: the lemma of each command that has something to do; one that has nothing to do leaves its state to settle
(CENSUS_WINDOW, and TASK_DISPATCH outside LIT, leave it as it is). -/
theorem dispatcherCommands : Obligations.DispatcherCommands := by
  unfold Obligations.DispatcherCommands
  intro s
  refine ⟨fun hdark => ?_, fun hlit hnone => ?_, fun t rest st p r w => gives_taskDispatch,
    fun k => ⟨fun r => gives_cancelApply, fun hnone => ?_⟩, fun task => ⟨fun t ht hstop hrunning htaken => ⟨?_, s.stopTask_gone t⟩, fun hstays => ?_⟩,
    fun graph => ⟨fun im g hlit him hg hloaded hused => ?_, fun hidle => ?_⟩, gives_censusWindow, fun hearly => ?_,
    fun h z ha hkeeper => ⟨fun value hw hbivouac => ⟨gives_logEnable ha hkeeper hw hbivouac rfl,
      gives_logEnable_refused ha hkeeper hw hbivouac rfl⟩, fun c e => gives_engineRelease ha hkeeper⟩⟩
  · rw [exec_taskDispatch, taskDispatch_dark hdark]
    rfl
  · rw [exec_taskDispatch, taskDispatch_lit hlit, State.triedTasks_nil hnone]
    rfl
  · rw [exec_cancelApply, cancelApply_notDue hnone]
  · rw [exec_taskStop, taskStop_stops ht hstop hrunning htaken]
  · rw [exec_taskStop, taskStop_stays hstays]
  · exact gives_weightLoad hlit him hg hloaded hused
  · rw [exec_weightLoad, weightLoad_idle hidle]
  · rw [exec_censusWindow, censusWindow_early hearly]
    rfl

end Sys2Proof.Machine

/-!
Receiving a command (R349, R350, R353, R354): its place among its session's commands, and an Operator's first command,
which opens the session.
-/
namespace Sys2Proof.Machine
open Sys2Proof

/-! ### Whether a session is open -/

/-- A session put in a slot that is in use is the one the slot names. -/
theorem State.putSession_bySlot {s : State} {x w : Session} {n : Nat}
    (h : s.odn.sessions.find? (·.slot == n) = some w) (hx : x.slot = n) :
    (s.putSession x).odn.sessions.find? (·.slot == n) = some x := by
  subst hx
  exact find?_updWhere_const (q := fun y : Session => y.slot == x.slot) (beq_self_eq_true x.slot) (List.find?_some h :) h

/-- The session that a slot names is open. -/
def State.OpenAt (s : State) (n : Nat) : Prop := ∃ x, s.odn.sessions.find? (·.slot == n) = some x ∧ x.isOpen = true

theorem State.Seats.isOpen {s : State} {x : Session} (h : s.Seats x) (ho : s.OpenAt x.slot) : x.isOpen = true := by
  obtain ⟨y, hy, hopen⟩ := ho
  obtain rfl : x = y := Option.some.inj (h.bySlot.symm.trans hy)
  exact hopen

@[simp] theorem Session.queueOccur_isOpen (x : Session) (o : Occur) (backlog : Bool) :
    (x.queueOccur o backlog).isOpen = x.isOpen := by
  simp only [Session.queueOccur]
  split
  · rfl
  · split <;> rfl

theorem Session.queueOccurs_isOpen (l : List Occur) (x : Session) :
    (l.foldl (fun x o => x.queueOccur o true) x).isOpen = x.isOpen := by
  induction l generalizing x with
  | nil => rfl
  | cons o r ih => exact (ih _).trans (x.queueOccur_isOpen o true)

theorem State.OpenAt.firstSend {s : State} {n : Nat} (h : s.OpenAt n) : (s.firstSend n).OpenAt n := by
  obtain ⟨y, hy, hopen⟩ := h
  rcases s.firstSend_cases n with e | ⟨x, q, m, hx, e⟩ <;> rw [e]
  · exact ⟨y, hy, hopen⟩
  · obtain rfl : y = x := Option.some.inj (hy.symm.trans hx)
    have hslot : y.slot = n := by simpa using List.find?_some hy
    refine ⟨{ y with lastFirst := some s.now, queue := q }, ?_, hopen⟩
    rw [State.sendAttention_odn]
    exact State.putSession_bySlot hy hslot

theorem State.OpenAt.overflowNotice {s : State} {n : Nat} (h : s.OpenAt n) : (s.overflowNotice n).OpenAt n := by
  obtain ⟨x, hx, hopen⟩ := h
  have hslot : x.slot = n := by simpa using List.find?_some hx
  simp only [State.overflowNotice, hx]
  split
  · exact ⟨x, hx, hopen⟩
  · have hq (o : Occur) := Session.queueOccur_sameCommands { x with overflow := 0 } o false
    exact State.OpenAt.firstSend ⟨_, State.putSession_bySlot hx ((hq _).slot.trans hslot), by simpa using hopen⟩

theorem State.openSession_openAt {s : State} {x w : Session} (h : s.odn.sessions.find? (·.slot == x.slot) = some w) :
    (s.openSession x).OpenAt x.slot := by
  simp only [State.openSession]
  split
  · have hq := Session.queueOccurs_sameCommands s.odn.occurs { x with isOpen := true, heardAt := s.now }
    have ho := Session.queueOccurs_isOpen s.odn.occurs { x with isOpen := true, heardAt := s.now }
    have hput : (State.putSession { s with odn := { s.odn with occurs := [] } } _).OpenAt x.slot :=
      ⟨_, State.putSession_bySlot h hq.slot, ho⟩
    rw [hq.slot]
    exact hput.firstSend.overflowNotice
  · exact ⟨_, State.putSession_bySlot h rfl, rfl⟩

/-! ### Hearing a session -/

/-- A session named by its identifier has a slot that names some session. -/
theorem State.slot_of_session? {s : State} {id : W32} {x : Session} (h : s.session? id = some x) :
    ∃ w, s.odn.sessions.find? (·.slot == x.slot) = some w := by
  rw [← Option.isSome_iff_exists, List.find?_isSome]
  exact ⟨x, List.mem_of_find?_eq_some h, beq_self_eq_true x.slot⟩

/-- The session once an authenticated message has shown where it is reached, at this time. -/
def Session.heard (x : Session) (h : Hdr) (now : Nat) : Session :=
  { x with mac := h.mac, relayed := h.relayed, heardAt := now }

theorem Session.heard_sameCommands (x : Session) (h : Hdr) (now : Nat) : x.SameCommands (x.heard h now) := .refl x

/-- An Operator's first message opens its session (R353). -/
theorem State.hear_openAt {s : State} {h : Hdr} {x : Session} (hx : s.session? h.session = some x)
    (hopen : x.isOpen = false) (hrole : x.role = .operator) : (s.hear h x).OpenAt x.slot := by
  obtain ⟨w, hw⟩ := State.slot_of_session? hx
  have hhear : s.hear h x = s.openSession (x.heard h s.now) := by
    have hfirst : (!x.isOpen && x.role == .operator) = true := by simp [hopen, hrole]
    simp [State.hear, hfirst, Session.heard]
  rw [hhear]
  exact State.openSession_openAt (x := x.heard h s.now) hw

/-- Hearing an open session, or one of a Keeper, only notes where and when. -/
theorem State.hear_plain {s : State} {h : Hdr} {x : Session} (hx : x.isOpen = true ∨ x.role = .keeper) :
    s.hear h x = s.putSession (x.heard h s.now) := by
  have hnot : (!x.isOpen && x.role == .operator) = false := by
    rcases hx with e | e <;> simp [e]
  simp [State.hear, hnot, Session.heard]

theorem State.putSession_putSession (s : State) {x y : Session} (h : y.slot = x.slot) :
    (s.putSession x).putSession y = s.putSession y := by
  have htwice : updWhere (·.slot == y.slot) (fun _ => y) (updWhere (·.slot == x.slot) (fun _ => x) s.odn.sessions) =
      updWhere (·.slot == y.slot) (fun _ => y) s.odn.sessions := by
    simp only [updWhere, List.map_map]
    refine List.map_congr_left fun z _ => ?_
    by_cases hz : z.slot = x.slot <;> simp [hz, h]
  simp only [State.putSession, htwice]

/-! ### The place of a command among its session's (R349, R350) -/

section
variable {s : State} {h : Hdr} {type : Nat} {x : Session}

theorem State.sequence_next (hseq : h.seq = x.expected) (hroom : x.pends.length < 64) :
    s.sequence h type x =
      .execute { x with expected := x.expected + 1 } (s.putSession { x with expected := x.expected + 1 }) := by
  have hspace : ¬ 64 ≤ x.pends.length := by omega
  simp [State.sequence, hseq, hspace]

theorem State.sequence_full (hseq : h.seq = x.expected) (hfull : 64 ≤ x.pends.length) :
    s.sequence h type x = .answered (s.answerBare h.mac h.relayed type h.session h.seq C.BUSY []) := by
  simp [State.sequence, hseq, hfull]

theorem State.sequence_gap (hseq : x.expected < h.seq) :
    s.sequence h type x =
      .answered (s.answerBare h.mac h.relayed type h.session h.seq C.SEQ_GAP (natLe 8 x.expected)) := by
  have hnot : ¬ h.seq < x.expected := by omega
  simp [State.sequence, hseq, hnot]

theorem State.sequence_again {r : Response} (hseq : h.seq < x.expected) (hr : x.sent.find? (·.seq == h.seq) = some r) :
    s.sequence h type x = .answered (s.sendResponse x.mac x.relayed r) := by
  simp [State.sequence, hseq, hr]

theorem State.sequence_stale (hseq : h.seq < x.expected) (hr : x.sent.find? (·.seq == h.seq) = none) :
    s.sequence h type x = .answered (s.answerBare h.mac h.relayed type h.session h.seq C.SEQ_STALE []) := by
  simp [State.sequence, hseq, hr]

end

/-! ### Receiving -/

section
variable {s : State} {h : Hdr} {x : Session} (type : Nat) {opening : Bool}

theorem State.receive_lost (hr : s.reached h.relayed = false) : s.receive h type opening = .lost := by
  simp [State.receive, hr]

theorem State.receive_unknown (hr : s.reached h.relayed = true) (hx : s.session? h.session = none) :
    s.receive h type opening = .answered (s.answerBare h.mac h.relayed type h.session h.seq C.SESSION_UNKNOWN []) := by
  simp [State.receive, hr, hx]

variable (hr : s.reached h.relayed = true) (hx : s.session? h.session = some x)
include hr hx

theorem State.receive_unproven (hopen : x.isOpen = false) (hrole : x.role = .keeper) :
    s.receive h type false = .answered (s.answerBare h.mac h.relayed type h.session h.seq C.ROLE_DENIED []) := by
  simp [State.receive, hr, hx, hopen, hrole]

/-- A session that takes the message is heard, and the message finds its place among that session's commands. -/
theorem State.receive_heard {y : Session} (htakes : x.isOpen = true ∨ x.role = .operator ∨ opening = true)
    (hy : (s.hear h x).Seats y) (hxy : x.SameCommands y) :
    s.receive h type opening = (s.hear h x).sequence h type y := by
  have hid : y.id = h.session := hxy.id.trans (by simpa using List.find?_some hx)
  have hfound : (s.hear h x).session? h.session = some y := hid ▸ hy.byId
  have hnot : (!x.isOpen && x.role == .keeper && !opening) = false := by
    rcases htakes with e | e | e <;> simp [e]
  simp [State.receive, hr, hx, hnot, hfound]

/-- So for an open session, whose message is only noted. -/
theorem State.receive_open (hopen : x.isOpen = true) :
    s.receive h type opening = (s.putSession (x.heard h s.now)).sequence h type (x.heard h s.now) := by
  have hid : x.id = h.session := by simpa using List.find?_some hx
  have hhear : s.hear h x = s.putSession (x.heard h s.now) := State.hear_plain (.inl hopen)
  have hseats : (s.putSession (x.heard h s.now)).Seats (x.heard h s.now) :=
    State.putSession_seats (z := x) ((congrArg s.session? hid).trans hx) rfl
  rw [State.receive_heard type hr hx (.inl hopen) (hhear ▸ hseats) (x.heard_sameCommands h s.now), hhear]

theorem State.receive_open_next (hopen : x.isOpen = true) (hseq : h.seq = x.expected) (hroom : x.pends.length < 64) :
    let y : Session := { x.heard h s.now with expected := x.expected + 1 }
    s.receive h type opening = .execute y (s.putSession y) := by
  intro y
  rw [State.receive_open type hr hx hopen, State.sequence_next (x := x.heard h s.now) hseq hroom,
    State.putSession_putSession]
  · rfl
  · rfl

/-- An Operator's first command opens its session and is executed. -/
theorem State.receive_opens (hopen : x.isOpen = false) (hrole : x.role = .operator) (hseq : h.seq = x.expected)
    (hroom : x.pends.length < 64) :
    ∃ y t, s.receive h type opening = .execute y t ∧ y.isOpen = true ∧ y.expected = x.expected + 1 ∧
      t.session? h.session = some y ∧ s.PortOnly t := by
  obtain ⟨y, hy, hxy⟩ := State.hear_seats hx
  have hid : x.id = h.session := by simpa using List.find?_some hx
  have hyopen : y.isOpen = true := hy.isOpen (hxy.slot ▸ State.hear_openAt hx hopen hrole)
  have hput := hy.putSession (y := { y with expected := y.expected + 1 }) rfl rfl
  refine ⟨_, _, (State.receive_heard type hr hx (.inr (.inl hrole)) hy hxy).trans
    (State.sequence_next (hseq.trans hxy.expected.symm) (hxy.pends ▸ hroom)), hyopen, ?_, ?_, ?_⟩
  · simp [hxy.expected]
  · rw [← hid, ← hxy.id]
    exact hput.byId
  · exact (s.hear_portOnly h x).trans (State.putSession_portOnly _ _)

end

/-- Settles O2: an open session's message by its place among the commands, an Operator's first by what opening keeps. -/
theorem commandTakenInOrder : Obligations.CommandTakenInOrder := by
  unfold Obligations.CommandTakenInOrder
  intro s h type opening
  refine ⟨State.receive_lost type, fun hr => ⟨State.receive_unknown type hr, fun x hx => ⟨?_, ?_, fun hopen => ?_⟩⟩⟩
  · rintro hopen hrole rfl
    exact State.receive_unproven type hr hx hopen hrole
  · intro hopen hrole hseq hroom
    obtain ⟨y, t, hreceive, hyopen, hexpected, hsession, hport⟩ := State.receive_opens type hr hx hopen hrole hseq hroom
    obtain ⟨hregs, hstores, hruns⟩ := hport.kept
    exact ⟨y, t, hreceive, hyopen, hexpected, hsession, hstores, hruns, hregs⟩
  · intro y t
    have hreceive : s.receive h type opening = t.sequence h type y := State.receive_open type hr hx hopen
    refine ⟨State.receive_open_next type hr hx hopen, ?_⟩
    rw [hreceive]
    exact ⟨State.sequence_full (x := y), State.sequence_gap (x := y), fun r => State.sequence_again (x := y),
      State.sequence_stale (x := y)⟩

end Sys2Proof.Machine

/-!
PROVE and CLOSE (R354, R355): the session that proves its key, the code of one that does not, and what ends with a session.
-/
namespace Sys2Proof.Machine
open Sys2Proof

/-! ### What stays as it is -/

theorem State.PortOnly.meridian {s t : State} (h : s.PortOnly t) : t.meridian = s.meridian := by
  rw [State.meridian, h.clock, State.meridian]

theorem State.PortOnly.fset_regs {s t : State} (h : s.PortOnly t) (f : FRef) (i x : Nat) :
    (t.fset f i x).regs = (s.fset f i x).regs := by
  rw [h]
  rfl

theorem State.PortOnly.bump_regs {s t : State} (h : s.PortOnly t) (f : FRef) (i n : Nat) :
    (t.bump f i n).regs = (s.bump f i n).regs := by
  rw [h]
  rfl

theorem runsKept_trans {s t u : State} (h : RunsKept s t) (k : RunsKept t u) : RunsKept s u := by
  obtain ⟨hruns, hwork, hdisp, hdescs, hpat⟩ := h
  obtain ⟨kruns, kwork, kdisp, kdescs, kpat⟩ := k
  exact ⟨kruns.trans hruns, kwork.trans hwork, kdisp.trans hdisp, kdescs.trans hdescs, kpat.trans hpat⟩

theorem State.holdData_storesKept (s t : State) : StoresKept s (s.holdData t) := ⟨rfl, rfl, rfl, rfl, rfl⟩

/-! ### The session that executes -/

@[simp] theorem State.odrenIn_now (s : State) (relayed : Bool) (body : Nat) (isProtected : Bool) :
    (s.odrenIn relayed body isProtected).now = s.now := by
  simp [State.now]

section
variable {s : State} {h : Hdr} {z : Session} {opening : Bool} (ha : Accepted s h z opening) (body : Nat)
include ha

/-- A session that the message does not open executes the command as it was heard. -/
theorem accepted_holder_plain (hz : z.isOpen = true ∨ z.role = .keeper) :
    s.holder h body z = { z.heard h s.now with expected := z.expected + 1 } := by
  have hid := accepted_session_id ha
  obtain ⟨-, hsession, -⟩ := ha
  have hfound : ((s.odrenIn h.relayed body true).hear h z).session? h.session = some (z.heard h s.now) := by
    rw [State.hear_plain hz, State.odrenIn_now, ← hid]
    have hseats := State.putSession_seats (s := s.odrenIn h.relayed body true) (x := z.heard h s.now) (z := z)
      (by simpa [Session.heard, hid] using hsession) rfl
    exact hseats.byId
  simp only [State.holder, hfound, Option.getD_some]
  rfl

/-- What `accepted_answered` says holds of PROVE and CLOSE too, which an unopened session may take. -/
theorem accepted_opening_answered (type : Nat) (c : Code) (bs : List Byte) :
    let t := s.taken h body z
    let u := s.holdData (t.respond h.session type h.seq c bs)
    Responds t u h type c bs ∧ u.regs = s.regs ∧ StoresKept s u ∧ RunsKept s u := by
  intro t u
  have hp : s.PortOnly (t.respond h.session type h.seq c bs) :=
    (s.taken_portOnly h body z).trans (State.respond_portOnly ..)
  have hu : u = t.respond h.session type h.seq c bs := hp.holdData
  rw [hu]
  exact ⟨accepted_responds ha body type c bs, hp.kept⟩

end

/-! ### The end of a session -/

/-- A response leaves the session that it answers in its place. -/
theorem State.Seats.respond {s : State} {x : Session} (h : s.Seats x) (type seq : Nat) (c : Code) (bs : List Byte) :
    ∃ y, (s.respond x.id type seq c bs).Seats y ∧ x.SameCommands y := by
  simp only [State.respond, h.byId]
  have hput := h.putSession (y := x.keep ⟨type, x.id, seq, c, false, bs⟩) rfl rfl
  exact ⟨_, hput.of_odn (State.sendResponse_odn ..), .refl x⟩

theorem State.dropRemote_watches (s : State) (p : Watch → Bool) : (s.dropRemote p).side.watches = s.side.watches := by
  simp only [State.dropRemote]
  exact foldl_keeps (fun t => t.side.watches) (fun t a => t.tellOwner a true) (fun _ _ => rfl) _ _

/-- The watches of a session go with it (R355). -/
theorem State.endSession_watches {s : State} {n : Nat} {x : Session} (h : s.odn.sessions.find? (·.slot == n) = some x)
    (toBacklog : Bool) : ∀ w ∈ (s.endSession n toBacklog).side.watches, w.who ≠ .session x.id := by
  simp only [State.endSession, h, State.dropRemote_watches]
  intro w hw
  simpa using (List.mem_filter.mp hw).2

theorem State.endSession_regs (s : State) (n : Nat) (toBacklog : Bool) : (s.endSession n toBacklog).regs = s.regs := by
  rw [State.endSession_keep]

/-- Neither the stores nor the runs take part in a session's end. -/
theorem State.endSession_kept (s : State) (n : Nat) (toBacklog : Bool) :
    StoresKept s (s.endSession n toBacklog) ∧ RunsKept s (s.endSession n toBacklog) := by
  rw [State.endSession_keep]
  exact ⟨⟨rfl, rfl, rfl, rfl, rfl⟩, rfl, rfl, rfl, rfl, rfl⟩

/-! ### CLOSE -/

section
variable {s : State} {h : Hdr} {z : Session} (ha : Accepted s h z true)
include ha

theorem exec_close_accepted :
    exec (.close h) s = .next (s.holdData
      (((s.taken h 1 z).respond h.session tySession h.seq C.OK []).endSession (s.holder h 1 z).slot)) := by
  have hexec : exec (.close h) s = .next (s.holdData (close h (s.odrenIn h.relayed 1 true))) := rfl
  rw [hexec, close, accepted_command ha 1 tySession]
  simp [State.ok]

theorem gives_close :
    let x := s.holder h 1 z
    let t := s.taken h 1 z
    Gives (.close h) s (fun u =>
      u = s.holdData ((t.respond h.session tySession h.seq C.OK []).endSession x.slot) ∧
      (∀ y ∈ u.odn.sessions, y.slot ≠ x.slot) ∧ (∀ w ∈ u.side.watches, w.who ≠ .session x.id) ∧
      u.regs = s.regs ∧ StoresKept s u ∧ RunsKept s u) := by
  intro x t
  refine ⟨_, exec_close_accepted ha, rfl, State.endSession_slots _ _ _, ?_, ?_, s.holdData_storesKept _, ?_⟩
  · obtain ⟨hid, -⟩ := accepted_holder ha 1
    obtain ⟨y, hy, hxy⟩ := (accepted_taken_seats ha 1).respond tySession h.seq C.OK []
    rw [hid.trans (accepted_session_id ha)] at hy
    have hslot := hy.bySlot
    rw [hxy.slot] at hslot
    rw [← hxy.id]
    exact State.endSession_watches hslot true
  · simpa [State.endSession_regs] using (s.taken_portOnly h 1 z).regs
  · have hp : s.PortOnly (t.respond h.session tySession h.seq C.OK []) :=
      (s.taken_portOnly h 1 z).trans (State.respond_portOnly ..)
    obtain ⟨-, -, hruns⟩ := hp.kept
    obtain ⟨-, hend⟩ := State.endSession_kept (t.respond h.session tySession h.seq C.OK []) x.slot true
    exact runsKept_trans hruns hend

end

/-! ### What PROVE is answered (R354) -/

/-- The keys that the message shows are those enrolled at its position, which is not revoked. -/
def State.Enrolled (s : State) (m : ProveMsg) : Prop :=
  s.fuses.owners.getD m.key.val none = some (fitTo 64 (Config.sha512 (m.edPublic ++ m.mlPublic))) ∧
    s.fuses.revoked.getD m.key.val false = false

/-- Both signatures of the message are over the session's transcript. -/
def Session.SignedBy (x : Session) (m : ProveMsg) : Prop :=
  Config.ed25519Verify m.edPublic x.transcript m.edSignature = true ∧
    Config.mldsaVerify m.mlPublic x.transcript m.mlSignature = true

section
variable {s : State} {x : Session} {m : ProveMsg}

theorem State.proveCode_denied (h : x.role = .operator ∨ x.isOpen = true) : s.proveCode x m = C.ROLE_DENIED := by
  simp only [State.proveCode, if_pos h]

variable (hrole : x.role = .keeper) (hopen : x.isOpen = false)
include hrole hopen

theorem State.proveCode_notEnrolled (he : ¬ s.Enrolled m) : s.proveCode x m = C.KEY_NOT_ENROLLED := by
  have hbad : s.fuses.revoked.getD m.key.val false = true ∨
      s.fuses.owners.getD m.key.val none ≠ some (fitTo 64 (Config.sha512 (m.edPublic ++ m.mlPublic))) := by
    cases hrevoked : s.fuses.revoked.getD m.key.val false with
    | true => exact .inl rfl
    | false => exact .inr (fun hdigest => he ⟨hdigest, hrevoked⟩)
  simp [State.proveCode, hrole, hopen, -List.getD_eq_getElem?_getD, hbad]

theorem State.proveCode_signed (he : s.Enrolled m) (hs : x.SignedBy m) : s.proveCode x m = C.OK := by
  obtain ⟨hdigest, hrevoked⟩ := he
  rw [Session.SignedBy] at hs
  simp [State.proveCode, hrole, hopen, -List.getD_eq_getElem?_getD, hdigest, hrevoked, hs]

theorem State.proveCode_unsigned (he : s.Enrolled m) (hs : ¬ x.SignedBy m) : s.proveCode x m = C.AUTH_FAILED := by
  obtain ⟨hdigest, hrevoked⟩ := he
  rw [Session.SignedBy] at hs
  simp [State.proveCode, hrole, hopen, -List.getD_eq_getElem?_getD, hdigest, hrevoked, hs]

end

/-! ### PROVE -/

/-- The effect of PROVE: the session opens, or the failure is counted where there is one. -/
def State.doProve (s : State) (x : Session) (m : ProveMsg) : Answer :=
  let c := s.proveCode x m
  if c = C.OK then ((s.session? x.id).map (fun y => s.openSession y) |>.getD s, c, [])
  else if c = C.ROLE_DENIED then s.refuse c
  else (s.bump F.ODN_AUTH_FAILS 0 1).refuse c

/-- A session that has failed to prove its key ends once it has been answered. -/
def endFailed (x : Session) (c : Code) (s : State) : State :=
  if c = C.KEY_NOT_ENROLLED ∨ c = C.AUTH_FAILED then s.endSession x.slot else s

theorem exec_prove (h : Hdr) (m : ProveMsg) (s : State) : exec (.prove h m) s = .next (s.holdData
    ((s.odrenIn h.relayed 5361 true).command h tySession (fun x t => t.doProve x m) endFailed true)) := rfl

section
variable {s : State} {x y : Session} {m : ProveMsg}

theorem State.doProve_ok (hc : s.proveCode x m = C.OK) (hy : s.session? x.id = some y) :
    s.doProve x m = (s.openSession y, C.OK, []) := by
  simp [State.doProve, hc, hy]

theorem State.doProve_denied (hc : s.proveCode x m = C.ROLE_DENIED) : s.doProve x m = s.refuse C.ROLE_DENIED := by
  have hok : C.ROLE_DENIED ≠ C.OK := by decide
  simp [State.doProve, hc, hok]

theorem State.doProve_failed {c : Code} (hc : s.proveCode x m = c) (hfail : c = C.KEY_NOT_ENROLLED ∨ c = C.AUTH_FAILED) :
    s.doProve x m = (s.bump F.ODN_AUTH_FAILS 0 1).refuse c := by
  have hother : c ≠ C.OK ∧ c ≠ C.ROLE_DENIED := by
    rcases hfail with rfl | rfl <;> decide
  simp [State.doProve, hc, hother]

end

section
variable {s : State} {h : Hdr} {z : Session} (ha : Accepted s h z true) {m : ProveMsg}
include ha

theorem exec_prove_accepted {v : State} {c : Code}
    (hdo : (s.taken h 5361 z).doProve (s.holder h 5361 z) m = (v, c, [])) :
    exec (.prove h m) s =
      .next (s.holdData (endFailed (s.holder h 5361 z) c (v.respond h.session tySession h.seq c []))) := by
  rw [exec_prove, accepted_command ha 5361 tySession, hdo]

/-- A session that has proved its key opens. -/
theorem gives_prove_opens {y : Session} (hc : (s.taken h 5361 z).proveCode (s.holder h 5361 z) m = C.OK)
    (hy : (s.taken h 5361 z).session? (s.holder h 5361 z).id = some y) :
    Gives (.prove h m) s (fun u =>
      u = s.holdData (((s.taken h 5361 z).openSession y).respond h.session tySession h.seq C.OK [])) := by
  have hstays : ¬ (C.OK = C.KEY_NOT_ENROLLED ∨ C.OK = C.AUTH_FAILED) := by decide
  refine ⟨_, exec_prove_accepted ha (State.doProve_ok hc hy), ?_⟩
  simp only [endFailed, if_neg hstays]

theorem gives_prove_denied (hz : z.role = .operator ∨ z.isOpen = true) :
    Gives (.prove h m) s (fun u => Responds (s.taken h 5361 z) u h tySession C.ROLE_DENIED [] ∧
      u.regs = s.regs ∧ StoresKept s u ∧ RunsKept s u) := by
  have hdenied : (s.holder h 5361 z).role = .operator ∨ (s.holder h 5361 z).isOpen = true := by
    obtain ⟨-, -, hrole, -⟩ := accepted_holder ha 5361
    rcases hz with e | e
    · exact .inl (hrole.trans e)
    · exact .inr (by rw [accepted_holder_plain ha 5361 (.inl e)]; exact e)
  have hstays : ¬ (C.ROLE_DENIED = C.KEY_NOT_ENROLLED ∨ C.ROLE_DENIED = C.AUTH_FAILED) := by decide
  refine ⟨_, exec_prove_accepted ha (State.doProve_denied (State.proveCode_denied hdenied)), ?_⟩
  simp only [endFailed, if_neg hstays]
  exact accepted_opening_answered ha 5361 tySession C.ROLE_DENIED []

/-- A session that fails to prove its key is counted, answered and ended. -/
theorem gives_prove_fails {c : Code} (hc : (s.taken h 5361 z).proveCode (s.holder h 5361 z) m = c)
    (hfail : c = C.KEY_NOT_ENROLLED ∨ c = C.AUTH_FAILED) :
    let x := s.holder h 5361 z
    let t := s.taken h 5361 z
    Gives (.prove h m) s (fun u =>
      u = s.holdData (((t.bump F.ODN_AUTH_FAILS 0 1).respond h.session tySession h.seq c []).endSession x.slot) ∧
      (∀ y ∈ u.odn.sessions, y.slot ≠ x.slot) ∧ u.regs = (s.bump F.ODN_AUTH_FAILS 0 1).regs) := by
  intro x t
  refine ⟨_, exec_prove_accepted ha (State.doProve_failed hc hfail), ?_⟩
  simp only [endFailed, if_pos hfail]
  refine ⟨rfl, State.endSession_slots _ _ _, ?_⟩
  simpa [State.endSession_regs] using (s.taken_portOnly h 5361 z).bump_regs F.ODN_AUTH_FAILS 0 1

end

/-- Settles O4: PROVE by the code that its checks come to, in the state in which it was taken. -/
theorem proveAndCloseCommands : Obligations.ProveAndCloseCommands := by
  unfold Obligations.ProveAndCloseCommands
  intro s h z ha
  refine ⟨fun m => ?_, gives_close ha⟩
  intro x t enrolled signed ends
  refine ⟨fun hrole hopen => ?_, gives_prove_denied ha⟩
  have hx : x = { z.heard h s.now with expected := z.expected + 1 } := accepted_holder_plain ha 5361 (.inr hrole)
  have hxrole : x.role = .keeper := hx ▸ hrole
  have hxopen : x.isOpen = false := hx ▸ hopen
  have hxsigned : x.SignedBy m ↔ signed := by rw [hx]; rfl
  have htenrolled : t.Enrolled m ↔ enrolled := by rw [State.Enrolled, (s.taken_portOnly h 5361 z).fuses]
  refine ⟨fun he hs y => ?_, fun he => ?_, fun he hs => ?_⟩
  · exact gives_prove_opens ha (State.proveCode_signed hxrole hxopen (htenrolled.mpr he) (hxsigned.mpr hs))
  · exact gives_prove_fails ha (State.proveCode_notEnrolled hxrole hxopen (mt htenrolled.mp he)) (.inl rfl)
  · exact gives_prove_fails ha
      (State.proveCode_unsigned hxrole hxopen (htenrolled.mpr he) (mt hxsigned.mp hs)) (.inr rfl)

end Sys2Proof.Machine

/-!
Events of the port and the time-outs of sessions (R345 to R348, R354, R355).
-/
namespace Sys2Proof.Machine
open Sys2Proof

/-! ### The commands -/

theorem exec_odrenFrameDiscard (why : FrameFault) (s : State) :
    exec (.odrenFrameDiscard why) s = .next (s.holdData (odrenFrameDiscard why s)) := rfl

theorem exec_portDown (s : State) : exec .portDown s = .next (s.holdData (portDown s)) := rfl

theorem exec_portUp (s : State) : exec .portUp s = .next (s.holdData (portUp s)) := rfl

theorem exec_crossedFibre (s : State) : exec .crossedFibre s = .next (s.holdData (crossedFibre s)) := rfl

theorem exec_messageInvalid (h : Hdr) (why : BadMessage) (s : State) : exec (.messageInvalid h why) s =
    .next (s.holdData (messageInvalid h why (s.odrenIn h.relayed 0 true))) := rfl

theorem exec_sessionOpenTimeout (slot : Fin 8) (s : State) :
    exec (.sessionOpenTimeout slot) s = .next (s.holdData (sessionOpenTimeout slot s)) := rfl

theorem exec_sessionIdleTimeout (slot : Fin 8) (s : State) :
    exec (.sessionIdleTimeout slot) s = .next (s.holdData (sessionIdleTimeout slot s)) := rfl

/-! ### Frames and the port's state -/

/-- A discarded frame only counts, where it reaches the device (R347, R353). -/
theorem exec_odrenFrameDiscard_counts {s : State} (hr : s.reached false = true) :
    exec (.odrenFrameDiscard .badFcs) s = .next (s.bump F.ODN_COUNT_BAD_FCS 0 1) ∧
    exec (.odrenFrameDiscard .otherEtherType) s = .next (s.bump F.ODN_COUNT_OTHER 0 1) ∧
    exec (.odrenFrameDiscard .otherAddress) s = .next (s.bump F.ODN_COUNT_OTHER 0 1) ∧
    exec (.odrenFrameDiscard .badTag) s = .next (s.bump F.ODN_COUNT_AUTH_DROP 0 1) := by
  simp only [exec_odrenFrameDiscard, odrenFrameDiscard, hr]
  exact ⟨rfl, rfl, rfl, rfl⟩

/-- A field set and a report touch none of the stores. -/
theorem State.holdData_fset_attn (s : State) (f : FRef) (i x : Nat) (c : Code) (detail : List Nat) :
    s.holdData ((s.fset f i x).attn c detail) = (s.fset f i x).attn c detail :=
  ((s.fset f i x).attn_portOnly c detail).holdData

section
variable {s : State} (hup : s.upAndRunning = true)
include hup

theorem exec_portDown_falls (hport : s.portUp = true) :
    exec .portDown s = .next ((s.fset F.ODN_STATUS_PORT 0 0).attn C.PORT_DOWN []) := by
  simp [exec_portDown, portDown, hup, hport, State.holdData_fset_attn]

theorem exec_portUp_rises (hport : s.portUp = false) :
    exec .portUp s = .next ((s.fset F.ODN_STATUS_PORT 0 1).attn C.PORT_UP []) := by
  simp [exec_portUp, portUp, hup, hport, State.holdData_fset_attn]

theorem exec_crossedFibre_found (hport : s.fget F.ODN_STATUS_PORT ≠ 2) :
    exec .crossedFibre s = .next ((s.fset F.ODN_STATUS_PORT 0 2).attn C.CROSSED_FIBRE []) := by
  simp [exec_crossedFibre, crossedFibre, hup, hport, State.holdData_fset_attn]

end

/-! ### Messages that are not understood (R348, R351) -/

theorem State.sendResponse_outbox (s : State) (mac : BitVec 48) (relayed : Bool) (r : Response) :
    (s.sendResponse mac relayed r).outbox = s.outbox ++ [.response mac relayed r] := by
  simp only [State.sendResponse]
  split <;> simp [State.out]

theorem gives_badVersion {s : State} {h : Hdr} (hr : s.reached h.relayed = true) :
    Gives (.messageInvalid h .badVersion) s (fun t =>
      t.outbox = s.outbox ++ [.response h.mac h.relayed ⟨0, h.session, h.seq, C.VERSION_UNSUPPORTED, false, []⟩] ∧
      t.odn = s.odn ∧ t.regs = s.regs ∧ StoresKept s t ∧ RunsKept s t) := by
  have hp : s.PortOnly
      ((s.odrenIn h.relayed 0 true).answerBare h.mac h.relayed 0 h.session h.seq C.VERSION_UNSUPPORTED []) :=
    (s.odrenIn_portOnly ..).trans (State.answerBare_portOnly ..)
  refine ⟨_, exec_messageInvalid h .badVersion s, ?_⟩
  simp only [messageInvalid, State.odrenIn_reached, hr, if_true, hp.holdData]
  refine ⟨?_, by simp, hp.kept⟩
  simp [State.answerBare, State.sendResponse_outbox]

theorem gives_unknownType {s : State} {h : Hdr} {z : Session} (ha : Accepted s h z) :
    Gives (.messageInvalid h .unknownType) s (fun u => Responds (s.taken h 0 z) u h 0 C.MESSAGE_INVALID [] ∧
      u.regs = s.regs ∧ StoresKept s u ∧ RunsKept s u) := by
  refine ⟨_, exec_messageInvalid h .unknownType s, ?_⟩
  simp only [messageInvalid, accepted_command ha 0 0]
  exact accepted_answered ha 0 0 C.MESSAGE_INVALID []

/-! ### Time-outs -/

theorem State.holdData_endSession (s : State) (n : Nat) (toBacklog : Bool) :
    s.holdData (s.endSession n toBacklog) = s.endSession n toBacklog := by
  rw [State.endSession_keep]
  rfl

/-- A command that ends the session of a slot. -/
theorem gives_endSession {c : Instr} {s : State} {n : Nat} (hexec : exec c s = .next (s.holdData (s.endSession n))) :
    Gives c s (fun t => t = s.endSession n ∧ (∀ y ∈ t.odn.sessions, y.slot ≠ n) ∧ t.regs = s.regs ∧
      StoresKept s t ∧ RunsKept s t) :=
  ⟨_, hexec.trans (by rw [State.holdData_endSession]), rfl, s.endSession_slots n true, s.endSession_regs n true,
    s.endSession_kept n true⟩

section
variable {s : State} {slot : Fin 8} {x : Session} (hx : s.odn.sessions.find? (·.slot == slot.val) = some x)
include hx

theorem sessionOpenTimeout_ends (hopen : x.isOpen = false) (hdue : x.helloAt + 1000000000 ≤ s.now) :
    sessionOpenTimeout slot s = s.endSession slot := by
  simp [sessionOpenTimeout, hx, hopen, hdue]

theorem sessionOpenTimeout_waits (h : x.isOpen = true ∨ s.now < x.helloAt + 1000000000) :
    sessionOpenTimeout slot s = s := by
  rcases h with hopen | hearly
  · simp [sessionOpenTimeout, hx, hopen]
  · have hwaits : ¬ x.helloAt + 1000000000 ≤ s.now := Nat.not_le.mpr hearly
    simp [sessionOpenTimeout, hx, hwaits]

theorem sessionIdleTimeout_ends (hopen : x.isOpen = true)
    (hdue : x.heardAt + s.fget F.ODN_CTL_IDLE_S * 1000000000 ≤ s.now) : sessionIdleTimeout slot s = s.endSession slot := by
  simp [sessionIdleTimeout, hx, hopen, hdue]

theorem sessionIdleTimeout_waits (h : x.isOpen = false ∨ s.now < x.heardAt + s.fget F.ODN_CTL_IDLE_S * 1000000000) :
    sessionIdleTimeout slot s = s := by
  rcases h with hopen | hearly
  · simp [sessionIdleTimeout, hx, hopen]
  · have hwaits : ¬ x.heardAt + s.fget F.ODN_CTL_IDLE_S * 1000000000 ≤ s.now := Nat.not_le.mpr hearly
    simp [sessionIdleTimeout, hx, hwaits]

end

/-- Settles O5: the frames, the port and the messages one by one, then each time-out when it is due and before. -/
theorem portEventsCounted : Obligations.PortEventsCounted := by
  unfold Obligations.PortEventsCounted
  refine ⟨fun s => ⟨exec_odrenFrameDiscard_counts, exec_portDown_falls, exec_portUp_rises, exec_crossedFibre_found,
    fun h => gives_badVersion, fun h z => gives_unknownType⟩, fun s slot x hx => ⟨?_, ?_, ?_, ?_⟩⟩
  · intro hopen hdue
    exact gives_endSession (by rw [exec_sessionOpenTimeout, sessionOpenTimeout_ends hx hopen hdue])
  · intro h
    rw [exec_sessionOpenTimeout, sessionOpenTimeout_waits hx h]
    rfl
  · intro hopen hdue
    exact gives_endSession (by rw [exec_sessionIdleTimeout, sessionIdleTimeout_ends hx hopen hdue])
  · intro h
    rw [exec_sessionIdleTimeout, sessionIdleTimeout_waits hx h]
    rfl

end Sys2Proof.Machine

/-!
Attention messages, as they are acknowledged and sent (R359), and the relay of messages through the fabric (R360).
-/
namespace Sys2Proof.Machine
open Sys2Proof

/-! ### Attention -/

theorem State.sendAttention_portOnly (s : State) (mac : BitVec 48) (id : W32) (m : AttnMsg) :
    s.PortOnly (s.sendAttention mac id m) := by
  apply State.portOnly_of <;> simp

/-- Where no message was lost there is nothing to give notice of. -/
theorem State.overflowNotice_none {s : State} {n : Nat} {x : Session}
    (hx : s.odn.sessions.find? (·.slot == n) = some x) (hlost : x.overflow = 0) : s.overflowNotice n = s := by
  simp [State.overflowNotice, hx, hlost]

theorem exec_attnAck (h : Hdr) (s : State) :
    exec (.attnAck h) s = .next (s.holdData (attnAck h (s.odrenIn h.relayed 0 true))) := rfl

/-- The session without the messages up to `seq`. -/
def Session.acknowledged (x : Session) (seq : Nat) : Session := { x with queue := x.queue.filter (fun m => seq < m.seq) }

/-- An acknowledgement is heard, and the messages that it names leave the queue (R359). -/
theorem attnAck_open {s : State} {h : Hdr} {x : Session} (hr : s.reached h.relayed = true)
    (hx : s.session? h.session = some x) (hopen : x.isOpen = true) (hshape : h.wellShaped = true) (hlost : x.overflow = 0) :
    attnAck h s = s.putSession ((x.heard h s.now).acknowledged h.seq) := by
  obtain ⟨w, hw⟩ := State.slot_of_session? hx
  have hput := State.putSession_bySlot (x := (x.heard h s.now).acknowledged h.seq) hw rfl
  have htakes : (!x.isOpen) = false := by simp [hopen]
  simp only [attnAck, hr, hx, htakes, hshape, Bool.not_true, Bool.false_eq_true, if_false]
  exact State.overflowNotice_none hput hlost

theorem gives_attnAck {s : State} {h : Hdr} {x : Session} (hr : s.reached h.relayed = true)
    (hx : s.session? h.session = some x) (hopen : x.isOpen = true) (hshape : h.wellShaped = true) (hlost : x.overflow = 0) :
    Gives (.attnAck h) s (fun t => t = s.holdData
      ((s.odrenIn h.relayed 0 true).putSession ((x.heard h s.now).acknowledged h.seq)) ∧ t.regs = s.regs) := by
  have hack : attnAck h (s.odrenIn h.relayed 0 true) =
      (s.odrenIn h.relayed 0 true).putSession ((x.heard h s.now).acknowledged h.seq) := by
    rw [attnAck_open (by simpa using hr) (by simpa using hx) hopen hshape hlost, State.odrenIn_now]
  refine ⟨_, exec_attnAck h s, ?_, ?_⟩ <;> rw [hack]
  simp

theorem exec_attnFirstSend {s : State} {slot : Fin 8} {x : Session} {m : AttnMsg}
    (hx : s.odn.sessions.find? (·.slot == slot.val) = some x) (hopen : x.isOpen = true)
    (hgap : ∀ a, x.lastFirst = some a → a + firstSendGap ≤ s.now) (hm : x.queue.find? (·.sent.isNone) = some m) :
    let n : AttnMsg := { m with sent := some (s.now, 10000000) }
    exec (.attnFirstSend slot) s = .next ((s.putSession { x with
      lastFirst := some s.now, queue := updWhere (·.seq == m.seq) (fun _ => n) x.queue }).sendAttention x.mac x.id n) := by
  intro n
  have hexec : exec (.attnFirstSend slot) s = .next (s.holdData (s.firstSend slot)) := rfl
  rw [hexec, (s.firstSend_portOnly slot).holdData]
  cases hlast : x.lastFirst with
  | none => simp [State.firstSend, hx, hopen, hlast, hm, n, firstResend]
  | some a =>
    have hlate : ¬ s.now < a + firstSendGap := Nat.not_lt.mpr (hgap a hlast)
    simp [State.firstSend, hx, hopen, hlast, hlate, hm, n, firstResend]

theorem exec_attnResend {s : State} {slot : Fin 8} {seq a wait : Nat} {x : Session} {m : AttnMsg}
    (hx : s.odn.sessions.find? (·.slot == slot.val) = some x) (hm : x.queue.find? (·.seq == seq) = some m)
    (hsent : m.sent = some (a, wait)) (hdue : a + wait ≤ s.now) :
    let n : AttnMsg := { m with sent := some (s.now, min (2 * wait) 160000000) }
    exec (.attnResend slot seq) s = .next ((s.putSession { x with
      queue := updWhere (·.seq == seq) (fun _ => n) x.queue }).sendAttention x.mac x.id n) := by
  intro n
  have hexec : exec (.attnResend slot seq) s = .next (s.holdData (attnResend slot seq s)) := rfl
  have hlate : ¬ s.now < a + wait := by omega
  have hp : s.PortOnly ((s.putSession { x with
      queue := updWhere (·.seq == seq) (fun _ => n) x.queue }).sendAttention x.mac x.id n) :=
    (s.putSession_portOnly _).trans (State.sendAttention_portOnly ..)
  rw [hexec, ← hp.holdData]
  simp only [attnResend, hx, hm, hsent, if_neg hlate]
  rfl

/-! ### Relay -/

theorem exec_relay (link : Fin 64) (b : RelayBody) (s : State) :
    exec (.relay link b) s = .next (s.holdData (relay link b s)) := rfl

theorem exec_relayed (mac : BitVec 48) (b : RelayBody) (s : State) : exec (.relayed mac b) s =
    .next (s.holdData (relayed mac b (s.odrenIn false (16 + b.inner.length) false))) := rfl

section
variable {s : State} {link : Fin 64} {b : RelayBody} (hup : s.upAndRunning = true)
  (hlink : s.linkState link = lnkActive ∨ s.linkState link = lnkMaintenance)
include hup hlink

/-- A RELAY that a link in use receives, by the way it goes (R360). -/
theorem relay_received : relay link b s =
    if b.toDevice then
      if b.device.toNat = s.device then s
      else if b.hops ≥ 8 then s.bump F.ODN_COUNT_RELAY_DROP 0 1
      else s.relayInward { b with hops := b.hops + 1 }
    else if s.portUp then (s.out (.relayed b.mac b)).meter 352 (messageBytes (16 + b.inner.length) false)
    else if b.hops ≥ 8 then s.bump F.ODN_COUNT_RELAY_DROP 0 1
    else
      match s.relayLink (some link) with
      | some l => s.sendRelay l { b with hops := b.hops + 1 }
      | none => s := by
  have htakes : (!s.upAndRunning || !(s.linkState link == lnkActive || s.linkState link == lnkMaintenance)) = false := by
    rcases hlink with e | e <;> simp [hup, e]
  simp only [relay, htakes]
  rfl

theorem exec_relay_port (hout : b.toDevice = false) (hport : s.portUp = true) :
    exec (.relay link b) s = .next ((s.out (.relayed b.mac b)).meter 352 (messageBytes (16 + b.inner.length) false)) := by
  rw [exec_relay, relay_received hup hlink]
  simp [hout, hport, State.holdData, State.out, State.meter]

theorem exec_relay_dropped (hout : b.toDevice = false) (hport : s.portUp = false) (hhops : 8 ≤ b.hops) :
    exec (.relay link b) s = .next (s.bump F.ODN_COUNT_RELAY_DROP 0 1) := by
  rw [exec_relay, relay_received hup hlink]
  simp only [hout, hport, hhops, Bool.false_eq_true, if_false, if_true]
  rfl

theorem exec_relay_link {l : Nat} (hout : b.toDevice = false) (hport : s.portUp = false) (hhops : b.hops < 8)
    (hl : s.relayLink (some link) = some l) :
    exec (.relay link b) s = .next (s.sendRelay l { b with hops := b.hops + 1 }) := by
  have hgoes : ¬ 8 ≤ b.hops := by omega
  rw [exec_relay, relay_received hup hlink]
  simp only [hout, hport, hgoes, Bool.false_eq_true, if_false, hl]
  rfl

theorem gives_relay_inward (hin : b.toDevice = true) (hdevice : b.device.toNat ≠ s.device) (hhops : b.hops < 8) :
    Gives (.relay link b) s (fun t => t = s.holdData (s.relayInward { b with hops := b.hops + 1 })) := by
  have hgoes : ¬ 8 ≤ b.hops := by omega
  refine ⟨_, exec_relay link b s, ?_⟩
  rw [relay_received hup hlink]
  simp only [hin, hdevice, hgoes, if_true, if_false]

end

theorem gives_relayed {s : State} {b : RelayBody} (hup : s.upAndRunning = true) (hport : s.portUp = true)
    (hin : b.toDevice = true) (hdevice : b.device.toNat ≠ s.device) (mac : BitVec 48) :
    Gives (.relayed mac b) s (fun t =>
      t = s.holdData ((s.odrenIn false (16 + b.inner.length) false).relayInward { b with mac := mac })) := by
  have hreached : s.reached false = true := by simp [State.reached, hup, hport]
  have hsame := (s.odrenIn_portOnly false (16 + b.inner.length) false).device
  refine ⟨_, exec_relayed mac b s, ?_⟩
  simp [relayed, hreached, hin, hsame, hdevice]

/-- Settles O6: the attention commands by the session of the slot, the relay by the way the message goes. -/
theorem attentionQueueCommands : Obligations.AttentionQueueCommands := by
  unfold Obligations.AttentionQueueCommands
  refine ⟨fun s => ⟨fun h x => gives_attnAck, fun slot x m => exec_attnFirstSend,
    fun slot seq a wait x m => exec_attnResend⟩, fun s link b hup hlink => ?_⟩
  exact ⟨exec_relay_port hup hlink, exec_relay_dropped hup hlink, fun l => exec_relay_link hup hlink,
    gives_relay_inward hup hlink, fun mac hport hin hdevice => gives_relayed hup hport hin hdevice mac⟩

end Sys2Proof.Machine

/-!
The session commands TIME (R351, R352): what a step of meridian time touches beside the clock, and the three commands.
-/
namespace Sys2Proof.Machine
open Sys2Proof

/-! ### A step of meridian time -/

/-- Only registers, meters, the census and the count of open values may differ: what the ends of windows touch. -/
def State.WindowsOnly (s t : State) : Prop := t = { s with regs := t.regs, free := t.free, pmc := t.pmc, gov := t.gov }

theorem State.WindowsOnly.refl (s : State) : s.WindowsOnly s := rfl

theorem State.WindowsOnly.trans {s t u : State} (h : s.WindowsOnly t) (k : t.WindowsOnly u) : s.WindowsOnly u := by
  unfold State.WindowsOnly at *
  rw [k, h]

theorem State.WindowsOnly.clock {s t : State} (h : s.WindowsOnly t) : t.clock = s.clock := by rw [h]
theorem State.WindowsOnly.odn {s t : State} (h : s.WindowsOnly t) : t.odn = s.odn := by rw [h]

theorem State.fset_windowsOnly (s : State) (f : FRef) (i x : Nat) : s.WindowsOnly (s.fset f i x) := rfl

theorem State.publishPort_windowsOnly (s : State) (p : Nat) : s.WindowsOnly (s.publishPort p) := by
  simp only [State.publishPort]
  split <;> rfl

theorem State.publishWindow_windowsOnly (s : State) (short : Bool) : s.WindowsOnly (s.publishWindow short) := by
  have hports : s.WindowsOnly ((List.range portCount).foldl State.publishPort s) :=
    foldl_keeps_prop s.WindowsOnly State.publishPort (fun t p ht => ht.trans (t.publishPort_windowsOnly p)) _ _ (.refl s)
  rw [State.publishWindow]
  exact ((hports.trans (State.fset_windowsOnly ..)).trans (State.fset_windowsOnly ..)).trans (State.fset_windowsOnly ..)

theorem State.settingsDue_windowsOnly (s : State) : s.WindowsOnly s.settingsDue := by
  simp only [State.settingsDue]
  refine foldl_keeps_prop s.WindowsOnly _ (fun t e ht => ht.trans ?_) _ _ rfl
  split <;> rfl

/-- The ends of the windows leave the clock as the step has set it. -/
theorem State.timeStepped_windowsOnly (s : State) : s.WindowsOnly s.timeStepped := by
  have hpublish (p : Prop) [Decidable p] : s.WindowsOnly (if p then s else s.publishWindow true) := by
    split
    · exact .refl s
    · exact s.publishWindow_windowsOnly true
  have hend (t : State) : t.WindowsOnly ((t.settingsDue.nextWindow true).closeCensus false) :=
    t.settingsDue_windowsOnly.trans rfl
  exact (hpublish _).trans (hend _)

theorem State.stepTime_clock (s : State) (t : Nat) : (s.stepTime t).clock = { s.clock with meridian := t } :=
  (State.timeStepped_windowsOnly _).clock

theorem State.stepTime_odn (s : State) (t : Nat) : (s.stepTime t).odn = s.odn := (State.timeStepped_windowsOnly _).odn

theorem State.adjustTime_false_clock (s : State) (d : Int) :
    (s.adjustTime d false).clock = { s.clock with corr := s.clock.corr + d } := rfl

theorem State.adjustTime_true_clock (s : State) (d : Int) :
    (s.adjustTime d true).clock = { s.clock with meridian := shiftTime s.meridian d } := s.stepTime_clock _

/-! ### What the effects come to -/

/-- The answer with both times: the state's time, and up to 50 µs more (R350, R351). -/
theorem State.timeBody_eq (s : State) (t2 : Nat) : s.timeBody t2 =
    ({ s with free := s.free + 1 }, C.OK, natLe 8 t2 ++ natLe 8 (s.meridian + Config.choice s.free % 50001)) := rfl

/-- The device of stratum 0, which SET makes of this one (R352). -/
def State.stratumZero (s : State) : State :=
  { s.fset F.TTH_TIME_STRATUM 0 0 with clock := { s.clock with wasZero := true } }

/-- No correction is pending. -/
def State.uncorrected (s : State) : State := { s with clock := { s.clock with corr := 0 } }

section
variable {s : State} {step : Bool} {value : Nat}

/-- SET sets the time at once when it is told to, or when the device was not of stratum 0. -/
theorem setsAtOnce (hset : step = true ∨ s.clock.wasZero = false) : (step || !s.clock.wasZero) = true := by
  rcases hset with e | e <;> simp [e]

theorem State.doTimeSet_backward (hset : step = true ∨ s.clock.wasZero = false) (hback : value < s.meridian)
    (hruns : s.runs ≠ []) : s.doTimeSet step value = s.refuse C.TIME_BACKWARD := by
  simp [State.doTimeSet, setsAtOnce hset, hback, hruns]

theorem State.doTimeSet_steps (hset : step = true ∨ s.clock.wasZero = false) (hok : s.meridian ≤ value ∨ s.runs = []) :
    s.doTimeSet step value = (s.stratumZero.uncorrected.stepTime value).timeBody s.meridian := by
  have hgo : ¬ ((step || !s.clock.wasZero) = true ∧ value < s.meridian ∧ (!s.runs.isEmpty) = true) := by
    rintro ⟨-, hback, hruns⟩
    rcases hok with e | e
    · omega
    · simp [e] at hruns
  simp only [State.doTimeSet, if_neg hgo]
  simp only [setsAtOnce hset, if_true, State.stratumZero, State.uncorrected, State.fset_clock]

theorem State.doTimeSet_slews (hzero : s.clock.wasZero = true) :
    s.doTimeSet false value = (s.stratumZero.adjustTime ((value : Int) - s.meridian) false).timeBody s.meridian := by
  simp [State.doTimeSet, hzero, State.stratumZero]

theorem State.doTimeAdjust_backward {d : Int} (hback : d < 0) (hruns : s.runs ≠ []) :
    s.doTimeAdjust true d = s.refuse C.TIME_BACKWARD := by
  simp [State.doTimeAdjust, hback, hruns]

theorem State.doTimeAdjust_goes {d : Int} (hok : step = false ∨ 0 ≤ d ∨ s.runs = []) :
    s.doTimeAdjust step d = (s.adjustTime d step).timeBody s.meridian := by
  have hgo : ¬ (step = true ∧ d < 0 ∧ (!s.runs.isEmpty) = true) := by
    rintro ⟨hstep, hback, hruns⟩
    rcases hok with e | e | e
    · simp [e] at hstep
    · omega
    · simp [e] at hruns
  simp only [State.doTimeAdjust, if_neg hgo]

end

/-! ### The commands -/

theorem exec_timeQuery (h : Hdr) (t1 : Nat) (s : State) : exec (.timeQuery h t1) s = .next (s.holdData
    ((s.odrenIn h.relayed 24 true).command h tyTime (fun _ t => t.timeBody t.meridian))) := rfl

theorem exec_timeSet (h : Hdr) (step : Bool) (value : Nat) (s : State) : exec (.timeSet h step value) s =
    .next (s.holdData ((s.odrenIn h.relayed 24 true).command h tyTime
      (keeperOnly (fun _ t => t.doTimeSet step (value % 2 ^ 64))))) := rfl

theorem exec_timeAdjust (h : Hdr) (step : Bool) (value : Int) (s : State) : exec (.timeAdjust h step value) s =
    .next (s.holdData ((s.odrenIn h.relayed 24 true).command h tyTime
      (keeperOnly (fun _ t => t.doTimeAdjust step value)))) := rfl

/-- The state after a TIME command whose effect leaves `v`, and whose answer tells when the command came. -/
def State.timed (s v : State) (h : Hdr) : State :=
  let a := v.timeBody s.meridian
  s.holdData (a.1.respond h.session tyTime h.seq a.2.1 a.2.2)

section
variable {s v : State} {h : Hdr} {z : Session} (ha : Accepted s h z)
include ha

theorem exec_timeQuery_timed (t1 : Nat) : exec (.timeQuery h t1) s = .next (s.timed (s.taken h 24 z) h) := by
  rw [exec_timeQuery, accepted_command ha 24 tyTime, (s.taken_portOnly h 24 z).meridian]
  rfl

variable (hkeeper : (s.holder h 24 z).role = .keeper) {step : Bool}
include hkeeper

theorem exec_timeSet_accepted {value : Nat} (hvalue : value < 2 ^ 64) :
    let a := (s.taken h 24 z).doTimeSet step value
    exec (.timeSet h step value) s = .next (s.holdData (a.1.respond h.session tyTime h.seq a.2.1 a.2.2)) := by
  simp only [exec_timeSet, accepted_command ha 24 tyTime, keeperOnly, hkeeper, if_true, Nat.mod_eq_of_lt hvalue]

theorem exec_timeAdjust_accepted (value : Int) :
    let a := (s.taken h 24 z).doTimeAdjust step value
    exec (.timeAdjust h step value) s = .next (s.holdData (a.1.respond h.session tyTime h.seq a.2.1 a.2.2)) := by
  simp only [exec_timeAdjust, accepted_command ha 24 tyTime, keeperOnly, hkeeper, if_true]

theorem exec_timeSet_timed {value : Nat} (hvalue : value < 2 ^ 64)
    (hdo : (s.taken h 24 z).doTimeSet step value = v.timeBody (s.taken h 24 z).meridian) :
    exec (.timeSet h step value) s = .next (s.timed v h) := by
  rw [exec_timeSet_accepted ha hkeeper hvalue, hdo, (s.taken_portOnly h 24 z).meridian]
  rfl

theorem exec_timeAdjust_timed {value : Int}
    (hdo : (s.taken h 24 z).doTimeAdjust step value = v.timeBody (s.taken h 24 z).meridian) :
    exec (.timeAdjust h step value) s = .next (s.timed v h) := by
  rw [exec_timeAdjust_accepted ha hkeeper value, hdo, (s.taken_portOnly h 24 z).meridian]
  rfl

end

/-! ### The state after a TIME command -/

theorem State.timed_clock (s v : State) (h : Hdr) : (s.timed v h).clock = v.clock := by
  simp [State.timed, State.timeBody_eq]

theorem State.timed_regs (s v : State) (h : Hdr) : (s.timed v h).regs = v.regs := by
  simp [State.timed, State.timeBody_eq]

theorem State.timed_storesKept (s v : State) (h : Hdr) : StoresKept s (s.timed v h) := s.holdData_storesKept _

theorem State.timed_runsKept (s v : State) (h : Hdr) : RunsKept v (s.timed v h) := by
  refine ⟨?_, ?_, ?_, ?_, ?_⟩ <;> simp [State.timed, State.timeBody_eq]

/-- The answer comes last: when the command came, and a time at most 50 µs after the state's. -/
theorem State.timed_outbox {s v : State} {h : Hdr} {x : Session} (hx : v.session? h.session = some x) :
    ∃ d, d ≤ 50000 ∧ (s.timed v h).outbox = v.outbox ++ [.response x.mac x.relayed
      ⟨tyTime, h.session, h.seq, C.OK, false, natLe 8 s.meridian ++ natLe 8 (v.meridian + d)⟩] := by
  refine ⟨Config.choice v.free % 50001, Nat.le_of_lt_succ (Nat.mod_lt _ (by decide)), ?_⟩
  exact State.respond_outbox (s := { v with free := v.free + 1 }) hx ..

/-- An effect that leaves the runs in peace leaves them as they were when the command came. -/
theorem State.timed_taken_runsKept {s v : State} {h : Hdr} {z : Session} (hv : RunsKept (s.taken h 24 z) v) :
    RunsKept s (s.timed v h) := by
  obtain ⟨-, -, hruns⟩ := (s.taken_portOnly h 24 z).kept
  exact runsKept_trans (runsKept_trans hruns hv) (s.timed_runsKept v h)

/-! ### What the commands give -/

section
variable {s : State} {h : Hdr} {z : Session} (ha : Accepted s h z)
include ha

/-- A refused step of the time changes neither the clock nor anything else but the port's records. -/
theorem accepted_backward :
    let t := s.taken h 24 z
    let u := s.holdData (t.respond h.session tyTime h.seq C.TIME_BACKWARD [])
    Responds t u h tyTime C.TIME_BACKWARD [] ∧ u.clock = s.clock ∧ u.regs = s.regs ∧ StoresKept s u ∧ RunsKept s u := by
  obtain ⟨hresponds, hkept⟩ := accepted_answered ha 24 tyTime C.TIME_BACKWARD []
  exact ⟨hresponds, (State.respond_clock ..).trans (s.taken_portOnly h 24 z).clock, hkept⟩

theorem gives_timeQuery (t1 : Nat) :
    Gives (.timeQuery h t1) s (fun u => ∃ d, d ≤ 50000 ∧
      Responds (s.taken h 24 z) u h tyTime C.OK (natLe 8 s.meridian ++ natLe 8 (s.meridian + d)) ∧
      u.clock = s.clock ∧ u.regs = s.regs ∧ StoresKept s u ∧ RunsKept s u) := by
  have hp := s.taken_portOnly h 24 z
  obtain ⟨d, hd, hout⟩ := State.timed_outbox (s := s) (accepted_taken_session? ha 24)
  rw [hp.meridian] at hout
  have hruns : RunsKept s (s.timed (s.taken h 24 z) h) := State.timed_taken_runsKept ⟨rfl, rfl, rfl, rfl, rfl⟩
  exact ⟨_, exec_timeQuery_timed ha t1, d, hd, ⟨_, _, hout⟩, (State.timed_clock ..).trans hp.clock,
    (State.timed_regs ..).trans hp.regs, State.timed_storesKept .., hruns⟩

variable (hkeeper : (s.holder h 24 z).role = .keeper)
include hkeeper

/-- A SET that steps the time sets it, and no correction is left. -/
theorem gives_timeSet_steps {step : Bool} {value : Nat} (hset : step = true ∨ s.clock.wasZero = false)
    (hvalue : value < 2 ^ 64) (hok : s.meridian ≤ value ∨ s.runs = []) :
    Gives (.timeSet h step value) s (fun u => u.clock.meridian = value ∧ u.clock.corr = 0 ∧ u.clock.wasZero = true ∧
      u.clock.lantern = s.clock.lantern ∧ StoresKept s u ∧
      (∃ d, d ≤ 50000 ∧ Answers u h tyTime C.OK (natLe 8 s.meridian ++ natLe 8 (value + d)))) := by
  have hp := s.taken_portOnly h 24 z
  rw [← hp.clock] at hset
  rw [← hp.meridian, ← hp.runs] at hok
  have hexec := exec_timeSet_timed ha hkeeper hvalue (State.doTimeSet_steps hset hok)
  have hclock := (s.taken h 24 z).stratumZero.uncorrected.stepTime_clock value
  have hodn := (s.taken h 24 z).stratumZero.uncorrected.stepTime_odn value
  generalize (s.taken h 24 z).stratumZero.uncorrected.stepTime value = v at hexec hclock hodn
  have hsession : v.session? h.session = some (s.holder h 24 z) := by
    rw [← accepted_taken_session? ha 24, State.session?, hodn]
    rfl
  obtain ⟨d, hd, hout⟩ := State.timed_outbox (s := s) hsession
  have hmeridian : v.meridian = value := congrArg Clock.meridian hclock
  rw [hmeridian] at hout
  have hafter := (s.timed_clock v h).trans hclock
  refine ⟨_, hexec, ?_, ?_, ?_, ?_, State.timed_storesKept .., d, hd, _, _, _, hout⟩ <;> rw [hafter]
  · rfl
  · rfl
  · rw [← hp.clock]
    rfl

theorem gives_timeSet_backward {step : Bool} {value : Nat} (hset : step = true ∨ s.clock.wasZero = false)
    (hvalue : value < 2 ^ 64) (hback : value < s.meridian) (hruns : s.runs ≠ []) :
    Gives (.timeSet h step value) s (fun u => Responds (s.taken h 24 z) u h tyTime C.TIME_BACKWARD [] ∧
      u.clock = s.clock ∧ u.regs = s.regs ∧ StoresKept s u ∧ RunsKept s u) := by
  have hp := s.taken_portOnly h 24 z
  rw [← hp.clock] at hset
  rw [← hp.meridian] at hback
  rw [← hp.runs] at hruns
  have hexec := exec_timeSet_accepted ha hkeeper (step := step) hvalue
  rw [State.doTimeSet_backward hset hback hruns] at hexec
  exact ⟨_, hexec, accepted_backward ha⟩

/-- A SET of the stratum 0 device that does not step adds the difference to the correction. -/
theorem gives_timeSet_slews {value : Nat} (hvalue : value < 2 ^ 64) (hzero : s.clock.wasZero = true) :
    Gives (.timeSet h false value) s (fun u =>
      u.clock = { s.clock with corr := s.clock.corr + ((value : Int) - s.meridian) } ∧
      u.regs = (s.fset F.TTH_TIME_STRATUM 0 0).regs ∧ StoresKept s u ∧ RunsKept s u) := by
  have hp := s.taken_portOnly h 24 z
  have hexec := exec_timeSet_timed ha hkeeper hvalue (State.doTimeSet_slews (hp.clock.symm ▸ hzero))
  refine ⟨_, hexec, ?_, ?_, State.timed_storesKept .., State.timed_taken_runsKept ⟨rfl, rfl, rfl, rfl, rfl⟩⟩
  · have hstratum : (s.taken h 24 z).stratumZero.clock = s.clock := by
      rw [State.stratumZero, hp.clock, ← hzero]
    rw [State.timed_clock, State.adjustTime_false_clock, hstratum, hp.meridian]
  · rw [State.timed_regs]
    exact hp.fset_regs F.TTH_TIME_STRATUM 0 0

theorem gives_timeAdjust_slews (value : Int) :
    Gives (.timeAdjust h false value) s (fun u => u.clock = { s.clock with corr := s.clock.corr + value } ∧
      u.regs = s.regs ∧ StoresKept s u ∧ RunsKept s u) := by
  have hp := s.taken_portOnly h 24 z
  have hexec := exec_timeAdjust_timed ha hkeeper (State.doTimeAdjust_goes (d := value) (.inl rfl))
  refine ⟨_, hexec, ?_, ?_, State.timed_storesKept .., State.timed_taken_runsKept ⟨rfl, rfl, rfl, rfl, rfl⟩⟩
  · rw [State.timed_clock, State.adjustTime_false_clock, hp.clock]
  · exact (State.timed_regs ..).trans hp.regs

theorem gives_timeAdjust_steps {value : Int} (hok : 0 ≤ value ∨ s.runs = []) :
    Gives (.timeAdjust h true value) s (fun u =>
      u.clock.meridian = (((s.meridian : Int) + value) % (2 ^ 64 : Int)).toNat ∧
      u.clock.corr = s.clock.corr ∧ u.clock.lantern = s.clock.lantern ∧ StoresKept s u) := by
  have hp := s.taken_portOnly h 24 z
  rw [← hp.runs] at hok
  have hafter := (s.timed_clock ((s.taken h 24 z).adjustTime value true) h).trans (State.adjustTime_true_clock ..)
  rw [hp.clock, hp.meridian] at hafter
  refine ⟨_, exec_timeAdjust_timed ha hkeeper (State.doTimeAdjust_goes (.inr hok)), ?_, ?_, ?_,
    State.timed_storesKept ..⟩ <;> rw [hafter]
  rfl

theorem gives_timeAdjust_backward {value : Int} (hback : value < 0) (hruns : s.runs ≠ []) :
    Gives (.timeAdjust h true value) s (fun u => Responds (s.taken h 24 z) u h tyTime C.TIME_BACKWARD [] ∧
      u.clock = s.clock ∧ u.regs = s.regs ∧ StoresKept s u ∧ RunsKept s u) := by
  have hexec := exec_timeAdjust_accepted ha hkeeper (step := true) value
  rw [State.doTimeAdjust_backward hback ((s.taken_portOnly h 24 z).runs.symm ▸ hruns)] at hexec
  exact ⟨_, hexec, accepted_backward ha⟩

end

/-- Settles O16: QUERY, then a Keeper's SET and ADJUST by whether the time is stepped and whether a run is active. -/
theorem timeCommands : Obligations.TimeCommands := by
  unfold Obligations.TimeCommands
  intro s h z ha
  refine ⟨gives_timeQuery ha, fun hkeeper =>
    ⟨fun step value hset hvalue => ⟨?_, ?_⟩, fun value hvalue => ?_, ?_, ?_, ?_⟩⟩
  · exact gives_timeSet_steps ha hkeeper hset hvalue
  · exact gives_timeSet_backward ha hkeeper hset hvalue
  · exact gives_timeSet_slews ha hkeeper hvalue
  · exact gives_timeAdjust_slews ha hkeeper
  · exact fun value => gives_timeAdjust_steps ha hkeeper
  · exact fun value => gives_timeAdjust_backward ha hkeeper

end Sys2Proof.Machine

/-!
What a device reset clears and keeps (R373, R377): the state it leaves is that of `endAll` but for the registers, and each
register's word goes through `defaultRegs`.
-/
namespace Sys2Proof.Machine
open Sys2Proof

/-! ### What changes registers only -/

section
variable {s t : State} (h : s.RegsOnly t)
include h

theorem State.RegsOnly.flog : t.flog = s.flog := by rw [h]
theorem State.RegsOnly.clock : t.clock = s.clock := by rw [h]

end

theorem State.fset_regsOnly (s : State) (f : FRef) (i x : Nat) : s.RegsOnly (s.fset f i x) := rfl

theorem State.wipeRegs_regsOnly (s : State) (which : Cls → Bool) : s.RegsOnly (s.wipeRegs which) := rfl

theorem State.foldl_regsOnly {α : Type} {f : State → α → State} (hf : ∀ (t : State) (x : α), t.RegsOnly (f t x))
    (l : List α) (s : State) : s.RegsOnly (l.foldl f s) :=
  foldl_keeps_prop s.RegsOnly f (fun t x ht => ht.trans (hf t x)) l s rfl

theorem State.channelsTo_regsOnly (s : State) (st : Nat) : s.RegsOnly (s.channelsTo st) :=
  State.foldl_regsOnly (fun t ch => t.fset_regsOnly F.LPT_CH_STATUS_STATE ch st) _ s

theorem State.channelsUntrained_regsOnly (s : State) : s.RegsOnly s.channelsUntrained :=
  (s.fset_regsOnly F.LPT_AVAIL_CHANNELS 0 0).trans
    (State.foldl_regsOnly (fun t ch => t.fset_regsOnly F.LPT_CH_STATUS_STATE ch chUntrained) _ _)

/-! ### What ends -/

/-- The units and the supervisor have ended, and where memory is lost, its contents with the image in force. -/
def State.endAll (s : State) (lost : Bool) : State :=
  let t := s.endUnits
  if lost then
    { t with
      mem := [], side := MemSide.empty, emb := Emb.empty, image := none,
      power := { t.power with copyOk := false, copyHoles := [] } }
  else t

/-- After any change of registers, memory goes or the channels keep it. -/
theorem State.endUnits_memory_regsOnly {s t : State} (h : s.endUnits.RegsOnly t) (lost : Bool) :
    (s.endAll lost).RegsOnly (if lost then { t.loseMemory with image := none } else t.channelsTo chSelfRefresh) := by
  cases lost with
  | false => exact h.trans (t.channelsTo_regsOnly chSelfRefresh)
  | true =>
    have hlost := State.channelsUntrained_regsOnly
      { t with mem := [], side := MemSide.empty, emb := Emb.empty, power := { t.power with copyOk := false, copyHoles := [] } }
    simp only [if_true, State.RegsOnly, State.loseMemory]
    rw [hlost, h]
    rfl

/-- A device reset leaves the state that is pitched: all that ends has ended, and registers are at their defaults. -/
theorem State.wipe_regsOnly (s : State) (lost : Bool) (which : Cls → Bool) :
    State.RegsOnly { s.endAll lost with power := { (s.endAll lost).power with state := .pitching } } (s.wipe lost which) := by
  have h := State.endUnits_memory_regsOnly (s.endUnits.wipeRegs_regsOnly which) lost
  simp only [State.RegsOnly, State.wipe]
  rw [h]

/-- Settles O18: what `endAll` ends and keeps, with memory lost and with memory kept. -/
theorem resetKeepsAndClears : Obligations.ResetKeepsAndClears := by
  unfold Obligations.ResetKeepsAndClears
  intro s lost which
  simp only
  rw [s.wipe_regsOnly lost which]
  cases lost with
  | false => simp [State.endAll, State.endUnits, Disp.empty, Odn.empty]
  | true => simp [State.endAll, State.endUnits, Disp.empty, Odn.empty, Emb.empty, MemSide.empty]

/-! ### Registers at their reset values -/

theorem RegDef.defaultCls_resetWord (d : RegDef) (which : Cls → Bool) : d.defaultCls which d.resetWord = d.resetWord := by
  ext i hi
  simp only [RegDef.defaultCls, BitVec.getElem_or, BitVec.getElem_and, BitVec.getElem_not]
  cases d.resetWord[i] <;> simp

/-- Each entry goes, or stays at its address. -/
theorem defaultRegs_cons (which : Cls → Bool) (pick : RegId → Nat → Nat → Bool) (k : Nat) (w : W64) (r : SMap W64) :
    defaultRegs which pick ((k, w) :: r) = defaultRegs which pick r ∨
    ∃ x, defaultRegs which pick ((k, w) :: r) = (k, x) :: defaultRegs which pick r := by
  simp only [defaultRegs, List.filterMap_cons]
  cases locate k with
  | none => exact .inl rfl
  | some e =>
    obtain ⟨id, i, j⟩ := e
    by_cases hpick : pick id i j = true
    · by_cases hw : (regDef id).defaultCls which w = regReset id
      · simp [hpick, hw]
      · simp [hpick, hw]
    · simp [hpick]

/-- The word of a register that is chosen, once the chosen classes are back at their reset values. -/
theorem get_defaultRegs {which : Cls → Bool} {pick : RegId → Nat → Nat → Bool} {a : Nat} {id : RegId} {i j : Nat}
    (ha : locate a = some (id, i, j)) (hpick : pick id i j = true) (m : SMap W64) (b : Nat)
    (hm : SMap.risingFrom b m = true) :
    SMap.get (regReset id) (defaultRegs which pick m) a = (regDef id).defaultCls which (SMap.get (regReset id) m a) := by
  induction m generalizing b with
  | nil => exact ((regDef id).defaultCls_resetWord which).symm
  | cons e r ih =>
    obtain ⟨k, w⟩ := e
    simp only [SMap.risingFrom, Bool.and_eq_true, decide_eq_true_eq] at hm
    obtain ⟨-, hrest⟩ := hm
    by_cases hk : k = a
    · subst hk
      have hgone : SMap.get (regReset id) (defaultRegs which pick r) k = regReset id := by
        rw [ih (k + 1) hrest, SMap.get_of_risingFrom _ r (k + 1) k hrest (Nat.lt_succ_self k)]
        exact (regDef id).defaultCls_resetWord which
      by_cases hw : (regDef id).defaultCls which w = regReset id
      · simpa [defaultRegs, ha, hpick, hw, SMap.get] using hgone
      · simp [defaultRegs, ha, hpick, hw, SMap.get]
    · have hlater := ih (k + 1) hrest
      rcases defaultRegs_cons which pick k w r with e | ⟨x, e⟩ <;> rw [e]
      · simp [SMap.get, hk, hlater]
      · simp [SMap.get, hk, hlater]

theorem locate_modMgmt : locate (regAddr .MOD_MGMT 0 0) = some (.MOD_MGMT, 0, 0) := by decide

/-- Settles O19: the registers go through `defaultRegs`, and the address set afterwards is that of MOD_MGMT. -/
theorem resetDefaultsRegisters : Obligations.ResetDefaultsRegisters := by
  unfold Obligations.ResetDefaultsRegisters
  intro s which a id i j hord ha hpins hmgmt
  have hother : a ≠ regAddr .MOD_MGMT 0 0 := by
    rintro rfl
    rw [locate_modMgmt, Option.some.injEq, Prod.mk.injEq] at ha
    exact hmgmt ha.1.symm
  have hpick : (id != .MOD_PINS) = true := bne_iff_ne.mpr hpins
  refine (SMap.get_set_ne _ _ _ _ _ _ hother).trans ?_
  exact get_defaultRegs (pick := fun id _ _ => id != .MOD_PINS) ha hpick s.regs 0 hord

end Sys2Proof.Machine

/-!
Device resets (R372 to R374, R453, R454): the RESET commands, the pins, the supply, the watchdog and a neighbour's
LINK_RESET.
-/
namespace Sys2Proof.Machine
open Sys2Proof

/-! ### The RESET commands (R351, R372) -/

theorem exec_soft (h : Hdr) (s : State) :
    exec (.soft h) s = .next (s.holdFlash ((s.odrenIn h.relayed 8 true).resetCommand h .soft)) := rfl

theorem exec_quickRepitch (h : Hdr) (s : State) :
    exec (.quickRepitch h) s = .next (s.holdFlash ((s.odrenIn h.relayed 8 true).resetCommand h .quickRepitch)) := rfl

theorem exec_coldRepitch (h : Hdr) (s : State) :
    exec (.coldRepitch h) s = .next (s.holdFlash ((s.odrenIn h.relayed 8 true).resetCommand h .coldRepitch)) := rfl

section
variable {s : State} {h : Hdr} {z : Session} (ha : Accepted s h z)
include ha

/-- A Keeper's RESET is answered, and then the device resets. -/
theorem accepted_resetCommand_keeper (hkeeper : (s.holder h 8 z).role = .keeper) (k : ResetKind) :
    (s.odrenIn h.relayed 8 true).resetCommand h k =
      ((s.taken h 8 z).respond h.session tyReset h.seq C.OK []).deviceReset k true := by
  simp only [State.resetCommand, accepted_command ha 8 tyReset, keeperOnly, hkeeper, if_true, State.ok]

theorem accepted_resetCommand_operator (hoperator : (s.holder h 8 z).role = .operator) (k : ResetKind) :
    (s.odrenIn h.relayed 8 true).resetCommand h k = (s.taken h 8 z).respond h.session tyReset h.seq C.ROLE_DENIED [] := by
  have hrole : ¬ (s.holder h 8 z).role = .keeper := by rw [hoperator]; decide
  have hcode : ¬ C.ROLE_DENIED = C.OK := by decide
  simp only [State.resetCommand, accepted_command ha 8 tyReset, keeperOnly, if_neg hrole, State.refuse, if_neg hcode]

theorem gives_reset_keeper {c : Instr} {k : ResetKind} (hkeeper : (s.holder h 8 z).role = .keeper)
    (hexec : exec c s = .next (s.holdFlash ((s.odrenIn h.relayed 8 true).resetCommand h k))) :
    Gives c s (fun u => u = s.holdFlash (((s.taken h 8 z).respond h.session tyReset h.seq C.OK []).deviceReset k true) ∧
      u.fuses = s.fuses ∧ u.flash = s.flash) :=
  ⟨_, hexec.trans (by rw [accepted_resetCommand_keeper ha hkeeper]), rfl, rfl, rfl⟩

theorem gives_reset_operator {c : Instr} {k : ResetKind} (hoperator : (s.holder h 8 z).role = .operator)
    (hexec : exec c s = .next (s.holdFlash ((s.odrenIn h.relayed 8 true).resetCommand h k))) :
    Gives c s (fun u => Responds (s.taken h 8 z) u h tyReset C.ROLE_DENIED [] ∧ u.regs = s.regs ∧ StoresKept s u ∧
      RunsKept s u ∧ u.power = s.power) := by
  obtain ⟨hresponds, hregs, hstores, hruns⟩ := accepted_refused ha 8 tyReset C.ROLE_DENIED
  refine ⟨_, hexec.trans (by rw [accepted_resetCommand_operator ha hoperator]), hresponds, hregs, hstores, hruns, ?_⟩
  exact ((s.taken_portOnly h 8 z).trans (State.respond_portOnly ..)).power

end

/-- Settles O17: the three commands go through `resetCommand`, by the role of the session that executes it. -/
theorem resetCommandsAnswerThenReset : Obligations.ResetCommandsAnswerThenReset := by
  unfold Obligations.ResetCommandsAnswerThenReset
  intro s h z ha
  refine ⟨fun hkeeper => ⟨?_, ?_, ?_⟩, fun hoperator c hc => ?_⟩
  · exact gives_reset_keeper ha hkeeper (exec_soft h s)
  · exact gives_reset_keeper ha hkeeper (exec_quickRepitch h s)
  · exact gives_reset_keeper ha hkeeper (exec_coldRepitch h s)
  · simp only [List.mem_cons, List.not_mem_nil, or_false] at hc
    rcases hc with rfl | rfl | rfl
    · exact gives_reset_operator ha hoperator (exec_soft h s)
    · exact gives_reset_operator ha hoperator (exec_quickRepitch h s)
    · exact gives_reset_operator ha hoperator (exec_coldRepitch h s)

/-! ### Pins and supply (R453, R454) -/

theorem exec_warmPin (s : State) : exec .warmPin s = .next (s.holdFlash s.warmPinReset) := rfl

theorem exec_powerOn (why : PowerOnCause) (s : State) : exec (.powerOn why) s = .next (s.holdFlash (powerOn why s)) := rfl

theorem exec_pwrgoodFall (s : State) : exec .pwrgoodFall s = .next (s.holdFlash (pwrgoodFall s)) := rfl

theorem exec_lossOf48V (s : State) : exec .lossOf48V s = .next (s.holdFlash (lossOf48V s)) := rfl

theorem exec_inputSwitchRetry (shorted : Bool) (s : State) :
    exec (.inputSwitchRetry shorted) s = .next (s.holdFlash (inputSwitchRetry shorted s)) := rfl

theorem exec_watchdogExpiry (s : State) : exec .watchdogExpiry s = .next (s.holdFlash (watchdogExpiry s)) := rfl

theorem exec_linkResetWarm (l : Fin 64) (s : State) :
    exec (.linkResetWarm l) s = .next (s.holdFlash (linkResetWarm l s)) := rfl

/-- 48 V is there, and nothing is held against the input switch. -/
def State.supplied (s : State) : State :=
  { s with power := { s.power with input48 := true, stuckOpen := false, retries := 0 } }

section
variable {s : State}

theorem State.powered_of (h48 : s.power.input48 = true) (hgood : s.power.pwrgood = true) : s.powered = true := by
  rw [State.powered, h48, hgood]
  rfl

theorem State.warmPinReset_powered (h : s.powered = true) : s.warmPinReset = s.deviceReset .warmPin true := if_pos h

theorem powerOn_resetHeld (h : s.powered = true) : powerOn .resetHeld s = s.deviceReset .powerOn true := if_pos h

theorem powerOn_pwrgoodRise (h48 : s.power.input48 = true) (hgood : s.power.pwrgood = false) :
    powerOn .pwrgoodRise s = (({ s with power := { s.power with pwrgood := true } } : State).fset
      F.MOD_PINS_PWRGOOD 0 1).deviceReset .powerOn true := by
  simp [powerOn, hgood, h48]

theorem State.supplyOn_pwrgood (hgood : s.power.pwrgood = true) : s.supplyOn = s.supplied.deviceReset .powerOn false :=
  if_pos hgood

theorem powerOn_input48V (h : s.power.input48 = false ∨ s.power.state = .pitching) : powerOn .input48V s = s.supplyOn := by
  rcases h with e | e <;> simp [powerOn, e]

theorem inputSwitchRetry_open (h48 : s.power.input48 = false) (hstuck : s.power.stuckOpen = false) (shorted : Bool) :
    inputSwitchRetry shorted s = if shorted then { s with
      power := { s.power with retries := s.power.retries + 1, stuckOpen := decide (3 ≤ s.power.retries + 1) } }
    else s.supplyOn := by
  simp [inputSwitchRetry, h48, hstuck]

/-- With the rails the state of `endAll` is left, off. -/
theorem State.railsOff_regsOnly (s : State) :
    State.RegsOnly { s.endAll true with power := { (s.endAll true).power with state := .off, wakeHeld := false } } s.railsOff := by
  simp only [State.railsOff]
  rw [s.wipe_regsOnly true settingsOnly]
  rfl

theorem gives_pwrgoodFall (h48 : s.power.input48 = true) (hgood : s.power.pwrgood = true) :
    Gives .pwrgoodFall s (fun t => t.mem = [] ∧ t.core = [] ∧ t.runs = [] ∧ t.odn.sessions = [] ∧ t.power.state = .off ∧
      t.power.pwrgood = false ∧ t.power.input48 = true ∧ t.clock.lantern = s.clock.lantern ∧ t.flog = s.flog ∧
      t.fuses = s.fuses ∧ t.flash = s.flash) := by
  refine ⟨_, exec_pwrgoodFall s, ?_⟩
  simp only [pwrgoodFall, hgood, h48, if_true]
  rw [s.railsOff_regsOnly]
  exact ⟨rfl, rfl, rfl, rfl, rfl, rfl, h48, rfl, rfl, rfl, rfl⟩

theorem gives_lossOf48V :
    Gives .lossOf48V s (fun t => t.mem = [] ∧ t.core = [] ∧ t.runs = [] ∧ t.odn.sessions = [] ∧ t.flog = [] ∧
      t.power.state = .off ∧ t.power.input48 = false ∧ t.power.tripped = false ∧ t.clock = ⟨0, 0, 0, 0, false⟩ ∧
      t.fuses = s.fuses ∧ t.flash = s.flash) := by
  refine ⟨_, exec_lossOf48V s, ?_⟩
  simp only [lossOf48V]
  rw [s.railsOff_regsOnly]
  exact ⟨rfl, rfl, rfl, rfl, rfl, rfl, rfl, rfl, rfl, rfl, rfl⟩

/-! ### The watchdog and a neighbour (R328, R374) -/

theorem watchdogExpiry_standby (hup : s.upAndRunning = true) (hspare : s.flag F.PWS_WATCHDOG_STANDBY_OK = true) :
    watchdogExpiry s = s.takeOver := by
  simp [watchdogExpiry, hup, hspare]

theorem watchdogExpiry_alone (hup : s.upAndRunning = true) (hspare : s.flag F.PWS_WATCHDOG_STANDBY_OK = false) :
    watchdogExpiry s = s.deviceReset .watchdog true := by
  simp [watchdogExpiry, hup, hspare]

theorem State.holdFlash_takeOver (s : State) : s.holdFlash s.takeOver = s.takeOver := by
  apply State.holdFlash_self <;> simp [State.takeOver]

theorem linkResetWarm_allowed (hup : s.upAndRunning = true) (l : Fin 64) (hpeer : s.flag F.TTH_CTL_PEER_RESET = true) :
    linkResetWarm l s = s.deviceReset .warmTether true := by
  simp [linkResetWarm, hup, hpeer]

theorem linkResetWarm_barred (l : Fin 64) (hpeer : s.flag F.TTH_CTL_PEER_RESET = false) : linkResetWarm l s = s := by
  simp [linkResetWarm, hpeer]

end

/-- Settles O20: each event by what it finds of the supply, the standby supervisor or PEER_RESET. -/
theorem pinsAndSupplyReset : Obligations.PinsAndSupplyReset := by
  unfold Obligations.PinsAndSupplyReset
  intro s
  refine ⟨fun h48 hgood => ?_, fun h48 hgood => ?_, fun h hgood => ?_, fun h48 hstuck => ?_, gives_pwrgoodFall,
    gives_lossOf48V, fun hup hspare => ?_, fun hup hspare => ?_, fun l hup => ⟨fun hpeer => ?_, fun hpeer => ?_⟩⟩
  · have hpowered := State.powered_of h48 hgood
    rw [exec_warmPin, exec_powerOn, State.warmPinReset_powered hpowered, powerOn_resetHeld hpowered]
    exact ⟨rfl, rfl⟩
  · rw [exec_powerOn, powerOn_pwrgoodRise h48 hgood]
  · refine ⟨?_, fun h48 hstuck => ?_⟩
    · rw [exec_powerOn, powerOn_input48V h, State.supplyOn_pwrgood hgood]
      rfl
    · rw [exec_inputSwitchRetry, inputSwitchRetry_open h48 hstuck, if_neg Bool.false_ne_true,
        State.supplyOn_pwrgood hgood]
      rfl
  · exact ⟨_, exec_inputSwitchRetry true s, by rw [inputSwitchRetry_open h48 hstuck]; rfl⟩
  · rw [exec_watchdogExpiry, watchdogExpiry_standby hup hspare, State.holdFlash_takeOver]
    rfl
  · rw [exec_watchdogExpiry, watchdogExpiry_alone hup hspare]
  · rw [exec_linkResetWarm, linkResetWarm_allowed hup l hpeer]
  · rw [exec_linkResetWarm, linkResetWarm_barred l hpeer]
    rfl

end Sys2Proof.Machine

/-!
What announcing the device's departure touches (R338, R373): flits are chosen from the queues in the weighted round (R324),
sent and counted, and only registers, meters and the records of fabric and port change.
-/
namespace Sys2Proof.Machine
open Sys2Proof

/-- Only registers, meters, the values drawn, the fabric's queues and the port's records may differ. -/
def State.FabricOnly (s t : State) : Prop :=
  t = { s with free := t.free, regs := t.regs, odn := t.odn, tth := t.tth, pmc := t.pmc, outbox := t.outbox }

/-- A class of the weighted round is tried: the queue of it that can send, if there is one (R324). -/
def State.tryTurn (s : State) (l n : Nat) : Option Nat × State :=
  match s.readyVc l (s.roundClass n).1 with
  | (some k, t) => (some k, t.setLinkx { t.linkx l with turn := n % 3, left := 1 })
  | (none, t) => (none, t)

namespace State.FabricOnly

theorem refl (s : State) : s.FabricOnly s := rfl

theorem trans {s t u : State} (h : s.FabricOnly t) (k : t.FabricOnly u) : s.FabricOnly u := by
  unfold State.FabricOnly at *
  rw [k, h]

section
variable {s t : State} (h : s.FabricOnly t)
include h

theorem mem : t.mem = s.mem := by rw [h]
theorem flog : t.flog = s.flog := by rw [h]
theorem power : t.power = s.power := by rw [h]

theorem fset2 (f : FRef) (i j x : Nat) : s.FabricOnly (t.fset2 f i j x) := h.trans rfl
theorem setLinkx (x : LinkX) : s.FabricOnly (t.setLinkx x) := h.trans rfl
theorem portOnly {u : State} (k : t.PortOnly u) : s.FabricOnly u := h.trans (by unfold State.FabricOnly; rw [k])

end

theorem foldl {α : Type} {f : State → α → State} (hf : ∀ (t : State) (x : α), t.FabricOnly (f t x)) (l : List α)
    (s : State) : s.FabricOnly (l.foldl f s) :=
  foldl_keeps_prop s.FabricOnly f (fun t x ht => ht.trans (hf t x)) l s (refl s)

theorem ite {s t u : State} {c : Prop} [Decidable c] (ht : s.FabricOnly t) (hu : s.FabricOnly u) :
    s.FabricOnly (if c then t else u) := by
  split
  · exact ht
  · exact hu

/-! ### Counted events (R403 to R408) -/

theorem counterWrap (s : State) (r : CounterRef) : s.FabricOnly (s.counterWrap r) := by
  simp only [State.counterWrap]
  have hset := ((refl s).fset2 (r.cntField F.PMC_CNT_OVF) r.i r.j 1).fset2 (r.ctlField F.PMC_CNT_CTL_OVF_EVENT) r.i r.j
    (bitsOf (s.counterInForce r).toNat 11 0)
  exact ite (hset.portOnly (State.attn_portOnly ..)) hset

theorem counterAdd (s : State) (r : CounterRef) (n : Nat) : s.FabricOnly (s.counterAdd r n) := by
  simp only [State.counterAdd]
  have hset := (refl s).fset2 (r.cntField F.PMC_CNT_VALUE) r.i r.j
    ((s.fget2 (r.cntField F.PMC_CNT_VALUE) r.i r.j + n) % 2 ^ 48)
  exact ite hset (hset.trans (counterWrap _ r))

theorem event (s : State) (ev inst n : Nat) : s.FabricOnly (s.event ev inst n) := by
  simp only [State.event]
  refine ite (refl s) (foldl (fun t r => ?_) _ s)
  refine ite (ite (counterAdd t r n) ?_) (refl t)
  exact State.FabricOnly.trans (t := { t with free := t.free + 1 }) rfl (counterAdd _ r _)

/-! ### Sending (R321, R324) -/

theorem readyVc (s : State) (l cls : Nat) : s.FabricOnly (s.readyVc l cls).2 := by
  simp only [State.readyVc]
  repeat' split
  all_goals rfl

section
variable {s t u : State} {l n cls : Nat} {o : Option Nat}

theorem of_readyVc (h : s.FabricOnly t) (e : t.readyVc l cls = (o, u)) : s.FabricOnly u := by
  have hready := readyVc t l cls
  rw [e] at hready
  exact h.trans hready

theorem of_readyVc_ite {c : Prop} [Decidable c] (h : s.FabricOnly t)
    (e : (if c then t.readyVc l cls else (none, t)) = (o, u)) : s.FabricOnly u := by
  split at e
  · exact of_readyVc h e
  · cases e
    exact h

theorem tryTurn (h : s.FabricOnly t) : s.FabricOnly (t.tryTurn l n).2 := by
  simp only [State.tryTurn]
  split
  · next k v e => exact (of_readyVc h e).setLinkx _
  · next v e => exact of_readyVc h e

theorem of_tryTurn (h : s.FabricOnly t) (e : t.tryTurn l n = (o, u)) : s.FabricOnly u := by
  have htry := tryTurn (l := l) (n := n) h
  rw [e] at htry
  exact htry

end

theorem chooseQueue (s : State) (l : Nat) : s.FabricOnly (s.chooseQueue l).2 := by
  simp only [State.chooseQueue]
  split
  · next k t e => exact of_readyVc (refl s) e
  · next t e =>
    have ht := of_readyVc (refl s) e
    split
    · next k u e => exact (of_readyVc_ite ht e).setLinkx _
    · next u e =>
      have hu := of_readyVc_ite ht e
      split
      · next k v e => exact of_tryTurn hu e
      · next v e =>
        have hv := of_tryTurn hu e
        split
        · next k w e => exact of_tryTurn hv e
        · next w e => exact tryTurn (of_tryTurn hv e)

theorem startPacket (s : State) (l k : Nat) : s.FabricOnly (s.startPacket l k) := by
  simp only [State.startPacket]
  split
  · rfl
  · split
    · rfl
    · exact ite rfl rfl

theorem sendFlit (s : State) (l k : Nat) : s.FabricOnly (s.sendFlit l k) := by
  simp only [State.sendFlit]
  split <;> rfl

theorem pump (fuel : Nat) (s : State) (l : Nat) : s.FabricOnly (s.pump fuel l) := by
  induction fuel generalizing s with
  | zero => rfl
  | succ n ih =>
    simp only [State.pump]
    have hchoose := chooseQueue s l
    refine ite (refl s) ?_
    generalize s.chooseQueue l = q at hchoose
    obtain ⟨_ | k, t⟩ := q
    · exact hchoose.trans (ite (event ..) (refl _))
    · exact hchoose.trans (((startPacket t l k).trans (sendFlit _ l k)).trans (ih _))

theorem sendControl (s : State) (l kind : Nat) (body : List Byte) : s.FabricOnly (s.sendControl l kind body) := rfl

theorem ownDeparture (s : State) : s.FabricOnly s.ownDeparture := by
  have hnoted : s.FabricOnly { s with tth := { s.tth with
      departure := s.tth.departure + 1, departures := s.tth.departures ++ [(s.self, s.tth.departure + 1)] } } := rfl
  exact hnoted.trans (foldl (fun t l => sendControl t l _ _) _ _)

theorem announceDeparture (s : State) : s.FabricOnly s.announceDeparture := by
  simp only [State.announceDeparture]
  exact ite ((ownDeparture s).trans (foldl (fun t l => pump 512 t l) _ _)) (refl s)

end State.FabricOnly

end Sys2Proof.Machine

/-!
BANKED and DOUSED by the management bus, the alarm and the sensors (R367, R369, R370, R432, R457).
-/
namespace Sys2Proof.Machine
open Sys2Proof

/-! ### Entering BANKED or DOUSED (R369, R371) -/

/-- The state before `endUnits` at the entry to low power: reported, and the neighbours told. -/
def State.lowAnnounced (s : State) (doused : Bool) (alarmMs : Nat) : State :=
  (if s.upAndRunning then s.attn C.POWER_STATE_CHANGED [if doused then 3 else 2, alarmMs] else s).announceDeparture

theorem State.lowAnnounced_fabricOnly (s : State) (doused : Bool) (alarmMs : Nat) :
    s.FabricOnly (s.lowAnnounced doused alarmMs) :=
  (State.FabricOnly.ite ((State.FabricOnly.refl s).portOnly (State.attn_portOnly ..)) (.refl s)).trans (.announceDeparture _)

/-- Without an alarm, entry leaves the state of `endAll` in low power. -/
theorem State.enterLow_regsOnly (s : State) (doused : Bool) :
    let t := (s.lowAnnounced doused 0).endAll doused
    State.RegsOnly { t with power := { t.power with state := if doused then .doused else .banked, alarmAt := none } }
      (s.enterLow doused 0) := by
  have hwiped : (s.lowAnnounced doused 0).endUnits.RegsOnly (if doused
      then ((s.lowAnnounced doused 0).endUnits.wipeRegs (· == .runtime)).bump F.PWS_WAKE_DOUSED 0 1
      else ((s.lowAnnounced doused 0).endUnits.wipeRegs (· == .runtime)).bump F.PWS_WAKE_BANKED 0 1) := by
    cases doused <;> rfl
  have h := State.endUnits_memory_regsOnly hwiped doused
  simp only [State.RegsOnly, State.enterLow]
  rw [State.lowAnnounced] at h ⊢
  rw [h]
  rfl

/-- From `s` the device has gone to BANKED or DOUSED without an alarm, its memory kept or lost. -/
structure State.Asleep (s t : State) (doused : Bool) : Prop where
  state : t.power.state = if doused then .doused else .banked
  alarm : t.power.alarmAt = none
  tripped : t.power.tripped = s.power.tripped
  mem : t.mem = if doused then [] else s.mem
  runs : t.runs = []
  sessions : t.odn.sessions = []
  flog : t.flog = s.flog

theorem State.FabricOnly.asleep {s v : State} (h : s.FabricOnly v) (doused : Bool) :
    s.Asleep { v.endAll doused with
      power := { (v.endAll doused).power with state := if doused then .doused else .banked, alarmAt := none } } doused := by
  have htripped : v.power.tripped = s.power.tripped := by rw [h.power]
  cases doused with
  | false => exact ⟨rfl, rfl, htripped, h.mem, rfl, rfl, h.flog⟩
  | true => exact ⟨rfl, rfl, htripped, rfl, rfl, rfl, h.flog⟩

namespace State.Asleep

theorem regsOnly {s t u : State} {doused : Bool} (h : s.Asleep t doused) (k : t.RegsOnly u) : s.Asleep u doused := by
  rw [k]
  exact ⟨h.state, h.alarm, h.tripped, h.mem, h.runs, h.sessions, h.flog⟩

theorem holdFlash {s t : State} {doused : Bool} (h : s.Asleep t doused) (u : State) : s.Asleep (u.holdFlash t) doused :=
  ⟨h.state, h.alarm, h.tripped, h.mem, h.runs, h.sessions, h.flog⟩

theorem mgmtAnswer {s t : State} {doused : Bool} (h : s.Asleep t doused) (c : Code) (data : List Byte) :
    s.Asleep (t.mgmtAnswer c data) doused :=
  ⟨h.state, h.alarm, h.tripped, h.mem, h.runs, h.sessions, h.flog⟩

theorem enterLow (s : State) (doused : Bool) : s.Asleep (s.enterLow doused 0) doused :=
  ((s.lowAnnounced_fabricOnly doused 0).asleep doused).regsOnly (s.enterLow_regsOnly doused)

end State.Asleep

/-- A sensor's trip is seen, reported and logged, and shown in FLT_GOV (R432). -/
def State.tripped (s : State) (sensor temp : Nat) : State :=
  let t := ((s.sensorReads sensor temp).attn C.THERMAL_TRIP [sensor, temp]).faultLog C.THERMAL_TRIP.toNat kindSensor outEvent
    0xFF sensor sensor sensor
  State.fset { t with power := { t.power with tripped := true } } F.FLT_GOV_TRIPPED 0 1

/-! ### The commands -/

theorem exec_douse (s : State) : exec .douse s = .next (s.holdFlash (douse s)) := rfl

theorem exec_wake (s : State) : exec .wake s = .next (s.holdFlash (wake s)) := rfl

theorem exec_alarm (s : State) : exec .alarm s = .next (s.holdFlash (alarm s)) := rfl

theorem exec_thermalTrip (sensor : Fin 64) (temp : Nat) (s : State) :
    exec (.thermalTrip sensor temp) s = .next (s.holdFlash (thermalTrip sensor temp s)) := rfl

theorem exec_modThermN (temps : List Nat) (s : State) :
    exec (.modThermN temps) s = .next (s.holdFlash (modThermN temps s)) := rfl

/-- A WAKE is kept until the device has cooled (R432). -/
def State.wakeKept (s : State) : State := { s with power := { s.power with wakeHeld := true } }

section
variable {s : State}

theorem douse_lit (hbus : s.onBus = true) (hlit : s.power.state = .lit) :
    douse s = (s.enterLow true 0).mgmtAnswer C.OK [] := by
  simp [douse, hbus, State.douseAsked, hlit]

theorem gives_douse_lit (hbus : s.onBus = true) (hlit : s.power.state = .lit) :
    Gives .douse s (fun u => u = s.holdFlash ((s.enterLow true 0).mgmtAnswer C.OK []) ∧ u.power.state = .doused ∧
      u.power.alarmAt = none ∧ u.mem = [] ∧ u.runs = [] ∧ u.odn.sessions = []) := by
  have hasleep := ((State.Asleep.enterLow s true).mgmtAnswer C.OK []).holdFlash s
  refine ⟨_, exec_douse s, ?_⟩
  rw [douse_lit hbus hlit]
  exact ⟨rfl, hasleep.state, hasleep.alarm, hasleep.mem, hasleep.runs, hasleep.sessions⟩

theorem wake_low (hbus : s.onBus = true) (hlow : s.power.state = .banked ∨ s.power.state = .doused) :
    wake s = (if s.power.tripped && !s.cooled then s.wakeKept else s.wakeNow).mgmtAnswer C.OK [] := by
  have hasks : (s.power.state == .banked || s.power.state == .doused) = true := by simpa using hlow
  simp only [wake, hbus, if_true, State.wakeAsked, hasks, State.wakeKept]

theorem wake_wakes (hbus : s.onBus = true) (hlow : s.power.state = .banked ∨ s.power.state = .doused)
    (hcool : s.power.tripped = false ∨ s.cooled = true) : wake s = s.wakeNow.mgmtAnswer C.OK [] := by
  rw [wake_low hbus hlow, if_neg]
  rcases hcool with e | e <;> simp [e]

theorem wake_keeps (hbus : s.onBus = true) (hlow : s.power.state = .banked ∨ s.power.state = .doused)
    (htripped : s.power.tripped = true) (hhot : s.cooled = false) : wake s = s.wakeKept.mgmtAnswer C.OK [] := by
  rw [wake_low hbus hlow, if_pos]
  simp [htripped, hhot]

theorem alarm_wakes {a : Nat} (ha : s.power.alarmAt = some a) (hdue : a ≤ s.now) (htripped : s.power.tripped = false) :
    alarm s = s.wakeNow := by
  simp [alarm, ha, hdue, htripped]

theorem alarm_ignored {a : Nat} (ha : s.power.alarmAt = some a) (h : s.now < a ∨ s.power.tripped = true) : alarm s = s := by
  rcases h with hearly | htripped
  · simp [alarm, ha, Nat.not_le.mpr hearly]
  · simp [alarm, ha, htripped]

/-- A wake from BANKED with a whole pitch copy pitches the image in force (R370). -/
theorem State.wakeNow_banked (hbanked : s.power.state = .banked) (hcopy : s.power.copyOk = true)
    (hholes : s.power.copyHoles = []) {im : Image} (him : s.image = some im) :
    let a : State := { s with power := { s.power with tripped := false, wakeHeld := false, alarmAt := none } }
    let w := (((a.wipe false settingsOnly).fset F.PWS_STATE_LAST_RESET 0 7).faultEvent 7 0).pitchWith im
      (a.fget F.PCH_STATUS_SLOT) .wake
    s.wakeNow = (w.timeWake.2.leftLow .banked (some w.timeWake.1)).pinsFollow := by
  simp only [State.wakeNow, hbanked, State.wakeBanked, hcopy, hholes, him, List.isEmpty_nil, Bool.and_true]

/-! ### The sensors (R432) -/

theorem State.pinsFollow_regsOnly (s : State) : s.RegsOnly s.pinsFollow := rfl

/-- An entry joins the fault log, which holds 256 (R434). -/
theorem State.faultLog_flog_length (s : State) (code kind outcome physCluster physUnit logical detail : Nat) :
    (s.faultLog code kind outcome physCluster physUnit logical detail).flog.length = min 256 (s.flog.length + 1) := by
  simp only [State.faultLog, State.bump_flog, State.fset_flog, List.length_take, List.length_cons]

theorem State.tripped_left (sensor temp : Nat) :
    let t := s.tripped sensor temp
    t.power.tripped = true ∧ t.mem = s.mem ∧ t.flog.length = min 256 (s.flog.length + 1) := by
  refine ⟨rfl, ?_, ?_⟩
  · simp [State.tripped, State.sensorReads]
  · rw [State.tripped, State.fset_flog, State.faultLog_flog_length, State.attn_flog]
    rfl

theorem thermalTrip_hot (hup : s.upAndRunning = true) (sensor : Fin 64) {temp : Nat} (hhot : s.fget F.FLT_CTL_TRIP_C ≤ temp) :
    thermalTrip sensor temp s = ((s.tripped sensor temp).enterLow false 0).pinsFollow := by
  simp [thermalTrip, hup, hhot, State.tripped]

theorem gives_thermalTrip (hup : s.upAndRunning = true) (sensor : Fin 64) {temp : Nat}
    (hhot : s.fget F.FLT_CTL_TRIP_C ≤ temp) :
    Gives (.thermalTrip sensor temp) s (fun u => u.power.state = .banked ∧ u.power.tripped = true ∧ u.power.alarmAt = none ∧
      u.mem = s.mem ∧ u.runs = [] ∧ u.odn.sessions = [] ∧ u.flog.length = min 256 (s.flog.length + 1)) := by
  obtain ⟨htripped, hmem, hflog⟩ := State.tripped_left (s := s) sensor temp
  have hasleep := ((State.Asleep.enterLow (s.tripped sensor temp) false).regsOnly (State.pinsFollow_regsOnly _)).holdFlash s
  refine ⟨_, exec_thermalTrip sensor temp s, ?_⟩
  rw [thermalTrip_hot hup sensor hhot]
  exact ⟨hasleep.state, hasleep.tripped.trans htripped, hasleep.alarm, hasleep.mem.trans hmem, hasleep.runs,
    hasleep.sessions, (congrArg List.length hasleep.flog).trans hflog⟩

/-- MOD_THERM_N with a WAKE kept, once every sensor has cooled. -/
theorem modThermN_wakes {temps : List Nat} (hheld : s.power.wakeHeld = true) (hcool : (s.readSensors temps).cooled = true) :
    modThermN temps s = (s.readSensors temps).wakeNow := by
  have hread : (s.readSensors temps).power = s.power := rfl
  simp [modThermN, hread, hheld, hcool]

theorem modThermN_reads (temps : List Nat) (hheld : s.power.wakeHeld = false) : modThermN temps s = s.readSensors temps := by
  have hread : (s.readSensors temps).power = s.power := rfl
  simp [modThermN, hread, hheld]

theorem State.holdFlash_readSensors (temps : List Nat) : s.holdFlash (s.readSensors temps) = s.readSensors temps :=
  State.holdFlash_self rfl rfl rfl

theorem State.readSensors_kept (temps : List Nat) : StoresKept s (s.readSensors temps) ∧ RunsKept s (s.readSensors temps) :=
  ⟨⟨rfl, rfl, rfl, rfl, rfl⟩, rfl, rfl, rfl, rfl, rfl⟩

theorem gives_modThermN_reads (temps : List Nat) (hheld : s.power.wakeHeld = false) :
    Gives (.modThermN temps) s (fun u => u = s.readSensors temps ∧ u.gov.hotSensors = (List.range 64).zip (s.sensorTemps temps) ∧
      StoresKept s u ∧ RunsKept s u) := by
  refine ⟨s.readSensors temps, ?_, rfl, rfl, State.readSensors_kept temps⟩
  rw [exec_modThermN, modThermN_reads temps hheld, State.holdFlash_readSensors]

end

/-- Settles O22: what entry to low power leaves, and each wake by its cause and what stands against it. -/
theorem lowPowerByBusAndSensor : Obligations.LowPowerByBusAndSensor := by
  unfold Obligations.LowPowerByBusAndSensor
  intro s
  refine ⟨gives_douse_lit, fun hbus hlow => ⟨fun hcool => ?_, fun htripped hhot => ?_⟩,
    fun a ha => ⟨fun hdue htripped => ?_, fun h => ?_⟩, fun hbanked hcopy hholes im him => ?_,
    fun sensor temp hup hhot => ?_, fun temps hheld hcool => ?_, fun temps hheld => ?_⟩
  · rw [exec_wake, wake_wakes hbus hlow hcool]
  · rw [exec_wake, wake_keeps hbus hlow htripped hhot]
    rfl
  · rw [exec_alarm, alarm_wakes ha hdue htripped]
  · rw [exec_alarm, alarm_ignored ha h]
    rfl
  · exact State.wakeNow_banked hbanked hcopy hholes him
  · exact gives_thermalTrip hup sensor hhot
  · rw [exec_modThermN, modThermN_wakes hheld hcool]
  · exact gives_modThermN_reads temps hheld

end Sys2Proof.Machine

/-!
Cluster resets (R375, R422) and clusters held for heat (R431).
-/
namespace Sys2Proof.Machine
open Sys2Proof

/-! ### PWS_CLUSTER.RESET -/

theorem exec_pwsClusterReset (h : Hdr) (c : Fin 12) (s : State) : exec (.pwsClusterReset h c) s =
    .next (s.holdFlash ((s.odrenIn h.relayed 24 true).writeNamed h .PWS_CLUSTER c 0
      (put ((s.odrenIn h.relayed 24 true).raw .PWS_CLUSTER c 0) F.PWS_CLUSTER_RESET 1))) := rfl

theorem located_pwsCluster (c : Fin 12) : Located .PWS_CLUSTER c 0 := by
  have hall : ∀ c : Fin 12, locate (regAddr .PWS_CLUSTER c 0) = some (RegId.PWS_CLUSTER, c.val, 0) ∧
      regAddr .PWS_CLUSTER c 0 % 8 = 0 ∧ regAddr .PWS_CLUSTER c 0 < 2 ^ 64 := by decide
  obtain ⟨hfound, haligned, hbounded⟩ := hall c
  exact ⟨hfound, haligned, hbounded⟩

/-- The word that asks for a reset has bit 8 set. -/
theorem bitAt_resetWord (old : W64) : bitAt (put old F.PWS_CLUSTER_RESET 1).toNat 8 = true := by
  have h := bitsOf_putBits_same old 8 8 1 (by decide)
  have hbit : bitsOf (put old F.PWS_CLUSTER_RESET 1).toNat 8 8 = 1 := h
  simpa [bitAt, bitsOf] using hbit

section
variable {s : State} {c : Nat}

theorem State.clusterReset_resets (hlit : s.lit = true) (hworks : s.clusterWorks c = true) (hheld : s.heldShaded c = false)
    (hlast : ∀ e, s.power.lastResets.find? (fun e => e.1 == c) = some e → e.2 + 1000000000 < s.now) (cause : Nat) :
    s.clusterReset c cause = s.resetCluster c cause := by
  simp only [State.clusterReset, hlit, hworks, hheld, Bool.not_true, Bool.or_self, Bool.false_eq_true, if_false]
  split
  · next e he => exact if_neg (Nat.not_le.mpr (hlast e he))
  · rfl

theorem State.clusterReset_again (hlit : s.lit = true) (hworks : s.clusterWorks c = true) (hheld : s.heldShaded c = false)
    {e : Nat × Nat} (he : s.power.lastResets.find? (fun e => e.1 == c) = some e) (hsoon : s.now ≤ e.2 + 1000000000)
    (cause : Nat) : s.clusterReset c cause = s.clusterFails c := by
  simp [State.clusterReset, hlit, hworks, hheld, he, secondResetNs, hsoon]

end

/-- Which clusters are held is in a register of its own. -/
theorem State.heldShaded_setRaw_pwsCluster (s : State) (c : Fin 12) (w : W64) (d : Nat) :
    (s.setRaw .PWS_CLUSTER c 0 w).heldShaded d = s.heldShaded d := by
  have hne : ∀ c : Fin 12, regAddr .FLT_GOV 0 0 ≠ regAddr .PWS_CLUSTER c 0 := by decide
  have hraw : (s.setRaw .PWS_CLUSTER c 0 w).raw .FLT_GOV 0 0 = s.raw .FLT_GOV 0 0 :=
    State.raw_setRaw_ne _ _ _ _ _ _ _ _ (hne c)
  exact congrArg (fun x : W64 => bitAt (bitsOf x.toNat F.FLT_GOV_HELD.msb F.FLT_GOV_HELD.lsb) d) hraw

/-- A Keeper's write of PWS_CLUSTER with RESET set, in a LIT device. -/
theorem State.writeAccepted_pwsCluster {s : State} {c : Fin 12} {w : W64} (hlit : s.lit = true)
    (hworks : s.clusterWorks c = true) (hbit : bitAt w.toNat 8 = true) :
    let old := s.raw .PWS_CLUSTER c 0
    let t := s.setRaw .PWS_CLUSTER c 0 ((regDef .PWS_CLUSTER).written true old w)
    s.writeAccepted true .PWS_CLUSTER c 0 w = ⟨C.OK, t.sameFuses (t.clusterReset c 1), none⟩ := by
  have hbivouac : s.power.state ≠ .bivouac := by
    have hstate : s.power.state = .lit := by simpa [State.lit] using hlit
    simp [hstate]
  have hpage : s.pageGone .PWS_CLUSTER c = false := by
    simp only [State.clusterWorks, Bool.and_eq_true, Bool.not_eq_true'] at hworks
    obtain ⟨⟨hlost, -⟩, -⟩ := hworks
    simp only [State.pageGone, hlost, inCorePage, inVaultOps, inVaultMemory, Bool.and_false, Bool.or_self, Bool.false_and]
  refine State.writeAccepted_takes (by decide) hpage hbivouac (by decide) rfl rfl ?_ ?_
  · simp [State.actionRefusal, fixedChanged, fixedBits, State.logRefusal]
  · simp [State.act, State.actUnits, State.actDevice, hbit]

/-! An answer takes no notice of the fuses. -/

theorem State.relayOut_sameFuses (s t : State) (mac : BitVec 48) (inner : List Byte) :
    (s.sameFuses t).relayOut mac inner = s.sameFuses (t.relayOut mac inner) := by
  have hflag : (s.sameFuses t).flag F.ODN_CTL_RELAY_ENABLE = t.flag F.ODN_CTL_RELAY_ENABLE := rfl
  have hlink : (s.sameFuses t).relayLink none = t.relayLink none := rfl
  simp only [State.relayOut, hflag, hlink]
  split
  · cases t.relayLink none <;> rfl
  · rfl

theorem State.respond_sameFuses (s t : State) (id : W32) (type seq : Nat) (c : Code) (body : List Byte) :
    (s.sameFuses t).respond id type seq c body = s.sameFuses (t.respond id type seq c body) := by
  have hsession : (s.sameFuses t).session? id = t.session? id := rfl
  simp only [State.respond, hsession]
  cases t.session? id with
  | none => rfl
  | some x =>
    simp only [State.sendResponse]
    split
    · exact State.relayOut_sameFuses s ((t.putSession _).out _) _ _
    · rfl

theorem State.holdFlash_sameFuses (s t u : State) : s.holdFlash (t.sameFuses u) = s.holdFlash u := rfl

/-- What a Keeper's command writes: the cluster is reset, once RESET is in its register. -/
theorem State.writeAccepted_pwsCluster_resets {s : State} {c : Fin 12} (hlit : s.lit = true)
    (hworks : s.clusterWorks c = true) (hheld : s.heldShaded c = false)
    (hlast : ∀ e, s.power.lastResets.find? (fun e => e.1 == c.val) = some e → e.2 + 1000000000 < s.now) :
    ∃ w, s.writeAccepted true .PWS_CLUSTER c 0 (put (s.raw .PWS_CLUSTER c 0) F.PWS_CLUSTER_RESET 1) =
      ⟨C.OK, s.sameFuses ((s.setRaw .PWS_CLUSTER c 0 w).resetCluster c 1), none⟩ := by
  have hwrite := State.writeAccepted_pwsCluster hlit hworks (bitAt_resetWord (s.raw .PWS_CLUSTER c 0))
  have hreset (w : W64) : (s.setRaw .PWS_CLUSTER c 0 w).clusterReset c 1 = (s.setRaw .PWS_CLUSTER c 0 w).resetCluster c 1 :=
    State.clusterReset_resets (s := s.setRaw .PWS_CLUSTER c 0 w) hlit hworks ((s.heldShaded_setRaw_pwsCluster c w c).trans hheld) hlast 1
  exact ⟨_, hwrite.trans (by rw [hreset]; rfl)⟩

theorem gives_pwsClusterReset {s : State} {h : Hdr} {z : Session} (ha : Accepted s h z) (hkeeper : z.role = .keeper)
    (hlit : s.lit = true) {c : Fin 12} (hworks : (s.taken h 24 z).clusterWorks c = true)
    (hheld : (s.taken h 24 z).heldShaded c = false)
    (hlast : ∀ e, (s.taken h 24 z).power.lastResets.find? (fun e => e.1 == c.val) = some e →
      e.2 + 1000000000 < (s.taken h 24 z).now)
    (hw : (regDef .PWS_CLUSTER).writeRefusal .PWS_CLUSTER true
      (put ((s.taken h 24 z).raw .PWS_CLUSTER c 0) F.PWS_CLUSTER_RESET 1) = none) :
    Gives (.pwsClusterReset h c) s (fun u => ∃ w, u = s.holdFlash
      ((((s.taken h 24 z).setRaw .PWS_CLUSTER c 0 w).resetCluster c 1).respond h.session tyWriteReg h.seq C.OK
        (natLe 4 1 ++ zeros 4))) := by
  have hin : (s.odrenIn h.relayed 24 true).raw .PWS_CLUSTER c 0 = (s.taken h 24 z).raw .PWS_CLUSTER c 0 :=
    ((s.odrenIn_portOnly ..).raw ..).trans ((s.taken_portOnly h 24 z).raw ..).symm
  obtain ⟨w, hwrite⟩ := State.writeAccepted_pwsCluster_resets ((s.taken_portOnly h 24 z).lit.trans hlit) hworks hheld hlast
  refine ⟨_, exec_pwsClusterReset h c s, w, ?_⟩
  rw [hin, accepted_writeNamed (body := natLe 4 1 ++ zeros 4) ha hkeeper (located_pwsCluster c) hw hwrite rfl,
    State.respond_sameFuses, State.holdFlash_sameFuses]

/-! ### CLUSTER_LIT -/

theorem exec_clusterLit (c : Fin 12) (s : State) : exec (.clusterLit c) s = .next (s.holdFlash (clusterLit c s)) := rfl

/-- A cluster is no longer in a reset. -/
def State.resetOver (s : State) (c : Nat) : State :=
  s.modUnits (fun u => { u with resetting := u.resetting.filter (fun e => e.cluster != c) })

/-- A cluster that has been reset runs again, idle from now on. -/
def State.clusterBack (s : State) (c : Nat) : State :=
  let t := (s.fset F.PWS_CLUSTER_PLL_LOCKED c 1).recoveryOff c
  { t with power := { t.power with idleSince := assocSet t.power.idleSince c t.now } }

section
variable {s : State} {c : Fin 12}

theorem clusterLit_back {r : ClusterReset} (hr : s.units.resetting.find? (fun e => e.cluster == c.val) = some r)
    (hsoon : s.now ≤ r.since + 50000) :
    clusterLit c s = (((s.resetOver c).clusterBack c).attn C.CLUSTER_RESET [c, r.cause, r.reissued]).settleAll := by
  have hlate : ¬ r.since + clusterLitNs < (s.resetOver c).now := Nat.not_lt.mpr hsoon
  simp only [clusterLit, hr]
  exact if_neg hlate

theorem clusterLit_late {r : ClusterReset} (hr : s.units.resetting.find? (fun e => e.cluster == c.val) = some r)
    (hlate : r.since + 50000 < s.now) : clusterLit c s = ((s.resetOver c).recoveryOff c).clusterFails c := by
  simp only [clusterLit, hr]
  exact if_pos hlate

end

/-! ### What shading, logging and reporting leave as it is -/

theorem State.clearBit_regsOnly (s : State) (f : FRef) (i : Nat) : s.RegsOnly (s.clearBit f i) := by
  simp only [State.clearBit]
  split <;> rfl

theorem State.showShaded_regsOnly (s : State) (c : Nat) (shaded : Bool) : s.RegsOnly (s.showShaded c shaded) := by
  simp only [State.showShaded]
  refine State.RegsOnly.trans ?_ (State.foldl_regsOnly (fun t v => t.fset_regsOnly F.VLT_STATUS_SELF_REFRESH v _) _ _)
  refine State.RegsOnly.trans ?_ (State.fset_regsOnly ..)
  split
  · rfl
  · exact State.RegsOnly.trans (t := (s.fset _ _ _).fset _ _ _) rfl (State.clearBit_regsOnly ..)

/-- Only registers, the power states, the governor, the fault log and the port's records may differ. -/
def State.HeatOnly (s t : State) : Prop :=
  t = { s with regs := t.regs, power := t.power, gov := t.gov, flog := t.flog, odn := t.odn, outbox := t.outbox,
               tth := t.tth, pmc := t.pmc }

namespace State.HeatOnly

theorem refl (s : State) : s.HeatOnly s := rfl

theorem trans {s t u : State} (h : s.HeatOnly t) (k : t.HeatOnly u) : s.HeatOnly u := by
  unfold State.HeatOnly at *
  rw [k, h]

section
variable {s t : State} (h : s.HeatOnly t)
include h

theorem kept : StoresKept s t ∧ RunsKept s t := by
  rw [h]
  exact ⟨⟨rfl, rfl, rfl, rfl, rfl⟩, rfl, rfl, rfl, rfl, rfl⟩

theorem holdFlash : s.holdFlash t = t := State.holdFlash_self (by rw [h]) (by rw [h]) (by rw [h])

theorem regsOnly {u : State} (k : t.RegsOnly u) : s.HeatOnly u :=
  h.trans (by unfold State.HeatOnly; rw [k])

theorem portOnly {u : State} (k : t.PortOnly u) : s.HeatOnly u :=
  h.trans (by unfold State.HeatOnly; rw [k])

theorem faultLog (code kind outcome physCluster physUnit logical detail : Nat) :
    s.HeatOnly (t.faultLog code kind outcome physCluster physUnit logical detail) := h.trans rfl

end

end State.HeatOnly

/-! ### Clusters held for heat (R431) -/

theorem exec_clusterHold (c : Fin 12) (sensor : Fin 64) (temp : Nat) (s : State) :
    exec (.clusterHold c sensor temp) s = .next (s.holdFlash (clusterHold c sensor temp s)) := rfl

theorem exec_clusterHoldRelease (c : Fin 12) (temp : Nat) (s : State) :
    exec (.clusterHoldRelease c temp) s = .next (s.holdFlash (clusterHoldRelease c temp s)) := rfl

/-- No time since which cluster `c` has been cool is kept. -/
def Gov.forget (g : Gov) (c : Nat) : Gov := { g with coolSince := g.coolSince.filter (fun (e : Nat × Nat) => e.1 != c) }

theorem Gov.forget_coolSince (g : Gov) (c : Nat) : ∀ e ∈ (g.forget c).coolSince, e.1 ≠ c := by
  intro e he
  simp only [Gov.forget, List.mem_filter, bne_iff_ne] at he
  exact he.2

/-- A cluster that is shown as shaded is held: no wake is due, and the time since when it has been cool is not kept. -/
def State.heldFrom (s : State) (c : Nat) : State :=
  let t : State := { s with power := { s.power with waking := s.power.waking.filter (fun e => e.1 != c) } }
  let u := t.setBit F.FLT_GOV_HELD c
  { u with gov := u.gov.forget c }

theorem State.heldFrom_heatOnly (s : State) (c : Nat) : s.HeatOnly (s.heldFrom c) := rfl

theorem State.heldFrom_flog (s : State) (c : Nat) : (s.heldFrom c).flog = s.flog := rfl

theorem State.heldFrom_gov (s : State) (c : Nat) : (s.heldFrom c).gov = s.gov.forget c := rfl

/-- Of the registers the hold changes FLT_GOV.HELD alone. -/
theorem State.heldFrom_logged_regs (s : State) (c n : Nat) :
    (((s.heldFrom c).fset F.FLT_LOG_SEL_COUNT 0 n).bump F.FLT_LOG_SEL_TOTAL 0 1).regs =
      (((s.setBit F.FLT_GOV_HELD c).fset F.FLT_LOG_SEL_COUNT 0 n).bump F.FLT_LOG_SEL_TOTAL 0 1).regs := rfl

/-- A cluster is shaded and held. -/
def State.holdShaded (s : State) (c : Nat) : State := (s.showShaded c true).heldFrom c

/-- The hold of a cluster ends: it is asked to wake. -/
def State.holdEnds (s : State) (c : Nat) : State :=
  let t := s.clearBit F.FLT_GOV_HELD c
  { t with
    gov := t.gov.forget c
    power := { t.power with waking := t.power.waking.filter (fun (e : Nat × Nat) => e.1 != c) ++ [(c, t.now)] } }

theorem State.holdShaded_heatOnly (s : State) (c : Nat) : s.HeatOnly (s.holdShaded c) :=
  ((State.HeatOnly.refl s).regsOnly (s.showShaded_regsOnly c true)).trans (State.heldFrom_heatOnly _ c)

theorem State.holdEnds_heatOnly (s : State) (c : Nat) : s.HeatOnly (s.holdEnds c) := by
  simp only [State.HeatOnly, State.holdEnds]
  rw [s.clearBit_regsOnly F.FLT_GOV_HELD c]

theorem State.faultLog_regs (s : State) (code kind outcome physCluster physUnit logical detail : Nat) :
    (s.faultLog code kind outcome physCluster physUnit logical detail).regs =
      ((s.fset F.FLT_LOG_SEL_COUNT 0 (min 256 (s.flog.length + 1))).bump F.FLT_LOG_SEL_TOTAL 0 1).regs := by
  simp only [State.faultLog, List.length_take, List.length_cons]
  rfl

/-- The state after a cluster has been held: logged and reported. -/
def State.held (s : State) (c temp : Nat) : State :=
  ((s.holdShaded c).faultLog C.CLUSTER_HELD.toNat kindCluster outEvent ((s.holdShaded c).physCluster c) 0xFF c c).attn
    C.CLUSTER_HELD [c, temp, 0]

theorem State.held_heatOnly (s : State) (c temp : Nat) : s.HeatOnly (s.held c temp) :=
  ((s.holdShaded_heatOnly c).faultLog ..).portOnly (State.attn_portOnly ..)

section
variable {s : State} {c : Fin 12}

theorem clusterHold_hot (sensor : Fin 64) {temp : Nat} (hlit : s.lit = true) (hhot : s.fget F.FLT_CTL_SHADE_C ≤ temp)
    (hheld : s.heldShaded c = false) (hlost : s.units.lostClusters.contains c.val = false) :
    clusterHold c sensor temp s = s.held c temp := by
  have hgo : (s.lit && decide (s.fget F.FLT_CTL_SHADE_C ≤ temp) && !s.heldShaded c && !s.units.lostClusters.contains c.val) =
      true := by simp only [hlit, hhot, hheld, hlost, decide_true, Bool.not_false, Bool.and_self]
  exact if_pos hgo

theorem gives_clusterHold (sensor : Fin 64) {temp : Nat} (hlit : s.lit = true) (hhot : s.fget F.FLT_CTL_SHADE_C ≤ temp)
    (hheld : s.heldShaded c = false) (hlost : s.units.lostClusters.contains c.val = false) :
    Gives (.clusterHold c sensor temp) s (fun t =>
      t.regs = ((((s.showShaded c true).setBit F.FLT_GOV_HELD c).fset F.FLT_LOG_SEL_COUNT 0 (min 256 (s.flog.length + 1))).bump
        F.FLT_LOG_SEL_TOTAL 0 1).regs ∧
      (∀ e ∈ t.gov.coolSince, e.1 ≠ c.val) ∧ t.flog.length = min 256 (s.flog.length + 1) ∧ StoresKept s t ∧ RunsKept s t) := by
  have hflog : (s.holdShaded c).flog = s.flog := (State.heldFrom_flog _ c).trans (s.showShaded_regsOnly c true).flog
  refine ⟨s.held c temp, ?_, ?_, ?_, ?_, (s.held_heatOnly c temp).kept⟩
  · rw [exec_clusterHold, clusterHold_hot sensor hlit hhot hheld hlost, (s.held_heatOnly c temp).holdFlash]
  · rw [State.held, State.attn_regs, State.faultLog_regs, hflog, State.holdShaded, State.heldFrom_logged_regs]
  · rw [State.held, State.attn_gov, State.faultLog_gov, State.holdShaded, State.heldFrom_gov]
    exact Gov.forget_coolSince _ c
  · rw [State.held, State.attn_flog, State.faultLog_flog_length, hflog]

theorem clusterHoldRelease_cool {temp a : Nat} (hlit : s.lit = true) (hheld : s.heldShaded c = true)
    (hcool : temp + 10 < s.fget F.FLT_CTL_SHADE_C)
    (hsince : s.gov.coolSince.find? (fun e => e.1 == c.val) = some (c.val, a)) (hlong : a + 1000000000 ≤ s.now) :
    clusterHoldRelease c temp s = (s.holdEnds c).attn C.CLUSTER_HELD [c, temp, 1] := by
  simp only [clusterHoldRelease, hsince, hlit, hheld, hcool, hlong, decide_true, Bool.and_self, if_true]
  rfl

theorem gives_clusterHoldRelease {temp a : Nat} (hlit : s.lit = true) (hheld : s.heldShaded c = true)
    (hcool : temp + 10 < s.fget F.FLT_CTL_SHADE_C)
    (hsince : s.gov.coolSince.find? (fun e => e.1 == c.val) = some (c.val, a)) (hlong : a + 1000000000 ≤ s.now) :
    Gives (.clusterHoldRelease c temp) s (fun t =>
      t.regs = (s.clearBit F.FLT_GOV_HELD c).regs ∧ (c.val, s.now) ∈ t.power.waking ∧ (∀ e ∈ t.gov.coolSince, e.1 ≠ c.val) ∧
      StoresKept s t ∧ RunsKept s t) := by
  have hreport : s.HeatOnly ((s.holdEnds c).attn C.CLUSTER_HELD [c, temp, 1]) :=
    (s.holdEnds_heatOnly c).portOnly (State.attn_portOnly ..)
  have hnow : (s.clearBit F.FLT_GOV_HELD c).now = s.now := by
    rw [State.now, (s.clearBit_regsOnly F.FLT_GOV_HELD c).clock, State.now]
  refine ⟨_, ?_, ?_, ?_, ?_, hreport.kept⟩
  · rw [exec_clusterHoldRelease, clusterHoldRelease_cool hlit hheld hcool hsince hlong, hreport.holdFlash]
  · rw [State.attn_regs]
    rfl
  · rw [State.attn_power, ← hnow]
    exact List.mem_append_right _ (List.mem_singleton_self _)
  · rw [State.attn_gov]
    exact Gov.forget_coolSince _ c

end

/-- Settles O24: the command's write, the second reset, the return in time or late, and the hold and its end. -/
theorem clusterResetsAndHolds : Obligations.ClusterResetsAndHolds := by
  unfold Obligations.ClusterResetsAndHolds
  intro s c
  refine ⟨fun h z ha hkeeper hlit => ?_, fun e cause hlit hworks hheld he hsoon => ?_,
    fun r hr => ⟨fun hsoon => ?_, fun hlate => ?_⟩, fun sensor temp hlit hhot hheld hlost => ?_,
    fun temp a hlit hheld hcool hsince hlong => ?_⟩
  · exact gives_pwsClusterReset ha hkeeper hlit
  · exact State.clusterReset_again hlit hworks hheld he hsoon cause
  · rw [exec_clusterLit, clusterLit_back hr hsoon]
    rfl
  · rw [exec_clusterLit, clusterLit_late hr hlate]
    rfl
  · exact gives_clusterHold sensor hlit hhot hheld hlost
  · exact gives_clusterHoldRelease hlit hheld hcool hsince hlong

end Sys2Proof.Machine

/-!
What a step answers, and what it may do to the fuses (R390, R391): every command but one of JTAG's answers a next state, and
all but five kinds of command hold the fuses as they are.
-/
namespace Sys2Proof.Machine
open Sys2Proof

/-- Settles O1: both equations are the two cases of `step`. -/
theorem stepTakesFront : Obligations.StepTakesFront := by
  unfold Obligations.StepTakesFront
  intro c r s
  exact ⟨step_front { s with pending := c :: r } c r rfl, step_idle { s with pending := [] } rfl⟩

/-! ### What `exec` answers -/

/-- The commands that may burn a fuse (R390, R391, R457). -/
def Burns : Instr → Prop
  | .writeReg .. | .rollbackCommit .. | .enroll .. | .revoke .. | .enrollFirst .. => True
  | _ => False

/-- Every command but one of JTAG's answers a next state, with the fuses as they are unless the command may burn one. -/
theorem exec_cases (c : Instr) (s : State) :
    (∃ code, c = .jtagInstruction code) ∨ (∃ t, exec c s = .next t ∧ (Burns c ∨ t.fuses = s.fuses)) := by
  cases c with
  | jtagInstruction code => exact .inl ⟨code, rfl⟩
  | writeReg | rollbackCommit | enroll | revoke | enrollFirst => exact .inr ⟨_, rfl, .inl trivial⟩
  | lossOf48V => exact .inr ⟨_, exec_lossOf48V s, .inr (s.holdFlash_fuses _)⟩
  | _ => exact .inr ⟨_, rfl, .inr rfl⟩

/-- An instruction of JTAG leaves the state as it is, but for a private one that is enabled (R458). -/
theorem exec_jtagInstruction (code : JtagInstr) (s : State) :
    exec (.jtagInstruction code) s = .next s ∨
      ∃ n, code = .grenogPrivate n ∧ s.flag F.MOD_MGMT_JTAG_DEBUG = true ∧
        exec (.jtagInstruction code) s = .refused .jtagPrivate := by
  have hexec : exec (.jtagInstruction code) s = if s.jtagActs code then .refused .jtagPrivate else .next s := rfl
  cases code with
  | grenogPrivate n =>
    cases hdebug : s.flag F.MOD_MGMT_JTAG_DEBUG with
    | false => exact .inl (hexec.trans (if_neg (by simp [State.jtagActs, hdebug])))
    | true => exact .inr ⟨n, rfl, rfl, hexec.trans (if_pos (by simp [State.jtagActs, hdebug]))⟩
  | _ => exact .inl rfl

/-- Settles O43: an empty queue ticks, and of the commands `exec` refuses the private instructions alone (that it refuses them
is the model's choice, log entry 152). -/
theorem stepsComplete : Obligations.StepsComplete := by
  unfold Obligations.StepsComplete
  intro s
  cases hq : s.pending with
  | nil => exact .inl ⟨_, step_idle s hq⟩
  | cons c r =>
    have hstep := step_front s c r hq
    rcases exec_cases c { s with pending := r } with ⟨code, rfl⟩ | ⟨t, ht, -⟩
    · rcases exec_jtagInstruction code { s with pending := r } with ht | ⟨n, rfl, hdebug, ht⟩
      · exact .inl ⟨_, hstep.trans ht⟩
      · exact .inr ⟨n, r, rfl, hdebug, hstep.trans ht⟩
    · exact .inl ⟨t, hstep.trans ht⟩

end Sys2Proof.Machine

/-!
What burns fuses: enrolment, revocation and COMMIT (R390, R391). Each keeps what is burned, so every write and every step does.
-/
namespace Sys2Proof.Machine
open Sys2Proof

/-! ### Burning -/

section
variable {f g : Fuses} (h : FusesSince f g)
include h

/-- A digest burned into an empty position takes the place of none. -/
theorem Fuses.enroll_since {k : Nat} (hempty : g.owners.getD k none = none) (digest : List Byte) :
    FusesSince f (g.enroll k digest) := by
  obtain ⟨howners, hrest⟩ := h
  refine ⟨fun k' d hd => ?_, hrest⟩
  have hburned := howners k' d hd
  have hne : k ≠ k' := by
    rintro rfl
    rw [hempty] at hburned
    cases hburned
  simpa [Fuses.enroll, List.getElem?_set_ne hne] using hburned

theorem Fuses.revoke_since (k : Nat) : FusesSince f (g.revoke k) := by
  obtain ⟨howners, hrevoked, hrest⟩ := h
  refine ⟨howners, fun k' hk' => ?_, hrest⟩
  have hburned := hrevoked k' hk'
  rw [List.getD_eq_getElem?_getD] at hburned
  rw [Fuses.revoke, List.getD_eq_getElem?_getD, List.getElem?_set]
  split
  · next e =>
    subst e
    split
    · rfl
    · next hlen => simp [List.getElem?_eq_none (Nat.not_lt.mp hlen)] at hburned
  · exact hburned

theorem Fuses.commit_since (m : Manifests) : FusesSince f (g.commit m) := by
  obtain ⟨howners, hrevoked, ⟨hwarden, hwarden64⟩, ⟨hsteward, hsteward64⟩, ⟨hpitch, hpitch64⟩, hmade⟩ := h
  refine ⟨howners, hrevoked, ?_, ?_, ?_, hmade⟩ <;> simp only [Fuses.commit] <;> omega

end

/-- No position of fuses without an owner holds a digest. -/
theorem Fuses.owner_of_not_enrolled {f : Fuses} (h : f.enrolled = false) (k : Nat) : f.owners.getD k none = none := by
  rw [Fuses.enrolled, List.any_eq_false] at h
  rw [List.getD_eq_getElem?_getD]
  cases ho : f.owners[k]? with
  | none => rfl
  | some o => simpa using h o (List.mem_of_getElem? ho)

/-! ### Writes -/

section
variable {f : Fuses} {s : State} (h : FusesSince f s.fuses)
include h

theorem State.fuseCommand_since (k : Nat) (enroll revoke : Bool) : FusesSince f (s.fuseCommand k enroll revoke).2.fuses := by
  simp only [State.fuseCommand]
  split
  · exact h
  · next hgo =>
    have henrolled : FusesSince f (if enroll then s.fuses.enroll k s.stagedDigest else s.fuses) := by
      split
      · next he =>
        have hempty : s.fuses.owners.getD k none = none :=
          Option.not_isSome_iff_eq_none.mp fun hsome =>
            hgo (by simp only [State.fuseRefused, he, hsome, Bool.and_self, Bool.true_or])
        exact Fuses.enroll_since h hempty _
      · exact h
    split
    · exact Fuses.revoke_since henrolled k
    · exact henrolled

theorem State.commitRollback_since : FusesSince f s.commitRollback.fuses := by
  simp only [State.commitRollback]
  split
  · exact Fuses.commit_since h _
  · exact h

/-- What follows a write: COMMIT, a fuse command, or an action that holds the fuses. -/
theorem State.act_since (id : RegId) (i j : Nat) (old w : W64) : FusesSince f (s.act id i j old w).2.fuses := by
  simp only [State.act]
  split
  · split
    · exact State.commitRollback_since h
    · exact h
  · exact State.fuseCommand_since h _ _ _
  · exact h

theorem State.writeAccepted_since (keeper : Bool) (id : RegId) (i j : Nat) (w : W64) :
    FusesSince f (s.writeAccepted keeper id i j w).state.fuses := by
  have hheld (old new : W64) : (s.writeHeld id i j old new w).fuses = s.fuses := by
    simp only [State.writeHeld]
    split <;> rfl
  have htrace (new : W64) : (s.refusalTrace id new).fuses = s.fuses := by
    rw [s.refusalTrace_regsOnly id new]
  simp only [State.writeAccepted]
  split
  · exact h
  split
  · exact (hheld ..).symm ▸ h
  split
  · exact h
  split
  · exact (htrace _).symm ▸ h
  split
  · exact h
  split
  · exact h
  · exact State.act_since (s := s.setRaw id i j _) h id i j _ w

theorem State.writeOne_since (keeper : Bool) (a : Nat) (w : W64) : FusesSince f (s.writeOne keeper a w).state.fuses := by
  simp only [State.writeOne]
  split
  · exact h
  split
  · exact h
  split
  · exact h
  · exact State.writeAccepted_since h ..

/-- A routing entry's words burn nothing. -/
theorem State.writeRoute_since (keeper : Bool) (e : Nat) (w0 w1 : W64) :
    FusesSince f (s.writeRoute keeper e w0 w1).state.fuses := by
  simp only [State.writeRoute]
  repeat' split
  all_goals exact h

end

theorem State.writeRegs_since {f : Fuses} (keeper : Bool) (ws : List W64) (a : Nat) (s : State) (h : FusesSince f s.fuses) :
    FusesSince f (State.writeRegs keeper ws a s).2.state.fuses := by
  fun_induction State.writeRegs keeper ws a s with
  | case1 => exact h
  | case2 => exact State.writeOne_since h ..
  | case3 w0 w1 rest a s e _ r _ n q hrest ih =>
    rw [hrest] at ih
    exact ih (State.writeRoute_since h ..)
  | case4 => exact State.writeRoute_since h ..
  | case5 w0 w1 rest a s _ r _ n q hrest ih =>
    rw [hrest] at ih
    exact ih (State.writeOne_since h ..)
  | case6 => exact State.writeOne_since h ..

section
variable {f : Fuses} {s : State} (h : FusesSince f s.fuses)
include h

theorem State.writeCommand_since (hdr : Hdr) (addr : W64) (words : List W64) :
    FusesSince f (s.writeCommand hdr addr words).fuses := by
  simp only [State.writeCommand]
  split
  · exact h
  · exact h
  · split
    · exact h
    · exact State.writeRegs_since _ _ _ _ h

theorem enrollFirst_since (position : Nat) (digest : List Byte) : FusesSince f (enrollFirst position digest s).fuses := by
  simp only [enrollFirst]
  split
  · exact h
  split
  · next hgo =>
    simp only [Bool.and_eq_true, Bool.not_eq_true'] at hgo
    obtain ⟨⟨-, hblank⟩, -⟩ := hgo
    exact Fuses.enroll_since h (Fuses.owner_of_not_enrolled hblank position) _
  · exact h

theorem exec_burns_since {t : State} {c : Instr} (hc : Burns c) (ht : exec c s = .next t) : FusesSince f t.fuses := by
  have hin (relayed : Bool) (body : Nat) : FusesSince f (s.odrenIn relayed body true).fuses := by
    rw [State.odrenIn_fuses]
    exact h
  cases c with
  | writeReg hdr addr words | rollbackCommit hdr | enroll hdr position | revoke hdr position =>
    cases ht
    exact State.writeCommand_since (hin ..) ..
  | enrollFirst position digest =>
    cases ht
    exact enrollFirst_since h position digest
  | _ => cases hc

end

/-- Settles O41: the empty queue's tick holds the fuses, and so does every command but those that burn them. -/
theorem fusesNeverClear : Obligations.FusesNeverClear := by
  unfold Obligations.FusesNeverClear
  intro f s t h ht
  cases hq : s.pending with
  | nil =>
    obtain rfl : tick s = t := Host.Outcome.next.inj ((step_idle s hq).symm.trans ht)
    exact h
  | cons c r =>
    rw [step_front s c r hq] at ht
    rcases exec_cases c { s with pending := r } with ⟨code, rfl⟩ | ⟨u, hu, hc | hfuses⟩
    · rcases exec_jtagInstruction code { s with pending := r } with hu | ⟨n, -, -, hu⟩
      · obtain rfl := Host.Outcome.next.inj (hu.symm.trans ht)
        exact h
      · cases hu.symm.trans ht
    · exact exec_burns_since (s := { s with pending := r }) h hc ht
    · obtain rfl := Host.Outcome.next.inj (hu.symm.trans ht)
      rw [hfuses]
      exact h

end Sys2Proof.Machine

/-!
The governor (R188, R430, R431): what a step of the level and shading touch, the fast check, and the check of each second.
-/
namespace Sys2Proof.Machine
open Sys2Proof

/-! ### What the governor touches -/

theorem State.HeatOnly.holdData {s t : State} (h : s.HeatOnly t) : s.holdData t = t :=
  State.holdData_self (by rw [h]) (by rw [h]) (by rw [h]) (by rw [h]) (by rw [h]) (by rw [h])

theorem State.setActLimit_heatOnly (s : State) : s.HeatOnly s.setActLimit := by
  simp only [State.setActLimit]
  split
  · exact .refl s
  · exact ((State.HeatOnly.refl s).regsOnly (s.fset_regsOnly ..)).portOnly (State.attn_portOnly ..)

theorem State.levelTo_heatOnly (s : State) (l cause : Nat) : s.HeatOnly (s.levelTo l cause) := by
  have hset : s.HeatOnly ((s.fset F.FLT_GOV_LEVEL 0 l).fset F.FLT_GOV_MST_CAP 0 (4 * l)) := rfl
  exact (hset.portOnly (State.attn_portOnly ..)).trans (State.setActLimit_heatOnly _)

theorem State.HeatOnly.setPower {s t : State} (h : s.HeatOnly t) (p : Power) : s.HeatOnly { t with power := p } :=
  h.trans rfl

theorem State.shade_heatOnly (s : State) (c : Nat) : s.HeatOnly (s.shade c) := by
  rw [State.shade]
  exact ((State.HeatOnly.refl s).regsOnly (s.showShaded_regsOnly c true)).setPower _

theorem State.reportShade_portOnly (s : State) : s.PortOnly s.reportShade := State.attn_portOnly ..

theorem State.shade_reported_heatOnly (s : State) (c : Nat) : s.HeatOnly (s.shade c).reportShade :=
  (s.shade_heatOnly c).portOnly (State.reportShade_portOnly _)

/-! ### The level falls -/

section
variable {s : State}

theorem State.levelFall_above (h : s.fget F.FLT_CTL_MTX_MIN_LEVEL < s.fget F.FLT_GOV_LEVEL) (cause : Nat) :
    s.levelFall cause = s.levelTo (s.fget F.FLT_GOV_LEVEL - 1) cause := if_pos h

/-- At the lowest level the cluster under the hottest sensor is shaded, if it can be. -/
theorem State.levelFall_lowest (h : s.fget F.FLT_GOV_LEVEL ≤ s.fget F.FLT_CTL_MTX_MIN_LEVEL) (cause : Nat) :
    let c := Config.sensorCluster (s.fget F.FLT_GOV_HOT_SENSOR)
    s.levelFall cause = if c < 12 ∧ !s.shaded c ∧ s.clusterWorks c then (s.shade c).reportShade else s :=
  if_neg (Nat.not_lt.mpr h)

theorem State.levelFall_heatOnly (s : State) (cause : Nat) : s.HeatOnly (s.levelFall cause) := by
  simp only [State.levelFall]
  split
  · exact s.levelTo_heatOnly _ cause
  · split
    · exact s.shade_reported_heatOnly _
    · exact .refl s

/-! ### GOVERNOR_FAST_CHECK -/

theorem exec_governorFastCheck (watts : Nat) (s : State) :
    exec (.governorFastCheck watts) s = .next (s.holdData (governorFastCheck watts s)) := rfl

theorem exec_governorFastCheck_over {watts : Nat} (hlit : s.lit = true) (hover : s.fget F.FLT_CTL_POWER_CAP_W < watts) :
    exec (.governorFastCheck watts) s = .next (s.levelFall 0) := by
  rw [exec_governorFastCheck, governorFastCheck, if_pos (by simp [hlit, hover]), (s.levelFall_heatOnly 0).holdData]

theorem exec_governorFastCheck_within {watts : Nat} (hwithin : watts ≤ s.fget F.FLT_CTL_POWER_CAP_W) :
    exec (.governorFastCheck watts) s = .next s := by
  rw [exec_governorFastCheck, governorFastCheck, if_neg (by simp [Nat.not_lt.mpr hwithin]), (State.HeatOnly.refl s).holdData]

theorem gives_governorFastCheck_lowest {watts : Nat} (hlit : s.lit = true) (hover : s.fget F.FLT_CTL_POWER_CAP_W < watts)
    (hlow : s.fget F.FLT_GOV_LEVEL ≤ s.fget F.FLT_CTL_MTX_MIN_LEVEL) :
    let c := Config.sensorCluster (s.fget F.FLT_GOV_HOT_SENSOR)
    Gives (.governorFastCheck watts) s (fun t => StoresKept s t ∧ RunsKept s t ∧
      (c < 12 → s.shaded c = false → s.clusterWorks c = true → t = s.holdData (s.shade c).reportShade) ∧
      (12 ≤ c → t = s)) := by
  intro c
  obtain ⟨hstores, hruns⟩ := (s.levelFall_heatOnly 0).kept
  have hfall := State.levelFall_lowest hlow 0
  refine ⟨_, exec_governorFastCheck_over hlit hover, hstores, hruns, fun hc hbright hworks => ?_, fun hc => ?_⟩
  · rw [hfall, (s.shade_reported_heatOnly c).holdData]
    exact if_pos ⟨hc, by rw [hbright]; rfl, hworks⟩
  · rw [hfall]
    exact if_neg (fun ⟨hlow, _⟩ => Nat.not_lt.mpr hc hlow)

end

/-! ### GOVERNOR_CHECK -/

theorem State.readSensors_heatOnly (s : State) (temps : List Nat) : s.HeatOnly (s.readSensors temps) := by
  rw [State.readSensors]
  refine State.HeatOnly.regsOnly ?_ (State.pinsFollow_regsOnly _)
  rfl

/-- Power and temperatures as the check of each second shows them. -/
def State.measured (s : State) (watts : Nat) (temps : List Nat) : State :=
  (s.fset F.FLT_GOV_POWER_W 0 (min 4095 watts)).readSensors temps

/-- `n` checks in a row have found the device cool. -/
def State.coolFor (s : State) (n : Nat) : State := { s with gov := { s.gov with coolSeconds := n } }

theorem State.coolFor_fget (s : State) (n : Nat) (f : FRef) (i : Nat) : (s.coolFor n).fget f i = s.fget f i := rfl

theorem State.coolFor_heatOnly (s : State) (n : Nat) : s.HeatOnly (s.coolFor n) := rfl

theorem State.measured_heatOnly (s : State) (watts : Nat) (temps : List Nat) : s.HeatOnly (s.measured watts temps) :=
  ((State.HeatOnly.refl s).regsOnly (s.fset_regsOnly ..)).trans (State.readSensors_heatOnly _ temps)

theorem exec_governorCheck (watts : Nat) (temps : List Nat) (s : State) :
    exec (.governorCheck watts temps) s = .next (s.holdFlash (governorCheck watts temps s)) := rfl

section
variable {s : State} {watts : Nat} {temps : List Nat} (hlit : s.lit = true)
include hlit

theorem governorCheck_hot
    (hhot : (s.measured watts temps).fget F.FLT_CTL_THROTTLE_C ≤ (s.measured watts temps).fget F.FLT_GOV_TEMP_MAX) :
    governorCheck watts temps s = ((s.measured watts temps).coolFor 0).levelFall 1 := by
  rw [governorCheck, if_neg (by simp [hlit])]
  exact if_pos hhot

theorem governorCheck_over
    (hbelow : (s.measured watts temps).fget F.FLT_GOV_TEMP_MAX < (s.measured watts temps).fget F.FLT_CTL_THROTTLE_C)
    (hover : (s.measured watts temps).fget F.FLT_CTL_POWER_CAP_W < watts) :
    governorCheck watts temps s = ((s.measured watts temps).coolFor 0).levelFall 0 := by
  rw [governorCheck, if_neg (by simp [hlit])]
  exact (if_neg (Nat.not_le.mpr hbelow)).trans (if_pos hover)

section
variable (hcool : (s.measured watts temps).fget F.FLT_GOV_TEMP_MAX + 5 < (s.measured watts temps).fget F.FLT_CTL_THROTTLE_C)
  (hless : watts + 50 < (s.measured watts temps).fget F.FLT_CTL_POWER_CAP_W)
include hcool hless

/-- A check that finds both below their limits by the margins counts, until it is the sixth in a row. -/
theorem governorCheck_cool :
    governorCheck watts temps s =
      if (s.measured watts temps).gov.coolSeconds < 5
      then (s.measured watts temps).coolFor ((s.measured watts temps).gov.coolSeconds + 1)
      else if ((s.measured watts temps).coolFor 1).fget F.FLT_GOV_LEVEL < 8
      then ((s.measured watts temps).coolFor 1).levelTo (((s.measured watts temps).coolFor 1).fget F.FLT_GOV_LEVEL + 1) 1
      else (s.measured watts temps).coolFor 1 := by
  rw [governorCheck, if_neg (by simp [hlit])]
  exact (if_neg (by rw [State.measured] at hcool; omega)).trans
    ((if_neg (by rw [State.measured] at hless; omega)).trans (if_pos ⟨hcool, hless⟩))

theorem exec_governorCheck_counts (hfew : (s.measured watts temps).gov.coolSeconds < 5) :
    exec (.governorCheck watts temps) s =
      .next ((s.measured watts temps).coolFor ((s.measured watts temps).gov.coolSeconds + 1)) := by
  rw [exec_governorCheck, governorCheck_cool hlit hcool hless, if_pos hfew,
    ((s.measured_heatOnly watts temps).trans (State.coolFor_heatOnly _ _)).holdFlash]

theorem exec_governorCheck_rises (hsixth : 5 ≤ (s.measured watts temps).gov.coolSeconds)
    (hlevel : (s.measured watts temps).fget F.FLT_GOV_LEVEL < 8) :
    exec (.governorCheck watts temps) s = .next (s.holdFlash
      (((s.measured watts temps).coolFor 1).levelTo ((s.measured watts temps).fget F.FLT_GOV_LEVEL + 1) 1)) := by
  rw [exec_governorCheck, governorCheck_cool hlit hcool hless, if_neg (Nat.not_lt.mpr hsixth), State.coolFor_fget,
    if_pos hlevel]

end

end

/-- Settles O25: the fast check by the level it finds, the check of each second by what its sensors and meter show (that the
report names power as cause 0 is the model's choice, log entry 53). -/
theorem governorSteps : Obligations.GovernorSteps := by
  unfold Obligations.GovernorSteps
  intro s watts hlit
  refine ⟨fun hover habove => ?_, fun hover hlow => gives_governorFastCheck_lowest hlit hover hlow,
    fun hwithin => exec_governorFastCheck_within hwithin, fun temps => ⟨fun hhot => ?_, fun hbelow hover => ?_,
    fun hcool hless => ⟨fun hfew => ?_, fun hsixth hlevel => ?_⟩⟩⟩
  · rw [exec_governorFastCheck_over hlit hover, State.levelFall_above habove]
    rfl
  · rw [exec_governorCheck, governorCheck_hot hlit hhot]
    rfl
  · rw [exec_governorCheck, governorCheck_over hlit hbelow hover]
    rfl
  · exact exec_governorCheck_counts hlit hcool hless hfew
  · exact exec_governorCheck_rises hlit hcool hless hsixth hlevel

end Sys2Proof.Machine

/-!
The checks of a register write in their order (R442): access, then reserved bits and values.
-/
namespace Sys2Proof.Machine
open Sys2Proof

/-- Whether a session with the view may write the field. -/
def FieldDef.acts (keeper : Bool) (f : FieldDef) : Bool := f.view keeper == .rw || f.view keeper == .wo

/-- A word that a register's access denies: the view has no field, or a field without access is written non-zero. -/
def RegDef.Denies (d : RegDef) (keeper : Bool) (w : W64) : Prop :=
  d.closed keeper = true ∨ ∃ f ∈ d.fields, f.view keeper = .na ∧ f.value w ≠ 0

/-- A word that a register's map refuses: a reserved bit is set, a field's range does not hold its value, or the values do
not go together. -/
def RegDef.RefusesWord (d : RegDef) (id : RegId) (keeper : Bool) (w : W64) : Prop :=
  d.reservedBits w ≠ 0 ∨ (∃ f ∈ d.fields, f.acts keeper = true ∧ f.refuses w = true) ∨
    ((∃ f ∈ d.fields, f.acts keeper = true) ∧ jointRefuses id w = true)

section
variable {d : RegDef} {id : RegId} {keeper : Bool} {w : W64}

theorem RegDef.denies_iff :
    (d.closed keeper || d.fields.any (fun f => f.view keeper == .na && f.value w != 0)) = true ↔ d.Denies keeper w := by
  simp only [RegDef.Denies, Bool.or_eq_true, List.any_eq_true, Bool.and_eq_true, beq_iff_eq, bne_iff_ne]

theorem RegDef.refusesWord_iff :
    ((d.reservedBits w != 0) = true ∨
      (d.refuses (FieldDef.acts keeper) w || (d.fields.any (FieldDef.acts keeper) && jointRefuses id w)) = true) ↔
      d.RefusesWord id keeper w := by
  simp only [RegDef.RefusesWord, RegDef.refuses, Bool.or_eq_true, List.any_eq_true, Bool.and_eq_true, bne_iff_ne]

theorem RegDef.writeRefusal_denied (h : d.Denies keeper w) : d.writeRefusal id keeper w = some C.ACCESS_DENIED :=
  if_pos (RegDef.denies_iff.mpr h)

theorem RegDef.writeRefusal_refused (hd : ¬ d.Denies keeper w) (h : d.RefusesWord id keeper w) :
    d.writeRefusal id keeper w =
      some (if (id == .TTH_ROUTE0 || id == .TTH_ROUTE1) = true then C.ROUTE_INVALID else C.VALUE_REFUSED) := by
  refine (if_neg (mt RegDef.denies_iff.mp hd)).trans ?_
  rcases RegDef.refusesWord_iff.mpr h with hreserved | hvalue
  · exact if_pos hreserved
  · split
    · rfl
    · exact if_pos hvalue

theorem RegDef.writeRefusal_none (hd : ¬ d.Denies keeper w) (h : ¬ d.RefusesWord id keeper w) :
    d.writeRefusal id keeper w = none := by
  have hnot := mt RegDef.refusesWord_iff.mp h
  exact (if_neg (mt RegDef.denies_iff.mp hd)).trans
    ((if_neg (fun hr => hnot (.inl hr))).trans (if_neg (fun hv => hnot (.inr hv))))

end

section
variable {keeper : Bool} {a : Nat} {w : W64}

theorem State.writeOne_unmapped (t : State) (h : a % 8 ≠ 0 ∨ locate a = none) :
    t.writeOne keeper a w = ⟨C.REG_UNMAPPED, t, none⟩ := by
  by_cases hal : a % 8 = 0
  · have hnone : locate a = none := h.resolve_left (not_not_intro hal)
    rw [State.writeOne, if_neg (not_not_intro hal), hnone]
  · rw [State.writeOne, if_pos hal]

theorem State.writeOne_refused (t : State) {id : RegId} {i j : Nat} {c : Code} (hal : a % 8 = 0)
    (hloc : locate a = some (id, i, j)) (hw : (regDef id).writeRefusal id keeper w = some c) :
    t.writeOne keeper a w = ⟨c, t, none⟩ := by
  simp [State.writeOne, hal, hloc, hw]

theorem State.writeOne_passed (t : State) {id : RegId} {i j : Nat} (hal : a % 8 = 0) (hloc : locate a = some (id, i, j))
    (hw : (regDef id).writeRefusal id keeper w = none) :
    t.writeOne keeper a w = t.writeAccepted keeper id i j w := by
  simp [State.writeOne, hal, hloc, hw]

end

/-- Settles O8: where the address names a register, each of its checks by what it asks of the word. -/
theorem registerWriteChecks : Obligations.RegisterWriteChecks := by
  unfold Obligations.RegisterWriteChecks
  intro t keeper a w
  refine ⟨t.writeOne_unmapped, fun id i j hal hloc => ?_⟩
  exact ⟨fun hdenied => t.writeOne_refused hal hloc (RegDef.writeRefusal_denied hdenied),
    fun hallowed hrefused => t.writeOne_refused hal hloc (RegDef.writeRefusal_refused hallowed hrefused),
    fun hallowed hgood => t.writeOne_passed hal hloc (RegDef.writeRefusal_none hallowed hgood)⟩

end Sys2Proof.Machine

/-!
A write of one register of the device's own blocks, by a session of either role, and the fuse commands (R390, R391, R442,
R457).
-/
namespace Sys2Proof.Machine
open Sys2Proof

/-! ### The write of a register that acts in bivouac mode too, or in LIT -/

/-- Only registers, fuses, quotes, units and the fault log may differ. -/
def State.OwnOnly (s t : State) : Prop :=
  t = { s with regs := t.regs, fuses := t.fuses, trust := t.trust, units := t.units, flog := t.flog }

/-- In `u` the write of message `h`, which had left `v`, is answered last of all with `c`; what registers, fuses, quotes,
units and the fault log do not hold is as it was in `s`. -/
structure WriteAnswered (s v u : State) (h : Hdr) (z : Session) (c : Code) (body : List Byte) : Prop where
  regs : u.regs = v.regs
  fuses : u.fuses = v.fuses
  trust : u.trust = v.trust
  units : u.units = v.units
  flog : u.flog = v.flog
  pending : u.pending = s.pending
  mem : u.mem = s.mem
  core : u.core = s.core
  flash : u.flash = s.flash
  image : u.image = s.image
  runs : RunsKept s u
  responds : Responds (s.taken h 24 z) u h tyWriteReg c body

namespace WriteAnswered
variable {s v u : State} {h : Hdr} {z : Session} {c : Code} {body : List Byte} (hu : WriteAnswered s v u h z c body)
include hu

theorem holdQueue : s.holdQueue u = u := by
  rw [State.holdQueue, ← hu.pending]

theorem holdData (hfuses : v.fuses = s.fuses) : s.holdData u = u :=
  State.holdData_self hu.pending (hu.fuses.trans hfuses) hu.flash hu.mem hu.core hu.image

theorem stores (hfuses : v.fuses = s.fuses) : StoresKept s u :=
  ⟨hu.mem, hu.core, hu.fuses.trans hfuses, hu.flash, hu.image⟩

theorem fget (f : FRef) (i : Nat) : u.fget f i = v.fget f i := by
  simp only [State.fget, State.fget2, State.raw, hu.regs]

theorem regsKept {l : List Nat} (hkept : RegsKept s v l) : RegsKept s u l := by
  intro id i j haddr
  rw [State.raw, hu.regs]
  exact hkept id i j haddr

end WriteAnswered

section
variable {s v : State} {h : Hdr} {z : Session} (ha : Accepted s h z) {c : Code} {body : List Byte}
include ha

theorem accepted_ownWritten (hv : (s.taken h 24 z).OwnOnly v) :
    WriteAnswered s v (v.respond h.session tyWriteReg h.seq c body) h z c body := by
  have hp := s.taken_portOnly h 24 z
  have hsession : v.session? h.session = some (s.holder h 24 z) := by
    rw [hv]
    exact accepted_taken_session? ha 24
  obtain ⟨-, ⟨hmem, hcore, -, hflash, himage⟩, hruns, hwork, hdisp, hdescs, hpat⟩ := hp.kept
  have hkept : v.pending = s.pending ∧ v.mem = s.mem ∧ v.core = s.core ∧ v.flash = s.flash ∧ v.image = s.image ∧
      RunsKept s v := by
    rw [hv]
    exact ⟨hp.pending, hmem, hcore, hflash, himage, hruns, hwork, hdisp, hdescs, hpat⟩
  obtain ⟨vpending, vmem, vcore, vflash, vimage, vruns, vwork, vdisp, vdescs, vpat⟩ := hkept
  exact
    { regs := State.respond_regs .., fuses := State.respond_fuses .., trust := State.respond_trust ..
      units := State.respond_units .., flog := State.respond_flog ..
      pending := (State.respond_pending ..).trans vpending, mem := (State.respond_mem ..).trans vmem
      core := (State.respond_core ..).trans vcore, flash := (State.respond_flash ..).trans vflash
      image := (State.respond_image ..).trans vimage
      runs := ⟨(State.respond_runs ..).trans vruns, (State.respond_work ..).trans vwork, (State.respond_disp ..).trans vdisp,
        (State.respond_runDescs ..).trans vdescs, (State.respond_pat ..).trans vpat⟩
      responds := ⟨_, _, (State.respond_outbox hsession ..).trans (by rw [hv])⟩ }

/-- The write of a register that passes the checks of R442 for the session's view is answered with the code it comes to. -/
theorem accepted_write {id : RegId} {i j : Nat} {w : W64} {k : Bool} (hrole : (z.role == .keeper) = k)
    (hloc : Located id i j) (hw : (regDef id).writeRefusal id k w = none)
    (hwrite : (s.taken h 24 z).writeAccepted k id i j w = ⟨c, v, none⟩) (hbody : natLe 4 (b2n (c == C.OK)) ++ zeros 4 = body)
    (hv : (s.taken h 24 z).OwnOnly v) :
    WriteAnswered s v ((s.odrenIn h.relayed 24 true).writeNamed h id i j w) h z c body := by
  have hp : (s.odrenIn h.relayed 24 true).PortOnly (s.taken h 24 z) :=
    (State.hear_portOnly _ h z).trans (State.putSession_portOnly _ _)
  obtain ⟨-, -, hsame, -⟩ := accepted_holder ha 24
  have ⟨_, _, _, _, _, hshape⟩ := ha
  have haddr : (BitVec.ofNat 64 (regAddr id i j)).toNat = regAddr id i j := Nat.mod_eq_of_lt hloc.bounded
  have hview : ((s.holder h 24 z).role == .keeper) = k := by rw [hsame, hrole]
  have heq : (s.odrenIn h.relayed 24 true).writeNamed h id i j w = v.respond h.session tyWriteReg h.seq c body := by
    rw [State.writeNamed, State.writeCommand_one (accepted_receive ha 24 tyWriteReg) hshape]
    simp only [hp.sameFuses, haddr, hview, State.writeOne_passed _ hloc.aligned hloc.found hw, hwrite, State.writeAnswer, hbody]
    exact (State.respond_portOnly ..).sameFuses
  rw [heq]
  exact accepted_ownWritten ha hv

end

/-- A write of a plain register whose block acts: the word, then what follows it. -/
theorem State.writeAccepted_acts {s v : State} {k : Bool} {id : RegId} {i j : Nat} {w old new : W64} {c : Code}
    (hacts : (regDef id).fields.any (fun f => f.view k == .rw || f.view k == .wo || f.view k == .w1c) = true)
    (hpage : s.pageGone id i = false) (hserves : (s.power.state == .bivouac && !bivouacActs id) = false)
    (hplain : id ≠ .TTH_ROUTE0 ∧ id ≠ .TTH_ROUTE1 ∧ id ≠ .PWS_REQUEST)
    (hold : s.raw id i j = old) (hnew : (regDef id).written k old w = new)
    (hrefusal : s.actionRefusal id old new w = none) (hact : (s.setRaw id i j new).act id i j old w = (c, v)) :
    s.writeAccepted k id i j w = ⟨c, v, none⟩ := by
  obtain ⟨h0, h1, hpws⟩ := hplain
  have hroute := s.routeRefused_plain i new h0 h1
  simp only [State.writeAccepted, hold, hnew, hacts, hpage, hserves, hroute, hrefusal, hact]
  simp [h0, h1, hpws]

/-! ### COMMIT -/

theorem exec_rollbackCommit (h : Hdr) (s : State) : exec (.rollbackCommit h) s = .next (s.holdQueue
    ((s.odrenIn h.relayed 24 true).writeNamed h .PCH_ROLLBACK 0 0 (put 0 F.PCH_ROLLBACK_COMMIT 1))) := rfl

theorem located_rollback : Located .PCH_ROLLBACK 0 0 := ⟨by decide, by decide, by decide⟩

theorem State.writeAccepted_rollback {t : State} {im : Image} (him : t.image = some im) :
    ∃ new, t.writeAccepted true .PCH_ROLLBACK 0 0 (put 0 F.PCH_ROLLBACK_COMMIT 1) =
      ⟨C.OK, { t.setRaw .PCH_ROLLBACK 0 0 new with fuses := t.fuses.commit im.man }, none⟩ := by
  refine ⟨(regDef .PCH_ROLLBACK).written true (t.raw .PCH_ROLLBACK 0 0) (put 0 F.PCH_ROLLBACK_COMMIT 1),
    State.writeAccepted_acts (by decide) rfl (by simp [show bivouacActs .PCH_ROLLBACK = true by decide]) (by decide) rfl rfl rfl ?_⟩
  have hbit : bitAt (put 0 F.PCH_ROLLBACK_COMMIT 1).toNat 0 = true := by decide
  simp only [State.act, hbit, if_true, State.commitRollback, State.setRaw_image, him, State.setRaw_fuses]

theorem gives_rollbackCommit {s : State} {h : Hdr} {z : Session} (ha : Accepted s h z) (hkeeper : z.role = .keeper)
    {im : Image} (him : s.image = some im) :
    Gives (.rollbackCommit h) s (fun u => u.fuses = s.fuses.commit im.man ∧ u.mem = s.mem ∧ u.flash = s.flash ∧
      RunsKept s u) := by
  have hp := s.taken_portOnly h 24 z
  obtain ⟨new, hwrite⟩ := State.writeAccepted_rollback (hp.image.trans him)
  have hu := accepted_write (k := true) (body := natLe 4 1 ++ zeros 4) ha (by rw [hkeeper]; rfl) located_rollback (by decide)
    hwrite rfl rfl
  refine ⟨_, exec_rollbackCommit h s, ?_⟩
  rw [hu.holdQueue]
  exact ⟨hu.fuses.trans (congrArg (Fuses.commit · im.man) hp.fuses), hu.mem, hu.flash, hu.runs⟩

/-! ### ENROLL and REVOKE -/

theorem located_enrollCmd : Located .PCH_ENROLL_CMD 0 0 := ⟨by decide, by decide, by decide⟩

/-- The word that asks for a position's enrolment or revocation. -/
def fuseWord (p : Fin 4) (f : FRef) : W64 := put (put 0 F.PCH_ENROLL_CMD_POSITION p.val) f 1

theorem exec_enroll (h : Hdr) (p : Fin 4) (s : State) : exec (.enroll h p) s = .next (s.holdQueue
    ((s.odrenIn h.relayed 24 true).writeNamed h .PCH_ENROLL_CMD 0 0 (fuseWord p F.PCH_ENROLL_CMD_ENROLL))) := rfl

theorem exec_revoke (h : Hdr) (p : Fin 4) (s : State) : exec (.revoke h p) s = .next (s.holdQueue
    ((s.odrenIn h.relayed 24 true).writeNamed h .PCH_ENROLL_CMD 0 0 (fuseWord p F.PCH_ENROLL_CMD_REVOKE))) := rfl

/-- A word of PCH_ENROLL_CMD that passes the checks of R442 comes to its fuse command. -/
theorem State.writeAccepted_enrollCmd (t : State) {p : Nat} {w : W64} {enroll revoke : Bool} (hp : bitsOf w.toNat 1 0 = p)
    (he : bitAt w.toNat 8 = enroll) (hr : bitAt w.toNat 9 = revoke) :
    ∃ new, t.writeAccepted true .PCH_ENROLL_CMD 0 0 w =
      ⟨((t.setRaw .PCH_ENROLL_CMD 0 0 new).fuseCommand p enroll revoke).1,
        ((t.setRaw .PCH_ENROLL_CMD 0 0 new).fuseCommand p enroll revoke).2, none⟩ := by
  refine ⟨(regDef .PCH_ENROLL_CMD).written true (t.raw .PCH_ENROLL_CMD 0 0) w,
    State.writeAccepted_acts (by decide) rfl (by simp [show bivouacActs .PCH_ENROLL_CMD = true by decide]) (by decide) rfl rfl rfl ?_⟩
  simp only [State.act, hp, he, hr]

/-- What the words of ENROLL and REVOKE ask for. -/
theorem fuseWord_fields (p : Fin 4) :
    (bitsOf (fuseWord p F.PCH_ENROLL_CMD_ENROLL).toNat 1 0 = p ∧ bitAt (fuseWord p F.PCH_ENROLL_CMD_ENROLL).toNat 8 = true ∧
      bitAt (fuseWord p F.PCH_ENROLL_CMD_ENROLL).toNat 9 = false) ∧
    (bitsOf (fuseWord p F.PCH_ENROLL_CMD_REVOKE).toNat 1 0 = p ∧ bitAt (fuseWord p F.PCH_ENROLL_CMD_REVOKE).toNat 8 = false ∧
      bitAt (fuseWord p F.PCH_ENROLL_CMD_REVOKE).toNat 9 = true) := by
  revert p
  decide

theorem fuseWord_allowed (p : Fin 4) :
    (regDef .PCH_ENROLL_CMD).writeRefusal .PCH_ENROLL_CMD true (fuseWord p F.PCH_ENROLL_CMD_ENROLL) = none ∧
    (regDef .PCH_ENROLL_CMD).writeRefusal .PCH_ENROLL_CMD true (fuseWord p F.PCH_ENROLL_CMD_REVOKE) = none := by
  revert p
  decide

section
variable {s : State} {p : Nat}

theorem State.fuseCommand_refused {enroll revoke : Bool} (h : s.fuseRefused p enroll revoke = true) :
    s.fuseCommand p enroll revoke = (C.FUSE_REFUSED, s) := if_pos h

theorem State.fuseCommand_enrolls (h : s.fuseRefused p true false = false) :
    s.fuseCommand p true false = (C.OK, { s with fuses := s.fuses.enroll p s.stagedDigest }) := by
  simp [State.fuseCommand, h]

theorem State.fuseCommand_revokes (h : s.fuseRefused p false true = false) :
    s.fuseCommand p false true = (C.OK, { s with fuses := s.fuses.revoke p }) := by
  simp [State.fuseCommand, h]

theorem State.fuseCommand_ownOnly (s : State) (p : Nat) (enroll revoke : Bool) :
    s.OwnOnly (s.fuseCommand p enroll revoke).2 := by
  simp only [State.fuseCommand]
  split <;> rfl

theorem State.fuseRefused_enroll : s.fuseRefused p true false = (s.fuses.owners.getD p none).isSome := by
  simp [State.fuseRefused]

/-- A revocation is refused to the last live position and to the one that signed the image in force. -/
theorem State.fuseRefused_revoke : s.fuseRefused p false true = true ↔
    s.fuses.live = [p] ∨ ∃ im, s.image = some im ∧ im.man.owner = true ∧ im.man.signer = p := by
  cases him : s.image with
  | none => simp [State.fuseRefused, him]
  | some im => simp [State.fuseRefused, him]

end

theorem fuseRefused_body : natLe 4 (b2n (C.FUSE_REFUSED == C.OK)) ++ zeros 4 = zeros 8 := by decide

/-- The staged digest stands in registers of its own. -/
theorem State.stagedDigest_setRaw (s : State) (w : W64) : (s.setRaw .PCH_ENROLL_CMD 0 0 w).stagedDigest = s.stagedDigest := by
  have hne : ∀ i ∈ List.range 8, regAddr .PCH_ENROLL_DIGEST i 0 ≠ regAddr .PCH_ENROLL_CMD 0 0 := by decide
  refine congrArg List.flatten (List.map_congr_left fun i hi => ?_)
  rw [State.raw_setRaw_ne _ _ _ _ _ _ _ _ (hne i hi)]

section
variable {s : State} {h : Hdr} {z : Session} (ha : Accepted s h z) (hkeeper : z.role = .keeper)
include ha hkeeper

/-- A Keeper's write of PCH_ENROLL_CMD comes to a fuse command on the fuses, the image and the staged digest of `s`. -/
theorem accepted_fuseCommand {w : W64} {p : Nat} {enroll revoke : Bool}
    (hfields : bitsOf w.toNat 1 0 = p ∧ bitAt w.toNat 8 = enroll ∧ bitAt w.toNat 9 = revoke)
    (hw : (regDef .PCH_ENROLL_CMD).writeRefusal .PCH_ENROLL_CMD true w = none) :
    ∃ t : State, t.fuses = s.fuses ∧ t.image = s.image ∧ t.stagedDigest = (s.taken h 24 z).stagedDigest ∧
      WriteAnswered s (t.fuseCommand p enroll revoke).2 ((s.odrenIn h.relayed 24 true).writeNamed h .PCH_ENROLL_CMD 0 0 w) h z
        (t.fuseCommand p enroll revoke).1 (natLe 4 (b2n ((t.fuseCommand p enroll revoke).1 == C.OK)) ++ zeros 4) := by
  have hp := s.taken_portOnly h 24 z
  obtain ⟨hposition, he, hr⟩ := hfields
  obtain ⟨new, hwrite⟩ := (s.taken h 24 z).writeAccepted_enrollCmd hposition he hr
  have hown : (s.taken h 24 z).OwnOnly (((s.taken h 24 z).setRaw .PCH_ENROLL_CMD 0 0 new).fuseCommand p enroll revoke).2 := by
    rw [State.OwnOnly, State.fuseCommand_ownOnly]
    rfl
  exact ⟨(s.taken h 24 z).setRaw .PCH_ENROLL_CMD 0 0 new, hp.fuses, hp.image, State.stagedDigest_setRaw _ new,
    accepted_write (k := true) ha (by rw [hkeeper]; rfl) located_enrollCmd hw hwrite rfl hown⟩

theorem gives_enroll_burns {p : Fin 4} (hempty : s.fuses.owners.getD p none = none) :
    Gives (.enroll h p) s (fun u => u.fuses = s.fuses.enroll p (s.taken h 24 z).stagedDigest ∧ u.mem = s.mem ∧
      u.flash = s.flash ∧ RunsKept s u ∧ Responds (s.taken h 24 z) u h tyWriteReg C.OK (natLe 4 1 ++ zeros 4)) := by
  obtain ⟨t, hfuses, -, hdigest, hu⟩ := accepted_fuseCommand ha hkeeper (fuseWord_fields p).1 (fuseWord_allowed p).1
  have hgo : t.fuseRefused p true false = false := by rw [State.fuseRefused_enroll, hfuses, hempty]; rfl
  rw [State.fuseCommand_enrolls hgo] at hu
  refine ⟨_, exec_enroll h p s, ?_⟩
  rw [hu.holdQueue, ← hdigest, ← hfuses]
  exact ⟨hu.fuses, hu.mem, hu.flash, hu.runs, hu.responds⟩

theorem gives_enroll_refused {p : Fin 4} (hfull : (s.fuses.owners.getD p none).isSome = true) :
    Gives (.enroll h p) s (fun u => u.fuses = s.fuses ∧ u.mem = s.mem ∧ u.flash = s.flash ∧ RunsKept s u ∧
      Responds (s.taken h 24 z) u h tyWriteReg C.FUSE_REFUSED (zeros 8)) := by
  obtain ⟨t, hfuses, -, -, hu⟩ := accepted_fuseCommand ha hkeeper (fuseWord_fields p).1 (fuseWord_allowed p).1
  rw [State.fuseCommand_refused (by rw [State.fuseRefused_enroll, hfuses, hfull])] at hu
  refine ⟨_, exec_enroll h p s, ?_⟩
  rw [hu.holdQueue]
  exact ⟨hu.fuses.trans hfuses, hu.mem, hu.flash, hu.runs, fuseRefused_body ▸ hu.responds⟩

theorem gives_revoke_burns {p : Fin 4} (hlive : s.fuses.live ≠ [p.val])
    (hsigned : ∀ im, s.image = some im → im.man.owner = false ∨ im.man.signer ≠ p.val) :
    Gives (.revoke h p) s (fun u => u.fuses = s.fuses.revoke p ∧ u.mem = s.mem ∧ u.flash = s.flash ∧ RunsKept s u ∧
      Responds (s.taken h 24 z) u h tyWriteReg C.OK (natLe 4 1 ++ zeros 4)) := by
  obtain ⟨t, hfuses, himage, -, hu⟩ := accepted_fuseCommand ha hkeeper (fuseWord_fields p).2 (fuseWord_allowed p).2
  have hgo : t.fuseRefused p false true = false := by
    rw [← Bool.not_eq_true, State.fuseRefused_revoke, hfuses, himage]
    rintro (h | ⟨im, him, howner, hsigner⟩)
    · exact hlive h
    · rcases hsigned im him with hno | hother
      · rw [hno] at howner
        cases howner
      · exact hother hsigner
  rw [State.fuseCommand_revokes hgo] at hu
  refine ⟨_, exec_revoke h p s, ?_⟩
  rw [hu.holdQueue, ← hfuses]
  exact ⟨hu.fuses, hu.mem, hu.flash, hu.runs, hu.responds⟩

theorem gives_revoke_refused {p : Fin 4}
    (hbarred : s.fuses.live = [p.val] ∨ ∃ im, s.image = some im ∧ im.man.owner = true ∧ im.man.signer = p.val) :
    Gives (.revoke h p) s (fun u => u.fuses = s.fuses ∧ u.mem = s.mem ∧ u.flash = s.flash ∧ RunsKept s u ∧
      Responds (s.taken h 24 z) u h tyWriteReg C.FUSE_REFUSED (zeros 8)) := by
  obtain ⟨t, hfuses, himage, -, hu⟩ := accepted_fuseCommand ha hkeeper (fuseWord_fields p).2 (fuseWord_allowed p).2
  rw [State.fuseCommand_refused (State.fuseRefused_revoke.mpr (by rwa [hfuses, himage]))] at hu
  refine ⟨_, exec_revoke h p s, ?_⟩
  rw [hu.holdQueue]
  exact ⟨hu.fuses.trans hfuses, hu.mem, hu.flash, hu.runs, fuseRefused_body ▸ hu.responds⟩

end

/-! ### ENROLL_FIRST -/

theorem exec_enrollFirst (position : Nat) (digest : List Byte) (s : State) :
    exec (.enrollFirst position digest) s = .next (s.holdQueue (enrollFirst position digest s)) := rfl

theorem fitTo_self (l : List Byte) : fitTo l.length l = l := by
  simp [fitTo, zeros]

section
variable {s : State} {position : Nat} {digest : List Byte} (hbus : s.onBus = true)
include hbus

theorem enrollFirst_enrols (hlen : digest.length = 64) (hpin : s.flag F.MOD_PINS_ENROLL_EN = true)
    (hblank : s.fuses.enrolled = false) (hposition : position < 4) :
    enrollFirst position digest s =
      ({ s with fuses := s.fuses.enroll position digest } : State).mgmtAnswer C.OK [] := by
  simp only [enrollFirst, hbus, hpin, hblank, hposition, ← hlen, fitTo_self]
  rfl

theorem enrollFirst_refused
    (hno : s.flag F.MOD_PINS_ENROLL_EN = false ∨ s.fuses.enrolled = true ∨ 4 ≤ position) :
    enrollFirst position digest s = s.mgmtAnswer C.MGMT_REFUSED [] := by
  have hnot : (s.flag F.MOD_PINS_ENROLL_EN && !s.fuses.enrolled && decide (position < 4)) = false := by
    rcases hno with h | h | h
    · simp [h]
    · simp [h]
    · simp [Nat.not_lt.mpr h]
  simp only [enrollFirst, hbus, hnot]
  rfl

end

/-- Settles O37: each command's write by what its register's rule asks of the fuses, and the module's own enrolment. -/
theorem fuseCommands : Obligations.FuseCommands := by
  unfold Obligations.FuseCommands
  intro s h
  refine ⟨fun z ha hkeeper => ⟨fun im => gives_rollbackCommit ha hkeeper, fun p => ⟨gives_enroll_burns ha hkeeper,
    gives_enroll_refused ha hkeeper, gives_revoke_burns ha hkeeper, gives_revoke_refused ha hkeeper⟩⟩,
    fun position digest hbus hlen => ⟨fun hpin hblank hposition => ?_, fun hno => ?_⟩⟩
  · rw [exec_enrollFirst, enrollFirst_enrols hbus hlen hpin hblank hposition]
    rfl
  · rw [exec_enrollFirst, enrollFirst_refused hbus hno]
    rfl

end Sys2Proof.Machine

/-!
Quotes and the certificate window (R399, R400).
-/
namespace Sys2Proof.Machine
open Sys2Proof

/-! ### Registers that a write keeps -/

section
variable {s t : State} {l : List Nat} (h : RegsKept s t l)
include h

theorem regsKept_setRaw {id : RegId} {i j : Nat} (hl : regAddr id i j ∈ l) (w : W64) : RegsKept s (t.setRaw id i j w) l := by
  intro id' i' j' haddr
  have hne : regAddr id' i' j' ≠ regAddr id i j := fun e => haddr (e ▸ hl)
  exact (t.raw_setRaw_ne id id' i j i' j' w hne).trans (h id' i' j' haddr)

theorem regsKept_fset {f : FRef} {i : Nat} (hl : regAddr f.reg i 0 ∈ l) (x : Nat) : RegsKept s (t.fset f i x) l :=
  regsKept_setRaw h hl _

end

/-- A field of one bit is set where the bit of its register is. -/
theorem State.flag_eq_getLsbD (s : State) {f : FRef} (hf : f.msb = f.lsb) (i : Nat) :
    s.flag f i = (s.raw f.reg i 0).getLsbD f.lsb := by
  simp [State.flag, State.fget, State.fget2, bitsOf, hf, BitVec.getLsbD, Nat.testBit]

/-! ### GO -/

theorem located_quoteCtl : Located .PCH_QUOTE_CTL 0 0 := ⟨by decide, by decide, by decide⟩

theorem State.quoteGoes_ownOnly (s : State) : s.OwnOnly s.quoteGoes ∧ s.quoteGoes.fuses = s.fuses := by
  simp only [State.quoteGoes]
  split <;> exact ⟨rfl, rfl⟩

theorem State.quoteGoes_regsKept (s : State) : RegsKept s s.quoteGoes [regAddr .PCH_QUOTE_CTL 0 0] := by
  have hmem : regAddr .PCH_QUOTE_CTL 0 0 ∈ [regAddr .PCH_QUOTE_CTL 0 0] := List.mem_singleton_self _
  have hset (t : State) (ht : RegsKept s t [regAddr .PCH_QUOTE_CTL 0 0]) (a b : Nat) :
      RegsKept s ((t.fset F.PCH_QUOTE_CTL_READY 0 a).fset F.PCH_QUOTE_CTL_LENGTH 0 b) [regAddr .PCH_QUOTE_CTL 0 0] :=
    regsKept_fset (f := F.PCH_QUOTE_CTL_LENGTH) (regsKept_fset (f := F.PCH_QUOTE_CTL_READY) ht hmem a) hmem b
  simp only [State.quoteGoes]
  split
  · exact hset { s with trust := ⟨false, s.flash.certificate⟩ } (fun _ _ _ _ => rfl) _ _
  · exact hset { s with trust := ⟨true, []⟩ } (fun _ _ _ _ => rfl) _ _

/-- The window after READY and LENGTH are set. -/
theorem State.window_set {s : State} (hord : RegsOrdered s) (ready length : Nat) :
    let t := (s.fset F.PCH_QUOTE_CTL_READY 0 ready).fset F.PCH_QUOTE_CTL_LENGTH 0 length
    t.fget F.PCH_QUOTE_CTL_READY = ready % 2 ∧ t.fget F.PCH_QUOTE_CTL_LENGTH = length % 65536 := by
  have hready := s.fget2_fset2_same F.PCH_QUOTE_CTL_READY 0 0 ready (by decide) hord
  have hord' := s.fset_rising F.PCH_QUOTE_CTL_READY 0 ready hord
  exact ⟨((s.fset F.PCH_QUOTE_CTL_READY 0 ready).fget2_fset2_beside F.PCH_QUOTE_CTL_LENGTH F.PCH_QUOTE_CTL_READY 0 0 length rfl
    (by decide) (by decide) hord').trans hready,
    (s.fset F.PCH_QUOTE_CTL_READY 0 ready).fget2_fset2_same F.PCH_QUOTE_CTL_LENGTH 0 0 length (by decide) hord'⟩

section
variable {s : State} (hord : RegsOrdered s)
include hord

theorem State.quoteGoes_begins (hselect : s.flag F.PCH_QUOTE_CTL_SELECT = false) :
    s.quoteGoes.trust = ⟨true, []⟩ ∧ s.quoteGoes.fget F.PCH_QUOTE_CTL_READY = 0 ∧
      s.quoteGoes.fget F.PCH_QUOTE_CTL_LENGTH = 0 := by
  have hgo : s.quoteGoes = (({ s with trust := ⟨true, []⟩ } : State).fset F.PCH_QUOTE_CTL_READY 0 0).fset
      F.PCH_QUOTE_CTL_LENGTH 0 0 := by
    simp [State.quoteGoes, hselect]
  rw [hgo]
  exact ⟨rfl, State.window_set (s := { s with trust := ⟨true, []⟩ }) hord 0 0⟩

theorem State.quoteGoes_certificate (hselect : s.flag F.PCH_QUOTE_CTL_SELECT = true) :
    s.quoteGoes.trust = ⟨false, s.flash.certificate⟩ ∧ s.quoteGoes.fget F.PCH_QUOTE_CTL_READY = 1 ∧
      s.quoteGoes.fget F.PCH_QUOTE_CTL_LENGTH = min 4096 s.flash.certificate.length := by
  have hgo : s.quoteGoes = (({ s with trust := ⟨false, s.flash.certificate⟩ } : State).fset F.PCH_QUOTE_CTL_READY 0 1).fset
      F.PCH_QUOTE_CTL_LENGTH 0 (min 4096 s.flash.certificate.length) := by
    simp [State.quoteGoes, hselect]
  obtain ⟨hready, hlength⟩ := State.window_set (s := { s with trust := ⟨false, s.flash.certificate⟩ }) hord 1
    (min 4096 s.flash.certificate.length)
  rw [hgo]
  exact ⟨rfl, hready, hlength.trans (Nat.mod_eq_of_lt (by omega))⟩

end

/-- SELECT stands as it was written: both views may write it. -/
theorem written_quoteSelect (k : Bool) (old w : W64) :
    ((regDef .PCH_QUOTE_CTL).written k old w).getLsbD 1 = w.getLsbD 1 := by
  have hrw : (regDef .PCH_QUOTE_CTL).maskOf (fun f => f.view k == .rw) = 2 := by revert k; decide
  have hw1c : (regDef .PCH_QUOTE_CTL).maskOf (fun f => f.view k == .w1c) = 0 := by revert k; decide
  simp [RegDef.written, hrw, hw1c]

theorem State.writeAccepted_quoteCtl (t : State) (k : Bool) {w : W64} (hgo : bitAt w.toNat 0 = true) :
    t.writeAccepted k .PCH_QUOTE_CTL 0 0 w =
      ⟨C.OK, (t.setRaw .PCH_QUOTE_CTL 0 0 ((regDef .PCH_QUOTE_CTL).written k (t.raw .PCH_QUOTE_CTL 0 0) w)).quoteGoes, none⟩ := by
  refine State.writeAccepted_acts (by revert k; decide) rfl (by simp [show bivouacActs .PCH_QUOTE_CTL = true by decide])
    (by decide) rfl rfl rfl ?_
  generalize (regDef .PCH_QUOTE_CTL).written k (t.raw .PCH_QUOTE_CTL 0 0) w = new
  have hfuses := (t.setRaw .PCH_QUOTE_CTL 0 0 new).quoteGoes_ownOnly.2
  simp only [State.act, State.actUnits, State.actDevice, hgo, if_true, State.sameFuses, ← hfuses]

theorem exec_quoteGo (h : Hdr) (s : State) : exec (.quoteGo h) s = .next (s.holdData
    ((s.odrenIn h.relayed 24 true).writeNamed h .PCH_QUOTE_CTL 0 0 (put 0 F.PCH_QUOTE_CTL_GO 1))) := rfl

theorem exec_certificateLoad (h : Hdr) (s : State) : exec (.certificateLoad h) s = .next (s.holdData
    ((s.odrenIn h.relayed 24 true).writeNamed h .PCH_QUOTE_CTL 0 0
      (put (put 0 F.PCH_QUOTE_CTL_GO 1) F.PCH_QUOTE_CTL_SELECT 1))) := rfl

/-- A session's write of PCH_QUOTE_CTL with GO set: `quoteGoes` once SELECT stands as written. -/
theorem accepted_quoteCtl {s : State} {h : Hdr} {z : Session} (ha : Accepted s h z) {w : W64} (hgo : bitAt w.toNat 0 = true)
    (hw : ∀ k, (regDef .PCH_QUOTE_CTL).writeRefusal .PCH_QUOTE_CTL k w = none) :
    ∃ t : State, t.fuses = s.fuses ∧ t.flash = s.flash ∧ RegsKept s t.quoteGoes [regAddr .PCH_QUOTE_CTL 0 0] ∧
      (RegsOrdered s → RegsOrdered t ∧ t.flag F.PCH_QUOTE_CTL_SELECT = w.getLsbD 1) ∧
      WriteAnswered s t.quoteGoes ((s.odrenIn h.relayed 24 true).writeNamed h .PCH_QUOTE_CTL 0 0 w) h z C.OK
        (natLe 4 1 ++ zeros 4) := by
  have hp := s.taken_portOnly h 24 z
  have hwrite := (s.taken h 24 z).writeAccepted_quoteCtl (z.role == .keeper) hgo
  have hselect := written_quoteSelect (z.role == .keeper) ((s.taken h 24 z).raw .PCH_QUOTE_CTL 0 0) w
  generalize (regDef .PCH_QUOTE_CTL).written _ _ w = new at hwrite hselect
  have hown : (s.taken h 24 z).OwnOnly ((s.taken h 24 z).setRaw .PCH_QUOTE_CTL 0 0 new).quoteGoes := by
    rw [State.OwnOnly, (State.quoteGoes_ownOnly _).1]
    rfl
  have hkept : RegsKept s ((s.taken h 24 z).setRaw .PCH_QUOTE_CTL 0 0 new) [regAddr .PCH_QUOTE_CTL 0 0] :=
    regsKept_setRaw (fun id i j _ => hp.raw id i j) (List.mem_singleton_self _) new
  refine ⟨(s.taken h 24 z).setRaw .PCH_QUOTE_CTL 0 0 new, hp.fuses, hp.flash, fun id i j haddr => ?_, fun hord => ?_,
    accepted_write ha rfl located_quoteCtl (hw _) hwrite rfl hown⟩
  · exact (State.quoteGoes_regsKept _ id i j haddr).trans (hkept id i j haddr)
  · have hord' : RegsOrdered (s.taken h 24 z) := by rw [RegsOrdered, hp.regs]; exact hord
    refine ⟨State.setRaw_rising _ _ _ _ _ hord', ?_⟩
    rw [State.flag_eq_getLsbD _ rfl]
    exact (congrArg (·.getLsbD 1) (State.raw_setRaw_same _ _ _ _ _ hord')).trans hselect

section
variable {s : State} {h : Hdr} {z : Session} (ha : Accepted s h z)
include ha

theorem gives_quoteGo :
    Gives (.quoteGo h) s (fun u =>
      (RegsOrdered s → u.trust = ⟨true, []⟩ ∧ u.fget F.PCH_QUOTE_CTL_READY = 0 ∧ u.fget F.PCH_QUOTE_CTL_LENGTH = 0) ∧
      RegsKept s u [regAddr .PCH_QUOTE_CTL 0 0] ∧ Responds (s.taken h 24 z) u h tyWriteReg C.OK (natLe 4 1 ++ zeros 4) ∧
      StoresKept s u ∧ RunsKept s u) := by
  obtain ⟨t, hfuses, hflash, hkept, hset, hu⟩ := accepted_quoteCtl ha (w := put 0 F.PCH_QUOTE_CTL_GO 1) (by decide) (by decide)
  have hsame := (State.quoteGoes_ownOnly t).2.trans hfuses
  refine ⟨_, exec_quoteGo h s, ?_⟩
  rw [hu.holdData hsame]
  refine ⟨fun hord => ?_, hu.regsKept hkept, hu.responds, hu.stores hsame, hu.runs⟩
  obtain ⟨hord', hselect⟩ := hset hord
  rw [hu.trust, hu.fget, hu.fget]
  exact State.quoteGoes_begins hord' (hselect.trans (by decide))

theorem gives_certificateLoad :
    Gives (.certificateLoad h) s (fun u => RegsKept s u [regAddr .PCH_QUOTE_CTL 0 0] ∧
      (RegsOrdered s → u.trust = ⟨false, s.flash.certificate⟩ ∧ u.fget F.PCH_QUOTE_CTL_READY = 1 ∧
        u.fget F.PCH_QUOTE_CTL_LENGTH = min 4096 s.flash.certificate.length) ∧
      Responds (s.taken h 24 z) u h tyWriteReg C.OK (natLe 4 1 ++ zeros 4) ∧ StoresKept s u ∧ RunsKept s u) := by
  obtain ⟨t, hfuses, hflash, hkept, hset, hu⟩ := accepted_quoteCtl ha
    (w := put (put 0 F.PCH_QUOTE_CTL_GO 1) F.PCH_QUOTE_CTL_SELECT 1) (by decide) (by decide)
  have hsame := (State.quoteGoes_ownOnly t).2.trans hfuses
  refine ⟨_, exec_certificateLoad h s, ?_⟩
  rw [hu.holdData hsame]
  refine ⟨hu.regsKept hkept, fun hord => ?_, hu.responds, hu.stores hsame, hu.runs⟩
  obtain ⟨hord', hselect⟩ := hset hord
  rw [hu.trust, hu.fget, hu.fget, ← hflash]
  exact State.quoteGoes_certificate hord' (hselect.trans (by decide))

end

/-! ### QUOTE_READY -/

theorem length_natLe (n v : Nat) : (natLe n v).length = n := by
  induction n generalizing v with
  | zero => rfl
  | succ n ih => rw [natLe, List.length_cons, ih]

theorem length_zeros (n : Nat) : (zeros n).length = n := List.length_replicate

theorem length_fitTo (n : Nat) (l : List Byte) : (fitTo n l).length = n := by
  rw [fitTo, List.length_append, length_zeros, List.length_take]
  omega

theorem State.nonce_length (s : State) : s.nonce.length = 64 := by
  simp only [State.nonce, List.length_flatMap, length_natLe]
  rfl

theorem measurements_length (im : Option Image) : (measurements im).length = 204 := by
  cases im with
  | none => exact length_zeros 204
  | some im => simp only [measurements, List.length_append, length_fitTo, length_natLe]

/-- The body of a quote is 512 bytes (R399). -/
theorem State.quoteBody_length (s : State) : s.quoteBody.length = 512 := by
  simp only [State.quoteBody, State.quoteHead, List.length_append, length_natLe, length_zeros, length_fitTo,
    State.nonce_length, measurements_length]
  cases s.image with
  | none => simp only [length_zeros]
  | some im => simp only [length_fitTo]

/-- The quote over the present state: its body and the signatures of both kinds. -/
def State.formedQuote (s : State) : List Byte :=
  s.quoteBody ++ fitTo 64 (Config.ed25519Sign s.quoteBody) ++ fitTo 3309 (Config.mldsaSign s.free s.quoteBody) ++ zeros 3

theorem State.formedQuote_length (s : State) : s.formedQuote.length = 3888 := by
  simp only [State.formedQuote, List.length_append, s.quoteBody_length, length_fitTo, length_zeros]

/-- The state in which a formed quote is shown. -/
def State.quoteShown (s : State) : State :=
  let t : State := { s with free := s.free + 1, trust := ⟨false, s.formedQuote⟩ }
  (t.fset F.PCH_QUOTE_CTL_READY 0 1).fset F.PCH_QUOTE_CTL_LENGTH 0 3888

theorem exec_quoteReady (s : State) : exec .quoteReady s = .next (s.holdData (quoteReady s)) := rfl

theorem exec_quoteReady_due {s : State} (hup : s.upAndRunning = true) (hpending : s.trust.quotePending = true) :
    exec .quoteReady s = .next s.quoteShown := by
  rw [exec_quoteReady, quoteReady, if_pos (by rw [hup, hpending]; rfl)]
  rfl

theorem exec_quoteReady_idle {s : State} (hpending : s.trust.quotePending = false) : exec .quoteReady s = .next s := by
  rw [exec_quoteReady, quoteReady, if_neg (by simp [hpending])]
  rfl

/-- Settles O38: GO by what SELECT asks for, and the quote that is formed once one is pending. -/
theorem quoteCommands : Obligations.QuoteCommands := by
  unfold Obligations.QuoteCommands
  intro s
  refine ⟨fun h z ha => ⟨gives_quoteGo ha, gives_certificateLoad ha⟩, fun hup hpending => ?_, fun hup hpending => ?_,
    exec_quoteReady_idle⟩
  · exact ⟨s.quoteShown, exec_quoteReady_due hup hpending, rfl, rfl, s.formedQuote_length⟩
  · exact ⟨s.quoteShown, exec_quoteReady_due hup hpending, rfl, ⟨rfl, rfl, rfl, rfl, rfl⟩, ⟨rfl, rfl, rfl, rfl, rfl⟩, rfl⟩

end Sys2Proof.Machine

/-!
Probes, declared failures and replacements (R422, R424, R425, R426).
-/
namespace Sys2Proof.Machine
open Sys2Proof

/-! ### Probes (R422) -/

/-- The probes in a row that a unit has missed before this one. -/
def Units.missedBy (x : Units) (u : HwUnit) : Nat := ((x.missed.find? (fun e => e.1 == u)).map (·.2)).getD 0

/-- The probed units that miss a probe, with the number they have missed in a row. -/
def Units.missCounts (x : Units) (missed : List HwUnit) : List (HwUnit × Nat) :=
  ((missed.filter HwUnit.probed).eraseDups).map (fun u => (u, x.missedBy u + 1))

theorem exec_probe (missed : List HwUnit) (s : State) : exec (.probe missed) s = .next (s.holdFlash (probe missed s)) := rfl

/-- With no core dead no cluster is silent. -/
theorem State.silentClusters_nil (s : State) : s.silentClusters [] = [] := by
  refine List.filter_eq_nil_iff.mpr (fun c _ => ?_)
  cases (vaultsOfCluster c).filter s.coreUp <;> simp

/-- Where no cluster is silent, the units that have missed a third probe fail one by one, and the other counts are kept. -/
theorem probe_noneSilent {s : State} {missed : List HwUnit} {dead : List HwUnit} {few : List (HwUnit × Nat)}
    (hlit : s.lit = true)
    (hdead : ((s.units.missCounts missed).filter (fun e => decide (3 ≤ e.2))).map (·.1) = dead)
    (hfew : (s.units.missCounts missed).filter (fun e => decide (e.2 < 3)) = few)
    (hsilent : s.silentClusters dead = []) :
    probe missed s = dead.foldl State.unitFails (s.modUnits (fun x => { x with missed := few })) := by
  have hsilent' : (s.modUnits (fun x => { x with missed := few })).silentClusters dead = [] := hsilent
  unfold Units.missCounts Units.missedBy at hdead hfew
  simp only [probe, hlit, hdead, hfew, hsilent', Bool.not_true, Bool.false_eq_true, if_false, List.foldl_nil]
  congr 1
  refine List.filter_eq_self.mpr (fun u _ => ?_)
  cases u <;> rfl

theorem gives_probe_counts {s : State} {missed : List HwUnit} (hlit : s.lit = true)
    (hfew : ∀ u ∈ missed, s.units.missedBy u < 2) :
    Gives (.probe missed) s (fun t => t.regs = s.regs ∧ StoresKept s t ∧ RunsKept s t ∧
      t.units.missed = s.units.missCounts missed) := by
  have hcounts : ∀ e ∈ s.units.missCounts missed, e.2 < 3 := by
    intro e he
    obtain ⟨u, hu, rfl⟩ := List.mem_map.mp he
    have hmem := (List.mem_filter.mp (List.mem_eraseDups.mp hu)).1
    exact Nat.succ_lt_succ (hfew u hmem)
  have hdead : ((s.units.missCounts missed).filter (fun e => decide (3 ≤ e.2))).map (·.1) = [] := by
    rw [List.filter_eq_nil_iff.mpr (fun e he => by simpa using hcounts e he), List.map_nil]
  have hall : (s.units.missCounts missed).filter (fun e => decide (e.2 < 3)) = s.units.missCounts missed :=
    List.filter_eq_self.mpr (fun e he => decide_eq_true (hcounts e he))
  refine ⟨_, exec_probe missed s, ?_⟩
  rw [probe_noneSilent hlit hdead hall s.silentClusters_nil]
  exact ⟨rfl, ⟨rfl, rfl, rfl, rfl, rfl⟩, ⟨rfl, rfl, rfl, rfl, rfl⟩, rfl⟩

theorem gives_probe_third {s : State} {u : HwUnit} (hlit : s.lit = true) (hprobed : HwUnit.probed u = true)
    (hthird : s.units.missedBy u = 2) (hsilent : s.silentClusters [u] = []) :
    Gives (.probe [u]) s (fun t => t = s.holdFlash ((s.modUnits (fun x => { x with missed := [] })).unitFails u)) := by
  have hcounts : s.units.missCounts [u] = [(u, 3)] := by
    simp [Units.missCounts, hprobed, hthird, List.eraseDups_cons]
  refine ⟨_, exec_probe [u] s, ?_⟩
  rw [probe_noneSilent hlit (dead := [u]) (few := []) (by rw [hcounts]; rfl) (by rw [hcounts]; rfl) hsilent]
  rfl

/-! ### Declared failures -/

theorem exec_unitFailed (u : HwUnit) (s : State) :
    exec (.unitFailed u) s = .next (s.holdFlash (((unitFailed u s).serveWaits).settleAll)) := rfl

theorem unitFailed_lit {s : State} {u : HwUnit} (hlit : s.lit = true) (hu : u ≠ .supervisor) :
    unitFailed u s = s.unitFails u := by
  cases u with
  | supervisor => exact absurd rfl hu
  | _ => exact if_pos hlit

theorem unitFailed_supervisor {s : State} (hup : s.upAndRunning = true) :
    unitFailed .supervisor s = s.supervisorFails := if_pos hup

end Sys2Proof.Machine

/-!
Units that take the number of those they replace: a core's spare slot, a cleared vault, the spare cluster (R424 to R426).
-/
namespace Sys2Proof.Machine
open Sys2Proof

theorem lookupD_assocSet {α : Type} (d : α) (l : List (Nat × α)) (k : Nat) (v : α) : lookupD d (assocSet l k v) k = v := by
  simp [assocSet, lookupD]

theorem contains_filter_ne (l : List Nat) (k : Nat) : (l.filter (· != k)).contains k = false := by
  simp

/-! ### What registers and counters alone show -/

namespace State.WindowsOnly

theorem foldl {α : Type} {f : State → α → State} (hf : ∀ (t : State) (x : α), t.WindowsOnly (f t x)) (l : List α)
    (s : State) : s.WindowsOnly (l.foldl f s) :=
  foldl_keeps_prop s.WindowsOnly f (fun t x ht => ht.trans (hf t x)) l s (refl s)

section
variable {s t : State} (h : s.WindowsOnly t)
include h

theorem mem : t.mem = s.mem := by rw [h]
theorem units : t.units = s.units := by rw [h]
theorem runsKept : RunsKept s t := by rw [h]; exact ⟨rfl, rfl, rfl, rfl, rfl⟩

end

end State.WindowsOnly

theorem State.defaultPages_windowsOnly (s : State) (which : Cls → Bool) (pick : RegId → Nat → Nat → Bool) :
    s.WindowsOnly (s.defaultPages which pick) := rfl

theorem State.setRaw_windowsOnly (s : State) (id : RegId) (i j : Nat) (w : W64) : s.WindowsOnly (s.setRaw id i j w) := rfl

theorem State.setPmc_windowsOnly (s : State) (p : Pmc) : s.WindowsOnly { s with pmc := p } := rfl

theorem State.zeroCounts_windowsOnly (s : State) (c : Nat) : s.WindowsOnly (s.zeroCounts c) :=
  State.WindowsOnly.foldl (fun t _ => t.setRaw_windowsOnly ..) _ s

theorem State.takeBank_windowsOnly (s : State) (c : Nat) : s.WindowsOnly (s.takeBank c) := by
  simp only [State.takeBank]
  split
  · exact .refl s
  · exact (s.setPmc_windowsOnly _).trans (State.zeroCounts_windowsOnly _ c)

theorem State.restoreBank_windowsOnly (s : State) (c : Nat) : s.WindowsOnly (s.restoreBank c) := by
  simp only [State.restoreBank]
  split
  · exact .refl s
  · refine State.WindowsOnly.trans (State.WindowsOnly.foldl (fun t w => ?_) _ s) (State.setPmc_windowsOnly _ _)
    split
    · exact t.setRaw_windowsOnly ..
    · exact .refl t

theorem State.banksFollow_windowsOnly (s : State) : s.WindowsOnly s.banksFollow := by
  refine State.WindowsOnly.foldl (fun t c => ?_) _ s
  split
  · exact t.takeBank_windowsOnly c
  · exact t.restoreBank_windowsOnly c

theorem State.recoveryOff_windowsOnly (s : State) (c : Nat) : s.WindowsOnly (s.recoveryOff c) := by
  simp only [State.recoveryOff]
  split
  · exact .refl s
  · have hbanks := (s.fset_windowsOnly F.PMC_TD_CTL_RECOVERY 0 (s.fget F.PMC_TD_CTL_RECOVERY - 2 ^ c)).trans
      (State.banksFollow_windowsOnly _)
    split
    · exact ((hbanks.trans (State.setPmc_windowsOnly _ _)).trans (State.zeroCounts_windowsOnly _ c)).trans
        (State.fset_windowsOnly ..)
    · exact hbanks

/-! ### CORE_REPLACE -/

theorem exec_coreReplace (n : Fin 192) (s : State) :
    exec (.coreReplace n) s = .next (s.holdFlash (coreReplace n s)) := rfl

/-- The numbers and counts of a core that the spare slot replaces. -/
def Units.coreTaken (x : Units) (n : Nat) : Units :=
  { x with
    coresOut := x.coresOut.filter (· != n), slotOf := assocSet x.slotOf n 16,
    missed := x.missed.filter (fun e => e.1 != .core (Fin.ofNat 192 n)) }

theorem State.coreTaken_windowsOnly (s : State) (n : Nat) :
    (s.modUnits (·.coreTaken n)).WindowsOnly (s.coreTaken n) := by
  simp only [State.coreTaken]
  refine State.WindowsOnly.trans ?_ (State.recoveryOff_windowsOnly _ _)
  refine State.WindowsOnly.trans ?_ (State.fset_windowsOnly ..)
  exact (State.defaultPages_windowsOnly _ _ _).trans (State.WindowsOnly.foldl (fun t e => t.fset_windowsOnly ..) _ _)

theorem gives_coreReplace {s : State} {n : Fin 192} (hout : s.units.coresOut.contains n.val = true)
    (horphan : s.units.orphans.contains n.val = false) (hlost : s.units.lostClusters.contains (n.val / 16) = false) :
    Gives (.coreReplace n) s (fun t => t = s.holdFlash ((s.coreTaken n).settleAll) ∧ (s.coreTaken n).physSlot n = 16 ∧
      (s.coreTaken n).units.coresOut.contains n.val = false ∧ (s.coreTaken n).mem = s.mem) := by
  have htaken := s.coreTaken_windowsOnly n
  have hgo : coreReplace n s = (s.coreTaken n).settleAll := if_pos (by rw [hout, horphan, hlost]; rfl)
  refine ⟨_, exec_coreReplace n s, by rw [hgo], ?_, ?_, htaken.mem⟩
  · rw [State.physSlot, htaken.units]
    exact lookupD_assocSet _ _ _ _
  · rw [htaken.units]
    exact contains_filter_ne _ _

/-! ### VAULT_REPLACE -/

theorem exec_vaultReplace (v : Fin 192) (s : State) :
    exec (.vaultReplace v) s = .next (s.holdFlash (((vaultReplace v s).serveWaits).settleAll)) := rfl

/-- The spare slot's vault takes a vault's number. -/
def Units.vaultTaken (x : Units) (v : Nat) : Units :=
  { x with clearing := x.clearing.filter (· != v), vaultSlotOf := assocSet x.vaultSlotOf v 16 }

theorem vaultReplace_windowsOnly {s : State} {v : Fin 192} (h : s.units.clearing.contains v.val = true) :
    (s.modUnits (·.vaultTaken v)).WindowsOnly (vaultReplace v s) := by
  rw [vaultReplace, if_pos h]
  exact State.defaultPages_windowsOnly _ _ _

theorem gives_vaultReplace {s : State} {v : Fin 192} (h : s.units.clearing.contains v.val = true) :
    Gives (.vaultReplace v) s (fun t => ∃ w : State, t = s.holdFlash ((w.serveWaits).settleAll) ∧ w.physVault v = 16 ∧
      w.units.clearing.contains v.val = false ∧ w.mem = s.mem ∧ RunsKept s w) := by
  have htaken := vaultReplace_windowsOnly h
  refine ⟨_, exec_vaultReplace v s, _, rfl, ?_, ?_, htaken.mem, htaken.runsKept⟩
  · rw [State.physVault, htaken.units]
    exact lookupD_assocSet _ _ _ _
  · rw [htaken.units]
    exact contains_filter_ne _ _

/-! ### CLUSTER_REPLACE -/

/-- Memory, runs and the clusters' own numbers are as they were. -/
structure State.NumbersKept (s t : State) : Prop where
  mem : t.mem = s.mem
  runs : RunsKept s t
  clusterOf : t.units.clusterOf = s.units.clusterOf
  replacing : t.units.replacing = s.units.replacing

namespace State.NumbersKept
variable {s t u : State}

theorem refl (s : State) : s.NumbersKept s := ⟨rfl, ⟨rfl, rfl, rfl, rfl, rfl⟩, rfl, rfl⟩

theorem trans (h : s.NumbersKept t) (k : t.NumbersKept u) : s.NumbersKept u :=
  ⟨k.mem.trans h.mem, runsKept_trans h.runs k.runs, k.clusterOf.trans h.clusterOf, k.replacing.trans h.replacing⟩

theorem foldl {α : Type} {f : State → α → State} (hf : ∀ (t : State) (x : α), t.NumbersKept (f t x)) (l : List α)
    (s : State) : s.NumbersKept (l.foldl f s) :=
  foldl_keeps_prop s.NumbersKept f (fun t x ht => ht.trans (hf t x)) l s (refl s)

theorem ite {c : Prop} [Decidable c] (ht : s.NumbersKept t) (hu : s.NumbersKept u) :
    s.NumbersKept (if c then t else u) := by
  split
  · exact ht
  · exact hu

theorem of_windowsOnly (k : s.WindowsOnly t) : s.NumbersKept t :=
  ⟨k.mem, k.runsKept, by rw [k.units], by rw [k.units]⟩

theorem setSide (s : State) (x : MemSide) : s.NumbersKept (s.setSide x) := ⟨rfl, ⟨rfl, rfl, rfl, rfl, rfl⟩, rfl, rfl⟩

theorem setPower (s : State) (p : Power) : s.NumbersKept { s with power := p } := ⟨rfl, ⟨rfl, rfl, rfl, rfl, rfl⟩, rfl, rfl⟩

theorem fset (s : State) (f : FRef) (i x : Nat) : s.NumbersKept (s.fset f i x) := of_windowsOnly (s.fset_windowsOnly f i x)

theorem setBit (s : State) (f : FRef) (i : Nat) : s.NumbersKept (s.setBit f i) := fset ..

theorem degrade (s : State) (c : Nat) : s.NumbersKept (s.degrade c) := fset ..

theorem clearBit (s : State) (f : FRef) (i : Nat) : s.NumbersKept (s.clearBit f i) := ite (fset ..) (refl s)

theorem vaultGone (s : State) (v : Nat) : s.NumbersKept (s.vaultGone v) := by
  simp only [State.vaultGone]
  have hlost := (setSide s { s.side with lostVaults := s.side.lostVaults ++ [v] }).trans
    (fset _ F.FLT_UNITS_VAULTS_LOST 0 (min 255 (s.side.lostVaults ++ [v]).length))
  exact ite hlost (hlost.trans (setPower _ _))

theorem applySettings (s : State) (pick : RegId → Nat → Nat → Bool) : s.NumbersKept (s.applySettings pick) := by
  simp only [State.applySettings]
  split
  · exact refl s
  · refine foldl (fun t e => ?_) _ s
    split
    · exact ite (of_windowsOnly (t.setRaw_windowsOnly ..)) (refl t)
    · exact refl t

theorem modUnits (s : State) {f : Units → Units} (hc : ∀ x, (f x).clusterOf = x.clusterOf)
    (hr : ∀ x, (f x).replacing = x.replacing) : s.NumbersKept (s.modUnits f) :=
  ⟨rfl, ⟨rfl, rfl, rfl, rfl, rfl⟩, hc _, hr _⟩

section
variable (h : s.NumbersKept t) (c : Nat) (p : Prop) [Decidable p]
include h

theorem degradeIf : s.NumbersKept (if p then t.degrade c else t) := ite (h.trans (degrade t c)) h

theorem degradeUnless : s.NumbersKept (if p then t else t.degrade c) := ite h (h.trans (degrade t c))

theorem showSpare :
    s.NumbersKept (if p then t.setBit F.FLT_UNITS_SPARE_SLOTS c else t.clearBit F.FLT_UNITS_SPARE_SLOTS c) :=
  ite (h.trans (setBit ..)) (h.trans (clearBit ..))

end

theorem numberVaults (s : State) (c : Nat) (out : List OutUnit) : s.NumbersKept (s.numberVaults c out) := by
  simp only [State.numberVaults]
  refine degradeUnless (trans ?_ (foldl vaultGone _ _)) _ _
  exact modUnits s (fun _ => rfl) (fun _ => rfl)

theorem numberCores (s : State) (c : Nat) (out : List OutUnit) : s.NumbersKept (s.numberCores c out) := by
  simp only [State.numberCores]
  refine degradeIf (showSpare (trans ?_ (foldl (fun t e => ((fset t ..).trans (fset ..)).trans (fset ..)) _ _)) _ _) _ _
  exact modUnits s (fun _ => rfl) (fun _ => rfl)

theorem numberOthers (s : State) (c : Nat) (out : List OutUnit) : s.NumbersKept (s.numberOthers c out) := by
  simp only [State.numberOthers]
  refine degradeIf ?_ _ _
  exact modUnits s (fun _ => rfl) (fun _ => rfl)

end State.NumbersKept

theorem exec_clusterReplace (c : Fin 12) (s : State) :
    exec (.clusterReplace c) s = .next (s.holdFlash (((clusterReplace c s).serveWaits).settleAll)) := rfl

/-- The spare cluster takes a cluster's number, and no list names the units of the one it replaces. -/
def Units.clusterTaken (x : Units) (c : Nat) : Units :=
  { x.clearCluster c with replacing := x.replacing.filter (· != c), clusterOf := assocSet x.clusterOf c 12 }

/-- The vaults of a cluster that were lost are no longer counted. -/
def State.vaultsBack (s : State) (c : Nat) : State :=
  let t := s.setSide { s.side with lostVaults := s.side.lostVaults.filter (fun v => v / 16 != c) }
  t.fset F.FLT_UNITS_VAULTS_LOST 0 (min 255 t.side.lostVaults.length)

/-- The pages that a cluster's number names. -/
def clusterPages (c : Nat) (id : RegId) (i _j : Nat) : Bool :=
  (inClusterPage id && i == c) || ((inCorePage id || inVaultOps id || inVaultMemory id) && i / 16 == c)

/-- The spare cluster is numbered and shown as a new unit, with the settings of the pitch, and its recovery is over. -/
def State.clusterBrought (s : State) (c : Nat) : State :=
  let t := ((s.vaultsBack c).defaultPages newUnit (clusterPages c)).applySettings (clusterPages c)
  let out := t.outUnits
  let t := (((t.clearBit F.FLT_UNITS_DEGRADED c).numberVaults c out).numberCores c out).numberOthers c out
  ((t.fset F.PWS_CLUSTER_PLL_LOCKED c 1).clearBit F.PWS_STATE_SHADED c).recoveryOff c

theorem State.clusterBrought_numbersKept (s : State) (c : Nat) : s.NumbersKept (s.clusterBrought c) := by
  have hback : s.NumbersKept (s.vaultsBack c) := (State.NumbersKept.setSide ..).trans (.fset ..)
  have hpages := (hback.trans (.of_windowsOnly (State.defaultPages_windowsOnly _ newUnit (clusterPages c)))).trans
    (.applySettings _ (clusterPages c))
  simp only [State.clusterBrought]
  generalize ((s.vaultsBack c).defaultPages newUnit (clusterPages c)).applySettings (clusterPages c) = t at hpages
  have hnumbered := ((State.NumbersKept.numberVaults (t.clearBit F.FLT_UNITS_DEGRADED c) c t.outUnits).trans
    (.numberCores _ c t.outUnits)).trans (.numberOthers _ c t.outUnits)
  exact ((((hpages.trans (.clearBit ..)).trans hnumbered).trans (.fset ..)).trans (.clearBit ..)).trans
    (.of_windowsOnly (State.recoveryOff_windowsOnly _ c))

theorem clusterReplace_taken {s : State} {c : Fin 12} (h : s.units.replacing.contains c.val = true) :
    clusterReplace c s = ((s.modUnits (·.clusterTaken c)).clusterBrought c).settleAll := by
  rw [clusterReplace, if_neg (by rw [h]; decide)]
  rfl

theorem gives_clusterReplace {s : State} {c : Fin 12} (h : s.units.replacing.contains c.val = true) :
    Gives (.clusterReplace c) s (fun t => ∃ w : State, t = s.holdFlash (((w.settleAll).serveWaits).settleAll) ∧
      w.physCluster c = 12 ∧ w.units.replacing.contains c.val = false ∧ w.mem = s.mem ∧ RunsKept s w) := by
  have hkept := (s.modUnits (·.clusterTaken c)).clusterBrought_numbersKept c
  refine ⟨_, exec_clusterReplace c s, _, by rw [clusterReplace_taken h], ?_, ?_, hkept.mem, hkept.runs⟩
  · rw [State.physCluster, hkept.clusterOf]
    exact lookupD_assocSet _ _ _ _
  · rw [hkept.replacing]
    exact contains_filter_ne _ _

theorem exec_pitchCopyRewrite_lit {s : State} (hlit : s.lit = true) :
    exec .pitchCopyRewrite s = .next { s with power := { s.power with copyHoles := [] } } := by
  have hexec : exec .pitchCopyRewrite s = .next (s.holdFlash (pitchCopyRewrite s)) := rfl
  rw [hexec, pitchCopyRewrite, if_pos hlit]
  rfl

end Sys2Proof.Machine

/-!
LOG_CLEAR and UNIT_CLEAR (R429, R434, R435), and the obligation on failures and replacements.
-/
namespace Sys2Proof.Machine
open Sys2Proof

theorem State.serves_of_lit {s : State} (hlit : s.lit = true) (id : RegId) :
    (s.power.state == .bivouac && !bivouacActs id) = false := by
  have hstate : s.power.state = .lit := by simpa [State.lit] using hlit
  rw [hstate]
  rfl

/-! ### LOG_CLEAR -/

theorem located_logSel : Located .FLT_LOG_SEL 0 0 := ⟨by decide, by decide, by decide⟩

/-- The word that clears the log and keeps INDEX. -/
def State.logClearWord (s : State) : W64 := put (put 0 F.FLT_LOG_SEL_INDEX (s.fget F.FLT_LOG_SEL_INDEX)) F.FLT_LOG_SEL_CLEAR 1

theorem exec_logClear (h : Hdr) (s : State) : exec (.logClear h) s = .next (s.holdData
    ((s.odrenIn h.relayed 24 true).writeNamed h .FLT_LOG_SEL 0 0 (s.odrenIn h.relayed 24 true).logClearWord)) := rfl

theorem State.PortOnly.logClearWord {s t : State} (h : s.PortOnly t) : t.logClearWord = s.logClearWord := by
  simp only [State.logClearWord, State.fget, State.fget2, h.raw]

theorem bitAt_logClearWord (s : State) : bitAt s.logClearWord.toNat 63 = true := by
  have hbit : bitsOf s.logClearWord.toNat 63 63 = 1 := bitsOf_putBits_same _ 63 63 1 (by decide)
  simpa [bitAt, bitsOf] using hbit

/-- The bits of the log's counts are not a Keeper's to write. -/
theorem written_logCounts (old w : W64) {msb lsb : Nat} (hmsb : msb < 63) (hlsb : 8 ≤ lsb) :
    bitsOf ((regDef .FLT_LOG_SEL).written true old w).toNat msb lsb = bitsOf old.toNat msb lsb := by
  have hrw : (regDef .FLT_LOG_SEL).maskOf (fun f => f.view true == .rw) = 255 := by decide
  have hw1c : (regDef .FLT_LOG_SEL).maskOf (fun f => f.view true == .w1c) = 0 := by decide
  have hmask : ∀ k : Fin 64, 8 ≤ k.val → (255 : W64).getLsbD k = false := by decide
  refine Nat.eq_of_testBit_eq (fun i => ?_)
  rw [bitsOf_testBit, bitsOf_testBit]
  by_cases hi : i < msb + 1 - lsb
  · have hbit := hmask ⟨lsb + i, by omega⟩ (by simp only; omega)
    have hlt : lsb + i < 64 := by omega
    have hzero : (0 : W64).getLsbD (lsb + i) = false := BitVec.getLsbD_zero
    simp only at hbit
    simp only [RegDef.written, hrw, hw1c, BitVec.testBit_toNat, BitVec.getLsbD_and, BitVec.getLsbD_or,
      BitVec.getLsbD_not, hzero, hbit, hlt, decide_true, Bool.not_false, Bool.and_true, Bool.and_false, Bool.or_false]
  · simp [hi]

theorem State.writeAccepted_logClear {t : State} (hlit : t.lit = true) :
    t.writeAccepted true .FLT_LOG_SEL 0 0 t.logClearWord =
      ⟨C.OK, (t.setRaw .FLT_LOG_SEL 0 0 ((regDef .FLT_LOG_SEL).written true (t.raw .FLT_LOG_SEL 0 0) t.logClearWord)).clearFaultLog,
        none⟩ := by
  refine State.writeAccepted_acts (by decide) rfl (State.serves_of_lit hlit _) (by decide) rfl rfl rfl ?_
  simp only [State.act, State.actUnits, State.actDevice, bitAt_logClearWord, if_true]
  rfl

/-- After the log is cleared its count is 0 and its total stands. -/
theorem State.clearFaultLog_counts {s : State} (hord : RegsOrdered s) :
    s.clearFaultLog.fget F.FLT_LOG_SEL_TOTAL = s.fget F.FLT_LOG_SEL_TOTAL ∧ s.clearFaultLog.fget F.FLT_LOG_SEL_COUNT = 0 :=
  ⟨State.fget2_fset2_beside { s with flog := [] } F.FLT_LOG_SEL_COUNT F.FLT_LOG_SEL_TOTAL 0 0 0 rfl (by decide) (by decide) hord,
    State.fget2_fset2_same { s with flog := [] } F.FLT_LOG_SEL_COUNT 0 0 0 (by decide) hord⟩

/-- A Keeper's write leaves the log's total. -/
theorem State.fget_total_written {s : State} (hord : RegsOrdered s) (w : W64) :
    (s.setRaw .FLT_LOG_SEL 0 0 ((regDef .FLT_LOG_SEL).written true (s.raw .FLT_LOG_SEL 0 0) w)).fget F.FLT_LOG_SEL_TOTAL =
      s.fget F.FLT_LOG_SEL_TOTAL := by
  have hnew := s.raw_setRaw_same .FLT_LOG_SEL 0 0 ((regDef .FLT_LOG_SEL).written true (s.raw .FLT_LOG_SEL 0 0) w) hord
  exact (congrArg (fun x : W64 => bitsOf x.toNat 48 17) hnew).trans (written_logCounts _ w (by decide) (by decide))

section
variable {s : State} {h : Hdr} {z : Session} (ha : Accepted s h z) (hkeeper : z.role = .keeper) (hlit : s.lit = true)
include ha hkeeper hlit

theorem gives_logClear
    (hw : (regDef .FLT_LOG_SEL).writeRefusal .FLT_LOG_SEL true (s.taken h 24 z).logClearWord = none) :
    Gives (.logClear h) s (fun u => u.flog = [] ∧
      (RegsOrdered s → u.fget F.FLT_LOG_SEL_TOTAL = s.fget F.FLT_LOG_SEL_TOTAL ∧ u.fget F.FLT_LOG_SEL_COUNT = 0) ∧
      Responds (s.taken h 24 z) u h tyWriteReg C.OK (natLe 4 1 ++ zeros 4) ∧ StoresKept s u ∧ RunsKept s u) := by
  have hp := s.taken_portOnly h 24 z
  have hword : (s.odrenIn h.relayed 24 true).logClearWord = (s.taken h 24 z).logClearWord :=
    (State.odrenIn_portOnly ..).logClearWord.trans hp.logClearWord.symm
  have hu := accepted_write (k := true) (body := natLe 4 1 ++ zeros 4) ha (by rw [hkeeper]; rfl) located_logSel hw
    (State.writeAccepted_logClear (hp.lit.trans hlit)) rfl rfl
  refine ⟨_, exec_logClear h s, ?_⟩
  rw [hword, hu.holdData hp.fuses]
  refine ⟨hu.flog, fun hord => ?_, hu.responds, hu.stores hp.fuses, hu.runs⟩
  have hord' : RegsOrdered (s.taken h 24 z) := by rw [RegsOrdered, hp.regs]; exact hord
  obtain ⟨htotal, hcount⟩ := State.clearFaultLog_counts (State.setRaw_rising _ .FLT_LOG_SEL 0 0 _ hord')
  rw [hu.fget, hu.fget, htotal, hcount, State.fget_total_written hord']
  exact ⟨by simp only [State.fget, State.fget2, hp.raw], rfl⟩

end

/-! ### UNIT_CLEAR -/

theorem located_unitClear : Located .FLT_UNIT_CLEAR 0 0 := ⟨by decide, by decide, by decide⟩

theorem exec_unitClear (h : Hdr) (s : State) : exec (.unitClear h) s = .next (s.holdData
    ((s.odrenIn h.relayed 24 true).writeNamed h .FLT_UNIT_CLEAR 0 0 (put 0 F.FLT_UNIT_CLEAR_CLEAR 1))) := rfl

/-- The Sticky set is to be cleared at the next pitch, and PENDING shows it (R429). -/
def State.clearDue (s : State) : State :=
  ({ s with units := { s.units with clearAsked := true } } : State).fset F.FLT_UNIT_CLEAR_PENDING 0 1

theorem State.writeAccepted_unitClear {t : State} (hlit : t.lit = true) :
    ∃ new, t.writeAccepted true .FLT_UNIT_CLEAR 0 0 (put 0 F.FLT_UNIT_CLEAR_CLEAR 1) =
      ⟨C.OK, (t.setRaw .FLT_UNIT_CLEAR 0 0 new).clearDue, none⟩ := by
  refine ⟨(regDef .FLT_UNIT_CLEAR).written true (t.raw .FLT_UNIT_CLEAR 0 0) (put 0 F.FLT_UNIT_CLEAR_CLEAR 1),
    State.writeAccepted_acts (by decide) rfl (State.serves_of_lit hlit _) (by decide) rfl rfl rfl ?_⟩
  have hbit : bitAt (put 0 F.FLT_UNIT_CLEAR_CLEAR 1).toNat 0 = true := by decide
  simp only [State.act, State.actUnits, State.actDevice, hbit, if_true]
  rfl

theorem gives_unitClear {s : State} {h : Hdr} {z : Session} (ha : Accepted s h z) (hkeeper : z.role = .keeper)
    (hlit : s.lit = true) :
    Gives (.unitClear h) s (fun u => (RegsOrdered s → u.fget F.FLT_UNIT_CLEAR_PENDING = 1) ∧
      Responds (s.taken h 24 z) u h tyWriteReg C.OK (natLe 4 1 ++ zeros 4) ∧ u.units = { s.units with clearAsked := true } ∧
      StoresKept s u ∧ RunsKept s u) := by
  have hp := s.taken_portOnly h 24 z
  obtain ⟨new, hwrite⟩ := State.writeAccepted_unitClear (hp.lit.trans hlit)
  have hu := accepted_write (k := true) (body := natLe 4 1 ++ zeros 4) ha (by rw [hkeeper]; rfl) located_unitClear (by decide)
    hwrite rfl rfl
  refine ⟨_, exec_unitClear h s, ?_⟩
  rw [hu.holdData hp.fuses]
  refine ⟨fun hord => ?_, hu.responds, ?_, hu.stores hp.fuses, hu.runs⟩
  · have hord' : RegsOrdered (s.taken h 24 z) := by rw [RegsOrdered, hp.regs]; exact hord
    rw [hu.fget]
    exact State.fget2_fset2_same _ F.FLT_UNIT_CLEAR_PENDING 0 0 1 (by decide)
      (State.setRaw_rising (s.taken h 24 z) .FLT_UNIT_CLEAR 0 0 new hord')
  · exact hu.units.trans (congrArg (fun x : Units => { x with clearAsked := true }) hp.units)

/-- Settles O26: probes by their counts, a failure by its unit, each replacement by the number it takes, and the two
registers that clear. -/
theorem unitsFailAndAreReplaced : Obligations.UnitsFailAndAreReplaced := by
  unfold Obligations.UnitsFailAndAreReplaced
  intro s
  refine ⟨fun missed hlit hfew => gives_probe_counts hlit hfew,
    fun u hlit hprobed hthird hsilent => gives_probe_third hlit hprobed hthird hsilent, fun u hu hlit => ?_, fun hup => ?_,
    fun n hout horphan hlost => gives_coreReplace hout horphan hlost, fun v => gives_vaultReplace,
    fun c => gives_clusterReplace, exec_pitchCopyRewrite_lit,
    fun h z ha hkeeper hlit => ⟨gives_logClear ha hkeeper hlit, gives_unitClear ha hkeeper hlit⟩⟩
  · exact ⟨_, exec_unitFailed u s, by rw [unitFailed_lit hlit hu]⟩
  · exact ⟨_, exec_unitFailed .supervisor s, by rw [unitFailed_supervisor hup]⟩

end Sys2Proof.Machine
